-- ==== Sys2Proof/Word.lean ====
section
/-! DEFINITION. Word types of the DV7 model. -/

namespace Sys2Proof

/-- One byte of a frame, a record or memory. -/
abbrev Byte := BitVec 8

/-- The contents of one direct register of BAR0 or BAR4 (R25: each register is 64 bits wide). -/
abbrev Reg64 := BitVec 64

end Sys2Proof
end

