-- ==== Sys2Proof/Config.lean ====
section
/-!
DEFINITION. What an implementation fixes and the free values. Every constant here is opaque: nothing in
Lean can evaluate it, so a claim about it holds whatever it is. `seed` and `n` arguments are values of
the model's own counter `State.free`, so that two draws are two values.
-/

namespace Sys2Proof.Config

/-! ### Per-silicon values (R520, R521, R524; log entry 4) -/

/-- IDENT_SERIAL, from the DeviceID public key (R520). -/
opaque serial : BitVec 64
/-- IDENT_DEVID_PUB, the 97-byte uncompressed point (R520). -/
opaque devIdPub : List Byte
/-- IDENT_SILICON_REV (R524, per silicon). -/
opaque siliconRev : BitVec 16
/-- CROOK_ROM_VER (R492, R524, per silicon). -/
opaque romVersion : BitVec 32
/-- The digests of the Crook ROM and the core boot ROM (measurement blocks 1 and 2, R522). -/
opaque romDigest : Nat → BitVec 384
/-- The ROM public keys of each algorithm verify or refuse a signature of an image header (R516). -/
opaque ecdsaOk : (slot : Nat) → (header sig : List Byte) → Bool
/-- The LMS check of R516. -/
opaque lmsOk : (slot : Nat) → (header sig : List Byte) → Bool

/-! ### Cryptographic functions, left uninterpreted (R503, R506, R516, R520 to R522; log entry 5) -/

/-- SHA-384 of a byte string. -/
opaque sha384 : List Byte → BitVec 384
/-- HMAC-SHA-384 under a key (R503, R506). -/
opaque hmac384 : (key msg : List Byte) → BitVec 384
/-- AES-256-GCM decryption under key, nonce and additional data: the plaintext, or none when the tag fails (R506). -/
opaque gcmOpen : (key nonce aad cipher : List Byte) → Option (List Byte)
/-- AES-256-GCM encryption, tag at the end (R506). -/
opaque gcmSeal : (key nonce aad plain : List Byte) → List Byte
/-- The Alias certificate issued at a load (R521), from header digest, svn and strap code. -/
opaque aliasCert : (headerDigest svn strap : Nat) → List Byte
/-- The SPDM response to an SPDM request (R522): the standard's answer, given the identity and measurements of
the state, which enter as the byte string `meas`. -/
opaque spdm : (meas request : List Byte) → List Byte

/-! ### The device's own network identities (R433, R500; log entry 18) -/

/-- The PTP clockIdentity. -/
opaque ptpClock : BitVec 64
/-- The MAC address of a flock port, or of the management port (1,024). -/
opaque portMac : Nat → BitVec 48
/-- The IPv4 address its PTP messages are sent from. -/
opaque portIp4 : Nat → BitVec 32
/-- The IPv6 address its PTP messages are sent from. -/
opaque portIp6 : Nat → BitVec 128

/-- Whether the receive ring of the Criotte cores is full when a frame comes for it (R230): the spec gives neither its place
nor its size (log entry 136). -/
opaque freeCoreRing : Nat → Bool

/-! ### Random draws (log entry 6) -/

/-- A 32-bit value of the device's random source: link_epoch at a reset (R196). -/
opaque freeEpoch : (seed block : Nat) → BitVec 32
/-- A 32-bit session identifier (R503). -/
opaque freeSession : Nat → BitVec 32
/-- A 256-bit nonce (R503). -/
opaque freeNonce : Nat → BitVec 256
/-- A random sample point of Fleece sampling (R565). -/
opaque freeSample : Nat → BitVec 32

/-! ### Results the spec leaves open (log entry 7) -/

/-- A 64-bit value the spec states nothing about. -/
opaque freeWord : Nat → BitVec 64
/-- The choices that fix the order and the split of an order-dependent sum (R290): for the draw, the element and the step,
which term or partial sum is taken next. -/
opaque freeOrder : (draw elem step : Nat) → Nat

end Sys2Proof.Config
end

