-- ==== Sys2Proof/Machine/Bits.lean ====
section
/-!
DEFINITION. Bit fields, sign extension and byte orders. Rows of the dictionary have many widths, so
a packed row is a number whose bit 0 is bit 0 of the row's byte 0 (R14: little-endian in registers
and memory, big-endian on the wire).
-/

namespace Sys2Proof.Machine

/-- Bits [lo + n - 1 : lo] of `v`. -/
def bits (v lo n : Nat) : Nat := (v >>> lo) % 2 ^ n

/-- Bit `i` of `v`. -/
def bit (v i : Nat) : Bool := v.testBit i

/-- `v` with bits [lo + n - 1 : lo] set to the low `n` bits of `x`. -/
def setBits (v lo n x : Nat) : Nat :=
  (v >>> (lo + n)) <<< (lo + n) + (x % 2 ^ n) <<< lo + v % 2 ^ lo

/-- `v` with bit `i` set. -/
def setBit (v i : Nat) : Nat := setBits v i 1 1

/-- `v` with bit `i` cleared. -/
def clearBit (v i : Nat) : Nat := setBits v i 1 0

/-- 1 for true, 0 for false. -/
def b2n (b : Bool) : Nat := if b then 1 else 0

/-- The two's-complement reading of the low `w` bits of `v`. -/
def sint (w v : Nat) : Int :=
  if v % 2 ^ w < 2 ^ (w - 1) then (v % 2 ^ w : Nat) else ((v % 2 ^ w : Nat) : Int) - (2 ^ w : Nat)

/-- The low `w` bits of the two's complement of `x`. -/
def sbits (w : Nat) (x : Int) : Nat := (x % ((2 ^ w : Nat) : Int)).toNat

/-- The `n` bytes of `v`, lowest first (R14, registers and memory). -/
def leBytes : Nat → Nat → List Byte
  | 0, _ => []
  | n + 1, v => BitVec.ofNat 8 v :: leBytes n (v / 256)

/-- The number whose bytes, lowest first, are `l`. -/
def leNum : List Byte → Nat
  | [] => 0
  | b :: l => b.toNat + 256 * leNum l

/-- The `n` bytes of `v`, highest first (R14, the wire). -/
def beBytes (n v : Nat) : List Byte := (leBytes n v).reverse

/-- The number whose bytes, highest first, are `l`. -/
def beNum (l : List Byte) : Nat := leNum l.reverse

/-- Bytes `[off, off + n)` of `l` as a big-endian number; bytes past the end read as zero. -/
def beAt (l : List Byte) (off n : Nat) : Nat :=
  let t := (l.drop off).take n
  beNum t * 256 ^ (n - t.length)

/-- Bytes `[off, off + n)` of `l` as a little-endian number; bytes past the end read as zero. -/
def leAt (l : List Byte) (off n : Nat) : Nat := leNum ((l.drop off).take n)

/-- `l` with `new` written from offset `off` on, its length kept. -/
def patch (l : List Byte) (off : Nat) (new : List Byte) : List Byte :=
  (l.take off ++ new ++ l.drop (off + new.length)).take l.length

/-- `l` cut or filled with zero bytes to `n` bytes. -/
def padTo (n : Nat) (l : List Byte) : List Byte := l.take n ++ List.replicate (n - l.length) 0

/-- Exclusive or of two numbers. -/
def xorN (a b : Nat) : Nat := a ^^^ b

/-- One bit step of the reflected CRC-32C (R623: polynomial 0x1EDC_6F41, reflected 0x82F6_3B78). -/
def crcBit (r : Nat) : Nat := if r % 2 = 1 then xorN (r / 2) 0x82F63B78 else r / 2

/-- One byte of the CRC-32C. -/
def crcByte (r : Nat) (b : Byte) : Nat :=
  crcBit (crcBit (crcBit (crcBit (crcBit (crcBit (crcBit (crcBit (xorN r b.toNat))))))))

/-- CRC-32C seeded with `seed` (R623): the register starts at the seed, reflection and final XOR kept. -/
def crc32cSeed (seed : Nat) (l : List Byte) : Nat := xorN (l.foldl crcByte seed) 0xFFFFFFFF

/-- CRC-32C (R623). -/
def crc32c (l : List Byte) : Nat := crc32cSeed 0xFFFFFFFF l

/-- The lowest power of two exponent `k` with `2 ^ k = n`, if `n` is a power of two up to 2^64. -/
def isPow2 (n : Nat) : Bool := n != 0 && 2 ^ Nat.log2 n == n

/-- The number of set bits of `v` below bit `n`. -/
def popcount (n v : Nat) : Nat := (List.range n).foldl (fun a i => a + b2n (v.testBit i)) 0

/-- The indices below `n` of the set bits of `v`. -/
def setBitsOf (n v : Nat) : List Nat := (List.range n).filter (fun i => v.testBit i)

end Sys2Proof.Machine
end

