-- ==== Sys2Proof/Machine/TMap.lean ====
section
/-!
DEFINITION. Sparse tables in one canonical form: a list of (key, value) pairs with strictly rising
keys and no entry equal to what an unlisted key reads as. Memories, object rows, queues and every
other indexed piece of state are held in this form, so that equal contents are equal data.
-/

namespace Sys2Proof.Machine

/-- A sparse table from numbers to values of `α`. -/
abbrev TMap (α : Type) := List (Nat × α)

/-- The value at key `i`, or `d` where the table lists none. -/
def TMap.get {α : Type} (d : α) : TMap α → Nat → α
  | [], _ => d
  | (k, v) :: m, i => if i = k then v else if i < k then d else TMap.get d m i

/-- Whether the table lists key `i`. -/
def TMap.has {α : Type} : TMap α → Nat → Bool
  | [], _ => false
  | (k, _) :: m, i => if i = k then true else if i < k then false else TMap.has m i

/-- The table without key `i`. -/
def TMap.erase {α : Type} : TMap α → Nat → TMap α
  | [], _ => []
  | (k, v) :: m, i => if i = k then m else if i < k then (k, v) :: m else (k, v) :: TMap.erase m i

/-- The table with key `i` listed at `v`. -/
def TMap.insert {α : Type} : TMap α → Nat → α → TMap α
  | [], i, v => [(i, v)]
  | (k, w) :: m, i, v =>
    if i = k then (i, v) :: m else if i < k then (i, v) :: (k, w) :: m else (k, w) :: TMap.insert m i v

/-- The table with key `i` at `v`, where an unlisted key reads as `d`: writing `d` removes the entry. -/
def TMap.put {α : Type} [DecidableEq α] (d : α) (m : TMap α) (i : Nat) (v : α) : TMap α :=
  if v = d then TMap.erase m i else TMap.insert m i v

/-- The table with the value at key `i` replaced by `f` of it. -/
def TMap.update {α : Type} [DecidableEq α] (d : α) (m : TMap α) (i : Nat) (f : α → α) : TMap α :=
  TMap.put d m i (f (TMap.get d m i))

/-- The keys of the table are at least `lo` and rise strictly. -/
def TMap.sortedFrom {α : Type} : Nat → TMap α → Bool
  | _, [] => true
  | lo, (k, _) :: m => decide (lo ≤ k) && TMap.sortedFrom (k + 1) m

/-- No entry of the table equals what its key reads as when unlisted. -/
def TMap.noDefault {α : Type} [DecidableEq α] (d : Nat → α) : TMap α → Bool
  | [] => true
  | (k, v) :: m => !(decide (v = d k)) && TMap.noDefault d m

/-- The canonical form: keys rise strictly and no entry equals its default `d`. -/
def TMap.wf {α : Type} [DecidableEq α] (d : Nat → α) (m : TMap α) : Bool :=
  TMap.sortedFrom 0 m && TMap.noDefault d m

/-- A set of numbers as a strictly rising list. -/
abbrev NSet := List Nat

/-- The set with `i` added. -/
def NSet.add : NSet → Nat → NSet
  | [], i => [i]
  | k :: m, i => if i = k then k :: m else if i < k then i :: k :: m else k :: NSet.add m i

/-- The set with `i` removed. -/
def NSet.remove : NSet → Nat → NSet
  | [], _ => []
  | k :: m, i => if i = k then m else if i < k then k :: m else k :: NSet.remove m i

end Sys2Proof.Machine
end

