-- ==== Sys2Proof/Machine/Types.lean ====
section
/-!
DEFINITION. The data that several parts of the device share: frames, addresses of a memory, paths of a
dictionary access, and the record of what the device sends.
-/

namespace Sys2Proof.Machine

/-- A path to the dictionary (R495). `vf` is 1 to 32. -/
inductive Path where
  | window                      -- BAR0 object window of the physical function, role Adm
  | pfMailbox                   -- mailbox of the physical function, role Adm
  | vfMailbox (vf : Fin 33)     -- mailbox of a virtual function, role Obs over R539's objects
  | cores                       -- Criotte cores, role Adm
  | oxpin (row : Fin 8)         -- an Oxpin session, the session's role
  deriving DecidableEq, Repr

/-- A frame inside the device with its descriptor (R54, R58). -/
structure Frame where
  bytes    : List Byte := []     -- as received, without preamble and FCS
  fab      : Bool := false       -- the bytes begin with a fabric header (Fold link and local source frames)
  port     : Nat := 0            -- arrival device port, or 1,024 + paddock for a local source
  cls      : Nat := 0            -- class 0 to 7
  prio     : Nat := 0            -- 802.1Q priority at arrival (R126)
  pasture  : Nat := 0
  rx       : Nat := 0            -- receive timestamp, TIME112
  launch   : Option Nat := none  -- launch time of R115
  launchQ  : Nat := 0            -- launch_q of the ACL action (R152)
  lossless : Bool := false       -- R66
  poison   : Bool := false       -- found poisoned on the way (R97)
  joint    : Bool := false       -- a row or column multicast frame: its copies are admitted together (R229)
  etype    : Nat := 0            -- FWD_ETHERTYPE when it began arriving (R143)
  uturn    : Bool := false       -- its port was chosen by a failover U-turn (R225)
  routed   : Bool := false       -- its port was chosen by route lookup (R222)
  vc       : Nat := 3            -- the virtual channel of R217, for a frame without a header the one of R218
  out      : Nat := 0            -- the fabric header it gains at a Fold link departure (R149); 0 for none
  credit   : Option (Nat × Nat) := none  -- space charged at a Fold link receiver: (block, VC or 8 for shared)
  deriving DecidableEq, Repr

/-- One flit held for replay (R191 to R193): its number, start and shared masks, and payload. -/
structure Flit where
  seq     : Nat := 0
  start   : Nat := 0
  shared  : Nat := 0
  crets   : List Nat := []      -- its credit return fields
  ends    : Option Nat := none  -- the pasture of the frame whose last chunk it carries (R234)
  payload : List Byte := []
  deriving DecidableEq, Repr

/-- What the device sends to the world outside, the model's own record of it in order. -/
inductive Out where
  | eth (port : Nat) (bytes : List Byte) (badFcs : Bool)          -- a frame on a flock port
  | flit (block : Nat) (lane : Option Nat) (header payload : List Byte) -- a flit on a Fold link; a data flit has its lane (R191)
  | pfc (port : Nat) (prios : Nat) (quanta : Nat)                 -- a PFC frame for the priorities of a mask
  | sink (paddock : Nat) (frame : Frame)                          -- a frame read out by a local sink's consumer
  | cores (paddock : Nat) (frame : Frame)                         -- a copy to the Criotte cores of a paddock
  | msix (fn : Nat) (addr data : Nat)                             -- an MSI-X message of a function
  | response (who : Path) (status : Nat) (done : Nat) (data : List Byte)  -- a dictionary response
  | value (v : Nat)                                               -- the value a register read returns
  | completion (status : Nat) (poisoned : Bool) (data : List Byte) -- a PCIe completion of a BAR2 read: 0 successful, 1 UR, 4 CA
  | mgmt (bytes : List Byte)                                      -- a frame of the management or field port
  | oxpin (field : Bool) (message : List Byte)                    -- an Oxpin message, on the field network or the management port
  | boot (ip4 : Bool) (payload : List Byte)                       -- a network boot message (R518)
  | doe (bytes : List Byte)                                       -- a DOE data object
  /-- An access of step `step` of R212 to a module as I2C target `target`, after the multiplexers given have been written:
  (address, value) (R211). -/
  | module (block which : Nat) (step bus : Nat) (mux : List (Nat × Nat)) (target : Nat)
  | busClear (bus : Nat)                                          -- nine clocks and a STOP on an I3C bus (R585)
  | producer (paddock : Nat) (status : Nat)                       -- a status returned to a local producer (R169, R222)
  deriving DecidableEq, Repr

/-! ### Operands of commands -/

/-- What goes wrong in a tile in a beat (R296, R300, R309, R310). -/
inductive TileFault where
  | mismatch        -- its residues differ, or its sentinel output differs from the ROM constant
  | uncorrectable   -- an uncorrectable error in staging or in an uncommitted accumulator
  | corrected       -- a SECDED correction
  deriving DecidableEq, Repr

/-- One failure of a tile in a beat, with what DROVE_LAST_ERR reports of it (R311). -/
structure TileEvent where
  tile  : Fin 144
  fault : TileFault
  lanes : BitVec 16 := 0
  load  : BitVec 8 := 0
  delta : BitVec 64 := 0
  deriving DecidableEq, Repr

/-- A committed accumulator found in error (R300), or lost in a copy or save (R305, R306): the operation's context, its
number in the context, and the element. -/
structure AccError where
  ctx    : Fin 256
  member : Nat
  elem   : Nat
  tile   : Fin 144
  deriving DecidableEq, Repr

/-- Where DROVE_ADMIT takes the next operation from (R315, R318). -/
inductive AdmitFrom where
  | ring (r : Fin 64)
  | remote (dev : Fin 512)
  | drover
  deriving DecidableEq, Repr

/-- How a host access made for a ring fails (R534). -/
inductive HostFault where
  | timeout | refused | poisoned
  deriving DecidableEq, Repr

/-- What a host access made for a ring was for (R534). -/
inductive HostUse where
  | fetch
  | operand
  | record (ctx : Fin 256)   -- of a DMA ring the context says nothing
  deriving DecidableEq, Repr

/-- Through what a ring register is written (R351, R532, R533). -/
inductive RingWriter where
  | bar0                 -- the physical function's BAR0
  | page (fn : Fin 33)   -- the ring page in BAR4 of a function
  | cores
  deriving DecidableEq, Repr

/-- What asserts a warm or wider reset (R574, R578, R595, R602). -/
inductive ResetSource where
  | coldPin | warmPin | command | refclkCore | auxClk | aonRail | mainRail | heat
  deriving DecidableEq, Repr

/-- A register that a host or core access names: a direct register by its BAR0 offset, from the physical function or from the
cores, a BAR4 location of a function, or one of the configuration registers that R527 and R528 give. -/
inductive RegAddr where
  | bar0 (off : BitVec 28)
  | core (off : BitVec 28)
  | bar4 (fn : Fin 33) (off : BitVec 20)
  | numVfs
  | vfEnable
  | bar2Size
  deriving DecidableEq, Repr

/-- What a cell is read for: departure from `d`, eviction (cell `i` of the first evicting group of a queue), or
transfer of a landed copy (R57). -/
inductive CellUse where
  | depart (d : Fin 1040)
  | evict (qid : Fin 12480) (i : Fin 16)
  | transfer (copy : Nat)
  deriving DecidableEq, Repr

/-- What a module answers to the accesses of a sequence: silence, no such application, an application whose host lanes do not
signal at 136 GBd PAM4, or every step taken. -/
inductive ModuleAnswer where
  | silent
  | noApp
  | slow
  | fine
  deriving DecidableEq, Repr

/-- What waits for a held page: a request, or a DMA job. -/
inductive HoldWaiter where
  | request (id : Nat)
  | dma (ring : Fin 64)
  deriving DecidableEq, Repr

/-- A DMA, HBM or Common location: an HBM physical address (R389). -/
abbrev Hpa := Nat

end Sys2Proof.Machine
end

