-- ==== Sys2Proof/Syntax.lean ====
section
/-!
DEFINITION. The commands of the block: one constructor for each row of the opcode table, with its operands.
A command that comes by the dictionary names its path; one that an event brings names what the event is about.
-/

namespace Sys2Proof

inductive Instr where
  /-- REGISTER_WRITE (R26). A write to a direct register or register field that has no row of its own is applied by
  field access code, in the order the host interface accepts it. -/
  | registerWrite (a : Machine.RegAddr) (half : Option Bool) (v : BitVec 64)
  /-- READ_CLEAR_REGISTER_READ (R26). A read of a register with RC fields returns the value and then clears those fields
  to zero. -/
  | readClearRegisterRead (a : Machine.RegAddr) (half : Option Bool)
  /-- OBJECT_WINDOW_WRITE (R22). A naturally aligned 4- or 8-byte write to a slot of the BAR0 object window is applied
  to the object by width, half and access code. -/
  | objectWindowWrite (idx : BitVec 16) (el : BitVec 8) (half : Option Bool) (v : BitVec 64)
  /-- OBJECT_WINDOW_UNDEFINED_ACCESS (R24). An access to an undefined slot, or of a wrong size or alignment, completes
  normally, reads zero or is discarded, and is counted with CTL_ERR bit 8 set. -/
  | objectWindowUndefinedAccess (off : BitVec 27) (size : BitVec 13) (write : Bool)
  /-- DIRECT_REGISTER_UNDEFINED_ACCESS (R529). An access to an undefined direct-register offset, or of a wrong size or
  alignment, reads zero or is discarded and is counted in reg_undef_rd or reg_undef_wr. -/
  | directRegisterUndefinedAccess (off : BitVec 26) (size : BitVec 13) (write : Bool)
  /-- DICTIONARY_READ (R498). A dictionary read request returns the object, or part of a long object, or a status. -/
  | dictionaryRead (who : Machine.Path) (idx : BitVec 16) (el : BitVec 8) (off : BitVec 32) (len : BitVec 32)
  /-- DICTIONARY_WRITE (R498). A dictionary write to an object that has no row of its own is checked against its rules
  and applied whole or row by row, or rejected. -/
  | dictionaryWrite (who : Machine.Path) (idx : BitVec 16) (el : BitVec 8) (off : BitVec 32) (data : List Byte)
  /-- DICTIONARY_COMMAND (R496). A dictionary command request starts the action of a CMD object that has no row of its
  own, or is answered 0x02 or 0x0D. -/
  | dictionaryCommand (who : Machine.Path) (idx : BitVec 16) (el : BitVec 8) (off : BitVec 32) (data : List Byte)
  /-- DICTIONARY_DESCRIBE (R497). A describe request returns the 16-byte description of an object, or 0x01. -/
  | dictionaryDescribe (who : Machine.Path) (idx : BitVec 16) (el : BitVec 8)
  /-- OBJECT_SERVER_TIMEOUT (R493). When the object server does not answer a forwarded access within 100 ms, the Crook
  completes it with 0x08 and clears main_alive. -/
  | objectServerTimeout (who : Machine.Path)
  /-- PLACEMENT_WRITE (R33). A write of o2800.01 to o2800.07 updates the placement, restricts links to VC0 while
  unplaced, and repeats the hello on each Fold link once the device is placed. -/
  | placementWrite (who : Machine.Path) (e : Fin 8) (v : BitVec 32)
  /-- PORT_ROLE_WRITE (R37). A write that changes a block's role field takes the block down, drops its queued frames,
  raises its queue reserves, and retrains it in the new role. -/
  | portRoleWrite (who : Machine.Path) (b : Fin 128) (v : BitVec 8)
  /-- PORT_SPLIT_WRITE (R188). A write of PORT_SPLIT or PORT_LANE_RATE is checked against the role and takes the block
  down as a role change does. -/
  | portSplitWrite (who : Machine.Path) (b : Fin 128) (rate : Bool) (v : BitVec 8)
  /-- PORT_POOL_MIB_WRITE (R208). A write of a reach block's credit-pool size is accepted only while the block is not in
  the reach role. -/
  | portPoolMibWrite (who : Machine.Path) (b : Fin 128) (v : BitVec 16)
  /-- PORT_MAX_FRAME_WRITE (R189). A write of PORT_MAX_FRAME is checked against the token buckets and the communicators
  that name the port. -/
  | portMaxFrameWrite (who : Machine.Path) (b : Fin 128) (v : BitVec 16)
  /-- FOLD_FAR_SIZE_WRITE (R391). A write of FOLD_FAR_SIZE_GIB is checked against the stack layout and the reach pools
  and becomes pending for the next warm reset. -/
  | foldFarSizeWrite (who : Machine.Path) (v : BitVec 16)
  /-- INGRESS_FRAME (R141). A frame taken whole by a block's ingress pipeline is parsed, its fabric header checked,
  classed, passed through the ACL, looked up, given a member port, and learned from. -/
  | ingressFrame (port : Fin 1024) (bytes : List Byte) (fcsOk : Bool) (fifo : Fin 257)
  /-- PFC_XOFF_REPEAT (R127). While a priority stays above xon, XOFF is repeated at half the time its quanta represent. -/
  | pfcXoffRepeat (port : Fin 1024) (prio : Fin 8)
  /-- VOQ_HEAD_ADMISSION (R82). When a frame reaches its VOQ head, the destination die decides admission against queue,
  port and pasture thresholds and the hurdle rule, and charges its cells. -/
  | voqHeadAdmission (input : Fin 144) (dest : Fin 1040) (cls : Fin 8)
  /-- ADMISSION_RETRY (R83). A lossless frame refused admission is checked again each cell time at its VOQ head. -/
  | admissionRetry (input : Fin 144) (dest : Fin 1040) (cls : Fin 8)
  /-- REORDER_TIMEOUT (R178). When a reorder context's timer expires, E moves to the smallest held number, skipped
  numbers become gaps, and the following run is released. -/
  | reorderTimeout (src : Fin 512) (cls : Fin 8)
  /-- GATE_MATCH (R70). Each cell time the gate matcher runs three request-grant-accept iterations matching pen VOQ
  heads to bank groups. -/
  | gateMatch
  /-- GATE_TRANSFER_WRITE (R71). An accepted transfer leaves its pen, crosses any ridge hops, and is written into its
  bank group, freeing pen cells. -/
  | gateTransferWrite (i : Nat)
  /-- RIDGE_RELAY_FORWARD (R74). A relayed transfer is forwarded from the relay die's receive buffer once a second-hop
  credit is held. -/
  | ridgeRelayForward (i : Nat)
  /-- RIDGE_LINK_FENCE (R97). A ridge link that fails retry for 10 µs is fenced, its traffic dropped, and FAULT_N
  asserted. -/
  | ridgeLinkFence (l : Fin 4)
  /-- CELL_READ (R57). A stored cell is read for departure, a local sink, eviction or transfer, its CRC checked, and its
  cell released and credits returned. -/
  | cellRead (use : Machine.CellUse) (crcOk : Bool) (ecc : Fin 3) (bank : Fin 12)
  /-- EVICTION_AGE (R90). A complete group outside the near zone whose first cell has waited FOLD_RESIDENCY_NS is
  evicted to the far fold. -/
  | evictionAge (qid : Fin 12480) (busy : BitVec 4)
  /-- EVICTION_OCCUPANCY (R90). When near-fold use reaches FOLD_EVICT_HI, groups are evicted from the fullest queue
  until use falls below FOLD_EVICT_LO. -/
  | evictionOccupancy (die : Fin 4) (busy : BitVec 4)
  /-- EVICTION_WRITE_ACK (R92). When HBM acknowledges an evicted slot, the group's near cells are freed. -/
  | evictionWriteAck (qid : Fin 12480)
  /-- GROUP_FETCH (R91). When an evicted group enters its queue's near zone, it is fetched into a bank group of the die. -/
  | groupFetch (qid : Fin 12480)
  /-- FETCH_COMPLETE (R91). A fetched group lands in near cells, is checked, and its slot freed, letting its queue
  proceed. `bad` is the cells that fail their CRC, and whether HBM read the slot uncorrectably. -/
  | fetchComplete (qid : Fin 12480) (bad : BitVec 16 × Bool)
  /-- EGRESS_SELECT (R108). A port's scheduler picks its next frame by priority level, deficit round robin and
  eligibility before the current frame ends. -/
  | egressSelect (d : Fin 1040)
  /-- FRAME_DEPARTURE_START (R106). The selected frame starts departing, takes its tokens, is marked, logged, sequence-
  numbered and timestamped, and runs to completion. -/
  | frameDepartureStart (d : Fin 1040)
  /-- LAUNCH_TIME_DUE (R115). When device time reaches a timed-launch head frame's launch time, the queue becomes
  eligible for selection. -/
  | launchTimeDue (qid : Fin 12480)
  /-- QUEUE_CONFIG_WRITE (R110). A write to a queue's configuration row zeroes its deficit, refills its bucket, and
  applies from the next selection. -/
  | queueConfigWrite (who : Machine.Path) (qid : Fin 12480) (v : BitVec 128)
  /-- PFC_FRAME_RECEIVE (R130). A received PFC frame pauses each queue of the port that obeys a paused priority for the
  given quanta, or ends the pause. -/
  | pfcFrameReceive (port : Fin 1024) (enable : BitVec 8) (quanta : BitVec 128)
  /-- PFC_PAUSE_EXPIRE (R130). A queue's PFC pause time runs out and the queue may compete again. -/
  | pfcPauseExpire (qid : Fin 12480)
  /-- PFC_WATCHDOG_EXPIRE (R131). A queue paused without a break for wd_ms counts a watchdog event and, with wd_action
  1, drops head frames until the pause ends. -/
  | pfcWatchdogExpire (qid : Fin 12480)
  /-- QREC_RING_WRITE_FAULT (R137). A failed history-ring write turns the ring off and sets EGR_ERR bit 6. -/
  | qrecRingWriteFault
  /-- HEFT_INSERT (R157). A queued learn request inserts, refreshes or moves an entry, displacing occupants by cuckoo
  steps up to the stash, and queues a rehash request when needed. -/
  | heftInsert (die : Fin 4)
  /-- HEFT_AGE_SWEEP (R161). Every 2^HEFT_AGE_SHIFT ticks each die removes dynamic entries whose age reaches
  HEFT_AGE_LIMIT. -/
  | heftAgeSweep (die : Fin 4)
  /-- HEFT_AGE_SHIFT_WRITE (R161). A new HEFT_AGE_SHIFT restamps every dynamic entry with the current stamp. -/
  | heftAgeShiftWrite (who : Machine.Path) (v : BitVec 8)
  /-- HEFT_INSERT_STATIC (R164). HEFT_OP opcode 1 installs a static entry on the dies of the mask. -/
  | heftInsertStatic (who : Machine.Path) (mask : BitVec 4) (e : BitVec 128)
  /-- HEFT_DELETE (R164). HEFT_OP opcode 2 deletes an entry, reporting 0x01 when none is found. -/
  | heftDelete (who : Machine.Path) (mask : BitVec 4) (e : BitVec 128)
  /-- HEFT_FLUSH_PASTURE (R164). HEFT_OP opcode 3 flushes the dynamic entries of a pasture. -/
  | heftFlushPasture (who : Machine.Path) (mask : BitVec 4) (pasture : Fin 4096)
  /-- HEFT_FLUSH_PORT (R164). HEFT_OP opcode 4 flushes the dynamic entries that point to a port. -/
  | heftFlushPort (who : Machine.Path) (mask : BitVec 4) (dev : Fin 512) (port : Fin 1024)
  /-- HEFT_FLUSH_ALL (R164). HEFT_OP opcode 5 flushes every dynamic entry. -/
  | heftFlushAll (who : Machine.Path) (mask : BitVec 4)
  /-- HEFT_STASH_RETRY (R164). HEFT_OP opcode 6 retries the insertion of every stash entry. -/
  | heftStashRetry (who : Machine.Path) (mask : BitVec 4)
  /-- HEFT_REQ_POP (R185). A read of HEFT_REQ_HI returns and removes the head record of the die's notice queue. -/
  | heftReqPop (die : Fin 4)
  /-- LPM_ADD (R167). LPM_OP opcode 1 adds or replaces a prefix, rejected when units or length are exceeded. -/
  | lpmAdd (who : Machine.Path) (v6 : Bool) (plen : BitVec 8) (pasture : Fin 4096) (nh : Fin 65536) (pfx : BitVec 128)
  /-- LPM_DELETE (R167). LPM_OP opcode 2 deletes a prefix, rejected when it is absent. -/
  | lpmDelete (who : Machine.Path) (v6 : Bool) (plen : BitVec 8) (pasture : Fin 4096) (pfx : BitVec 128)
  /-- FORWARDING_TABLE_WRITE (R181). A write to an LPM, next-hop, ACL, route, group or member table is applied to all
  four dies, each seeing the old or new row. -/
  | forwardingTableWrite (who : Machine.Path) (table : Fin 6) (row : Nat) (v : BitVec 768)
  /-- ROUTE_FLIP (R170). ROUTE_FLIP queues a flip of a pasture's route bank for a named Bell tick, or is rejected. -/
  | routeFlip (who : Machine.Path) (pasture : Fin 4096) (bell : BitVec 48)
  /-- ROUTE_FLIP_APPLY (R170). At the start of the named tick every die sets the pasture's epoch to the other bank, sets
  it live and clears the old bank's live bit. -/
  | routeFlipApply (pasture : Fin 4096)
  /-- ROUTE_FLIP_CANCEL (R235). ROUTE_FLIP_CANCEL removes a pasture's pending flip on every die whose tick has not
  begun. -/
  | routeFlipCancel (who : Machine.Path) (pasture : Fin 4096)
  /-- ROUTE_HOLD_WRITE (R232). A write of a pasture's ROUTE_HOLD row moves it to run, hold or purge, with XOFF, lossy
  drops and producer stops. -/
  | routeHoldWrite (who : Machine.Path) (pasture : Fin 4096) (v : BitVec 8)
  /-- ROUTE_SNAP (R234). ROUTE_SNAP clears the pasture's snapshot valid bit and queues a snapshot for a named tick, or
  is rejected. -/
  | routeSnap (who : Machine.Path) (pasture : Fin 4096) (bell : BitVec 48)
  /-- ROUTE_SNAP_TAKE (R234). At the named tick every die takes the pasture's in_device count and hold state and writes
  them into ROUTE_SNAP_RES. -/
  | routeSnapTake (pasture : Fin 4096)
  /-- ROUTE_FAILOVER_CLEAR (R239). A write clearing bits of ROUTE_FAILOVER_ACT stops failover lookups in those
  directions from the next cycle. -/
  | routeFailoverClear (who : Machine.Path) (v : BitVec 32)
  /-- LANE_SIGNAL_DETECT (R194). Signal on all eight lanes moves a Fold link block from wait to train, loading a preset
  when one is expected. -/
  | laneSignalDetect (b : Fin 128) (lane : Fin 8)
  /-- LANE_TRAIN_COMPLETE (R194). Equalisers adapt and precoding is agreed on every lane, moving the block to lock. -/
  | laneTrainComplete (b : Fin 128) (lane : Fin 8) (snr : BitVec 16) (lanes : BitVec 224)
  /-- PRESET_ADAPT_DONE (R252). After 20 µs of bounded adaptation from a preset, train completes or preset_miss is
  counted and full training begins. `reached` is the SNR and the equaliser state of each lane, lane 0 lowest. -/
  | presetAdaptDone (b : Fin 128) (reached : BitVec 128 × BitVec 1792)
  /-- CODEWORD_LOCK (R194). Codeword lock on every lane with skew within 500 ns moves the block to hello. -/
  | codewordLock (b : Fin 128) (lane : Fin 8) (skewOk : Bool)
  /-- HELLO_SEND (R195). A block in hello sends a hello flit every 1 µs, echoing the last peer t_send. -/
  | helloSend (b : Fin 128)
  /-- HELLO_RECEIVE (R195). A received hello is recorded; when both hellos and 16 echoes are in, the RTT is set and the
  link runs the check step and resumes or comes up. -/
  | helloReceive (b : Fin 128) (rec : BitVec 1024)
  /-- BRINGUP_TIMEOUT (R194). A bring-up step that exceeds its timeout is counted in retrains and the block returns to
  wait. -/
  | bringupTimeout (b : Fin 128)
  /-- FLIT_RECEIVE (R193). A received flit is CRC-checked and, in order, delivers its frames, acknowledgements and
  credit returns, or triggers a nak. -/
  | flitReceive (b : Fin 128) (header : BitVec 160) (payload : List Byte) (errs : BitVec 10)
  /-- ACK_TIMEOUT_REPLAY (R203). When ack has not advanced for 2 × PORT_RTT_NS + 1 µs with flits outstanding, the sender
  replays from ack + 1. -/
  | ackTimeoutReplay (b : Fin 128)
  /-- LOSS_OF_SIGNAL (R210). A lane without valid signal for 500 ns declares loss of signal, taking a Fold link to hold,
  or resetting it when armed. -/
  | lossOfSignal (b : Fin 128) (lane : Fin 8)
  /-- HOLD_EXPIRE (R205). A hold that lasts longer than PORT_HOLD_MS ends the chance to resume and the link is reset. -/
  | holdExpire (b : Fin 128)
  /-- FLOCK_LINK_DOWN (R207). A flock port whose Ethernet link goes down keeps its queued frames, and flushes its Heft
  entries when flush_on_down is 1. -/
  | flockLinkDown (port : Fin 1024)
  /-- FLOCK_HOLD_EXPIRE (R207). A flock port not up after PORT_HOLD_MS drops its queued frames into link_drops. -/
  | flockHoldExpire (port : Fin 1024)
  /-- FLOCK_LINK_UP (R187). An Ethernet port completes auto-negotiation or forced link-up and becomes up. -/
  | flockLinkUp (port : Fin 1024)
  /-- PORT_RETRAIN_QUIESCE (R215). PORT_RETRAIN 1 stops new frames, waits for acks and credits or frames in
  transmission, then retrains. -/
  | portRetrainQuiesce (who : Machine.Path) (b : Fin 128)
  /-- PORT_RETRAIN_NOW (R215). PORT_RETRAIN 2 retrains at once, resetting a Fold link or cutting a flock frame short. -/
  | portRetrainNow (who : Machine.Path) (b : Fin 128)
  /-- QUIESCE_TIMEOUT (R215). A quiesce that does not finish within PORT_HOLD_MS proceeds as an immediate retrain. -/
  | quiesceTimeout (b : Fin 128)
  /-- MODULE_PATH_WRITE (R212). A module path write with present set starts the CMIS sequence: read pages, check the
  application, select it, squelch, clear LowPwr. -/
  | modulePathWrite (who : Machine.Path) (b : Fin 128) (i : Fin 2) (v : BitVec 32) (a : Machine.ModuleAnswer)
  /-- MODULE_READY_TIMEOUT (R212). A module not reporting ModuleReady and DataPathActivated within 60 s ends its
  sequence. -/
  | moduleReadyTimeout (b : Fin 128) (i : Fin 2)
  /-- MODULE_POLL (R212). Every PORT_MOD_POLL_MS the manager polls the module state and flags into PORT_MOD_STATE. -/
  | modulePoll (b : Fin 128) (i : Fin 2) (answer : Option (BitVec 13))
  /-- MODULE_RETRY (R213). An absent module's sequence is retried every 1 s. -/
  | moduleRetry (b : Fin 128) (i : Fin 2) (a : Machine.ModuleAnswer)
  /-- HEAVY_PAIR_WINDOW_CLOSE (R246). Every CIRC_HP_WINDOW ticks the 16 heaviest destinations are written into
  CIRC_HP_REPORT, counters cleared and the event raised. -/
  | heavyPairWindowClose
  /-- CIRC_HP_WINDOW_WRITE (R247). A CIRC_HP_WINDOW of 0 turns measurement off and clears the counters, leaving the last
  report. -/
  | circHpWindowWrite (who : Machine.Path) (v : BitVec 32)
  /-- CIRC_ARM (R254). CIRC_ARM arms a ring or circuit block for a planned change, resetting an undrained link in hold. -/
  | circArm (who : Machine.Path) (b : Fin 128)
  /-- CIRC_DISARM (R256). CIRC_ARM with bit 7 clear disarms the block. -/
  | circDisarm (who : Machine.Path) (b : Fin 128)
  /-- CIRC_ARM_TIMEOUT (R256). An arm not consumed within CIRC_ARM_TIMEOUT_MS ends and arm_expired is counted. -/
  | circArmTimeout (b : Fin 128)
  /-- CIRC_PRESET_PIN (R263). CIRC_PRESET_OP 1 pins a preset slot. -/
  | circPresetPin (who : Machine.Path) (b : Fin 128) (slot : Fin 64)
  /-- CIRC_PRESET_UNPIN (R263). CIRC_PRESET_OP 2 unpins a preset slot. -/
  | circPresetUnpin (who : Machine.Path) (b : Fin 128) (slot : Fin 64)
  /-- CIRC_PRESET_DELETE (R263). CIRC_PRESET_OP 3 deletes a preset slot. -/
  | circPresetDelete (who : Machine.Path) (b : Fin 128) (slot : Fin 64)
  /-- BEAT_START (R274). At each beat boundary the Drove gives the beat to a spare switch, context save or restore,
  sentinel or operation by class order, or leaves it idle. -/
  | beatStart
  /-- BEAT_COMMIT (R299). In the commit window the beat commits when every tile's residues match and no fault was
  raised, or rolls back on every live tile. -/
  | beatCommit (units : Nat) (events : List Machine.TileEvent) (ue : List Nat) (bad : List Machine.AccError)
  /-- WRITE_OUT_COMPLETE (R299). A committed staging half finishes being written to HBM, the Fold or a completion ring,
  releasing stalled readers. -/
  | writeOutComplete (half : Fin 2) (ue : List Nat)
  /-- SENTINEL_DUE (R309). Every DROVE_SENTINEL_TICKS ticks a sentinel beat falls due. -/
  | sentinelDue
  /-- DROVE_TILE_FENCE (R313). DROVE_TILE_CMD 1 fences a tile. -/
  | droveTileFence (who : Machine.Path) (t : BitVec 8)
  /-- DROVE_TILE_UNFENCE (R308). DROVE_TILE_CMD 2 unfences a tile, which runs a sentinel and becomes spare, rejoins, or
  stays fenced. -/
  | droveTileUnfence (who : Machine.Path) (t : BitVec 8)
  /-- DROVE_TILE_SWITCH (R313). DROVE_TILE_CMD 3 switches a fenced tile to the paddock's spare. -/
  | droveTileSwitch (who : Machine.Path) (t : BitVec 8)
  /-- DROVE_TILE_SENTINEL (R313). DROVE_TILE_CMD 4 runs a sentinel on the tile. -/
  | droveTileSentinel (who : Machine.Path) (t : BitVec 8)
  /-- DROVE_TEMP_BINS_WRITE (R561). A write of DROVE_TEMP_BINS clears every histogram row as the new boundaries take
  effect. -/
  | droveTempBinsWrite (who : Machine.Path) (v : BitVec 56)
  /-- DROVE_SQ_DOORBELL (R532). A write to a Drove or DMA ring's SQ_TAIL rings its doorbell, coalescing with earlier
  doorbells, or is ignored and counted when out of range. -/
  | droveSqDoorbell (who : Machine.RingWriter) (dma : Bool) (r : Fin 64) (tail : BitVec 16)
  /-- DESCRIPTOR_FETCH (R317). The device fetches a descriptor from a submission ring when the ring is enabled, non-
  empty, has completion space and no suspended operation. -/
  | descriptorFetch (dma : Bool) (r : Fin 64)
  /-- DROVE_ADMIT (R336). An operation is checked under the rejection table and admitted with a context, window and
  resident region, forming a batch where allowed. -/
  | droveAdmit (from_ : Machine.AdmitFrom)
  /-- OPERATION_COMPLETE (R341). When an operation's last write-out ends, its completion record is written or its
  response sent. -/
  | operationComplete (c : Fin 256)
  /-- REMOTE_REQUEST_RECEIVE (R344). A frame of op 0x30 on REQ enters the remote queue or waits in its sink queue, to
  run in the remote class. -/
  | remoteRequestReceive (paddock : Fin 16) (bytes : List Byte)
  /-- REMOTE_RESPONSE_RECEIVE (R345). A response of op 0x2F is written to the requesting ring's completion ring with its
  inline data, or discarded as late. -/
  | remoteResponseReceive (paddock : Fin 16) (bytes : List Byte)
  /-- REMOTE_TIMEOUT (R345). A remote descriptor without a response after DROVE_REMOTE_TO_US completes with 0x08. -/
  | remoteTimeout (n : Nat)
  /-- DROVE_SUSP_RESUME (R347). DROVE_SUSP_CMD 1 resumes a suspended operation at its faulting beat. -/
  | droveSuspResume (who : Machine.Path) (c : Fin 256)
  /-- DROVE_SUSP_ABORT (R347). DROVE_SUSP_CMD 2 completes a suspended operation with its fault status and done count. -/
  | droveSuspAbort (who : Machine.Path) (c : Fin 256)
  /-- DROVE_RING_CONFIG_WRITE (R351). Writes to ring base, size or CQ enable fields are ignored and counted while the
  ring is enabled or busy. -/
  | droveRingConfigWrite (who : Machine.RingWriter) (dma : Bool) (r : Fin 64) (i : Fin 8) (v : BitVec 64)
  /-- HOST_ACCESS_FAULT (R534). A failed host-memory access for a ring ends its descriptor with 0x08, 0x02 or 0x03,
  stops the ring and raises its fault event. -/
  | hostAccessFault (dma : Bool) (r : Fin 64) (use : Machine.HostUse) (f : Machine.HostFault)
  /-- COLL_COMM_CREATE (R354). COLL_COMM_OP 1 creates a communicator after checking its record, or reports the failed
  check. -/
  | collCommCreate (who : Machine.Path) (r : BitVec 1536)
  /-- COLL_COMM_DELETE (R384). COLL_COMM_OP 2 deletes a communicator with no collective in progress. -/
  | collCommDelete (who : Machine.Path) (id : BitVec 16)
  /-- COLL_POST_RECEIVE (R374). A member's POST is recorded and the first local POST of a seq sends POST_FWD to the
  lead. -/
  | collPostReceive (bytes : List Byte)
  /-- COLL_POST_FWD_RECEIVE (R374). The lead acts on the first POST_FWD of a seq once seq − 4 is complete and floods
  START with start Bell = now + lag. -/
  | collPostFwdReceive (bytes : List Byte)
  /-- COLL_NOTE_RECEIVE (R376). The lead answers a NOTE by reissuing a late START or flooding ABORT with the matching
  status. -/
  | collNoteReceive (bytes : List Byte)
  /-- COLL_START_RECEIVE (R376). A START run is held for admission and forwarded, or found late and reported with NOTE
  1. -/
  | collStartReceive (bytes : List Byte)
  /-- COLL_IN_RECEIVE (R365). An IN segment is placed by chunk and seg and its residue or CRC checked. -/
  | collInReceive (bytes : List Byte)
  /-- COLL_STEP_RECEIVE (R367). A STEP segment is placed and its residue checked against its data. -/
  | collStepReceive (bytes : List Byte)
  /-- COLL_RESULT_RECEIVE (R368). A RESULT run is delivered, forwarded along its axis, and triggers runs on the lower
  axes. -/
  | collResultReceive (bytes : List Byte)
  /-- COLL_DONE_SEND (R370). After all owed chunks are delivered, DONE goes to each member, COLL_RECENT is written and
  the collective event raised. -/
  | collDoneSend (slot : Fin 64)
  /-- COLL_ABORT_RECEIVE (R376). An ABORT run ends the collective, frees its slot and reservation, and writes DONE with
  the abort's status. -/
  | collAbortReceive (bytes : List Byte)
  /-- COLL_TIMEOUT (R378). A collective that commits no step for timeout ticks is reported with NOTE 2. -/
  | collTimeout (slot : Fin 64)
  /-- COMMON_REQUEST_RECEIVE (R399). A Common request is checked and executed on HBM or passed to the Drove, waiting in
  the hold queue or in-flight table where needed. -/
  | commonRequestReceive (paddock : Fin 16) (bytes : List Byte)
  /-- COMMON_WALK_COMPLETE (R396). A page-table walk ends and the waiting requests are translated and checked. -/
  | commonWalkComplete (unit : Fin 16)
  /-- COMMON_HBM_ACCESS_COMPLETE (R405). A request's HBM access finishes, its response is sent or awaits its mirror ack,
  and its in-flight entry clears. -/
  | commonHbmAccessComplete (unit : Fin 16) (nth : Fin 4096) (ue : Bool)
  /-- COMMON_HOLD_EXPIRE (R400). A held request that has waited COMMON_HOLD_US is answered 0x01. -/
  | commonHoldExpire (w : Machine.HoldWaiter)
  /-- MIRROR_ACK_RECEIVE (R407). A MIRROR_ACK completes the waiting write, or sets mirror_lost in the leaf on a bad
  status. -/
  | mirrorAckReceive (bytes : List Byte)
  /-- MIRROR_TIMEOUT (R407). A mirror write unacknowledged within COMMON_MIRROR_TO_US sets mirror_lost and answers with
  mirror_lost = 1. -/
  | mirrorTimeout (id : Nat)
  /-- COMMON_INVAL (R398). COMMON_INVAL queues an invalidation of TLB entries for a range, rejected when 16 are pending. -/
  | commonInval (who : Machine.Path) (data : List Byte)
  /-- COMMON_INVAL_COMPLETE (R398). Once entries are dropped and accesses through them have finished, the invalidation
  completes and held requests are rechecked. -/
  | commonInvalComplete
  /-- COMMON_RESYNC (R408). COMMON_RESYNC holds, copies to the buddy and clears mirror_lost for each such page of a
  pasture. -/
  | commonResync (who : Machine.Path) (pasture : Fin 4096)
  /-- COMMON_RESPONSE_RECEIVE (R410). A response matching a requester slot completes its request, and an unmatched one
  is dropped as late. -/
  | commonResponseReceive (paddock : Fin 16) (bytes : List Byte)
  /-- COMMON_REQUEST_TIMEOUT (R411). A request without response within COMMON_REQ_TO_US completes at the requester with
  0x08. -/
  | commonRequestTimeout (paddock : Fin 16) (slot : Fin 1024)
  /-- COMMON_FAULT_POP (R423). A read of COMMON_FAULT_HI returns and removes the head fault record. -/
  | commonFaultPop
  /-- LOST_WALK (R418). A stack fence or mirror-origin notice walks the roots and writes a lost record for each affected
  leaf. -/
  | lostWalk
  /-- LOST_WALK_DONE (R418). The lost walk ends, COMMON_LOST_DONE counts up and the lost-walk event is raised. -/
  | lostWalkDone
  /-- DMA_DESCRIPTOR_START (R413). A fetched DMA descriptor is checked and its COPY or FILL issued as requests that
  cross no 2 MiB boundary. -/
  | dmaDescriptorStart (r : Fin 64)
  /-- DMA_TRANSFER_COMPLETE (R415). A DMA transfer finishes or faults, writes its record with done and fault_addr, and
  stops the ring on a fault. -/
  | dmaTransferComplete (r : Fin 64)
  /-- DMA_RING_RESTART (R422). DMA_RING_CMD 1 restarts a stopped ring. -/
  | dmaRingRestart (who : Machine.Path) (r : Fin 64)
  /-- DMA_RING_DISABLE (R422). DMA_RING_CMD 2 disables a ring and discards its unfetched descriptors. -/
  | dmaRingDisable (who : Machine.Path) (r : Fin 64)
  /-- BELL_TICK (R449). At each Bell tick boundary the tick consumers take up their work in order: route banks, Tally,
  queue records, Muster, time, Drover, Drove and sweeps. -/
  | bellTick
  /-- BELL_OVERRUN (R450). A tick consumer not finished by the end of its budget is counted, BELL_ERR bit 0 set and
  BELL_LAST_OVERRUN written. -/
  | bellOverrun (c : Fin 8) (late : BitVec 32)
  /-- BELL_SWITCH (R451). BELL_SWITCH latches BELL_PERIOD_NEXT for a switch instant, or cancels a pending switch with 0. -/
  | bellSwitch (who : Machine.Path) (v : BitVec 64)
  /-- PERIOD_SWITCH (R452). At the switch instant pending Bell commands are cancelled, STARTs made late, miss counts and
  Heft stamps reset, and the new period applied. -/
  | periodSwitch
  /-- BELL_BASE_WRITE (R454). A write of BELL_BASE applies BELL_PERIOD_NEXT, BELL_ORIGIN and BELL_BASE at once, treating
  any change of Bell number as a step. -/
  | bellBaseWrite (who : Machine.Path) (v : BitVec 64)
  /-- BWTH_SET (R432). BWTH_SET steps device time to a new value, raising or holding ticks under the step rules. -/
  | bwthSet (who : Machine.Path) (v : BitVec 112)
  /-- BWTH_SEL_WRITE (R431). A write of BWTH_SEL switches device time to follow the other locked domain without a step. -/
  | bwthSelWrite (who : Machine.Path) (v : BitVec 8)
  /-- PTP_EVENT_RECEIVE (R434). A PTP event message is timestamped, answered on master ports, fed to the domain servo on
  its listen port, or forwarded. -/
  | ptpEventReceive (port : Fin 1025) (bytes : List Byte)
  /-- PTP_SYNC_SEND (R434). A master port sends Sync at the domain's interval, one-step or with Follow_Up. -/
  | ptpSyncSend (port : Fin 1025) (x : Fin 2)
  /-- TIME_SYNC_RECEIVE (R437). A TIME_SYNC frame yields an RTT, device offset and domain sample, with its Bell number
  checked. -/
  | timeSyncReceive (b : Fin 128) (bytes : List Byte)
  /-- PPS_IN_EDGE (R444). A rising edge on TIME_PPS_IN is timestamped into BWTH_PPS_IN_TS and counted. -/
  | ppsInEdge
  /-- PPS_IN_MISSING (R444). No edge within 1.1 s of the last is counted in pps_in_missing. -/
  | ppsInMissing
  /-- DOMAIN_SAMPLE_LOSS (R429). A domain without a valid sample for its loss time enters holdover, with an automatic
  domain switch where enabled. -/
  | domainSampleLoss (x : Fin 2)
  /-- PPS_OUT_RISE (R445). TIME_PPS_OUT rises when device time reaches a whole second plus the offset. -/
  | ppsOutRise
  /-- PPS_OUT_FALL (R445). TIME_PPS_OUT falls BWTH_PPS_OUT_WIDTH_US after rising. -/
  | ppsOutFall
  /-- BWTH_TIME_READ (R459). A read of BWTH_TIME_LO latches the seconds of the same instant into BWTH_TIME_HI. -/
  | bwthTimeRead
  /-- STILE_FIFO_OVERRUN (R456). A write to a full crossing FIFO is discarded, counted and sets its class's bit in
  STILE_ERR. -/
  | stileFifoOverrun (cls : Fin 16)
  /-- HEARTBEAT_RECEIVE (R461). A HEARTBEAT raises the port's highest bell received and ends any suspicion of the
  sender. -/
  | heartbeatReceive (b : Fin 128) (bytes : List Byte)
  /-- SUSPECT (R462). When the smallest miss count facing a torus neighbour reaches MUSTER_K, the device records it as
  suspected and floods SUSPECT. -/
  | suspect (f : Fin 512)
  /-- SUSPECT_REPEAT (R462). While a suspicion lasts, SUSPECT is flooded again every 64 ticks. -/
  | suspectRepeat (f : Fin 512)
  /-- FLOOD_FRAME_RECEIVE (R464). A Muster flood frame with a new key is forwarded with hops_left reduced and handed to
  its consumer. -/
  | floodFrameReceive (b : Fin 128) (bytes : List Byte)
  /-- VOTE_EXPIRE (R463). A vote older than MUSTER_VOTE_TTL ticks stops counting. -/
  | voteExpire
  /-- FLOOD_REPEAT (R464). The origin of a NOTICE, ABSENT, RESUMED or UNRECOV repeats it every 64 ticks for 1,024 ticks. -/
  | floodRepeat
  /-- ABSENCE_EXPIRE (R480). When the Bell number passes bell + a, miss counts apply in full to the absent device. -/
  | absenceExpire (f : Fin 512)
  /-- LOG_SEGMENT_FREE (R470). A log segment whose newest entry is older than MUSTER_W ticks is freed and its
  destination's trimmed bell updated. -/
  | logSegmentFree
  /-- MUSTER_DECLARE_FAILED (R485). MUSTER_CMD op 1 declares a device failed as a notice does. -/
  | musterDeclareFailed (who : Machine.Path) (f : BitVec 16)
  /-- MUSTER_RESUME (R473). MUSTER_CMD op 2 sets the device recovering and sends the frozen log entries and LOG_END to
  it. -/
  | musterResume (who : Machine.Path) (f : BitVec 16)
  /-- MUSTER_DECLARE_UNRECOVERABLE (R477). MUSTER_CMD op 3 on the stand-in floods UNRECOV(f, f). -/
  | musterDeclareUnrecoverable (who : Machine.Path) (f : BitVec 16)
  /-- MUSTER_ANNOUNCE_ABSENCE (R480). MUSTER_CMD op 4 floods ABSENT, sets absent in heartbeats and completes when queued
  on every Fold link port. -/
  | musterAnnounceAbsence (who : Machine.Path) (ticks : BitVec 32)
  /-- LOG_ENTRY_RECEIVE (R474). The stand-in discards duplicate LOG_ENTRY frames, hands collective entries to its Drover
  and writes Common writes to its replay ring. -/
  | logEntryReceive (bytes : List Byte)
  /-- LOG_END_RECEIVE (R474). Once LOG_END is in from every member without incomplete, the stand-in floods RESUMED, or
  UNRECOV where a failure is shown. -/
  | logEndReceive (bytes : List Byte)
  /-- REPLAY_RESTART (R473). A LOG_ENTRY dropped by a fence or link reset before ack restarts the replay from the first
  entry. -/
  | replayRestart (f : Fin 512)
  /-- REPLAY_TIMEOUT (R472). A stand-in not resumed within MUSTER_REPLAY_TO_MS sets replay_timeout. -/
  | replayTimeout
  /-- FENCE_BLOCK (R482). FENCE_CMD fences a port block: lanes idle, link reset, frames dropped, producers answered
  0x04. -/
  | fenceBlock (who : Machine.Path) (b : BitVec 8)
  /-- FENCE_STACK (R482). FENCE_CMD or the stack controller fences an HBM stack, poisoning its groups, fencing its reach
  blocks, losing its log segments and starting the lost walk. -/
  | fenceStack (who : Option Machine.Path) (st : BitVec 8)
  /-- FENCE_PADDOCK (R482). FENCE_CMD fences a paddock's blocks, tiles, stack, sink, source, cores and counters. -/
  | fencePaddock (who : Machine.Path) (p : BitVec 8)
  /-- FENCE_DEVICE (R482). FENCE_CMD or a self-notice fences every block, ends every Drove operation, stops heartbeats
  and asserts FAULT_N. -/
  | fenceDevice (who : Machine.Path)
  /-- UNFENCE_BLOCK (R485). FENCE_CMD unfence clears a block's fence and restarts it from wait. -/
  | unfenceBlock (who : Machine.Path) (b : BitVec 8)
  /-- OXPIN_OPEN_REQ (R503). An OPEN_REQ is answered with OPEN_CHAL and a new session identifier, or refused with ERROR. -/
  | oxpinOpenReq (field : Bool) (m : List Byte)
  /-- OXPIN_OPEN_PROOF (R503). An OPEN_PROOF is verified and answered with OPEN_DONE, opening the session or counting a
  failure and locking the slot after eight. -/
  | oxpinOpenProof (field : Bool) (m : List Byte)
  /-- OXPIN_OPEN_EXPIRE (R504). A pending open with no OPEN_PROOF within 1 s of OPEN_CHAL is discarded. -/
  | oxpinOpenExpire
  /-- OXPIN_SLOT_UNLOCK (R504). A key slot locked for failed proofs is unlocked after 10 s. -/
  | oxpinSlotUnlock (k : Fin 8)
  /-- OXPIN_REQUEST (R507). A REQUEST is authenticated, checked for sequence, and its dictionary request executed or its
  kept response resent. -/
  | oxpinRequest (field : Bool) (m : List Byte)
  /-- OXPIN_SPDM (R508). An SPDM message in a session is answered with SPDM_RSP. -/
  | oxpinSpdm (field : Bool) (m : List Byte)
  /-- OXPIN_CLOSE_MESSAGE (R508). A CLOSE message closes the session. -/
  | oxpinCloseMessage (m : List Byte)
  /-- OXPIN_IDLE_TIMEOUT (R508). A session without a valid client message for OXPIN_IDLE_S seconds is closed. -/
  | oxpinIdleTimeout (i : Fin 8)
  /-- OXPIN_CLOSE (R508). The OXPIN_CLOSE command closes a session row. -/
  | oxpinClose (who : Machine.Path) (i : BitVec 8)
  /-- OXPIN_KEY_WRITE (R502). A PF mailbox write of an OXPIN_KEY slot installs a key and closes sessions opened under
  the slot. -/
  | oxpinKeyWrite (who : Machine.Path) (k : Fin 8) (v : BitVec 320)
  /-- CRIOTTE_WDT_KICK (R491). A write of CRIOTTE_WDT_KICK restarts the core watchdog period. -/
  | criotteWdtKick (who : Machine.Path)
  /-- CRIOTTE_WDT_EXPIRE (R491). An expired watchdog halts all cores, logs an error and raises the control event. -/
  | criotteWdtExpire
  /-- CRIOTTE_HALT (R491). CRIOTTE_CMD 1 halts all cores. -/
  | criotteHalt (who : Machine.Path)
  /-- CRIOTTE_RESTART (R491). CRIOTTE_CMD 2 re-verifies the loaded image and restarts every core at its entry. -/
  | criotteRestart (who : Machine.Path)
  /-- FW_PUSH (R517). FW_PUSH starts verification of the staged image, or is answered 0x0D in a busy state. -/
  | fwPush (who : Machine.Path) (len : BitVec 64)
  /-- FW_VERIFY_DONE (R516). Verification ends: the image is loaded, measured and the cores started, or FW_STATE reads
  failed with FW_REASON. -/
  | fwVerifyDone
  /-- FW_READY (R517). Firmware writes FW_READY to mark itself ready. -/
  | fwReady (who : Machine.Path)
  /-- BOOT_REQ_SEND (R518). In network boot the Crook sends BOOT_REQ every 1 s until BOOT_DATA arrives. -/
  | bootReqSend
  /-- BOOT_DATA (R518). A BOOT_DATA block is stored and acknowledged every 64 blocks. -/
  | bootData (bytes : List Byte)
  /-- BOOT_END (R518). BOOT_END starts verification of the received image. -/
  | bootEnd (bytes : List Byte)
  /-- BOOT_DATA_SILENCE (R518). No BOOT_DATA for 10 s restarts network boot from BOOT_REQ. -/
  | bootDataSilence
  /-- FEAT_ACCEPT_WRITE (R510). A write of FEAT_ACCEPT sets the accepted feature subset, rejected when it exceeds
  FEAT_DEVICE or lacks a mandatory bit. -/
  | featAcceptWrite (who : Machine.Path) (v : BitVec 256)
  /-- FEAT_APPLY (R512). FEAT_APPLY queues a pasture feature vector for a tick, or is rejected. -/
  | featApply (who : Machine.Path) (p : BitVec 16) (n : BitVec 64) (v : BitVec 256)
  /-- FEAT_APPLY_TAKE (R512). At the named tick FEAT_PASTURE_ACTIVE of the pasture is set to the applied vector. -/
  | featApplyTake (p : Fin 4096)
  /-- FEATURES_FLOOD (R512). A FEATURES frame is flooded within 2 ticks of a change of FEAT_ACCEPT and every 1,024
  ticks. -/
  | featuresFlood
  /-- MAILBOX_GO (R538). A write of go sets busy and submits the function's dictionary request, or is ignored while
  busy. -/
  | mailboxGo (f : Fin 33)
  /-- MAILBOX_DONE (R538). The response lands in the response area, busy clears and the mailbox event is raised. -/
  | mailboxDone (f : Fin 33)
  /-- DOE_OBJECT_RECEIVE (R540). A DOE data object is served as discovery or SPDM, or discarded. -/
  | doeObjectReceive (m : List Byte)
  /-- DOE_ABORT (R540). DOE Abort discards the object in progress within 1 ms. -/
  | doeAbort
  /-- EVENT_RAISE (R536). An event is written to the routed functions' event queues and the core queue, sending the
  vector or dropping on overflow. -/
  | eventRaise (kind : Fin 13) (f : Fin 33) (unit : BitVec 16) (arg : BitVec 32)
  /-- EVQ_HEAD_WRITE (R536). A write of PCIE_EVQ_HEAD acknowledges the queue's outstanding message. -/
  | evqHeadWrite (f : Fin 33) (v : BitVec 64)
  /-- MSIX_UNMASK (R535). Unmasking a vector with its pending bit set sends its message. -/
  | msixUnmask (f : Fin 33) (v : Fin 2048)
  /-- RING_OWNER_WRITE (R533). A write of PCIE_RING_OWNER changes a ring page's owner only while both rings are disabled
  and idle. -/
  | ringOwnerWrite (k : Fin 96) (v : BitVec 64)
  /-- BAR2_ACCESS (R530). An access through BAR2 reaches HBM at base plus offset, with poison and nonexistent-address
  handling. -/
  | bar2Access (off : BitVec 36) (n : Fin 4097) (data : Option (List Byte)) (bad : Bool)
  /-- BAR2_BASE_WRITE (R530). A write of PCIE_BAR2_BASE sets the window base, ignored when misaligned or out of range. -/
  | bar2BaseWrite (v : BitVec 64)
  /-- FUNCTION_LEVEL_RESET (R541). An FLR stops the function's rings, ends its operations and returns its registers,
  mailbox and MSI-X table to reset. -/
  | functionLevelReset (f : Fin 33)
  /-- PCIE_HOT_RESET (R542). An in-band hot reset resets configuration space and host queues as an FLR of every
  function. -/
  | pcieHotReset
  /-- PERST_ASSERT (R542). PERST_N resets the PCIe PHY, configuration space and host queues of every function. -/
  | perstAssert
  /-- PERST_RELEASE (R542). After PERST_N release the device answers configuration with retry status until ready within
  100 ms. -/
  | perstRelease (rate : Fin 7) (width : Fin 5)
  /-- TALLY_CFG_WRITE (R551). A write of a TALLY_CFG row takes effect next cycle and clears the counter, or its pair,
  and overflow flag. -/
  | tallyCfgWrite (who : Machine.Path) (n : Fin 8192) (v : BitVec 64)
  /-- TALLY_CLEAR (R551). TALLY_CLEAR clears a range of counters in one switch cycle. -/
  | tallyClear (who : Machine.Path) (v : BitVec 32)
  /-- TALLY_LOW_READ (R553). A read of a chained low counter copies the high counter into TALLY_PAIR_HI. -/
  | tallyLowRead (n : Fin 8192)
  /-- TALLY_SNAP_AT (R554). TALLY_SNAP_AT queues a snapshot for a named tick, or is rejected. -/
  | tallySnapAt (who : Machine.Path) (bell : BitVec 48)
  /-- TALLY_SNAP_NOW (R554). TALLY_SNAP_NOW has die 0 choose and announce a snapshot cycle at least 64 cycles ahead. -/
  | tallySnapNow (who : Machine.Path)
  /-- TALLY_SNAPSHOT (R554). In the snapshot cycle every counter is copied to its shadow, optionally cleared,
  TALLY_SNAP_INFO written and a ring entry buffered. -/
  | tallySnapshot
  /-- TALLY_RING_ENTRY_WRITTEN (R558). A buffered snapshot entry is written to the snapshot ring in HBM, or the ring is
  turned off on a write fault. -/
  | tallyRingEntryWritten (fault : Bool)
  /-- TALLY_HIST_CLEAR (R561). TALLY_HIST_CLEAR clears the histogram rows of a tile, or of all tiles, in one cycle. -/
  | tallyHistClear (who : Machine.Path) (t : BitVec 8)
  /-- FLEECE_CAPTURE_POINT (R567). A frame qualifying at an ingress, egress or drop point is captured into its die's
  buffer with the lowest applying cause, or lost when full. -/
  | fleeceCapturePoint (point : Fin 3) (port : Fin 1040) (queue : Fin 16) (pasture : Fin 4096) (frame : List Byte) (why : List (Fin 64 × BitVec 32))
  /-- FLEECE_CAPTURE (R566). FLEECE_CAPTURE arms capture of the next frame at a port and point. -/
  | fleeceCapture (who : Machine.Path) (v : BitVec 16)
  /-- FLEECE_SAMPLE_WRITE (R565). A write of a FLEECE_SAMPLE row restarts its sampling counts. -/
  | fleeceSampleWrite (who : Machine.Path) (p : Fin 1024) (v : BitVec 64)
  /-- FLEECE_RECORD_WRITTEN (R569). A buffered capture record is written to the ring, which wraps, stops when full in
  mode 1, or turns off on a write fault. -/
  | fleeceRecordWritten (die : Fin 4) (fault : Bool)
  /-- POWER_ON_RESET (R577). Power-on reset holds the Crook island and the device until rails and clocks are good,
  measures the strap and brings the device up. -/
  | powerOnReset (samples : BitVec 48) (rate : Fin 7) (width : Fin 5)
  /-- COLD_RESET_PIN (R576). COLD_RST_N low for 320 ns asserts a cold reset of everything but the Crook. -/
  | coldResetPin
  /-- WARM_RESET_PIN (R576). WARM_RST_N low for 320 ns asserts a warm reset, keeping device time and HBM. -/
  | warmResetPin
  /-- RESET_RELEASE (R575). When every overlapping source is released, each part comes out through the sequence of the
  widest reset that reached it. -/
  | resetRelease (src : Machine.ResetSource) (samples : BitVec 48) (rate : Fin 7) (width : Fin 5)
  /-- RST_CMD_WARM (R579). RST_CMD op 1 asserts a warm reset, after announcing absence when asked. -/
  | rstCmdWarm (who : Machine.Path) (announce : Bool) (ticks : BitVec 32)
  /-- RST_CMD_COLD (R579). RST_CMD op 2 asserts a cold reset, after announcing absence when asked. -/
  | rstCmdCold (who : Machine.Path) (announce : Bool) (ticks : BitVec 32)
  /-- RST_CMD_BLOCK (R579). RST_CMD op 3 resets one unit of the given kind. -/
  | rstCmdBlock (who : Machine.Path) (kind : BitVec 8) (unit : BitVec 32)
  /-- BLOCK_RESET (R581). A block-reset bit holds a port block, tile, translation unit, DMA engine or stack controller
  in reset for 64 cycles, discarding what a busy unit holds. -/
  | blockReset (kind : Fin 6) (unit : Fin 144)
  /-- REFCLK_CORE_LOSS (R578). REFCLK_CORE without an edge for 2 µs makes the Crook assert cold reset until the clock
  returns. -/
  | refclkCoreLoss
  /-- AUX_CLK_LOSS (R578). AUX_CLK without an edge for 2 µs holds the whole device in power-on reset until it returns. -/
  | auxClkLoss
  /-- PWR_CMD (R589). PWR_CMD starts a stepwise move to a target power state, or is answered at once, 0x0D or 0x0A. -/
  | pwrCmd (who : Machine.Path) (target : BitVec 8)
  /-- POWER_STEP_DONE (R590). A power-state step finishes and the next begins, or the target is reached and
  PWR_CMD_STATUS set. -/
  | powerStepDone (late : Bool)
  /-- PWR_GATE (R593). PWR_GATE 1 gates a port block, tile, stack or paddock when its condition holds. -/
  | pwrGate (who : Machine.Path) (kind : BitVec 8) (unit : BitVec 16)
  /-- PWR_UNGATE (R593). PWR_GATE 2 ungates a unit, leaving any fence in place. -/
  | pwrUngate (who : Machine.Path) (kind : BitVec 8) (unit : BitVec 16)
  /-- STACK_GATE_COMPLETE (R593). A stack gate completes into self-refresh once its last evicted group is fetched, or
  ends with 0x08 after 100 ms. -/
  | stackGateComplete (st : Fin 16)
  /-- THERMAL_SAMPLE (R594). Every 100 µs the Crook samples paddock sensors, setting warnings and fencing and gating the
  hottest paddock at 115 °C. -/
  | thermalSample (temps : BitVec 256) (rails : BitVec 208) (watts : BitVec 272)
  /-- DEVICE_THERMAL_TRIP (R594). A second hot paddock, 120 °C, or heat persisting 10 ms fences the device, gates the
  dies and asserts THERM_TRIP_N. -/
  | deviceThermalTrip
  /-- HBM_HOT (R606). A stack sensor at 95 °C doubles its refresh rate until it reads below 92 °C. -/
  | hbmHot (st : Fin 16) (t : BitVec 16)
  /-- RAIL_OUT_OF_RANGE (R602). A rail out of range for 2 µs causes a power-on or cold-reach reset and is logged. -/
  | railOutOfRange (rail : Fin 13)
  /-- SEQUENCE_BREAK (R604). A rail rising before earlier groups are in range is recorded in ELEC_ERR bit 5 and the
  device held. -/
  | sequenceBreak (rail : Fin 13)
  /-- REFCLK_SD_LOSS (R609). A lost REFCLK_SD takes its eight blocks' lanes to idle and links to hold until the clock
  returns. -/
  | refclkSdLoss (p : Fin 16)
  /-- REFCLK_SD_RETURN (R609). A returned REFCLK_SD running 1,024 cycles in tolerance restarts its blocks' bring-up from
  wait. -/
  | refclkSdReturn (p : Fin 16)
  /-- REFCLK_PCIE_LOSS (R609). Loss of REFCLK_PCIE takes the PCIe link down and nothing else. -/
  | refclkPcieLoss
  /-- REFCLK_DRIFT (R609). Reference clocks disagreeing by more than 200 ppm set ELEC_ERR bit 4. -/
  | refclkDrift
  /-- CODEWORD_LOCK_LOSS (R204). A Fold link that loses codeword lock on a lane leaves up or ctrl for hold and restarts
  bring-up from wait. -/
  | codewordLockLoss (b : Fin 128) (lane : Fin 8)
  /-- TOKEN_BUCKET_REFILL (R121). Each cell time every queue and port token bucket gains rate/8,000 bytes per ns up to
  its burst, which can make a waiting head frame eligible on an idle port. -/
  | tokenBucketRefill
  /-- BELL_SLOT_OPEN (R111). At each Bell-slot boundary of a gated port the open mask changes, so a queue waiting for
  its gate can become eligible or a window closes. -/
  | bellSlotOpen
  /-- PTP_DELAY_REQ_SEND (R434). A listen port sends Delay_Req or Pdelay_Req in hardware at the domain's interval to
  obtain the path delay for its servo. -/
  | ptpDelayReqSend (port : Fin 1025) (x : Fin 2)
  /-- PTP_GENERAL_MESSAGE_RECEIVE (R430). A received Follow_Up, Delay_Resp or Pdelay_Resp_Follow_Up completes a two-step
  or delay sample and updates the domain servo. -/
  | ptpGeneralMessageReceive (port : Fin 1025) (bytes : List Byte)
  /-- MGMT_ARP_ND_ECHO (R500). The Crook answers an ARP, IPv6 neighbour discovery or ICMP echo request for its Oxpin
  addresses on the management port. -/
  | mgmtArpNdEcho (l : List Byte)
  /-- MODULE_DATA_PATH_ACTIVATED (R212). A module reports ModuleReady and DataPathActivated, ending the manager's wait
  and starting polling into PORT_MOD_STATE. -/
  | moduleDataPathActivated (b : Fin 128) (i : Fin 2) (state : BitVec 11)
  /-- HBM_SENSOR_BELOW_92 (R606). A stack whose sensor falls below 92 °C returns its controller to the normal refresh
  rate. -/
  | hbmSensorBelow92 (st : Fin 16) (t : BitVec 16)
  /-- MUSTER_LOG_ENTRY_ACCEPTED (R469). The HBM Fold class accepts a log entry write, releasing its logged frame to
  depart. -/
  | musterLogEntryAccepted (d : Fin 1040)
  deriving DecidableEq, Repr

end Sys2Proof
end

