-- ==== Sys2Proof/Decode.lean ====
section
/-!
DEFINITION. Commands read from words. The table of commands gives no row any bits, because a command reaches the block as an access,
a frame, a pin or a moment and not as a word; so no word spells one.
-/

namespace Sys2Proof

/-- The command that a word of `nbits` bits spells by the table's bits: none of its rows gives any. -/
def decodeTableWord (_nbits _w : Nat) : Option Instr := none

end Sys2Proof
end

