-- ==== Sys2Proof/Machine/DataState.lean ====
section
/-!
DEFINITION. State of the data path: the Fold, egress queues, forwarding tables and port blocks (chapters 02 to 07).
Objects of the dictionary are not here: each has its one home in `State.objs`.
-/

namespace Sys2Proof.Machine

/-! ### The Fold (chapter 02) -/

/-- Where a copy of a frame stands between arrival and its last read. -/
inductive CopyStage where
  | waiting    -- in its VOQ, not yet admitted (R82)
  | held       -- admitted and charged, held by its reorder context (R176)
  | queued     -- admitted, charged and linked into its egress queues
  deriving DecidableEq, Repr

/-- One stored copy of a frame: R68 writes a frame once on each die that holds a destination. -/
structure Copy where
  frame   : Frame := {}
  arr     : Nat := 0             -- the arrival it belongs to: copies of one frame share it
  input   : Nat := 0             -- gate matcher input: 0–127 pens, 128–143 local sources (R68)
  die     : Nat := 0             -- the destination die
  members : List Nat := []       -- queues 12·d + q the copy joins (R84, R102)
  stage   : CopyStage := .waiting
  landed  : Option Nat := none   -- the reach block whose pool is charged with its landing (R67)
  joint   : Bool := false        -- admitted only together with the arrival's other copies (R229)
  sent    : Nat := 0             -- sectors taken by the gate matcher
  left    : Nat := 0             -- cells that have left the pen, or have been read from the landing (R67, R200)
  written : Nat := 0             -- sectors written on the destination die
  groups  : List Nat := []       -- place of each cell stored, first cell first: a bank group, 128 far, 144 in a pool
  stored  : List Nat := []       -- when each cell was stored, ns (R90)
  freed   : Nat := 0             -- cells released so far, from the front (R82)
  waited  : Bool := false        -- counted in FOLD_ADMIT_WAITS (R83)
  bad     : Bool := false        -- a read of a cell failed its CRC or was uncorrectable (R97)
  admitNs : Nat := 0             -- time of admission (R133)
  deriving DecidableEq, Repr

/-- Where a cell group of a queue is (R87 to R92). -/
inductive GroupPlace where
  | near
  | evicting (stack : Nat)   -- the eviction write is in flight
  | far (stack : Nat)
  | fetching (stack : Nat)
  deriving DecidableEq, Repr

/-- A cell group: up to 16 consecutive cells of one queue, each (copy, cell number) (R87, R88). -/
structure CellGroup where
  cells    : List (Nat × Nat) := []
  complete : Bool := false
  place    : GroupPlace := .near
  fenced   : Bool := false           -- its slot lies on a fenced stack or was read in error (R97)
  deriving DecidableEq, Repr

/-- One bank group (R59): cells in use, fenced banks, and times of uncorrectable errors by bank (R97). -/
structure BankGroup where
  used     : Nat := 0
  fenced   : Nat := 0              -- mask of the twelve banks
  ues      : List (Nat × Nat) := [] -- (bank, ns)
  degraded : Bool := false
  deriving DecidableEq, Repr

/-- One direction of a ridge link (R73 to R76, R97). -/
structure RidgeDir where
  usedCredits : Nat := 0   -- credits in use of the 4,096
  relayTurn   : Nat := 0   -- relay sectors served in the round of R75
  localTurn   : Nat := 0
  deriving DecidableEq, Repr

/-- A transfer accepted by the gate matcher and not yet written (R69 to R71). -/
structure Transfer where
  copy    : Nat            -- the copy it belongs to
  cell    : Nat            -- which of its cells
  sectors : Nat            -- 1 to 4
  group   : Nat            -- destination bank group
  hops    : List Nat       -- ridge directions 2·l + u still to cross
  held    : Option Nat     -- the direction whose receive buffer holds it, once relayed
  left    : Bool := false  -- it has left its input (R71)
  read    : Bool := false  -- its cell has been read from the landing (R57, R67)
  deriving DecidableEq, Repr

/-- One egress queue (R100 to R133). `short` is how far its bucket is below its burst, in 4,000ths of 2^-24 bytes, so that
a cell time's refill of rate/4,000 bytes leaves no remainder (R121). -/
structure EQueue where
  frames     : List Nat := []           -- copies, head first
  groups     : List CellGroup := []
  used       : Nat := 0                 -- cells charged (R82)
  deficit    : Nat := 0
  short      : Nat := 0
  pauseUntil : Option Nat := none       -- ns
  pauseSince : Option Nat := none       -- ns, of the unbroken pause (R131)
  wdFired    : Bool := false            -- the watchdog has counted this pause
  headT64    : Nat := 0                 -- device time, as T64, when the head became the head (R117)
  overran    : Bool := false            -- the head was sent into closed slots (R113)
  depthMax   : Nat := 0                 -- of the running tick (R133)
  maxSojourn : Nat := 0
  bytes      : Nat := 0
  drops      : Nat := 0
  marks      : Nat := 0
  deriving DecidableEq, Repr

/-- A frame that is departing or chosen to depart at a port or sink. -/
structure Departing where
  copy     : Nat
  queue    : Nat
  started  : Bool := false
  cellRead : Nat := 0
  space    : Option (Nat × Nat) := none   -- credit space charged: (VC, 0 reserve or 1 shared)
  logged   : Bool := true                 -- its log entry, if any, has been accepted (R469)
  bytes    : List Byte := []              -- as sent
  deriving DecidableEq, Repr

/-- What a selection chose, as the rows stood then (R110): the queue and copy, the charged length, whether the buckets are
shaped, and whether the queue stood at its marking threshold (R123). -/
structure Chosen where
  queue   : Nat
  copy    : Nat
  len     : Nat
  qShaped : Bool := false
  pShaped : Bool := false
  mark    : Bool := false
  deriving DecidableEq, Repr

/-- The scheduler state of one destination (port or sink) (R108, R114, R127). -/
structure EPort where
  cursors  : TMap Nat := []         -- DRR cursor of each level
  rr0      : TMap Nat := []         -- last weight-0 queue served at each level
  short    : Nat := 0               -- port bucket, as in EQueue
  dep      : Option Departing := none
  next     : Option Chosen := none  -- chosen for the next departure
  xoff     : Nat := 0               -- priorities in XOFF
  xoffAt   : TMap Nat := []         -- when XOFF of a priority is next repeated, ns
  gateRow  : Option Nat := none     -- a gate row written and not yet in effect (R114)
  deriving DecidableEq, Repr

/-- Gate matcher pointers (R70). -/
structure GatePtrs where
  request : TMap Nat := []   -- by input: the VOQ after which the request round robin starts
  accept  : TMap Nat := []   -- by input
  grant   : TMap Nat := []   -- by bank group
  deriving DecidableEq, Repr

/-- The Fold, pens, gate matcher and egress queues. -/
structure Fold where
  zero       : Nat := 0                -- ns at the release of the Fold's reset: cell time 0 (R56)
  nextId     : Nat := 1
  copies     : TMap Copy := []
  voqs       : TMap (List Nat) := []   -- key 8,320·input + 8·destination + class (R64)
  penUsed    : TMap Nat := []          -- cells of each pen or local source in use
  penPrio    : TMap Nat := []          -- cells by 8·port + priority (R126)
  arrCells   : TMap Nat := []          -- pen cells an arrival still holds
  backlog    : TMap (List (Frame × List Nat)) := [] -- by local source: frames a producer holds while the source is full (R65)
  unissued   : List (Nat × Nat × List Byte) := [] -- frames producers hold while their pasture is held: paddock, header, payload (R232)
  landing    : TMap Nat := []          -- landing cells charged to a reach block's pool (R67)
  landCells  : TMap (List Nat) := []   -- by arrival: where each landing cell lies, as in a copy's groups
  banks      : TMap BankGroup := []
  eccFixed   : TMap Nat := []          -- corrected near SRAM errors by bank group (R97)
  ridges     : TMap RidgeDir := []
  ridgeFenced : Nat := 0               -- mask of fenced ridge links
  gate       : GatePtrs := {}
  inflight   : List Transfer := []
  fetchUsed  : TMap Nat := []          -- fetch-reserve cells in use by die (R62)
  rotate     : TMap Nat := []          -- next stack of the die's rotation (R87)
  occEvict   : Nat := 0                -- mask of dies in occupancy eviction (R90)
  share      : Nat := 6                -- FOLD_HBM_SHARE in effect (R98)
  atLimit    : Nat := 0                -- mask of stacks whose Fold class was last seen at its limit (R87)
  limitTick  : Nat := 0                -- those at it, evictions pending, for the whole running tick so far (R99)
  pastUsed   : TMap Nat := []          -- cells by 4,096·die + pasture
  prealloc   : TMap Nat := []          -- Drover preallocations by sink queue (R81)
  queues     : TMap EQueue := []       -- by 12·d + q
  eports     : TMap EPort := []        -- by d
  qrecBell   : Option (Nat × Bool) := none -- tick of the last queue records, and whether they were late (R132)
  qrecRing   : Nat := 0                -- how many of them went into the history ring (R133)
  deriving DecidableEq, Repr

/-! ### Forwarding (chapter 04) and routing (chapter 06) -/

/-- One die's Heft: slots by 262,144·way + slot, the stash, the learn queue and the notice queue. -/
structure HeftDie where
  slots   : TMap Nat := []          -- entries, packed as in the Heft entry layout
  stash   : List Nat := []          -- at most 64
  learn   : List (Nat × Nat) := []  -- requests: (entry, arrival flock port or 1,024)
  notices : List (Nat × Nat) := []  -- (entry, kind and discarded) for HEFT_REQ
  deriving DecidableEq, Repr

/-- One reorder context (R177): E, the window latched, held frames by number, timer deadline in ns. -/
structure Reorder where
  expect   : Nat := 0
  window   : Nat := 0               -- 0: the object's value has not been latched
  held     : List (Nat × Nat) := [] -- (number, copy)
  deadline : Option Nat := none
  deriving DecidableEq, Repr

/-- Forwarding state outside the objects. -/
structure Fwd where
  heft      : TMap HeftDie := []      -- by die
  lpm       : TMap Nat := []          -- next hop + 1 by prefix key (R165, R167)
  flips     : TMap Nat := []          -- pending flips: Bell number by pasture (R170)
  snaps     : TMap Nat := []          -- pending snapshots: Bell number by pasture (R234)
  sprayPtr  : TMap Nat := []          -- rotating pointer by spray group (R174)
  spraySeq  : TMap Nat := []          -- next number + 1 by 8·dst_dev + class; 0 = sync due (R175)
  reorder   : TMap Reorder := []      -- by 8·src_dev + class
  deriving DecidableEq, Repr

/-! ### Port blocks (chapters 05 and 07) -/

/-- One module of a block (R211 to R213): the sequence step reached, failures in a row, and deadlines. -/
structure Module where
  step     : Nat := 0               -- 0 idle, 1–6 the steps of R212, 7 polling, 8 stopped
  fails    : Nat := 0
  deadline : Option Nat := none     -- the 60 s wait, the next poll, or the next retry, in ns
  deriving DecidableEq, Repr

/-- One port block. -/
structure Block where
  states     : TMap Nat := []        -- PORT_STATE by sub-port (R215)
  inner      : Nat := 0              -- bring-up state behind hold: 1 wait to 4 hello
  stepAt     : Option Nat := none    -- deadline of the bring-up step, ns
  trained    : Nat := 0              -- mask of lanes with equalisers adapted
  signal     : Nat := 0              -- mask of lanes with signal (PORT_LINK)
  locked     : Nat := 0              -- mask of lanes with lock
  epochSeed  : Nat := 0              -- the draw of link_epoch at the last reset (R196)
  epochInc   : Nat := 0              -- increments since
  askResume  : Bool := false         -- this bring-up runs from hold and asks to resume
  peerSerial : Nat := 0              -- recorded for R205
  peerEpoch  : Nat := 0
  helloSeen  : Bool := false         -- a peer hello has been received in this bring-up
  helloSent  : Nat := 0
  lastTSend  : Nat := 0              -- t_send of the peer hello last received
  lastAt     : Nat := 0              -- and when, in ns
  echoes     : Nat := 0
  rttMin     : Nat := 0
  txSeq      : Nat := 0              -- next number to send
  replay     : List Flit := []       -- sent and unacked, oldest first
  replays    : Nat := 0              -- consecutive replays without progress
  ackAt      : Nat := 0              -- when ack last advanced, ns
  rxSeq      : Nat := 0              -- next number expected
  nakSent    : Bool := false
  nakDue     : Bool := false         -- the nak has still to go out with a flit (R203)
  ackTold    : Nat := 0              -- rxSeq as the last flit sent told it
  skewed     : List (Nat × Nat × List Byte) := [] -- flits ahead of order: arrival in ns, header, payload (R191)
  partialRx  : List Byte := []       -- a partly received frame
  partialSh  : Bool := false
  credits    : TMap Nat := []        -- sender's counts: VC 0–7, 8 shared
  granted    : TMap Nat := []        -- the peer's advertised values
  charged    : TMap Nat := []        -- receiver's cells charged: VC 0–7, 8 shared
  rsvInUse   : TMap Nat := []        -- reserves in effect (R199), by VC
  spaceInUse : Nat := 1024           -- receive space in effect
  returns    : List (Nat × Nat) := [] -- credit returns due: (VC or 8 for shared with its VC in the high part, cells)
  holdAt     : Option Nat := none    -- end of PORT_HOLD_MS, ns
  portDownAt : TMap Nat := []        -- flock: end of the hold by sub-port, ns (R207)
  quiesceAt  : Option Nat := none    -- end of the quiesce wait, ns
  recheck    : Bool := false         -- VC0 only until the hello is repeated (R33)
  fifo       : Nat := 0              -- frames in the parser FIFO (R140)
  fifoXoff   : Bool := false
  modules    : TMap Module := []
  armAt      : Option Nat := none    -- end of CIRC_ARM_TIMEOUT_MS, ns (R256)
  presetSlot : Option Nat := none    -- preset loaded for this bring-up (R252)
  presetAt   : Option Nat := none    -- end of its bounded adaptation, ns
  preset     : Nat := 0              -- the preset row as loaded (R252)
  darkAt     : Option Nat := none    -- when signal was lost, ns
  lightAt    : Nat := 0              -- when the last of the eight lanes showed signal, ns (R253)
  laneState  : TMap Nat := []        -- equaliser state by lane, as a preset stores it
  lastSlot   : Nat := 0              -- PORT_CIRC: slot loaded, whether it served, µs from light, outcome (R264)
  lastUsed   : Bool := false
  relinkUs   : Nat := 0
  lastOut    : Nat := 0
  deriving DecidableEq, Repr

end Sys2Proof.Machine
end

