-- ==== Sys2Proof/Machine/HostState.lean ====
section
/-!
DEFINITION. State of the control plane, the host interface, observability, reset and power (chapters 14 to 18).
-/

namespace Sys2Proof.Machine

/-! ### Control plane (chapter 14) -/

/-- An open Oxpin session (R503 to R508). -/
structure Session where
  ident   : Nat := 0                 -- session identifier
  role    : Nat := 1
  enc     : Bool := false
  slot    : Nat := 0
  txSeq   : Nat := 1                 -- next number the device sends
  rxHigh  : Nat := 0                 -- highest number seen from the client
  kept    : List (Nat × List Byte) := []  -- the last eight responses, newest first
  lastNs  : Nat := 0                 -- last valid client message
  kMac    : List Byte := []
  kEnc    : List Byte := []
  deriving DecidableEq, Repr

/-- An open waiting for its OPEN_PROOF (R503). -/
structure PendingOpen where
  ident  : Nat
  slot   : Nat
  role   : Nat
  enc    : Bool
  nonceC : List Byte
  nonceS : List Byte
  expire : Nat
  deriving DecidableEq, Repr

/-- The control plane outside its objects. -/
structure Ctl where
  mainAlive  : Bool := false
  logWrapped : Bool := false
  wdtAt      : Option Nat := none     -- core watchdog deadline, ns (R491)
  sessions   : TMap (Option Session) := []     -- by session row
  opens      : List PendingOpen := []
  fails      : TMap Nat := []         -- failed proofs in a row by slot (R504)
  locked     : TMap Nat := []         -- lock end by slot, ns; 0 unlocked
  apply      : TMap (Option (Nat × Nat)) := []  -- pending FEAT_APPLY by pasture: (Bell number, vector)
  ready      : Bool := false          -- FW_READY written since the last load
  fwVerify   : Option Nat := none     -- image length under verification (R516)
  fwHeader   : List Byte := []        -- header of the loaded image, its 256 bytes
  fwSigs     : List Byte := []        -- and its two signatures
  netGot     : List (Nat × Nat) := [] -- network boot: ranges received, as offset and length (R518)
  netBlocks  : Nat := 0
  netReqAt   : Option Nat := none     -- next BOOT_REQ, ns
  netDataAt  : Option Nat := none     -- end of the 10 s silence limit, ns
  featSent   : Nat := 0               -- Bell number of the last FEATURES flood
  featDue    : Bool := false          -- FEAT_ACCEPT has changed since
  coreEvqTail : Nat := 0              -- next record of the core event queue, counting wraps
  crookAt    : Nat := 0               -- when the Crook began to run, oscillator ns
  deriving DecidableEq, Repr

/-! ### PCI Express (chapter 15) -/

/-- One function: its function page, mailbox areas, MSI-X table (R531, R546). -/
structure PciFn where
  evqBase  : Nat := 0
  evqCfg   : Nat := 6
  evqHead  : Nat := 0
  evqTail  : Nat := 0       -- index of the next record
  phase    : Bool := true
  lost     : Nat := 0
  overflow : Bool := false  -- records were dropped since the last one written
  unacked  : Bool := false  -- a message for the queue is unacknowledged
  mbxCfg   : Nat := 0       -- vector in [12:2], irq_en in [13] of PCIE_MBX
  mbxBusy  : Bool := false
  mbxDone  : Nat := 0
  mbxReq   : List Byte := []    -- mailbox request area
  mbxResp  : List Byte := []    -- mailbox response area
  mbxAnswer : Option (List Byte) := none -- the response of the request taken; none when it is to be discarded (R541)
  msix     : TMap Nat := [] -- table entries, 128 bits each: address, data, vector control; unlisted: masked
  msixPend : NSet := []     -- pending bits
  deriving DecidableEq, Repr

/-- The host interface outside its objects and registers. -/
structure Pcie where
  fns     : TMap PciFn := []      -- by function, 0 PF
  numVfs  : Nat := 0
  vfEnable : Bool := false
  rate    : Nat := 0              -- PCIE_STATUS fields
  width   : Nat := 0
  flit    : Bool := false
  l0p     : Bool := false
  perst   : Bool := false         -- PERST_N is asserted
  doe     : Option (List Byte) := none   -- DOE data object in progress, its response ready to be read
  bar2Log : Nat := 36             -- log2 of the BAR2 size set by Resizable BAR (R528)
  deriving DecidableEq, Repr

/-! ### Observability (chapter 16) -/

/-- A record in a capture buffer (R563): the frame head, the metadata word, and whether FLEECE_CAPTURE asked for it. -/
structure Capture where
  head : List Byte := []
  info : Nat := 0
  byCmd : Bool := false
  deriving DecidableEq, Repr

/-- The Tally and the Fleece ring outside their objects. -/
structure Obsv where
  ctr     : TMap Nat := []          -- counter n: value, and its overflow flag in bit 48
  shadow  : TMap Nat := []          -- TALLY_SHADOW rows
  snaps   : Nat := 0                -- snapshots taken
  snapAt  : Option Nat := none      -- Bell number of a pending TALLY_SNAP_AT
  nowAt   : List Nat := []          -- ns of the cycles of the pending TALLY_SNAP_NOWs, earliest first
  ringBuf : Option (Nat × TMap Nat) := none  -- the write buffer: header and shadow rows
  buf     : TMap (List Capture) := [] -- capture buffers by die, oldest first
  lost    : NSet := []              -- dies that have lost a record since their last one
  full    : Bool := false           -- the ring stopped full
  seq     : Nat := 0                -- captures made
  sample  : TMap Nat := []          -- frames seen at 2·port + point since the row was written
  burst   : TMap (Nat × Nat) := []  -- frames a burst still captures and its trigger's cause, at 4·port + point
  want    : Option (Nat × Nat) := none  -- a pending FLEECE_CAPTURE: port and point
  aclHits : List (Nat × Nat × List Byte) := [] -- frames an ACL fleece action took, not yet captured: port, row, bytes (R152)
  deriving DecidableEq, Repr

/-! ### Reset and power (chapter 17) -/

/-- Resets, power states, gates and pins outside their objects. `width` is the widest reset asserted: 0 none, 1 warm,
2 cold, 3 power-on. -/
structure Power where
  sources : List ResetSource := []   -- sources that hold the device in reset
  width   : Nat := 0
  cause   : Nat := 0                 -- RST_STATUS
  announced : Bool := false
  target  : Option Nat := none       -- target of the power-state transition in progress
  slow    : Bool := false            -- a step of it exceeded its bound
  tiles   : Nat := 0                 -- mask of gated tiles
  asleep  : Nat := 0                 -- mask of stacks in self-refresh (R591, R593)
  gating  : TMap Nat := []           -- by stack whose gate has not completed, one more than its limit in ns (R593)
  faultN  : Bool := true             -- the level of FAULT_N
  thermTrip : Bool := false          -- THERM_TRIP_N is asserted
  sampleAt : Nat := 0                -- next sample of the paddock sensors, ns (R594)
  tripAt  : Option Nat := none       -- when the first stage of the trip fired, ns, and its paddock
  tripped : Nat := 0
  warned  : Bool := false            -- ELEC_ERR bit 1 waits for every paddock to cool (R621)
  refresh : Nat := 0                 -- mask of stacks at twice the refresh rate (R606)
  clockLost : Nat := 0               -- mask of REFCLK_SD that are lost (R609)
  safeLevel : Bool := false          -- GPIOs stand at their safe levels (R585)
  inReset : TMap Nat := []           -- by 256·kind + unit of a block reset, the ns until which its bit reads 1 (R581)
  busCut  : Nat := 0                 -- mask of I3C buses that a reset cut short (R585)
  woken   : Bool := true             -- the cores have started since PWR_WAKE_FROM was last raised (R592)
  deriving DecidableEq, Repr
end Sys2Proof.Machine
end

