-- ==== Sys2Proof/Machine/ObjTable.lean ====
section
/-!
DEFINITION. The object dictionary (R16 to R21): every object of the manual's tables with its type, access, roles,
persistence class, row size and row count, and the value it returns to on a reset of its class.
An object is named by 256·index + element. Port block b's objects stand at the indices of block 0 plus 16·b (R215),
domain B's at o0302 like domain A's at o0301 (R458).
-/

namespace Sys2Proof.Machine

/-- Object types (R17). -/
inductive ObjType where
  | bool | u8 | u16 | u32 | u64 | s8 | s16 | s32 | s64 | bits32 | bits64 | time112 | addr64 | str | blob | table
  deriving DecidableEq, Repr

/-- Object access codes (R18). -/
inductive Access where
  | ro | rw | wo | cmd | w1c | wor
  deriving DecidableEq, Repr

/-- Roles (R19), in rising order of rights. -/
inductive Role where
  | obs | opr | adm
  deriving DecidableEq, Repr

/-- Persistence classes (R20). -/
inductive Pers where
  | p0 | p1 | p2 | p3 | pv
  deriving DecidableEq, Repr

/-- One object of the dictionary. `size` is the row size of a TABLE or the maximum length of a BLOB, STR or TIME112. -/
structure ObjDef where
  idx  : Nat
  el   : Nat
  ty   : ObjType
  acc  : Access
  rd   : Role
  wr   : Role
  pers : Pers
  size : Nat
  rows : Nat
  deriving DecidableEq, Repr

/-! ### Names of the objects -/

/-- o2800.01 FAB_DIM_X (R32). -/
abbrev O.FAB_DIM_X : Nat := 0x280001
/-- o2800.02 FAB_DIM_Y (R32). -/
abbrev O.FAB_DIM_Y : Nat := 0x280002
/-- o2800.03 FAB_DIM_Z (R32). -/
abbrev O.FAB_DIM_Z : Nat := 0x280003
/-- o2800.04 FAB_WRAP (R32). -/
abbrev O.FAB_WRAP : Nat := 0x280004
/-- o2800.05 FAB_DEV_NUM (R32). -/
abbrev O.FAB_DEV_NUM : Nat := 0x280005
/-- o2800.06 FAB_SITE (R32). -/
abbrev O.FAB_SITE : Nat := 0x280006
/-- o2800.07 FAB_SPARE (R32). -/
abbrev O.FAB_SPARE : Nat := 0x280007
/-- o2800.08 FAB_WIRING_FAULT (R32). -/
abbrev O.FAB_WIRING_FAULT : Nat := 0x280008
/-- o2800.09 FAB_PLACED (R32). -/
abbrev O.FAB_PLACED : Nat := 0x280009
/-- o2000.01 FOLD_FAR_SIZE_GIB (R98). -/
abbrev O.FOLD_FAR_SIZE_GIB : Nat := 0x200001
/-- o2000.02 FOLD_FAR_SIZE_EFF (R98). -/
abbrev O.FOLD_FAR_SIZE_EFF : Nat := 0x200002
/-- o2000.03 FOLD_HBM_SHARE in sixteenths (R98). -/
abbrev O.FOLD_HBM_SHARE : Nat := 0x200003
/-- o2000.04 FOLD_HBM_CEIL in sixteenths (R98). -/
abbrev O.FOLD_HBM_CEIL : Nat := 0x200004
/-- o2000.05 FOLD_RESIDENCY_NS (R98). -/
abbrev O.FOLD_RESIDENCY_NS : Nat := 0x200005
/-- o2000.06 FOLD_EVICT_HI (R98). -/
abbrev O.FOLD_EVICT_HI : Nat := 0x200006
/-- o2000.07 FOLD_EVICT_LO (R98). -/
abbrev O.FOLD_EVICT_LO : Nat := 0x200007
/-- o2000.08 FOLD_HEAD_GUARD (R98). -/
abbrev O.FOLD_HEAD_GUARD : Nat := 0x200008
/-- o2000.09 FOLD_PREFETCH (R98). -/
abbrev O.FOLD_PREFETCH : Nat := 0x200009
/-- o2000.0A FOLD_EVICT_ORDER (R98). -/
abbrev O.FOLD_EVICT_ORDER : Nat := 0x20000A
/-- o2000.0B FOLD_ECC_FENCE_COUNT (R98). -/
abbrev O.FOLD_ECC_FENCE_COUNT : Nat := 0x20000B
/-- o2000.0C RIDGE_RELAY_W (R98). -/
abbrev O.RIDGE_RELAY_W : Nat := 0x20000C
/-- o2000.0D RIDGE_LOCAL_W (R98). -/
abbrev O.RIDGE_LOCAL_W : Nat := 0x20000D
/-- o2001.01–.04 FOLD_NEAR_USED (R98). -/
abbrev O.FOLD_NEAR_USED : Nat := 0x200101
/-- o2001.05–.08 FOLD_FAR_USED (R98). -/
abbrev O.FOLD_FAR_USED : Nat := 0x200105
/-- o2001.09 FOLD_EVICTED (R98). -/
abbrev O.FOLD_EVICTED : Nat := 0x200109
/-- o2001.0A FOLD_FETCHED (R98). -/
abbrev O.FOLD_FETCHED : Nat := 0x20010A
/-- o2001.0B FOLD_ADMIT_WAITS (R98). -/
abbrev O.FOLD_ADMIT_WAITS : Nat := 0x20010B
/-- o2001.0C FOLD_LOSSY_DROPS (R98). -/
abbrev O.FOLD_LOSSY_DROPS : Nat := 0x20010C
/-- o2001.0D FOLD_POISONED (R98). -/
abbrev O.FOLD_POISONED : Nat := 0x20010D
/-- o2001.0E FOLD_BANKS_FENCED (R98). -/
abbrev O.FOLD_BANKS_FENCED : Nat := 0x20010E
/-- o2001.0F FOLD_GROUPS_FENCED (R98). -/
abbrev O.FOLD_GROUPS_FENCED : Nat := 0x20010F
/-- o2001.10 FOLD_GROUPS_FENCED (R98). -/
abbrev O.FOLD_GROUPS_FENCED_HI : Nat := 0x200110
/-- o2001.11 FOLD_ERR (R98). -/
abbrev O.FOLD_ERR : Nat := 0x200111
/-- o2002.01 FOLD_THR_PASTURE (R98). -/
abbrev O.FOLD_THR_PASTURE : Nat := 0x200201
/-- o2002.02 FOLD_THR_PORT (R98). -/
abbrev O.FOLD_THR_PORT : Nat := 0x200202
/-- o2002.03 FOLD_THR_QUEUE (R98). -/
abbrev O.FOLD_THR_QUEUE : Nat := 0x200203
/-- o2010.01 EGR_QCFG (R135). -/
abbrev O.EGR_QCFG : Nat := 0x201001
/-- o2010.02 EGR_PORTCFG (R135). -/
abbrev O.EGR_PORTCFG : Nat := 0x201002
/-- o2010.03 EGR_GATE (R135). -/
abbrev O.EGR_GATE : Nat := 0x201003
/-- o2010.04 PFC_CFG (R135). -/
abbrev O.PFC_CFG : Nat := 0x201004
/-- o2011.01 EGR_QREC_CUR (R135). -/
abbrev O.EGR_QREC_CUR : Nat := 0x201101
/-- o2011.02 EGR_QREC_BASE (R135). -/
abbrev O.EGR_QREC_BASE : Nat := 0x201102
/-- o2011.03 EGR_QREC_SIZE (R135). -/
abbrev O.EGR_QREC_SIZE : Nat := 0x201103
/-- o2011.04 EGR_QREC_HEAD (R135). -/
abbrev O.EGR_QREC_HEAD : Nat := 0x201104
/-- o2011.05 EGR_QREC_WRAPS (R135). -/
abbrev O.EGR_QREC_WRAPS : Nat := 0x201105
/-- o2012.01 EGR_GATE_OVERRUNS (R135). -/
abbrev O.EGR_GATE_OVERRUNS : Nat := 0x201201
/-- o2012.02 EGR_LAUNCH_INVERSIONS (R135). -/
abbrev O.EGR_LAUNCH_INVERSIONS : Nat := 0x201202
/-- o2012.03 EGR_DROP_LATE (R135). -/
abbrev O.EGR_DROP_LATE : Nat := 0x201203
/-- o2012.04 EGR_DROP_HORIZON (R135). -/
abbrev O.EGR_DROP_HORIZON : Nat := 0x201204
/-- o2012.05 EGR_MARKS (R135). -/
abbrev O.EGR_MARKS : Nat := 0x201205
/-- o2012.06 EGR_MARK_SKIPPED (R135). -/
abbrev O.EGR_MARK_SKIPPED : Nat := 0x201206
/-- o2012.07 PFC_HEADROOM_DROPS (R135). -/
abbrev O.PFC_HEADROOM_DROPS : Nat := 0x201207
/-- o2012.08 PFC_WD_EVENTS (R135). -/
abbrev O.PFC_WD_EVENTS : Nat := 0x201208
/-- o2012.09 PFC_WD_DROPS (R135). -/
abbrev O.PFC_WD_DROPS : Nat := 0x201209
/-- o2012.0A PFC_PAUSE_IGNORED (R135). -/
abbrev O.PFC_PAUSE_IGNORED : Nat := 0x20120A
/-- o2012.0B EGR_ERR (R135). -/
abbrev O.EGR_ERR : Nat := 0x20120B
/-- o2400.01 FWD_ETHERTYPE (R184). -/
abbrev O.FWD_ETHERTYPE : Nat := 0x240001
/-- o2400.02 FWD_ROUTER_MAC in bits [47 (R184). -/
abbrev O.FWD_ROUTER_MAC : Nat := 0x240002
/-- o2400.03 FWD_HASH_SEED (R184). -/
abbrev O.FWD_HASH_SEED : Nat := 0x240003
/-- o2400.04 FWD_PORTCFG (R184). -/
abbrev O.FWD_PORTCFG : Nat := 0x240004
/-- o2400.05 FWD_PASTURE (R184). -/
abbrev O.FWD_PASTURE : Nat := 0x240005
/-- o2400.06 FWD_DSCP_MAP (R184). -/
abbrev O.FWD_DSCP_MAP : Nat := 0x240006
/-- o2401.01 HEFT_AGE_SHIFT (R184). -/
abbrev O.HEFT_AGE_SHIFT : Nat := 0x240101
/-- o2401.02 HEFT_AGE_LIMIT (R184). -/
abbrev O.HEFT_AGE_LIMIT : Nat := 0x240102
/-- o2401.03 HEFT_NOTIFY (R184). -/
abbrev O.HEFT_NOTIFY : Nat := 0x240103
/-- o2401.04 HEFT_OP (R184). -/
abbrev O.HEFT_OP : Nat := 0x240104
/-- o2401.05 HEFT_OP_STATUS (R184). -/
abbrev O.HEFT_OP_STATUS : Nat := 0x240105
/-- o2401.06 HEFT_ENTRIES (R184). -/
abbrev O.HEFT_ENTRIES : Nat := 0x240106
/-- o2401.07 HEFT_TABLE (R184). -/
abbrev O.HEFT_TABLE : Nat := 0x240107
/-- o2402.01 LPM_OP (R184). -/
abbrev O.LPM_OP : Nat := 0x240201
/-- o2402.02 LPM_NEXTHOP (R184). -/
abbrev O.LPM_NEXTHOP : Nat := 0x240202
/-- o2402.03 LPM_USED (R184). -/
abbrev O.LPM_USED : Nat := 0x240203
/-- o2403.01 ACL_TABLE (R184). -/
abbrev O.ACL_TABLE : Nat := 0x240301
/-- o2403.02 ACL_HITS (R184). -/
abbrev O.ACL_HITS : Nat := 0x240302
/-- o2404.01 FWD_STAT (R184). -/
abbrev O.FWD_STAT : Nat := 0x240401
/-- o2404.02 FWD_ERR (R184). -/
abbrev O.FWD_ERR : Nat := 0x240402
/-- o2810.01 ROUTE_PASTURE (R184). -/
abbrev O.ROUTE_PASTURE : Nat := 0x281001
/-- o2810.02 ROUTE_PROFILE (R184). -/
abbrev O.ROUTE_PROFILE : Nat := 0x281002
/-- o2810.03 ROUTE_GROUP (R184). -/
abbrev O.ROUTE_GROUP : Nat := 0x281003
/-- o2810.04 ROUTE_MEMBER (R184). -/
abbrev O.ROUTE_MEMBER : Nat := 0x281004
/-- o2810.05 ROUTE_FLIP (R184). -/
abbrev O.ROUTE_FLIP : Nat := 0x281005
/-- o2810.06 ROUTE_FAILOVER_ACT (R184). -/
abbrev O.ROUTE_FAILOVER_ACT : Nat := 0x281006
/-- o2811.01 FWD_REORDER_WINDOW (R184). -/
abbrev O.FWD_REORDER_WINDOW : Nat := 0x281101
/-- o2811.02 FWD_REORDER_TO (R184). -/
abbrev O.FWD_REORDER_TO : Nat := 0x281102
/-- o2811.03 FWD_REORDER_TO_DEF (R184). -/
abbrev O.FWD_REORDER_TO_DEF : Nat := 0x281103
/-- o1000.01 PORT_ROLE (R215). -/
abbrev O.PORT_ROLE : Nat := 0x100001
/-- o1000.02 PORT_SPLIT (R215). -/
abbrev O.PORT_SPLIT : Nat := 0x100002
/-- o1000.03 PORT_LANE_RATE (R215). -/
abbrev O.PORT_LANE_RATE : Nat := 0x100003
/-- o1000.04 PORT_MAX_FRAME (R215). -/
abbrev O.PORT_MAX_FRAME : Nat := 0x100004
/-- o1000.05 PORT_MEDIA (R215). -/
abbrev O.PORT_MEDIA : Nat := 0x100005
/-- o1000.06 PORT_VC_RSV (R215). -/
abbrev O.PORT_VC_RSV : Nat := 0x100006
/-- o1000.07 PORT_POOL_MIB (R215). -/
abbrev O.PORT_POOL_MIB : Nat := 0x100007
/-- o1000.08 PORT_HOLD_MS (R215). -/
abbrev O.PORT_HOLD_MS : Nat := 0x100008
/-- o1000.09 PORT_LOOPBACK (R215). -/
abbrev O.PORT_LOOPBACK : Nat := 0x100009
/-- o1000.0A PORT_RETRAIN (R215). -/
abbrev O.PORT_RETRAIN : Nat := 0x10000A
/-- o1001.01 PORT_STATE (R215). -/
abbrev O.PORT_STATE : Nat := 0x100101
/-- o1001.02 PORT_RTT_NS (R215). -/
abbrev O.PORT_RTT_NS : Nat := 0x100102
/-- o1001.03 PORT_FEAT (R215). -/
abbrev O.PORT_FEAT : Nat := 0x100103
/-- o1001.04 PORT_PEER (R215). -/
abbrev O.PORT_PEER : Nat := 0x100104
/-- o1001.05 PORT_ERR (R215). -/
abbrev O.PORT_ERR : Nat := 0x100105
/-- o1001.06 PORT_CNT (R215). -/
abbrev O.PORT_CNT : Nat := 0x100106
/-- o1001.07 PORT_LANE_SNR (R215). -/
abbrev O.PORT_LANE_SNR : Nat := 0x100107
/-- o1002.01–.02 PORT_MOD_PATH of modules 0 and 1 (R215). -/
abbrev O.PORT_MOD_PATH : Nat := 0x100201
/-- o1002.03 PORT_MOD_APP (R215). -/
abbrev O.PORT_MOD_APP : Nat := 0x100203
/-- o1002.04–.05 PORT_MOD_STATE of modules 0 and 1 (R215). -/
abbrev O.PORT_MOD_STATE : Nat := 0x100204
/-- o1002.06 PORT_MOD_POLL_MS (R215). -/
abbrev O.PORT_MOD_POLL_MS : Nat := 0x100206
/-- o2820.01 VC_CLASS (R242). -/
abbrev O.VC_CLASS : Nat := 0x282001
/-- o2820.02 VC_ENC_SPRAY (R242). -/
abbrev O.VC_ENC_SPRAY : Nat := 0x282002
/-- o2820.03 VC_STAT (R242). -/
abbrev O.VC_STAT : Nat := 0x282003
/-- o2820.04 VC_ERR (R242). -/
abbrev O.VC_ERR : Nat := 0x282004
/-- o2821.01 ROUTE_HOLD (R242). -/
abbrev O.ROUTE_HOLD : Nat := 0x282101
/-- o2821.02 ROUTE_SNAP (R242). -/
abbrev O.ROUTE_SNAP : Nat := 0x282102
/-- o2821.03 ROUTE_SNAP_RES (R242). -/
abbrev O.ROUTE_SNAP_RES : Nat := 0x282103
/-- o2821.04 ROUTE_FLIP_CANCEL (R242). -/
abbrev O.ROUTE_FLIP_CANCEL : Nat := 0x282104
/-- o2C00.01 CIRC_EXPECT (R263). -/
abbrev O.CIRC_EXPECT : Nat := 0x2C0001
/-- o2C00.02 CIRC_ARM (R263). -/
abbrev O.CIRC_ARM : Nat := 0x2C0002
/-- o2C00.03 CIRC_ARM_TIMEOUT_MS (R263). -/
abbrev O.CIRC_ARM_TIMEOUT_MS : Nat := 0x2C0003
/-- o2C00.04 CIRC_PRESET (R263). -/
abbrev O.CIRC_PRESET : Nat := 0x2C0004
/-- o2C00.05 CIRC_PRESET_OP (R263). -/
abbrev O.CIRC_PRESET_OP : Nat := 0x2C0005
/-- o2C00.06 CIRC_PRESET_OP_STATUS (R263). -/
abbrev O.CIRC_PRESET_OP_STATUS : Nat := 0x2C0006
/-- o2C00.07 CIRC_STAT (R263). -/
abbrev O.CIRC_STAT : Nat := 0x2C0007
/-- o2C00.08 CIRC_ERR (R263). -/
abbrev O.CIRC_ERR : Nat := 0x2C0008
/-- o2C01.01 CIRC_HP_WINDOW (R263). -/
abbrev O.CIRC_HP_WINDOW : Nat := 0x2C0101
/-- o2C01.02 CIRC_HP_THRESH (R263). -/
abbrev O.CIRC_HP_THRESH : Nat := 0x2C0102
/-- o2C01.03 CIRC_HP_REPORT (R263). -/
abbrev O.CIRC_HP_REPORT : Nat := 0x2C0103
/-- o2C01.04 CIRC_HP_SEQ (R263). -/
abbrev O.CIRC_HP_SEQ : Nat := 0x2C0104
/-- o3000.01 DROVE_ORD_ALLOW (R313). -/
abbrev O.DROVE_ORD_ALLOW : Nat := 0x300001
/-- o3000.02 DROVE_FLOOR_BEATS (R313). -/
abbrev O.DROVE_FLOOR_BEATS : Nat := 0x300002
/-- o3000.03 DROVE_RES_FENCE_COUNT (R313). -/
abbrev O.DROVE_RES_FENCE_COUNT : Nat := 0x300003
/-- o3000.04 DROVE_RES_FENCE_WINDOW_MS (R313). -/
abbrev O.DROVE_RES_FENCE_WINDOW_MS : Nat := 0x300004
/-- o3000.05 DROVE_SENTINEL_TICKS (R313). -/
abbrev O.DROVE_SENTINEL_TICKS : Nat := 0x300005
/-- o3000.06 DROVE_SPARE_AUTO (R313). -/
abbrev O.DROVE_SPARE_AUTO : Nat := 0x300006
/-- o3000.07 DROVE_TILE_CMD (R313). -/
abbrev O.DROVE_TILE_CMD : Nat := 0x300007
/-- o3000.08 DROVE_TEMP_BINS (R313). -/
abbrev O.DROVE_TEMP_BINS : Nat := 0x300008
/-- o3001.01 DROVE_LIVE (R313). -/
abbrev O.DROVE_LIVE : Nat := 0x300101
/-- o3001.02 DROVE_TILE_STATE (R313). -/
abbrev O.DROVE_TILE_STATE : Nat := 0x300102
/-- o3001.03 DROVE_TILE_MAP (R313). -/
abbrev O.DROVE_TILE_MAP : Nat := 0x300103
/-- o3001.04 DROVE_STAT (R313). -/
abbrev O.DROVE_STAT : Nat := 0x300104
/-- o3001.05 DROVE_ERR (R313). -/
abbrev O.DROVE_ERR : Nat := 0x300105
/-- o3001.06 DROVE_LAST_ERR (R313). -/
abbrev O.DROVE_LAST_ERR : Nat := 0x300106
/-- o3002.01 DROVE_REMOTE_TO_US (R350). -/
abbrev O.DROVE_REMOTE_TO_US : Nat := 0x300201
/-- o3002.02 DROVE_BATCH_MAX (R350). -/
abbrev O.DROVE_BATCH_MAX : Nat := 0x300202
/-- o3002.03 DROVE_REMOTE_QLEN (R350). -/
abbrev O.DROVE_REMOTE_QLEN : Nat := 0x300203
/-- o3002.04 DROVE_CTX_USED (R350). -/
abbrev O.DROVE_CTX_USED : Nat := 0x300204
/-- o3002.05 DROVE_SUSP (R350). -/
abbrev O.DROVE_SUSP : Nat := 0x300205
/-- o3002.06 DROVE_SUSP_CMD (R350). -/
abbrev O.DROVE_SUSP_CMD : Nat := 0x300206
/-- o3002.07 DROVE_OPSTAT (R350). -/
abbrev O.DROVE_OPSTAT : Nat := 0x300207
/-- o3002.08 DROVE_OPCNT (R350). -/
abbrev O.DROVE_OPCNT : Nat := 0x300208
/-- o3002.09 DROVE_OP_ERR (R350). -/
abbrev O.DROVE_OP_ERR : Nat := 0x300209
/-- o3400.01 COLL_COMM_OP (R384). -/
abbrev O.COLL_COMM_OP : Nat := 0x340001
/-- o3400.02 COLL_COMM_STATUS (R384). -/
abbrev O.COLL_COMM_STATUS : Nat := 0x340002
/-- o3400.03 COLL_COMM_TABLE (R384). -/
abbrev O.COLL_COMM_TABLE : Nat := 0x340003
/-- o3400.04 COLL_STAT (R384). -/
abbrev O.COLL_STAT : Nat := 0x340004
/-- o3400.05 COLL_ERR (R384). -/
abbrev O.COLL_ERR : Nat := 0x340005
/-- o3400.06 COLL_RECENT (R384). -/
abbrev O.COLL_RECENT : Nat := 0x340006
/-- o3800.01 COMMON_POOL (R422). -/
abbrev O.COMMON_POOL : Nat := 0x380001
/-- o3800.02 COMMON_ROOT (R422). -/
abbrev O.COMMON_ROOT : Nat := 0x380002
/-- o3800.03 COMMON_MIRROR_ROOT (R422). -/
abbrev O.COMMON_MIRROR_ROOT : Nat := 0x380003
/-- o3800.04 COMMON_BUDDY (R422). -/
abbrev O.COMMON_BUDDY : Nat := 0x380004
/-- o3800.05 COMMON_MIRROR_OF (R422). -/
abbrev O.COMMON_MIRROR_OF : Nat := 0x380005
/-- o3800.06 COMMON_REQ_TO_US (R422). -/
abbrev O.COMMON_REQ_TO_US : Nat := 0x380006
/-- o3800.07 COMMON_MIRROR_TO_US (R422). -/
abbrev O.COMMON_MIRROR_TO_US : Nat := 0x380007
/-- o3800.08 COMMON_HOLD_US (R422). -/
abbrev O.COMMON_HOLD_US : Nat := 0x380008
/-- o3800.09 COMMON_INVAL (R422). -/
abbrev O.COMMON_INVAL : Nat := 0x380009
/-- o3800.0A COMMON_INVAL_STATUS (R422). -/
abbrev O.COMMON_INVAL_STATUS : Nat := 0x38000A
/-- o3800.0B COMMON_RESYNC (R422). -/
abbrev O.COMMON_RESYNC : Nat := 0x38000B
/-- o3800.0C COMMON_RESYNC_STATUS (R422). -/
abbrev O.COMMON_RESYNC_STATUS : Nat := 0x38000C
/-- o3801.01 COMMON_STAT (R422). -/
abbrev O.COMMON_STAT : Nat := 0x380101
/-- o3801.02 COMMON_ERR (R422). -/
abbrev O.COMMON_ERR : Nat := 0x380102
/-- o3801.03 COMMON_LOST_BASE (R422). -/
abbrev O.COMMON_LOST_BASE : Nat := 0x380103
/-- o3801.04 COMMON_LOST_SIZE (R422). -/
abbrev O.COMMON_LOST_SIZE : Nat := 0x380104
/-- o3801.05 COMMON_LOST_HEAD (R422). -/
abbrev O.COMMON_LOST_HEAD : Nat := 0x380105
/-- o3801.06 COMMON_LOST_DONE (R422). -/
abbrev O.COMMON_LOST_DONE : Nat := 0x380106
/-- o3802.01 DMA_STAT (R422). -/
abbrev O.DMA_STAT : Nat := 0x380201
/-- o3802.02 DMA_RING_CMD (R422). -/
abbrev O.DMA_RING_CMD : Nat := 0x380202
/-- o3802.03 DMA_ERR (R422). -/
abbrev O.DMA_ERR : Nat := 0x380203
/-- o0300.01 BWTH_SEL (R458). -/
abbrev O.BWTH_SEL : Nat := 0x030001
/-- o0300.02 BWTH_AUTO (R458). -/
abbrev O.BWTH_AUTO : Nat := 0x030002
/-- o0300.03 BWTH_SLEW_PPB (R458). -/
abbrev O.BWTH_SLEW_PPB : Nat := 0x030003
/-- o0300.04 BWTH_STEP_NS; 0 never steps (R458). -/
abbrev O.BWTH_STEP_NS : Nat := 0x030004
/-- o0300.05 BWTH_LOCK_NS (R458). -/
abbrev O.BWTH_LOCK_NS : Nat := 0x030005
/-- o0300.06 BWTH_LOSS_MS (R458). -/
abbrev O.BWTH_LOSS_MS : Nat := 0x030006
/-- o0300.07 BWTH_TIME (R458). -/
abbrev O.BWTH_TIME : Nat := 0x030007
/-- o0300.08 BWTH_SET (R458). -/
abbrev O.BWTH_SET : Nat := 0x030008
/-- o0300.09 BWTH_PPS_OUT_EN (R458). -/
abbrev O.BWTH_PPS_OUT_EN : Nat := 0x030009
/-- o0300.0A BWTH_PPS_OUT_WIDTH_US (R458). -/
abbrev O.BWTH_PPS_OUT_WIDTH_US : Nat := 0x03000A
/-- o0300.0B BWTH_PPS_OUT_OFF_NS (R458). -/
abbrev O.BWTH_PPS_OUT_OFF_NS : Nat := 0x03000B
/-- o0300.0C BWTH_PPS_IN_COMP_NS (R458). -/
abbrev O.BWTH_PPS_IN_COMP_NS : Nat := 0x03000C
/-- o0300.0D BWTH_PPS_IN_TS (R458). -/
abbrev O.BWTH_PPS_IN_TS : Nat := 0x03000D
/-- o0301.01 DOM_NUMBER (R458). -/
abbrev O.DOM_NUMBER : Nat := 0x030101
/-- o0301.02 DOM_SRC_KIND (R458). -/
abbrev O.DOM_SRC_KIND : Nat := 0x030102
/-- o0301.03 DOM_SRC_PORT (R458). -/
abbrev O.DOM_SRC_PORT : Nat := 0x030103
/-- o0301.04 DOM_DELAY_MECH (R458). -/
abbrev O.DOM_DELAY_MECH : Nat := 0x030104
/-- o0301.05 DOM_TRANSPORT (R458). -/
abbrev O.DOM_TRANSPORT : Nat := 0x030105
/-- o0301.06 DOM_LOG_SYNC (R458). -/
abbrev O.DOM_LOG_SYNC : Nat := 0x030106
/-- o0301.07 DOM_BW (R458). -/
abbrev O.DOM_BW : Nat := 0x030107
/-- o0301.08 DOM_STATE (R458). -/
abbrev O.DOM_STATE : Nat := 0x030108
/-- o0301.09 DOM_OFFSET (R458). -/
abbrev O.DOM_OFFSET : Nat := 0x030109
/-- o0301.0A DOM_FREQ (R458). -/
abbrev O.DOM_FREQ : Nat := 0x03010A
/-- o0301.0B DOM_HOPS; 0xFF none (R458). -/
abbrev O.DOM_HOPS : Nat := 0x03010B
/-- o0301.0C DOM_PATH_NS (R458). -/
abbrev O.DOM_PATH_NS : Nat := 0x03010C
/-- o0303.01 BWTH_PORT (R458). -/
abbrev O.BWTH_PORT : Nat := 0x030301
/-- o0303.02 BWTH_STAT (R458). -/
abbrev O.BWTH_STAT : Nat := 0x030302
/-- o0303.03 BWTH_ERR (R458). -/
abbrev O.BWTH_ERR : Nat := 0x030303
/-- o0303.04 STILE_STAT (R458). -/
abbrev O.STILE_STAT : Nat := 0x030304
/-- o0303.05 STILE_ERR (R458). -/
abbrev O.STILE_ERR : Nat := 0x030305
/-- o0304.01 BELL_PERIOD (R458). -/
abbrev O.BELL_PERIOD : Nat := 0x030401
/-- o0304.02 BELL_PERIOD_NEXT (R458). -/
abbrev O.BELL_PERIOD_NEXT : Nat := 0x030402
/-- o0304.03 BELL_SWITCH (R458). -/
abbrev O.BELL_SWITCH : Nat := 0x030403
/-- o0304.04 BELL_NUMBER (R458). -/
abbrev O.BELL_NUMBER : Nat := 0x030404
/-- o0304.05 BELL_BUDGET (R458). -/
abbrev O.BELL_BUDGET : Nat := 0x030405
/-- o0304.06 BELL_OVERRUNS (R458). -/
abbrev O.BELL_OVERRUNS : Nat := 0x030406
/-- o0304.07 BELL_LAST_OVERRUN (R458). -/
abbrev O.BELL_LAST_OVERRUN : Nat := 0x030407
/-- o0304.08 BELL_STAT (R458). -/
abbrev O.BELL_STAT : Nat := 0x030408
/-- o0304.09 BELL_ERR (R458). -/
abbrev O.BELL_ERR : Nat := 0x030409
/-- o0304.0A BELL_ORIGIN (R458). -/
abbrev O.BELL_ORIGIN : Nat := 0x03040A
/-- o0304.0B BELL_BASE (R458). -/
abbrev O.BELL_BASE : Nat := 0x03040B
/-- o4000.01 MUSTER_K (R485). -/
abbrev O.MUSTER_K : Nat := 0x400001
/-- o4000.02 MUSTER_QUORUM (R485). -/
abbrev O.MUSTER_QUORUM : Nat := 0x400002
/-- o4000.03 MUSTER_VOTE_TTL (R485). -/
abbrev O.MUSTER_VOTE_TTL : Nat := 0x400003
/-- o4000.04 MUSTER_W (R485). -/
abbrev O.MUSTER_W : Nat := 0x400004
/-- o4000.05 MUSTER_LOG_MIB (R485). -/
abbrev O.MUSTER_LOG_MIB : Nat := 0x400005
/-- o4000.06 MUSTER_LOG_MODE (R485). -/
abbrev O.MUSTER_LOG_MODE : Nat := 0x400006
/-- o4000.07 MUSTER_MEMBERS (R485). -/
abbrev O.MUSTER_MEMBERS : Nat := 0x400007
/-- o4000.08 MUSTER_CMD (R485). -/
abbrev O.MUSTER_CMD : Nat := 0x400008
/-- o4000.09 MUSTER_CMD_STATUS (R485). -/
abbrev O.MUSTER_CMD_STATUS : Nat := 0x400009
/-- o4000.0A MUSTER_REPLAY_TO_MS (R485). -/
abbrev O.MUSTER_REPLAY_TO_MS : Nat := 0x40000A
/-- o4000.0B MUSTER_REPLAY_BASE (R485). -/
abbrev O.MUSTER_REPLAY_BASE : Nat := 0x40000B
/-- o4000.0C MUSTER_REPLAY_SIZE (R485). -/
abbrev O.MUSTER_REPLAY_SIZE : Nat := 0x40000C
/-- o4001.01 MUSTER_DEV_STATE (R485). -/
abbrev O.MUSTER_DEV_STATE : Nat := 0x400101
/-- o4001.02 MUSTER_LOG_USED (R485). -/
abbrev O.MUSTER_LOG_USED : Nat := 0x400102
/-- o4001.03 MUSTER_STAT (R485). -/
abbrev O.MUSTER_STAT : Nat := 0x400103
/-- o4001.04 MUSTER_ERR (R485). -/
abbrev O.MUSTER_ERR : Nat := 0x400104
/-- o4200.01 FENCE_CMD (R485). -/
abbrev O.FENCE_CMD : Nat := 0x420001
/-- o4200.02 FENCE_STATUS (R485). -/
abbrev O.FENCE_STATUS : Nat := 0x420002
/-- o4200.03 FENCE_BLOCKS (R485). -/
abbrev O.FENCE_BLOCKS : Nat := 0x420003
/-- o4200.04 FENCE_BLOCKS (R485). -/
abbrev O.FENCE_BLOCKS_HI : Nat := 0x420004
/-- o4200.05 FENCE_STACKS (R485). -/
abbrev O.FENCE_STACKS : Nat := 0x420005
/-- o4200.06 FENCE_PADDOCKS (R485). -/
abbrev O.FENCE_PADDOCKS : Nat := 0x420006
/-- o4200.07 FENCE_DEVICE (R485). -/
abbrev O.FENCE_DEVICE : Nat := 0x420007
/-- o0000.01 IDENT_SERIAL (R524). -/
abbrev O.IDENT_SERIAL : Nat := 0x000001
/-- o0000.02 IDENT_DEVID_PUB (R524). -/
abbrev O.IDENT_DEVID_PUB : Nat := 0x000002
/-- o0000.03 IDENT_DEVID_CERT (R524). -/
abbrev O.IDENT_DEVID_CERT : Nat := 0x000003
/-- o0000.04 IDENT_ALIAS_CERT (R524). -/
abbrev O.IDENT_ALIAS_CERT : Nat := 0x000004
/-- o0000.05 IDENT_PART (R524). -/
abbrev O.IDENT_PART : Nat := 0x000005
/-- o0000.06 IDENT_SILICON_REV (R524). -/
abbrev O.IDENT_SILICON_REV : Nat := 0x000006
/-- o0000.07 CROOK_ROM_VER (R524). -/
abbrev O.CROOK_ROM_VER : Nat := 0x000007
/-- o0000.08 IDENT_MEAS (R524). -/
abbrev O.IDENT_MEAS : Nat := 0x000008
/-- o0010.01 FEAT_DEVICE (R524). -/
abbrev O.FEAT_DEVICE : Nat := 0x001001
/-- o0010.02 FEAT_ACCEPT (R524). -/
abbrev O.FEAT_ACCEPT : Nat := 0x001002
/-- o0010.03 FEAT_FABRIC (R524). -/
abbrev O.FEAT_FABRIC : Nat := 0x001003
/-- o0010.04 FEAT_PASTURE_MEMBERS (R524). -/
abbrev O.FEAT_PASTURE_MEMBERS : Nat := 0x001004
/-- o0010.05 FEAT_PASTURE_ACTIVE (R524). -/
abbrev O.FEAT_PASTURE_ACTIVE : Nat := 0x001005
/-- o0010.06 FEAT_APPLY (R524). -/
abbrev O.FEAT_APPLY : Nat := 0x001006
/-- o0010.07 FEAT_APPLY_STATUS (R524). -/
abbrev O.FEAT_APPLY_STATUS : Nat := 0x001007
/-- o0100.01 OXPIN_UDP_PORT (R524). -/
abbrev O.OXPIN_UDP_PORT : Nat := 0x010001
/-- o0100.02 OXPIN_IPV4; 0 none (R524). -/
abbrev O.OXPIN_IPV4 : Nat := 0x010002
/-- o0100.03 OXPIN_IPV6 (R524). -/
abbrev O.OXPIN_IPV6 : Nat := 0x010003
/-- o0100.04 OXPIN_ETHERTYPE (R524). -/
abbrev O.OXPIN_ETHERTYPE : Nat := 0x010004
/-- o0100.05 OXPIN_T1S_NODE (R524). -/
abbrev O.OXPIN_T1S_NODE : Nat := 0x010005
/-- o0100.06 OXPIN_T1S_NODES (R524). -/
abbrev O.OXPIN_T1S_NODES : Nat := 0x010006
/-- o0100.07 OXPIN_IDLE_S (R524). -/
abbrev O.OXPIN_IDLE_S : Nat := 0x010007
/-- o0100.08 OXPIN_ENC_REQUIRED (R524). -/
abbrev O.OXPIN_ENC_REQUIRED : Nat := 0x010008
/-- o0100.09 OXPIN_SESSIONS (R524). -/
abbrev O.OXPIN_SESSIONS : Nat := 0x010009
/-- o0100.0A OXPIN_STAT (R524). -/
abbrev O.OXPIN_STAT : Nat := 0x01000A
/-- o0100.0B OXPIN_CLOSE (R524). -/
abbrev O.OXPIN_CLOSE : Nat := 0x01000B
/-- o0101.01 OXPIN_KEY (R524). -/
abbrev O.OXPIN_KEY : Nat := 0x010101
/-- o0101.02 OXPIN_KEY_STATE (R524). -/
abbrev O.OXPIN_KEY_STATE : Nat := 0x010102
/-- o4201.01 ERRLOG (R524). -/
abbrev O.ERRLOG : Nat := 0x420101
/-- o4201.02 ERRLOG_HEAD (R524). -/
abbrev O.ERRLOG_HEAD : Nat := 0x420102
/-- o4201.03 ERRLOG_WRAPS (R524). -/
abbrev O.ERRLOG_WRAPS : Nat := 0x420103
/-- o4202.01 CROOK_SQUELCH (R524). -/
abbrev O.CROOK_SQUELCH : Nat := 0x420201
/-- o5000.01 CRIOTTE_RESV_GIB per stack (R524). -/
abbrev O.CRIOTTE_RESV_GIB : Nat := 0x500001
/-- o5000.02 CRIOTTE_WDT_MS (R524). -/
abbrev O.CRIOTTE_WDT_MS : Nat := 0x500002
/-- o5000.03 CRIOTTE_WDT_KICK (R524). -/
abbrev O.CRIOTTE_WDT_KICK : Nat := 0x500003
/-- o5000.04 CRIOTTE_CMD (R524). -/
abbrev O.CRIOTTE_CMD : Nat := 0x500004
/-- o5000.05 CRIOTTE_STATE (R524). -/
abbrev O.CRIOTTE_STATE : Nat := 0x500005
/-- o5000.06 CRIOTTE_EVQ_BASE (R524). -/
abbrev O.CRIOTTE_EVQ_BASE : Nat := 0x500006
/-- o5000.07 CRIOTTE_EVQ_SIZE (R524). -/
abbrev O.CRIOTTE_EVQ_SIZE : Nat := 0x500007
/-- o5001.01 FW_STATE (R524). -/
abbrev O.FW_STATE : Nat := 0x500101
/-- o5001.02 FW_PUSH (R524). -/
abbrev O.FW_PUSH : Nat := 0x500102
/-- o5001.03 FW_STATUS (R524). -/
abbrev O.FW_STATUS : Nat := 0x500103
/-- o5001.04 FW_REASON (R524). -/
abbrev O.FW_REASON : Nat := 0x500104
/-- o5001.05 FW_STAGE (R524). -/
abbrev O.FW_STAGE : Nat := 0x500105
/-- o5001.06 FW_VERSION (R524). -/
abbrev O.FW_VERSION : Nat := 0x500106
/-- o5001.07 FW_SVN (R524). -/
abbrev O.FW_SVN : Nat := 0x500107
/-- o5001.08 FW_DIGEST (R524). -/
abbrev O.FW_DIGEST : Nat := 0x500108
/-- o5001.09 FW_READY (R524). -/
abbrev O.FW_READY : Nat := 0x500109
/-- o5002.01 CTL_STAT (R524). -/
abbrev O.CTL_STAT : Nat := 0x500201
/-- o5002.02 CTL_ERR (R524). -/
abbrev O.CTL_ERR : Nat := 0x500202
/-- o4210.01 PCIE_STAT (R545). -/
abbrev O.PCIE_STAT : Nat := 0x421001
/-- o4210.02 PCIE_ERR (R545). -/
abbrev O.PCIE_ERR : Nat := 0x421002
/-- o4100.01 TALLY_CFG (R571). -/
abbrev O.TALLY_CFG : Nat := 0x410001
/-- o4100.02 TALLY_VALUE (R571). -/
abbrev O.TALLY_VALUE : Nat := 0x410002
/-- o4100.03 TALLY_CLEAR (R571). -/
abbrev O.TALLY_CLEAR : Nat := 0x410003
/-- o4101.01 TALLY_SNAP_AT (R571). -/
abbrev O.TALLY_SNAP_AT : Nat := 0x410101
/-- o4101.02 TALLY_SNAP_EVERY (R571). -/
abbrev O.TALLY_SNAP_EVERY : Nat := 0x410102
/-- o4101.03 TALLY_SNAP_NOW (R571). -/
abbrev O.TALLY_SNAP_NOW : Nat := 0x410103
/-- o4101.04 TALLY_SNAP_CLEAR (R571). -/
abbrev O.TALLY_SNAP_CLEAR : Nat := 0x410104
/-- o4101.05 TALLY_SHADOW (R571). -/
abbrev O.TALLY_SHADOW : Nat := 0x410105
/-- o4101.06 TALLY_SNAP_INFO (R571). -/
abbrev O.TALLY_SNAP_INFO : Nat := 0x410106
/-- o4101.07 TALLY_RING_BASE (R571). -/
abbrev O.TALLY_RING_BASE : Nat := 0x410107
/-- o4101.08 TALLY_RING_SIZE (R571). -/
abbrev O.TALLY_RING_SIZE : Nat := 0x410108
/-- o4101.09 TALLY_RING_HEAD (R571). -/
abbrev O.TALLY_RING_HEAD : Nat := 0x410109
/-- o4102.01 TALLY_HIST (R571). -/
abbrev O.TALLY_HIST : Nat := 0x410201
/-- o4102.02 TALLY_HIST_CLEAR (R571). -/
abbrev O.TALLY_HIST_CLEAR : Nat := 0x410202
/-- o4103.01 FLEECE_BASE (R571). -/
abbrev O.FLEECE_BASE : Nat := 0x410301
/-- o4103.02 FLEECE_SIZE (R571). -/
abbrev O.FLEECE_SIZE : Nat := 0x410302
/-- o4103.03 FLEECE_MODE (R571). -/
abbrev O.FLEECE_MODE : Nat := 0x410303
/-- o4103.04 FLEECE_HEAD (R571). -/
abbrev O.FLEECE_HEAD : Nat := 0x410304
/-- o4103.05 FLEECE_WRAPS (R571). -/
abbrev O.FLEECE_WRAPS : Nat := 0x410305
/-- o4103.06 FLEECE_TRIG (R571). -/
abbrev O.FLEECE_TRIG : Nat := 0x410306
/-- o4103.07 FLEECE_BURST (R571). -/
abbrev O.FLEECE_BURST : Nat := 0x410307
/-- o4103.08 FLEECE_SAMPLE (R571). -/
abbrev O.FLEECE_SAMPLE : Nat := 0x410308
/-- o4103.09 FLEECE_CAPTURE (R571). -/
abbrev O.FLEECE_CAPTURE : Nat := 0x410309
/-- o4103.0A FLEECE_CNT (R571). -/
abbrev O.FLEECE_CNT : Nat := 0x41030A
/-- o4103.0B TALLY_ERR (R571). -/
abbrev O.TALLY_ERR : Nat := 0x41030B
/-- o0200.01 STRAP_CODE (R597). -/
abbrev O.STRAP_CODE : Nat := 0x020001
/-- o0200.02 STRAP_RAW (R597). -/
abbrev O.STRAP_RAW : Nat := 0x020002
/-- o0200.03 STRAP_FLAGS (R597). -/
abbrev O.STRAP_FLAGS : Nat := 0x020003
/-- o0201.01 RST_CMD (R597). -/
abbrev O.RST_CMD : Nat := 0x020101
/-- o0201.02 RST_CMD_STATUS (R597). -/
abbrev O.RST_CMD_STATUS : Nat := 0x020102
/-- o0201.03 RST_LAST (R597). -/
abbrev O.RST_LAST : Nat := 0x020103
/-- o0201.04 RST_COUNT (R597). -/
abbrev O.RST_COUNT : Nat := 0x020104
/-- o0201.05 RST_ERR (R597). -/
abbrev O.RST_ERR : Nat := 0x020105
/-- o0202.01 PWR_STATE (R597). -/
abbrev O.PWR_STATE : Nat := 0x020201
/-- o0202.02 PWR_CMD (R597). -/
abbrev O.PWR_CMD : Nat := 0x020202
/-- o0202.03 PWR_CMD_STATUS (R597). -/
abbrev O.PWR_CMD_STATUS : Nat := 0x020203
/-- o0202.04 PWR_PIN_STACKS (R597). -/
abbrev O.PWR_PIN_STACKS : Nat := 0x020204
/-- o0202.05 PWR_GATE (R597). -/
abbrev O.PWR_GATE : Nat := 0x020205
/-- o0202.06 PWR_GATE_STATUS (R597). -/
abbrev O.PWR_GATE_STATUS : Nat := 0x020206
/-- o0202.07 PWR_GATED_BLOCKS (R597). -/
abbrev O.PWR_GATED_BLOCKS : Nat := 0x020207
/-- o0202.08 PWR_GATED_BLOCKS (R597). -/
abbrev O.PWR_GATED_BLOCKS_HI : Nat := 0x020208
/-- o0202.09 PWR_GATED_UNITS (R597). -/
abbrev O.PWR_GATED_UNITS : Nat := 0x020209
/-- o0202.0A PWR_WAKE_FROM (R597). -/
abbrev O.PWR_WAKE_FROM : Nat := 0x02020A
/-- o0203.01 GPIO_CFG (R597). -/
abbrev O.GPIO_CFG : Nat := 0x020301
/-- o0203.02 GPIO_IN (R597). -/
abbrev O.GPIO_IN : Nat := 0x020302
/-- o0203.03 GPIO_OUT (R597). -/
abbrev O.GPIO_OUT : Nat := 0x020303
/-- o0204.01 TRIP_STATE (R597). -/
abbrev O.TRIP_STATE : Nat := 0x020401
/-- o0204.02 TRIP_COUNT (R597). -/
abbrev O.TRIP_COUNT : Nat := 0x020402
/-- o4300.01 THERM_PADDOCK (R621). -/
abbrev O.THERM_PADDOCK : Nat := 0x430001
/-- o4300.02 THERM_HBM (R621). -/
abbrev O.THERM_HBM : Nat := 0x430002
/-- o4300.03 THERM_WARN_C (R621). -/
abbrev O.THERM_WARN_C : Nat := 0x430003
/-- o4300.04 THERM_WARN_HYST (R621). -/
abbrev O.THERM_WARN_HYST : Nat := 0x430004
/-- o4301.01 PWR_RAIL_MV (R621). -/
abbrev O.PWR_RAIL_MV : Nat := 0x430101
/-- o4301.02 PWR_EST_W (R621). -/
abbrev O.PWR_EST_W : Nat := 0x430102
/-- o4301.03 ELEC_STAT (R621). -/
abbrev O.ELEC_STAT : Nat := 0x430103
/-- o4301.04 ELEC_ERR (R621). -/
abbrev O.ELEC_ERR : Nat := 0x430104

/-! ### The tables of objects -/

/-- Objects of chapter 01. -/
def objs01_0 : List ObjDef := [
  ⟨0x2800, 0x00, .u8, .ro, .obs, .obs, .p0, 0, 0⟩,
  ⟨0x2800, 0x01, .u8, .rw, .obs, .adm, .p1, 0, 0⟩,
  ⟨0x2800, 0x02, .u8, .rw, .obs, .adm, .p1, 0, 0⟩,
  ⟨0x2800, 0x03, .u8, .rw, .obs, .adm, .p1, 0, 0⟩,
  ⟨0x2800, 0x04, .bits32, .rw, .obs, .adm, .p1, 0, 0⟩,
  ⟨0x2800, 0x05, .u16, .rw, .obs, .adm, .p1, 0, 0⟩,
  ⟨0x2800, 0x06, .u8, .rw, .obs, .adm, .p1, 0, 0⟩,
  ⟨0x2800, 0x07, .bool, .rw, .obs, .adm, .p1, 0, 0⟩,
  ⟨0x2800, 0x08, .bits32, .w1c, .obs, .opr, .pv, 0, 0⟩,
  ⟨0x2800, 0x09, .bool, .ro, .obs, .obs, .pv, 0, 0⟩]
/-- Objects of chapter 02. -/
def objs02_0 : List ObjDef := [
  ⟨0x2000, 0x00, .u8, .ro, .obs, .obs, .p0, 0, 0⟩,
  ⟨0x2000, 0x01, .u16, .rw, .obs, .adm, .p1, 0, 0⟩,
  ⟨0x2000, 0x02, .u16, .ro, .obs, .obs, .pv, 0, 0⟩,
  ⟨0x2000, 0x03, .u8, .rw, .obs, .adm, .p1, 0, 0⟩,
  ⟨0x2000, 0x04, .u8, .rw, .obs, .adm, .p1, 0, 0⟩,
  ⟨0x2000, 0x05, .u32, .rw, .obs, .opr, .p1, 0, 0⟩,
  ⟨0x2000, 0x06, .u8, .rw, .obs, .opr, .p1, 0, 0⟩,
  ⟨0x2000, 0x07, .u8, .rw, .obs, .opr, .p1, 0, 0⟩,
  ⟨0x2000, 0x08, .u8, .rw, .obs, .opr, .p1, 0, 0⟩,
  ⟨0x2000, 0x09, .u8, .rw, .obs, .opr, .p1, 0, 0⟩,
  ⟨0x2000, 0x0A, .u8, .rw, .obs, .opr, .p1, 0, 0⟩,
  ⟨0x2000, 0x0B, .u8, .rw, .obs, .adm, .p1, 0, 0⟩,
  ⟨0x2000, 0x0C, .u8, .rw, .obs, .opr, .p1, 0, 0⟩,
  ⟨0x2000, 0x0D, .u8, .rw, .obs, .opr, .p1, 0, 0⟩,
  ⟨0x2001, 0x00, .u8, .ro, .obs, .obs, .p0, 0, 0⟩,
  ⟨0x2001, 0x01, .u32, .ro, .obs, .obs, .pv, 0, 0⟩,
  ⟨0x2001, 0x02, .u32, .ro, .obs, .obs, .pv, 0, 0⟩,
  ⟨0x2001, 0x03, .u32, .ro, .obs, .obs, .pv, 0, 0⟩,
  ⟨0x2001, 0x04, .u32, .ro, .obs, .obs, .pv, 0, 0⟩,
  ⟨0x2001, 0x05, .u32, .ro, .obs, .obs, .pv, 0, 0⟩,
  ⟨0x2001, 0x06, .u32, .ro, .obs, .obs, .pv, 0, 0⟩,
  ⟨0x2001, 0x07, .u32, .ro, .obs, .obs, .pv, 0, 0⟩,
  ⟨0x2001, 0x08, .u32, .ro, .obs, .obs, .pv, 0, 0⟩,
  ⟨0x2001, 0x09, .u64, .ro, .obs, .obs, .pv, 0, 0⟩,
  ⟨0x2001, 0x0A, .u64, .ro, .obs, .obs, .pv, 0, 0⟩,
  ⟨0x2001, 0x0B, .u64, .ro, .obs, .obs, .pv, 0, 0⟩,
  ⟨0x2001, 0x0C, .u64, .ro, .obs, .obs, .pv, 0, 0⟩,
  ⟨0x2001, 0x0D, .u64, .ro, .obs, .obs, .pv, 0, 0⟩,
  ⟨0x2001, 0x0E, .u16, .ro, .obs, .obs, .pv, 0, 0⟩,
  ⟨0x2001, 0x0F, .bits64, .ro, .obs, .obs, .pv, 0, 0⟩,
  ⟨0x2001, 0x10, .bits64, .ro, .obs, .obs, .pv, 0, 0⟩,
  ⟨0x2001, 0x11, .bits32, .w1c, .obs, .opr, .pv, 0, 0⟩,
  ⟨0x2002, 0x00, .u8, .ro, .obs, .obs, .p0, 0, 0⟩,
  ⟨0x2002, 0x01, .table, .rw, .obs, .opr, .p1, 8, 4096⟩,
  ⟨0x2002, 0x02, .table, .rw, .obs, .opr, .p1, 8, 1040⟩,
  ⟨0x2002, 0x03, .table, .rw, .obs, .opr, .p1, 8, 12480⟩]
/-- Objects of chapter 03. -/
def objs03_0 : List ObjDef := [
  ⟨0x2010, 0x00, .u8, .ro, .obs, .obs, .p0, 0, 0⟩,
  ⟨0x2010, 0x01, .table, .rw, .obs, .opr, .p1, 16, 12480⟩,
  ⟨0x2010, 0x02, .table, .rw, .obs, .opr, .p1, 16, 1040⟩,
  ⟨0x2010, 0x03, .table, .rw, .obs, .opr, .p1, 96, 1024⟩,
  ⟨0x2010, 0x04, .table, .rw, .obs, .opr, .p1, 8, 8192⟩,
  ⟨0x2011, 0x00, .u8, .ro, .obs, .obs, .p0, 0, 0⟩,
  ⟨0x2011, 0x01, .table, .ro, .obs, .obs, .pv, 32, 12480⟩,
  ⟨0x2011, 0x02, .addr64, .rw, .obs, .adm, .p1, 0, 0⟩,
  ⟨0x2011, 0x03, .u32, .rw, .obs, .adm, .p1, 0, 0⟩,
  ⟨0x2011, 0x04, .u32, .ro, .obs, .obs, .pv, 0, 0⟩,
  ⟨0x2011, 0x05, .u64, .ro, .obs, .obs, .pv, 0, 0⟩,
  ⟨0x2012, 0x00, .u8, .ro, .obs, .obs, .p0, 0, 0⟩,
  ⟨0x2012, 0x01, .u64, .ro, .obs, .obs, .pv, 0, 0⟩,
  ⟨0x2012, 0x02, .u64, .ro, .obs, .obs, .pv, 0, 0⟩,
  ⟨0x2012, 0x03, .u64, .ro, .obs, .obs, .pv, 0, 0⟩,
  ⟨0x2012, 0x04, .u64, .ro, .obs, .obs, .pv, 0, 0⟩,
  ⟨0x2012, 0x05, .u64, .ro, .obs, .obs, .pv, 0, 0⟩,
  ⟨0x2012, 0x06, .u64, .ro, .obs, .obs, .pv, 0, 0⟩,
  ⟨0x2012, 0x07, .u64, .ro, .obs, .obs, .pv, 0, 0⟩,
  ⟨0x2012, 0x08, .u64, .ro, .obs, .obs, .pv, 0, 0⟩,
  ⟨0x2012, 0x09, .u64, .ro, .obs, .obs, .pv, 0, 0⟩,
  ⟨0x2012, 0x0A, .u64, .ro, .obs, .obs, .pv, 0, 0⟩,
  ⟨0x2012, 0x0B, .bits32, .w1c, .obs, .opr, .pv, 0, 0⟩]
/-- Objects of chapter 04. -/
def objs04_0 : List ObjDef := [
  ⟨0x2400, 0x00, .u8, .ro, .obs, .obs, .p0, 0, 0⟩,
  ⟨0x2400, 0x01, .u16, .rw, .obs, .adm, .p1, 0, 0⟩,
  ⟨0x2400, 0x02, .u64, .rw, .obs, .adm, .p1, 0, 0⟩,
  ⟨0x2400, 0x03, .u32, .rw, .obs, .opr, .p1, 0, 0⟩,
  ⟨0x2400, 0x04, .table, .rw, .obs, .opr, .p1, 8, 1024⟩,
  ⟨0x2400, 0x05, .table, .rw, .obs, .opr, .p1, 1, 4096⟩,
  ⟨0x2400, 0x06, .table, .rw, .obs, .opr, .p1, 1, 64⟩,
  ⟨0x2401, 0x00, .u8, .ro, .obs, .obs, .p0, 0, 0⟩,
  ⟨0x2401, 0x01, .u8, .rw, .obs, .opr, .p1, 0, 0⟩,
  ⟨0x2401, 0x02, .u16, .rw, .obs, .opr, .p1, 0, 0⟩,
  ⟨0x2401, 0x03, .bits32, .rw, .obs, .opr, .p1, 0, 0⟩,
  ⟨0x2401, 0x04, .blob, .cmd, .opr, .opr, .pv, 32, 0⟩,
  ⟨0x2401, 0x05, .u8, .ro, .obs, .obs, .pv, 0, 0⟩,
  ⟨0x2401, 0x06, .table, .ro, .obs, .obs, .pv, 4, 4⟩,
  ⟨0x2401, 0x07, .table, .ro, .obs, .obs, .pv, 16, 4194560⟩,
  ⟨0x2402, 0x00, .u8, .ro, .obs, .obs, .p0, 0, 0⟩,
  ⟨0x2402, 0x01, .blob, .cmd, .opr, .opr, .p1, 32, 0⟩,
  ⟨0x2402, 0x02, .table, .rw, .obs, .opr, .p1, 16, 65536⟩,
  ⟨0x2402, 0x03, .u32, .ro, .obs, .obs, .pv, 0, 0⟩,
  ⟨0x2403, 0x00, .u8, .ro, .obs, .obs, .p0, 0, 0⟩,
  ⟨0x2403, 0x01, .table, .rw, .obs, .adm, .p1, 96, 16384⟩,
  ⟨0x2403, 0x02, .table, .ro, .obs, .obs, .pv, 8, 16384⟩,
  ⟨0x2404, 0x00, .u8, .ro, .obs, .obs, .p0, 0, 0⟩,
  ⟨0x2404, 0x01, .table, .ro, .obs, .obs, .pv, 144, 4⟩,
  ⟨0x2404, 0x02, .bits32, .w1c, .obs, .opr, .pv, 0, 0⟩,
  ⟨0x2810, 0x00, .u8, .ro, .obs, .obs, .p0, 0, 0⟩,
  ⟨0x2810, 0x01, .table, .rw, .obs, .opr, .p1, 8, 4096⟩,
  ⟨0x2810, 0x02, .table, .rw, .obs, .opr, .p1, 4, 527360⟩,
  ⟨0x2810, 0x03, .table, .rw, .obs, .opr, .p1, 8, 5120⟩,
  ⟨0x2810, 0x04, .table, .rw, .obs, .opr, .p1, 2, 65536⟩,
  ⟨0x2810, 0x05, .u64, .cmd, .opr, .opr, .pv, 0, 0⟩,
  ⟨0x2810, 0x06, .bits32, .w1c, .obs, .opr, .pv, 0, 0⟩,
  ⟨0x2811, 0x00, .u8, .ro, .obs, .obs, .p0, 0, 0⟩,
  ⟨0x2811, 0x01, .u32, .rw, .obs, .opr, .p1, 0, 0⟩,
  ⟨0x2811, 0x02, .table, .rw, .obs, .opr, .p1, 4, 512⟩,
  ⟨0x2811, 0x03, .u32, .rw, .obs, .opr, .p1, 0, 0⟩]
/-- Objects of chapter 05. -/
def objs05_0 : List ObjDef := [
  ⟨0x1000, 0x00, .u8, .ro, .obs, .obs, .p0, 0, 0⟩,
  ⟨0x1000, 0x01, .u8, .rw, .obs, .adm, .p1, 0, 0⟩,
  ⟨0x1000, 0x02, .u8, .rw, .obs, .adm, .p1, 0, 0⟩,
  ⟨0x1000, 0x03, .u8, .rw, .obs, .adm, .p1, 0, 0⟩,
  ⟨0x1000, 0x04, .u16, .rw, .obs, .opr, .p1, 0, 0⟩,
  ⟨0x1000, 0x05, .u8, .rw, .obs, .adm, .p1, 0, 0⟩,
  ⟨0x1000, 0x06, .table, .rw, .obs, .adm, .p1, 2, 8⟩,
  ⟨0x1000, 0x07, .u16, .rw, .obs, .adm, .p1, 0, 0⟩,
  ⟨0x1000, 0x08, .u16, .rw, .obs, .opr, .p1, 0, 0⟩,
  ⟨0x1000, 0x09, .u8, .rw, .obs, .adm, .p2, 0, 0⟩,
  ⟨0x1000, 0x0A, .u8, .cmd, .opr, .opr, .pv, 0, 0⟩,
  ⟨0x1001, 0x00, .u8, .ro, .obs, .obs, .p0, 0, 0⟩,
  ⟨0x1001, 0x01, .u64, .ro, .obs, .obs, .pv, 0, 0⟩,
  ⟨0x1001, 0x02, .u32, .ro, .obs, .obs, .pv, 0, 0⟩,
  ⟨0x1001, 0x03, .blob, .ro, .obs, .obs, .pv, 32, 0⟩,
  ⟨0x1001, 0x04, .blob, .ro, .obs, .obs, .pv, 128, 0⟩,
  ⟨0x1001, 0x05, .bits32, .w1c, .obs, .opr, .pv, 0, 0⟩,
  ⟨0x1001, 0x06, .table, .ro, .obs, .obs, .pv, 8, 10⟩,
  ⟨0x1001, 0x07, .table, .ro, .obs, .obs, .pv, 2, 8⟩,
  ⟨0x1002, 0x00, .u8, .ro, .obs, .obs, .p0, 0, 0⟩,
  ⟨0x1002, 0x01, .u32, .rw, .obs, .adm, .p1, 0, 0⟩,
  ⟨0x1002, 0x02, .u32, .rw, .obs, .adm, .p1, 0, 0⟩,
  ⟨0x1002, 0x03, .u32, .rw, .obs, .adm, .p1, 0, 0⟩,
  ⟨0x1002, 0x04, .u32, .ro, .obs, .obs, .pv, 0, 0⟩,
  ⟨0x1002, 0x05, .u32, .ro, .obs, .obs, .pv, 0, 0⟩,
  ⟨0x1002, 0x06, .u16, .rw, .obs, .opr, .p1, 0, 0⟩]
/-- Objects of chapter 06. -/
def objs06_0 : List ObjDef := [
  ⟨0x2820, 0x00, .u8, .ro, .obs, .obs, .p0, 0, 0⟩,
  ⟨0x2820, 0x01, .table, .rw, .obs, .adm, .p1, 1, 8⟩,
  ⟨0x2820, 0x02, .bits32, .rw, .obs, .opr, .p1, 0, 0⟩,
  ⟨0x2820, 0x03, .table, .ro, .obs, .obs, .pv, 8, 10⟩,
  ⟨0x2820, 0x04, .bits32, .w1c, .obs, .opr, .pv, 0, 0⟩,
  ⟨0x2821, 0x00, .u8, .ro, .obs, .obs, .p0, 0, 0⟩,
  ⟨0x2821, 0x01, .table, .rw, .obs, .opr, .p1, 1, 4096⟩,
  ⟨0x2821, 0x02, .u64, .cmd, .opr, .opr, .pv, 0, 0⟩,
  ⟨0x2821, 0x03, .table, .ro, .obs, .obs, .pv, 16, 4096⟩,
  ⟨0x2821, 0x04, .u16, .cmd, .opr, .opr, .pv, 0, 0⟩]
/-- Objects of chapter 07. -/
def objs07_0 : List ObjDef := [
  ⟨0x2C00, 0x00, .u8, .ro, .obs, .obs, .p0, 0, 0⟩,
  ⟨0x2C00, 0x01, .table, .rw, .obs, .opr, .p1, 16, 128⟩,
  ⟨0x2C00, 0x02, .u16, .cmd, .opr, .opr, .pv, 0, 0⟩,
  ⟨0x2C00, 0x03, .u16, .rw, .obs, .opr, .p1, 0, 0⟩,
  ⟨0x2C00, 0x04, .table, .rw, .obs, .adm, .p1, 256, 8192⟩,
  ⟨0x2C00, 0x05, .blob, .cmd, .opr, .opr, .pv, 4, 0⟩,
  ⟨0x2C00, 0x06, .u8, .ro, .obs, .obs, .pv, 0, 0⟩,
  ⟨0x2C00, 0x07, .table, .ro, .obs, .obs, .pv, 8, 8⟩,
  ⟨0x2C00, 0x08, .bits32, .w1c, .obs, .opr, .pv, 0, 0⟩,
  ⟨0x2C01, 0x00, .u8, .ro, .obs, .obs, .p0, 0, 0⟩,
  ⟨0x2C01, 0x01, .u32, .rw, .obs, .opr, .p1, 0, 0⟩,
  ⟨0x2C01, 0x02, .u64, .rw, .obs, .opr, .p1, 0, 0⟩,
  ⟨0x2C01, 0x03, .table, .ro, .obs, .obs, .pv, 16, 16⟩,
  ⟨0x2C01, 0x04, .u64, .ro, .obs, .obs, .pv, 0, 0⟩]
/-- Objects of chapter 08. -/
def objs08_0 : List ObjDef := [
  ⟨0x3000, 0x00, .u8, .ro, .obs, .obs, .p0, 0, 0⟩,
  ⟨0x3000, 0x01, .bool, .rw, .obs, .adm, .p1, 0, 0⟩,
  ⟨0x3000, 0x02, .u8, .rw, .obs, .opr, .p1, 0, 0⟩,
  ⟨0x3000, 0x03, .u8, .rw, .obs, .adm, .p1, 0, 0⟩,
  ⟨0x3000, 0x04, .u16, .rw, .obs, .adm, .p1, 0, 0⟩,
  ⟨0x3000, 0x05, .u32, .rw, .obs, .opr, .p1, 0, 0⟩,
  ⟨0x3000, 0x06, .bool, .rw, .obs, .adm, .p1, 0, 0⟩,
  ⟨0x3000, 0x07, .u16, .cmd, .adm, .adm, .pv, 0, 0⟩,
  ⟨0x3000, 0x08, .table, .rw, .obs, .opr, .p1, 1, 7⟩,
  ⟨0x3001, 0x00, .u8, .ro, .obs, .obs, .p0, 0, 0⟩,
  ⟨0x3001, 0x01, .u8, .ro, .obs, .obs, .pv, 0, 0⟩,
  ⟨0x3001, 0x02, .table, .ro, .obs, .obs, .pv, 1, 144⟩,
  ⟨0x3001, 0x03, .table, .ro, .obs, .obs, .pv, 1, 128⟩,
  ⟨0x3001, 0x04, .table, .ro, .obs, .obs, .pv, 8, 12⟩,
  ⟨0x3001, 0x05, .bits32, .w1c, .obs, .opr, .pv, 0, 0⟩,
  ⟨0x3001, 0x06, .blob, .ro, .obs, .obs, .pv, 32, 0⟩]
/-- Objects of chapter 09. -/
def objs09_0 : List ObjDef := [
  ⟨0x3002, 0x00, .u8, .ro, .obs, .obs, .p0, 0, 0⟩,
  ⟨0x3002, 0x01, .u32, .rw, .obs, .opr, .p1, 0, 0⟩,
  ⟨0x3002, 0x02, .u8, .rw, .obs, .opr, .p1, 0, 0⟩,
  ⟨0x3002, 0x03, .u16, .ro, .obs, .obs, .pv, 0, 0⟩,
  ⟨0x3002, 0x04, .u16, .ro, .obs, .obs, .pv, 0, 0⟩,
  ⟨0x3002, 0x05, .table, .ro, .obs, .obs, .pv, 32, 256⟩,
  ⟨0x3002, 0x06, .u16, .cmd, .opr, .opr, .pv, 0, 0⟩,
  ⟨0x3002, 0x07, .table, .ro, .obs, .obs, .pv, 32, 16⟩,
  ⟨0x3002, 0x08, .table, .ro, .obs, .obs, .pv, 8, 4⟩,
  ⟨0x3002, 0x09, .bits32, .w1c, .obs, .opr, .pv, 0, 0⟩]
/-- Objects of chapter 10. -/
def objs10_0 : List ObjDef := [
  ⟨0x3400, 0x00, .u8, .ro, .obs, .obs, .p0, 0, 0⟩,
  ⟨0x3400, 0x01, .blob, .cmd, .opr, .opr, .pv, 256, 0⟩,
  ⟨0x3400, 0x02, .u8, .ro, .obs, .obs, .pv, 0, 0⟩,
  ⟨0x3400, 0x03, .table, .ro, .obs, .obs, .p1, 192, 4096⟩,
  ⟨0x3400, 0x04, .table, .ro, .obs, .obs, .pv, 8, 10⟩,
  ⟨0x3400, 0x05, .bits32, .w1c, .obs, .opr, .pv, 0, 0⟩,
  ⟨0x3400, 0x06, .table, .ro, .obs, .obs, .pv, 32, 64⟩]
/-- Objects of chapter 11. -/
def objs11_0 : List ObjDef := [
  ⟨0x3800, 0x00, .u8, .ro, .obs, .obs, .p0, 0, 0⟩,
  ⟨0x3800, 0x01, .table, .ro, .obs, .obs, .pv, 16, 16⟩,
  ⟨0x3800, 0x02, .table, .rw, .obs, .adm, .p1, 8, 4096⟩,
  ⟨0x3800, 0x03, .table, .rw, .obs, .adm, .p1, 8, 4096⟩,
  ⟨0x3800, 0x04, .u16, .rw, .obs, .adm, .p1, 0, 0⟩,
  ⟨0x3800, 0x05, .u16, .rw, .obs, .adm, .p1, 0, 0⟩,
  ⟨0x3800, 0x06, .u32, .rw, .obs, .opr, .p1, 0, 0⟩,
  ⟨0x3800, 0x07, .u32, .rw, .obs, .opr, .p1, 0, 0⟩,
  ⟨0x3800, 0x08, .u32, .rw, .obs, .opr, .p1, 0, 0⟩,
  ⟨0x3800, 0x09, .blob, .cmd, .opr, .opr, .pv, 24, 0⟩,
  ⟨0x3800, 0x0A, .u8, .ro, .obs, .obs, .pv, 0, 0⟩,
  ⟨0x3800, 0x0B, .u16, .cmd, .opr, .opr, .pv, 0, 0⟩,
  ⟨0x3800, 0x0C, .u8, .ro, .obs, .obs, .pv, 0, 0⟩,
  ⟨0x3801, 0x00, .u8, .ro, .obs, .obs, .p0, 0, 0⟩,
  ⟨0x3801, 0x01, .table, .ro, .obs, .obs, .pv, 8, 12⟩,
  ⟨0x3801, 0x02, .bits32, .w1c, .obs, .opr, .pv, 0, 0⟩,
  ⟨0x3801, 0x03, .addr64, .rw, .obs, .adm, .p1, 0, 0⟩,
  ⟨0x3801, 0x04, .u32, .rw, .obs, .adm, .p1, 0, 0⟩,
  ⟨0x3801, 0x05, .u32, .ro, .obs, .obs, .pv, 0, 0⟩,
  ⟨0x3801, 0x06, .u32, .ro, .obs, .obs, .pv, 0, 0⟩,
  ⟨0x3802, 0x00, .u8, .ro, .obs, .obs, .p0, 0, 0⟩,
  ⟨0x3802, 0x01, .table, .ro, .obs, .obs, .pv, 24, 16⟩,
  ⟨0x3802, 0x02, .u16, .cmd, .opr, .opr, .pv, 0, 0⟩,
  ⟨0x3802, 0x03, .bits64, .w1c, .obs, .opr, .pv, 0, 0⟩]
/-- Objects of chapter 12. -/
def objs12_0 : List ObjDef := [
  ⟨0x0300, 0x00, .u8, .ro, .obs, .obs, .p0, 0, 0⟩,
  ⟨0x0300, 0x01, .u8, .rw, .obs, .opr, .p1, 0, 0⟩,
  ⟨0x0300, 0x02, .bool, .rw, .obs, .opr, .p1, 0, 0⟩,
  ⟨0x0300, 0x03, .u16, .rw, .obs, .adm, .p1, 0, 0⟩,
  ⟨0x0300, 0x04, .u32, .rw, .obs, .adm, .p1, 0, 0⟩,
  ⟨0x0300, 0x05, .u16, .rw, .obs, .opr, .p1, 0, 0⟩,
  ⟨0x0300, 0x06, .u16, .rw, .obs, .opr, .p1, 0, 0⟩,
  ⟨0x0300, 0x07, .time112, .ro, .obs, .obs, .pv, 14, 0⟩,
  ⟨0x0300, 0x08, .time112, .cmd, .adm, .adm, .pv, 14, 0⟩,
  ⟨0x0300, 0x09, .u8, .rw, .obs, .opr, .p1, 0, 0⟩,
  ⟨0x0300, 0x0A, .u32, .rw, .obs, .opr, .p1, 0, 0⟩,
  ⟨0x0300, 0x0B, .s32, .rw, .obs, .opr, .p1, 0, 0⟩,
  ⟨0x0300, 0x0C, .s32, .rw, .obs, .opr, .p1, 0, 0⟩,
  ⟨0x0300, 0x0D, .blob, .ro, .obs, .obs, .pv, 12, 0⟩,
  ⟨0x0301, 0x00, .u8, .ro, .obs, .obs, .p0, 0, 0⟩,
  ⟨0x0301, 0x01, .u8, .rw, .obs, .adm, .p1, 0, 0⟩,
  ⟨0x0301, 0x02, .u8, .rw, .obs, .adm, .p1, 0, 0⟩,
  ⟨0x0301, 0x03, .u16, .rw, .obs, .adm, .p1, 0, 0⟩,
  ⟨0x0301, 0x04, .u8, .rw, .obs, .adm, .p1, 0, 0⟩,
  ⟨0x0301, 0x05, .u8, .rw, .obs, .adm, .p1, 0, 0⟩,
  ⟨0x0301, 0x06, .s8, .rw, .obs, .opr, .p1, 0, 0⟩,
  ⟨0x0301, 0x07, .u8, .rw, .obs, .opr, .p1, 0, 0⟩,
  ⟨0x0301, 0x08, .u8, .ro, .obs, .obs, .pv, 0, 0⟩,
  ⟨0x0301, 0x09, .s64, .ro, .obs, .obs, .pv, 0, 0⟩,
  ⟨0x0301, 0x0A, .s64, .ro, .obs, .obs, .pv, 0, 0⟩,
  ⟨0x0301, 0x0B, .u8, .ro, .obs, .obs, .pv, 0, 0⟩,
  ⟨0x0301, 0x0C, .u32, .ro, .obs, .obs, .pv, 0, 0⟩,
  ⟨0x0303, 0x00, .u8, .ro, .obs, .obs, .p0, 0, 0⟩,
  ⟨0x0303, 0x01, .table, .rw, .obs, .adm, .p1, 8, 1025⟩,
  ⟨0x0303, 0x02, .table, .ro, .obs, .obs, .pv, 8, 9⟩,
  ⟨0x0303, 0x03, .bits32, .w1c, .obs, .opr, .pv, 0, 0⟩,
  ⟨0x0303, 0x04, .table, .ro, .obs, .obs, .pv, 8, 16⟩,
  ⟨0x0303, 0x05, .bits32, .w1c, .obs, .opr, .pv, 0, 0⟩,
  ⟨0x0304, 0x00, .u8, .ro, .obs, .obs, .p0, 0, 0⟩,
  ⟨0x0304, 0x01, .u8, .ro, .obs, .obs, .p1, 0, 0⟩,
  ⟨0x0304, 0x02, .u8, .rw, .obs, .adm, .p1, 0, 0⟩,
  ⟨0x0304, 0x03, .u64, .cmd, .adm, .adm, .pv, 0, 0⟩,
  ⟨0x0304, 0x04, .u64, .ro, .obs, .obs, .pv, 0, 0⟩,
  ⟨0x0304, 0x05, .table, .rw, .obs, .opr, .p1, 1, 8⟩,
  ⟨0x0304, 0x06, .table, .ro, .obs, .obs, .pv, 8, 8⟩,
  ⟨0x0304, 0x07, .blob, .ro, .obs, .obs, .pv, 16, 0⟩,
  ⟨0x0304, 0x08, .table, .ro, .obs, .obs, .pv, 8, 4⟩,
  ⟨0x0304, 0x09, .bits32, .w1c, .obs, .opr, .pv, 0, 0⟩,
  ⟨0x0304, 0x0A, .u64, .rw, .obs, .adm, .p1, 0, 0⟩,
  ⟨0x0304, 0x0B, .u64, .rw, .obs, .adm, .p1, 0, 0⟩]
/-- Objects of chapter 13. -/
def objs13_0 : List ObjDef := [
  ⟨0x4000, 0x00, .u8, .ro, .obs, .obs, .p0, 0, 0⟩,
  ⟨0x4000, 0x01, .u16, .rw, .obs, .adm, .p1, 0, 0⟩,
  ⟨0x4000, 0x02, .table, .rw, .obs, .adm, .p1, 1, 6⟩,
  ⟨0x4000, 0x03, .u16, .rw, .obs, .adm, .p1, 0, 0⟩,
  ⟨0x4000, 0x04, .u32, .rw, .obs, .adm, .p1, 0, 0⟩,
  ⟨0x4000, 0x05, .u16, .rw, .obs, .adm, .p1, 0, 0⟩,
  ⟨0x4000, 0x06, .u8, .rw, .obs, .adm, .p1, 0, 0⟩,
  ⟨0x4000, 0x07, .blob, .rw, .obs, .adm, .p1, 64, 0⟩,
  ⟨0x4000, 0x08, .blob, .cmd, .adm, .adm, .pv, 8, 0⟩,
  ⟨0x4000, 0x09, .u8, .ro, .obs, .obs, .pv, 0, 0⟩,
  ⟨0x4000, 0x0A, .u16, .rw, .obs, .opr, .p1, 0, 0⟩,
  ⟨0x4000, 0x0B, .addr64, .rw, .obs, .adm, .p1, 0, 0⟩,
  ⟨0x4000, 0x0C, .u32, .rw, .obs, .adm, .p1, 0, 0⟩,
  ⟨0x4001, 0x00, .u8, .ro, .obs, .obs, .p0, 0, 0⟩,
  ⟨0x4001, 0x01, .table, .ro, .obs, .obs, .pv, 32, 512⟩,
  ⟨0x4001, 0x02, .u32, .ro, .obs, .obs, .pv, 0, 0⟩,
  ⟨0x4001, 0x03, .table, .ro, .obs, .obs, .pv, 8, 10⟩,
  ⟨0x4001, 0x04, .bits32, .w1c, .obs, .opr, .pv, 0, 0⟩,
  ⟨0x4200, 0x00, .u8, .ro, .obs, .obs, .p0, 0, 0⟩,
  ⟨0x4200, 0x01, .blob, .cmd, .adm, .adm, .pv, 4, 0⟩,
  ⟨0x4200, 0x02, .u8, .ro, .obs, .obs, .pv, 0, 0⟩,
  ⟨0x4200, 0x03, .bits64, .ro, .obs, .obs, .pv, 0, 0⟩,
  ⟨0x4200, 0x04, .bits64, .ro, .obs, .obs, .pv, 0, 0⟩,
  ⟨0x4200, 0x05, .bits32, .ro, .obs, .obs, .pv, 0, 0⟩,
  ⟨0x4200, 0x06, .bits32, .ro, .obs, .obs, .pv, 0, 0⟩,
  ⟨0x4200, 0x07, .bool, .ro, .obs, .obs, .pv, 0, 0⟩]
/-- Objects of chapter 14. -/
def objs14_0 : List ObjDef := [
  ⟨0x0000, 0x00, .u8, .ro, .obs, .obs, .p0, 0, 0⟩,
  ⟨0x0000, 0x01, .u64, .ro, .obs, .obs, .p0, 0, 0⟩,
  ⟨0x0000, 0x02, .blob, .ro, .obs, .obs, .p0, 97, 0⟩,
  ⟨0x0000, 0x03, .blob, .rw, .obs, .adm, .p0, 4096, 0⟩,
  ⟨0x0000, 0x04, .blob, .ro, .obs, .obs, .pv, 65535, 0⟩,
  ⟨0x0000, 0x05, .str, .ro, .obs, .obs, .p0, 255, 0⟩,
  ⟨0x0000, 0x06, .u16, .ro, .obs, .obs, .p0, 0, 0⟩,
  ⟨0x0000, 0x07, .u32, .ro, .obs, .obs, .p0, 0, 0⟩,
  ⟨0x0000, 0x08, .table, .ro, .obs, .obs, .pv, 64, 7⟩,
  ⟨0x0010, 0x00, .u8, .ro, .obs, .obs, .p0, 0, 0⟩,
  ⟨0x0010, 0x01, .blob, .ro, .obs, .obs, .pv, 32, 0⟩,
  ⟨0x0010, 0x02, .blob, .rw, .obs, .adm, .p2, 32, 0⟩,
  ⟨0x0010, 0x03, .table, .ro, .obs, .obs, .pv, 32, 512⟩,
  ⟨0x0010, 0x04, .table, .rw, .obs, .adm, .p1, 64, 4096⟩,
  ⟨0x0010, 0x05, .table, .ro, .obs, .obs, .p1, 32, 4096⟩,
  ⟨0x0010, 0x06, .blob, .cmd, .adm, .adm, .pv, 48, 0⟩,
  ⟨0x0010, 0x07, .u8, .ro, .obs, .obs, .pv, 0, 0⟩,
  ⟨0x0100, 0x00, .u8, .ro, .obs, .obs, .p0, 0, 0⟩,
  ⟨0x0100, 0x01, .u16, .rw, .obs, .adm, .p0, 0, 0⟩,
  ⟨0x0100, 0x02, .u32, .rw, .obs, .adm, .p0, 0, 0⟩,
  ⟨0x0100, 0x03, .blob, .rw, .obs, .adm, .p0, 16, 0⟩,
  ⟨0x0100, 0x04, .u16, .rw, .obs, .adm, .p0, 0, 0⟩,
  ⟨0x0100, 0x05, .u8, .rw, .obs, .adm, .p0, 0, 0⟩,
  ⟨0x0100, 0x06, .u8, .rw, .obs, .adm, .p0, 0, 0⟩,
  ⟨0x0100, 0x07, .u16, .rw, .obs, .adm, .p0, 0, 0⟩,
  ⟨0x0100, 0x08, .bool, .rw, .obs, .adm, .p0, 0, 0⟩,
  ⟨0x0100, 0x09, .table, .ro, .obs, .obs, .pv, 8, 8⟩,
  ⟨0x0100, 0x0A, .table, .ro, .obs, .obs, .pv, 8, 6⟩,
  ⟨0x0100, 0x0B, .u8, .cmd, .adm, .adm, .pv, 0, 0⟩,
  ⟨0x0101, 0x00, .u8, .ro, .obs, .obs, .p0, 0, 0⟩,
  ⟨0x0101, 0x01, .table, .wo, .adm, .adm, .p0, 40, 8⟩,
  ⟨0x0101, 0x02, .table, .ro, .obs, .obs, .p0, 1, 8⟩,
  ⟨0x4201, 0x00, .u8, .ro, .obs, .obs, .p0, 0, 0⟩,
  ⟨0x4201, 0x01, .table, .ro, .obs, .obs, .p0, 32, 1024⟩,
  ⟨0x4201, 0x02, .u16, .ro, .obs, .obs, .p0, 0, 0⟩,
  ⟨0x4201, 0x03, .u32, .ro, .obs, .obs, .p0, 0, 0⟩,
  ⟨0x4202, 0x00, .u8, .ro, .obs, .obs, .p0, 0, 0⟩,
  ⟨0x4202, 0x01, .blob, .rw, .obs, .adm, .pv, 16, 0⟩,
  ⟨0x5000, 0x00, .u8, .ro, .obs, .obs, .p0, 0, 0⟩,
  ⟨0x5000, 0x01, .u8, .rw, .obs, .adm, .p1, 0, 0⟩,
  ⟨0x5000, 0x02, .u32, .rw, .obs, .adm, .p1, 0, 0⟩,
  ⟨0x5000, 0x03, .u8, .cmd, .adm, .adm, .pv, 0, 0⟩,
  ⟨0x5000, 0x04, .u8, .cmd, .adm, .adm, .pv, 0, 0⟩,
  ⟨0x5000, 0x05, .table, .ro, .obs, .obs, .pv, 1, 64⟩,
  ⟨0x5000, 0x06, .addr64, .rw, .obs, .adm, .p1, 0, 0⟩,
  ⟨0x5000, 0x07, .u32, .rw, .obs, .adm, .p1, 0, 0⟩,
  ⟨0x5001, 0x00, .u8, .ro, .obs, .obs, .p0, 0, 0⟩,
  ⟨0x5001, 0x01, .u8, .ro, .obs, .obs, .pv, 0, 0⟩,
  ⟨0x5001, 0x02, .blob, .cmd, .adm, .adm, .pv, 16, 0⟩,
  ⟨0x5001, 0x03, .u8, .ro, .obs, .obs, .pv, 0, 0⟩,
  ⟨0x5001, 0x04, .u8, .ro, .obs, .obs, .pv, 0, 0⟩,
  ⟨0x5001, 0x05, .addr64, .ro, .obs, .obs, .pv, 0, 0⟩,
  ⟨0x5001, 0x06, .str, .ro, .obs, .obs, .pv, 255, 0⟩,
  ⟨0x5001, 0x07, .u32, .ro, .obs, .obs, .pv, 0, 0⟩,
  ⟨0x5001, 0x08, .blob, .ro, .obs, .obs, .pv, 48, 0⟩,
  ⟨0x5001, 0x09, .u8, .cmd, .adm, .adm, .pv, 0, 0⟩,
  ⟨0x5002, 0x00, .u8, .ro, .obs, .obs, .p0, 0, 0⟩,
  ⟨0x5002, 0x01, .table, .ro, .obs, .obs, .pv, 8, 8⟩,
  ⟨0x5002, 0x02, .bits32, .w1c, .obs, .opr, .pv, 0, 0⟩]
/-- Objects of chapter 15. -/
def objs15_0 : List ObjDef := [
  ⟨0x4210, 0x00, .u8, .ro, .obs, .obs, .p0, 0, 0⟩,
  ⟨0x4210, 0x01, .table, .ro, .obs, .obs, .pv, 8, 9⟩,
  ⟨0x4210, 0x02, .bits32, .w1c, .obs, .opr, .pv, 0, 0⟩]
/-- Objects of chapter 16. -/
def objs16_0 : List ObjDef := [
  ⟨0x4100, 0x00, .u8, .ro, .obs, .obs, .p0, 0, 0⟩,
  ⟨0x4100, 0x01, .table, .rw, .obs, .opr, .p1, 8, 8192⟩,
  ⟨0x4100, 0x02, .table, .ro, .obs, .obs, .pv, 8, 8192⟩,
  ⟨0x4100, 0x03, .u32, .cmd, .opr, .opr, .pv, 0, 0⟩,
  ⟨0x4101, 0x00, .u8, .ro, .obs, .obs, .p0, 0, 0⟩,
  ⟨0x4101, 0x01, .u64, .cmd, .opr, .opr, .pv, 0, 0⟩,
  ⟨0x4101, 0x02, .u32, .rw, .obs, .opr, .p1, 0, 0⟩,
  ⟨0x4101, 0x03, .u8, .cmd, .opr, .opr, .pv, 0, 0⟩,
  ⟨0x4101, 0x04, .bool, .rw, .obs, .opr, .p1, 0, 0⟩,
  ⟨0x4101, 0x05, .table, .ro, .obs, .obs, .pv, 8, 8192⟩,
  ⟨0x4101, 0x06, .blob, .ro, .obs, .obs, .pv, 64, 0⟩,
  ⟨0x4101, 0x07, .addr64, .rw, .obs, .adm, .p1, 0, 0⟩,
  ⟨0x4101, 0x08, .u32, .rw, .obs, .adm, .p1, 0, 0⟩,
  ⟨0x4101, 0x09, .u32, .ro, .obs, .obs, .pv, 0, 0⟩,
  ⟨0x4102, 0x00, .u8, .ro, .obs, .obs, .p0, 0, 0⟩,
  ⟨0x4102, 0x01, .table, .ro, .obs, .obs, .p1, 24, 18432⟩,
  ⟨0x4102, 0x02, .u8, .cmd, .opr, .opr, .pv, 0, 0⟩,
  ⟨0x4103, 0x00, .u8, .ro, .obs, .obs, .p0, 0, 0⟩,
  ⟨0x4103, 0x01, .addr64, .rw, .obs, .adm, .p1, 0, 0⟩,
  ⟨0x4103, 0x02, .u32, .rw, .obs, .adm, .p1, 0, 0⟩,
  ⟨0x4103, 0x03, .u8, .rw, .obs, .opr, .p1, 0, 0⟩,
  ⟨0x4103, 0x04, .u32, .ro, .obs, .obs, .pv, 0, 0⟩,
  ⟨0x4103, 0x05, .u64, .ro, .obs, .obs, .pv, 0, 0⟩,
  ⟨0x4103, 0x06, .bits64, .rw, .obs, .opr, .p1, 0, 0⟩,
  ⟨0x4103, 0x07, .u8, .rw, .obs, .opr, .p1, 0, 0⟩,
  ⟨0x4103, 0x08, .table, .rw, .obs, .opr, .p1, 8, 1024⟩,
  ⟨0x4103, 0x09, .u16, .cmd, .opr, .opr, .pv, 0, 0⟩,
  ⟨0x4103, 0x0A, .table, .ro, .obs, .obs, .pv, 8, 4⟩,
  ⟨0x4103, 0x0B, .bits32, .w1c, .obs, .opr, .pv, 0, 0⟩]
/-- Objects of chapter 17. -/
def objs17_0 : List ObjDef := [
  ⟨0x0200, 0x00, .u8, .ro, .obs, .obs, .p0, 0, 0⟩,
  ⟨0x0200, 0x01, .u8, .ro, .obs, .obs, .p0, 0, 0⟩,
  ⟨0x0200, 0x02, .u8, .ro, .obs, .obs, .p0, 0, 0⟩,
  ⟨0x0200, 0x03, .bits32, .ro, .obs, .obs, .p0, 0, 0⟩,
  ⟨0x0201, 0x00, .u8, .ro, .obs, .obs, .p0, 0, 0⟩,
  ⟨0x0201, 0x01, .blob, .cmd, .adm, .adm, .pv, 8, 0⟩,
  ⟨0x0201, 0x02, .u8, .ro, .obs, .obs, .pv, 0, 0⟩,
  ⟨0x0201, 0x03, .blob, .ro, .obs, .obs, .p0, 16, 0⟩,
  ⟨0x0201, 0x04, .table, .ro, .obs, .obs, .p0, 8, 9⟩,
  ⟨0x0201, 0x05, .bits32, .w1c, .obs, .opr, .p0, 0, 0⟩,
  ⟨0x0202, 0x00, .u8, .ro, .obs, .obs, .p0, 0, 0⟩,
  ⟨0x0202, 0x01, .u8, .ro, .obs, .obs, .pv, 0, 0⟩,
  ⟨0x0202, 0x02, .u8, .cmd, .adm, .adm, .pv, 0, 0⟩,
  ⟨0x0202, 0x03, .u8, .ro, .obs, .obs, .pv, 0, 0⟩,
  ⟨0x0202, 0x04, .bits32, .rw, .obs, .adm, .p1, 0, 0⟩,
  ⟨0x0202, 0x05, .blob, .cmd, .adm, .adm, .pv, 4, 0⟩,
  ⟨0x0202, 0x06, .u8, .ro, .obs, .obs, .pv, 0, 0⟩,
  ⟨0x0202, 0x07, .bits64, .ro, .obs, .obs, .pv, 0, 0⟩,
  ⟨0x0202, 0x08, .bits64, .ro, .obs, .obs, .pv, 0, 0⟩,
  ⟨0x0202, 0x09, .bits64, .ro, .obs, .obs, .pv, 0, 0⟩,
  ⟨0x0202, 0x0A, .u8, .ro, .obs, .obs, .pv, 0, 0⟩,
  ⟨0x0203, 0x00, .u8, .ro, .obs, .obs, .p0, 0, 0⟩,
  ⟨0x0203, 0x01, .table, .rw, .obs, .adm, .p0, 4, 32⟩,
  ⟨0x0203, 0x02, .bits32, .ro, .obs, .obs, .pv, 0, 0⟩,
  ⟨0x0203, 0x03, .bits32, .rw, .obs, .opr, .p1, 0, 0⟩,
  ⟨0x0204, 0x00, .u8, .ro, .obs, .obs, .p0, 0, 0⟩,
  ⟨0x0204, 0x01, .blob, .ro, .obs, .obs, .p0, 16, 0⟩,
  ⟨0x0204, 0x02, .u32, .ro, .obs, .obs, .p0, 0, 0⟩]
/-- Objects of chapter 18. -/
def objs18_0 : List ObjDef := [
  ⟨0x4300, 0x00, .u8, .ro, .obs, .obs, .p0, 0, 0⟩,
  ⟨0x4300, 0x01, .table, .ro, .obs, .obs, .pv, 2, 16⟩,
  ⟨0x4300, 0x02, .table, .ro, .obs, .obs, .pv, 2, 16⟩,
  ⟨0x4300, 0x03, .u8, .rw, .obs, .opr, .p0, 0, 0⟩,
  ⟨0x4300, 0x04, .u8, .rw, .obs, .opr, .p0, 0, 0⟩,
  ⟨0x4301, 0x00, .u8, .ro, .obs, .obs, .p0, 0, 0⟩,
  ⟨0x4301, 0x01, .table, .ro, .obs, .obs, .pv, 2, 13⟩,
  ⟨0x4301, 0x02, .table, .ro, .obs, .obs, .pv, 2, 17⟩,
  ⟨0x4301, 0x03, .table, .ro, .obs, .obs, .p0, 8, 6⟩,
  ⟨0x4301, 0x04, .bits32, .w1c, .obs, .opr, .p0, 0, 0⟩]

/-- Every object, block 0's and domain A's standing for all blocks and both domains. -/
def objTable : List ObjDef :=
  objs01_0 ++ objs02_0 ++ objs03_0 ++ objs04_0 ++ objs05_0 ++ objs06_0 ++ objs07_0 ++ objs08_0 ++ objs09_0 ++ objs10_0 ++ objs11_0 ++ objs12_0 ++ objs13_0 ++ objs14_0 ++ objs15_0 ++ objs16_0 ++ objs17_0 ++ objs18_0

/-- The object whose row describes `oid`: block 0's for a port block (R215), domain A's for domain B. -/
def canonOid (oid : Nat) : Nat :=
  if 0x100000 ≤ oid ∧ oid < 0x180000 then 0x100000 + oid % 4096
  else if oid / 256 = 0x0302 then oid - 256 else oid

/-- The definition of an object, if it is defined. -/
def objDef (oid : Nat) : Option ObjDef :=
  objTable.find? (fun d => d.idx * 256 + d.el == canonOid oid)

/-- Default of an EGR_QCFG row for queue `q` (R135): level, weight 1, pause fields, unshaped. -/
def qcfgDefault (q : Nat) : Nat :=
  (if 8 ≤ q then 7 else if q = 0 then 6 else 0) + 1 <<< 4 +
  (if q < 8 then 1 <<< 12 + q <<< 13 else 0) + 0x3FFFFF <<< 64

/-- Default of a BELL_BUDGET row in 64ths (R449, the consumer table). -/
def bellBudgetDefault (row : Nat) : Nat := ([1, 1, 16, 4, 4, 8, 64, 32][row]?).getD 0

/-- The default of row `row` of an object (row 0 for an object that is no table). -/
def objDefault (oid row : Nat) : Nat :=
  if oid = 0x030201 then 1 else      -- DOM_NUMBER of domain B (R458)
  match canonOid oid with
  | 0x000000 => 8
  | 0x000001 => Config.serial.toNat
  | 0x000006 => Config.siliconRev.toNat
  | 0x000007 => Config.romVersion.toNat
  | 0x001000 => 7
  | 0x001001 => 0x1FFFF
  | 0x001002 => 0x300
  | 0x010000 => 11
  | 0x010001 => 24727
  | 0x010004 => 34998
  | 0x010005 => 255
  | 0x010006 => 8
  | 0x010007 => 60
  | 0x010100 => 2
  | 0x020000 => 3
  | 0x020001 => 15
  | 0x020002 => 63
  | 0x020100 => 5
  | 0x020200 => 10
  | 0x020300 => 3
  | 0x020301 => 4
  | 0x020400 => 2
  | 0x030000 => 13
  | 0x030002 => 1
  | 0x030003 => 10000
  | 0x030004 => 1000
  | 0x030005 => 50
  | 0x030006 => 16
  | 0x03000A => 100000
  | 0x030100 => 12
  | 0x030106 => 249
  | 0x030107 => 2
  | 0x03010B => 255
  | 0x030300 => 5
  | 0x030400 => 11
  | 0x030401 => 2
  | 0x030402 => 2
  | 0x030405 => bellBudgetDefault row
  | 0x100000 => 10
  | 0x100002 => 1
  | 0x100004 => 9216
  | 0x100006 => 66
  | 0x100008 => 20
  | 0x100100 => 7
  | 0x100200 => 6
  | 0x100206 => 10
  | 0x200000 => 13
  | 0x200001 => 256
  | 0x200002 => 256
  | 0x200003 => 6
  | 0x200004 => 12
  | 0x200005 => 20000
  | 0x200006 => 75
  | 0x200007 => 60
  | 0x200008 => 1
  | 0x200009 => 4
  | 0x20000B => 3
  | 0x20000C => 1
  | 0x20000D => 1
  | 0x200100 => 17
  | 0x200200 => 3
  | 0x200201 => 10
  | 0x200202 => 9
  | 0x200203 => 8
  | 0x201000 => 4
  | 0x201001 => qcfgDefault (row % 12)
  | 0x201002 => 0x3FFFFF + 24 <<< 64
  | 0x201003 => 2 ^ 768 - 1
  | 0x201100 => 5
  | 0x201200 => 11
  | 0x240000 => 6
  | 0x240001 => 34997
  | 0x240004 => 0xFAC688 <<< 16 + 0xFFFFF <<< 40 + 1 <<< 62
  | 0x240005 => 1
  | 0x240006 => row >>> 3
  | 0x240100 => 7
  | 0x240101 => 10
  | 0x240102 => 3600
  | 0x240200 => 3
  | 0x240300 => 2
  | 0x240400 => 2
  | 0x280000 => 9
  | 0x280004 => 7
  | 0x280005 => 65535
  | 0x281000 => 6
  | 0x281100 => 3
  | 0x281101 => 4096
  | 0x281103 => 50000
  | 0x282000 => 4
  | 0x282001 => row
  | 0x282100 => 4
  | 0x2C0000 => 8
  | 0x2C0003 => 500
  | 0x2C0100 => 4
  | 0x2C0101 => 1024
  | 0x300000 => 8
  | 0x300001 => 1
  | 0x300003 => 4
  | 0x300004 => 1000
  | 0x300005 => 4096
  | 0x300006 => 1
  | 0x300008 => ([40, 55, 65, 75, 85, 95, 105][row]?).getD 0
  | 0x300100 => 6
  | 0x300101 => 128
  | 0x300102 => if row % 9 = 8 then 1 else 0
  | 0x300103 => row / 8 * 9 + row % 8
  | 0x300200 => 9
  | 0x300201 => 10000
  | 0x300202 => 64
  | 0x340000 => 6
  | 0x380000 => 12
  | 0x380004 => 65535
  | 0x380005 => 65535
  | 0x380006 => 10000
  | 0x380007 => 2000
  | 0x380008 => 1000
  | 0x380100 => 6
  | 0x380200 => 3
  | 0x400000 => 12
  | 0x400001 => 32
  | 0x400002 => ([1, 2, 2, 3, 3, 4][row]?).getD 0
  | 0x400003 => 256
  | 0x400004 => 512
  | 0x400005 => 4096
  | 0x40000A => 100
  | 0x400100 => 4
  | 0x410000 => 3
  | 0x410100 => 9
  | 0x410200 => 2
  | 0x410300 => 11
  | 0x420000 => 7
  | 0x420100 => 3
  | 0x420200 => 1
  | 0x421000 => 2
  | 0x430000 => 4
  | 0x430003 => 100
  | 0x430004 => 3
  | 0x430100 => 4
  | 0x500000 => 7
  | 0x500001 => 4
  | 0x500100 => 9
  | 0x500105 => 0x40000000
  | 0x500200 => 2
  | _ => 0

end Sys2Proof.Machine
end

