-- ==== Sys2Proof/Machine/Arith.lean ====
section
/-!
DEFINITION. The Drove's arithmetic (R277 to R289, R293, R294): number formats, exact accumulation, the one rounding
at output, the MX, WIDE and XP64 encodings, and chunk residues.
-/

namespace Sys2Proof.Machine

/-- Bytes with their poison marks. -/
abbrev PBytes := List (Byte × Bool)

/-- Clean bytes. -/
def pclean (l : List Byte) : PBytes := l.map (fun b => (b, false))

/-- The bytes alone. -/
def PBytes.raw (l : PBytes) : List Byte := l.map (·.1)

/-- Whether a byte of `[off, off + n)` is poisoned. -/
def PBytes.bad (l : PBytes) (off n : Nat) : Bool := ((l.drop off).take n).any (·.2)

/-- `n` bytes at `off`, little-endian. -/
def PBytes.num (l : PBytes) (off n : Nat) : Nat := leNum (((l.drop off).take n).map (·.1))

/-! ### Formats (R277, R278) -/

/-- Exponent bits, fraction bits and bias of a floating-point element format, and how its top codes read: 0 every code
finite, 1 IEEE infinities and NaNs, 2 one NaN (E4M3). -/
structure FloatFmt where
  ebits : Nat
  mbits : Nat
  bias  : Nat
  tops  : Nat
  deriving DecidableEq, Repr

/-- The element format of a format code; none for integer formats, WIDE and XP64. -/
def floatFmt (f : Nat) : Option FloatFmt :=
  match f with
  | 0x00 => some ⟨8, 23, 127, 1⟩
  | 0x01 => some ⟨8, 7, 127, 1⟩
  | 0x02 => some ⟨5, 10, 15, 1⟩
  | 0x03 => some ⟨4, 3, 7, 2⟩
  | 0x04 => some ⟨5, 2, 15, 1⟩
  | 0x05 => some ⟨4, 3, 7, 2⟩
  | 0x06 => some ⟨5, 2, 15, 1⟩
  | 0x07 => some ⟨3, 2, 3, 0⟩
  | 0x08 => some ⟨2, 3, 1, 0⟩
  | 0x09 => some ⟨2, 1, 1, 0⟩
  | _ => none

abbrev fmtWide : Nat := 0x10
abbrev fmtXp64 : Nat := 0x11

/-- A format code of R277. -/
def fmtKnown (f : Nat) : Bool := decide (f ≤ 0x0D) || f == fmtWide || f == fmtXp64

/-- An MX format (R278). -/
def fmtMx (f : Nat) : Bool := decide (0x05 ≤ f ∧ f ≤ 0x0A)

/-- An integer format (R279). -/
def fmtInt (f : Nat) : Bool := decide (0x0B ≤ f ∧ f ≤ 0x0D)

/-- Bits of an element without its scale. -/
def elemBits (f : Nat) : Nat :=
  match f with
  | 0x00 => 32
  | 0x01 => 16
  | 0x02 => 16
  | 0x07 => 6
  | 0x08 => 6
  | 0x09 => 4
  | 0x0C => 16
  | 0x0D => 32
  | 0x10 => 384
  | _ => 8

/-- Whether the format is laid out in blocks of 32 elements. -/
def fmtBlocked (f : Nat) : Bool := fmtMx f || f == fmtXp64

/-- Bytes of a block of 32 elements of a blocked format. -/
def blockBytes (f : Nat) : Nat := if f = fmtXp64 then 280 else 1 + 4 * elemBits f

/-- Bytes of `n` elements. -/
def fmtBytes (f n : Nat) : Nat := if fmtBlocked f then (n + 31) / 32 * blockBytes f else n * (elemBits f / 8)

/-- Byte offset of element `i` of an array, of the block that holds it for a blocked format. -/
def fmtOff (f i : Nat) : Nat := if fmtBlocked f then i / 32 * blockBytes f else i * (elemBits f / 8)

/-! ### Elements -/

/-- What kind of value an element is. -/
inductive EKind where
  | fin | inf | nan | poison
  deriving DecidableEq, Repr

/-- An input element: its sign, its magnitude in units of 2^-151, its kind, and whether R281 took it as an infinity. -/
structure Elem where
  neg   : Bool := false
  mag   : Nat := 0
  kind  : EKind := .fin
  range : Bool := false
  deriving DecidableEq, Repr

/-- A floating-point code of format `f`, its value times 2^`k` (R278, R280). -/
def decodeFloat (f : FloatFmt) (code : Nat) (k : Int) : Elem :=
  let m := bits code 0 f.mbits
  let e := bits code f.mbits f.ebits
  let s := code.testBit (f.mbits + f.ebits)
  let top := 2 ^ f.ebits - 1
  if f.tops = 1 ∧ e = top then (if m = 0 then { neg := s, kind := .inf } else { kind := .nan })
  else if f.tops = 2 ∧ e = top ∧ m = 2 ^ f.mbits - 1 then { kind := .nan }
  else
    let sig := if e = 0 then m else 2 ^ f.mbits + m
    let ex : Int := (max e 1 : Nat) - (f.bias : Int) - (f.mbits : Int) + 151 + k
    { neg := s, mag := sig * 2 ^ ex.toNat }

/-- An MX element under its scale byte (R278, R281). -/
def decodeMx (f code scale : Nat) : Elem :=
  if scale = 255 then { kind := .nan }
  else
    let k : Int := (scale : Int) - 127
    let e : Elem := match floatFmt f with
      | some ff => decodeFloat ff code k
      | none =>
        let v := sint 8 code
        { neg := decide (v < 0), mag := v.natAbs * 2 ^ ((145 : Int) + k).toNat }
    if e.kind = .fin ∧ 2 ^ 279 ≤ e.mag then { neg := e.neg, kind := .inf, range := true } else e

/-- Element `i` of an array of a format other than WIDE and XP64, at byte `base` of `l`, with the operand's scale
exponent `s` (R279). Element 0 of a blocked format starts a block. -/
def elemAt (f : Nat) (s : Int) (l : PBytes) (base i : Nat) : Elem :=
  if fmtMx f then
    let o := base + i / 32 * blockBytes f
    let w := elemBits f
    let b := (i % 32) * w
    let code := bits (l.num (o + 1 + b / 8) 2) (b % 8) w
    if l.bad o 1 || l.bad (o + 1 + b / 8) ((b % 8 + w + 7) / 8) then { kind := .poison } else decodeMx f code (l.num o 1)
  else
    let n := elemBits f / 8
    let o := base + i * n
    if l.bad o n then { kind := .poison }
    else match floatFmt f with
      | some ff => decodeFloat ff (l.num o n) 0
      | none =>
        let v := sint (8 * n) (l.num o n)
        { neg := decide (v < 0), mag := v.natAbs * 2 ^ (s + 151).toNat }

/-! ### Accumulators (R281 to R283) -/

/-- An accumulator: the 320-bit integer and its sideband. -/
structure Acc where
  a       : Nat := 0
  terms   : Nat := 0
  nan     : Bool := false
  pinf    : Bool := false
  ninf    : Bool := false
  poison  : Bool := false
  range   : Bool := false
  rounded : Bool := false
  negzero : Bool := true
  deriving DecidableEq, Repr

/-- The empty accumulator. -/
def Acc.zero : Acc := {}

/-- The sum of two accumulators (R282, R283, R288). -/
def Acc.add (x y : Acc) : Acc :=
  { a := (x.a + y.a) % 2 ^ 320, terms := min (2 ^ 48 - 1) (x.terms + y.terms)
    nan := x.nan || y.nan, pinf := x.pinf || y.pinf, ninf := x.ninf || y.ninf, poison := x.poison || y.poison
    range := x.range || y.range, rounded := x.rounded || y.rounded, negzero := x.negzero && y.negzero }

/-- A signed magnitude as a 320-bit integer. -/
def acc320 (neg : Bool) (mag : Nat) : Nat := sbits 320 (if neg then -(mag : Int) else (mag : Int))

/-- One term (R282). -/
def Elem.term (e : Elem) : Acc :=
  match e.kind with
  | .fin => { a := acc320 e.neg e.mag, terms := 1, range := e.range, negzero := e.neg && e.mag == 0 }
  | .inf => { terms := 1, pinf := !e.neg, ninf := e.neg, range := e.range, negzero := false }
  | .nan => { terms := 1, nan := true, range := e.range, negzero := false }
  | .poison => { terms := 1, poison := true, negzero := false }

/-- Round `m / 2^sh` to an integer under a mode of R285; the second answer says that it changed the value. -/
def roundShift (m sh mode : Nat) (neg : Bool) : Nat × Bool :=
  let q := m >>> sh
  let r := m % 2 ^ sh
  let up := match mode with
    | 0 => decide (2 ^ sh < 2 * r) || (decide (2 ^ sh = 2 * r) && q % 2 == 1)
    | 2 => r != 0 && !neg
    | 3 => r != 0 && neg
    | 4 => decide (2 ^ sh ≤ 2 * r)
    | _ => false
  (if up then q + 1 else q, r != 0)

/-- The product term of two elements (R284). Specials multiply as IEEE 754 has them (log entry 17). -/
def Elem.prod (x y : Elem) : Acc :=
  let neg := xor x.neg y.neg
  let rg := x.range || y.range
  if x.kind = .poison ∨ y.kind = .poison then { terms := 1, poison := true, range := rg, negzero := false }
  else if x.kind = .nan ∨ y.kind = .nan then { terms := 1, nan := true, range := rg, negzero := false }
  else if x.kind = .inf ∨ y.kind = .inf then
    if (x.kind = .fin ∧ x.mag = 0) ∨ (y.kind = .fin ∧ y.mag = 0) then { terms := 1, nan := true, range := rg, negzero := false }
    else { terms := 1, pinf := !neg, ninf := neg, range := rg, negzero := false }
  else
    let r := roundShift (x.mag * y.mag) 151 0 neg
    if 2 ^ 279 ≤ r.1 then { terms := 1, pinf := !neg, ninf := neg, range := true, rounded := r.2, negzero := false }
    else { a := acc320 neg r.1, terms := 1, rounded := r.2, range := rg, negzero := neg && r.1 == 0 }

/-- What an accumulator holds at output (R283): poison first, then NaN, then an infinity, then the finite value. -/
def Acc.kind (x : Acc) : EKind :=
  if x.poison then .poison
  else if x.nan || (x.pinf && x.ninf) then .nan
  else if x.pinf || x.ninf then .inf
  else .fin

/-- The sign and magnitude of the value held. -/
def Acc.value (x : Acc) : Bool × Nat :=
  let v := sint 320 x.a
  (decide (v < 0), v.natAbs)

/-! ### WIDE and XP64 (R288, R289) -/

/-- The sideband of R283. -/
def Acc.sideband (x : Acc) : Nat :=
  x.terms + b2n x.nan <<< 48 + b2n x.pinf <<< 49 + b2n x.ninf <<< 50 + b2n x.poison <<< 51 + b2n x.range <<< 52 +
  b2n x.rounded <<< 53 + b2n x.negzero <<< 54

/-- A WIDE element. -/
def Acc.wide (x : Acc) : List Byte := leBytes 40 x.a ++ leBytes 8 x.sideband

/-- The accumulator of a WIDE element's 48 bytes. -/
def accOfWide (a sb : Nat) : Acc :=
  { a := a % 2 ^ 320, terms := bits sb 0 48, nan := sb.testBit 48, pinf := sb.testBit 49, ninf := sb.testBit 50
    poison := sb.testBit 51, range := sb.testBit 52, rounded := sb.testBit 53, negzero := sb.testBit 54 }

/-- The number of trailing zero bits of a non-zero number, up to `fuel`. -/
def trailing (n : Nat) : Nat → Nat
  | 0 => 0
  | fuel + 1 => if n % 2 = 1 then 0 else 1 + trailing (n / 2) fuel

/-- The state of an XP64 element under block shift `t` (R289). -/
def xpState (x : Acc) (t : Nat) : Nat :=
  let v := sint 320 x.a
  let m := v / (2 ^ t : Nat)
  match x.kind with
  | .poison => 6
  | .nan => 3
  | .inf => if x.pinf then 4 else 5
  | .fin =>
    if x.terms = 0 then 7
    else if m < -(2 ^ 63 : Nat) ∨ ((2 ^ 63 : Nat) : Int) ≤ m then 2
    else if x.a = 0 ∧ x.negzero then 1
    else 0

/-- The shift t of an XP64 block (R289). -/
def xpShift (l : List Acc) : Nat :=
  match (l.filter (fun x => decide (x.terms ≠ 0 ∧ x.kind = .fin ∧ x.a ≠ 0))).map (fun x => trailing (x.value).2 320) with
  | [] => 0
  | t :: r => r.foldl min t

/-- An XP64 block of up to 32 accumulators with some states forced to poisoned, and the places of its spilled
elements. -/
def xpBlock (l : List Acc) (force : Nat → Bool) : List Byte × List Nat :=
  let l := l ++ List.replicate (32 - l.length) Acc.zero
  let t := xpShift l
  let st := fun i => let x := l.getD i Acc.zero; let k := xpState x t; if k = 2 ∧ force i then 6 else k
  let states := (List.range 32).foldl (fun a i => a + st i <<< (3 * i)) 0
  let terms := l.foldl (fun a x => max a x.terms) 0
  let fl := b2n (l.any (·.range)) + 2 * b2n (l.any (·.rounded))
  let m := (List.range 32).flatMap (fun i =>
    leBytes 8 (if st i = 0 then sbits 64 (sint 320 (l.getD i Acc.zero).a / (2 ^ t : Nat)) else 0))
  (leBytes 2 (sbits 16 ((t : Int) - 151)) ++ leBytes 6 terms ++ leBytes 1 fl ++ leBytes 3 0 ++ leBytes 12 states ++ m,
   (List.range 32).filter (fun i => st i == 2))

/-- Element `i` of an XP64 block at byte `o` of `l`; `spill` finds the WIDE value of a spilled element by its index in
the array (R289). -/
def xpElem (l : PBytes) (o i idx : Nat) (spill : Nat → Option Acc) : Acc :=
  if l.bad o 280 then { poison := true }
  else
    let b := sint 16 (l.num o 2)
    let terms := l.num (o + 2) 6
    let fl := l.num (o + 8) 1
    let st := bits (l.num (o + 12) 12) (3 * i) 3
    let rg := fl.testBit 0
    let rd := fl.testBit 1
    if st = 7 then Acc.zero
    else if b < -151 ∨ 168 < b then { poison := true }
    else match st with
      | 0 =>
        let m := sint 64 (l.num (o + 24 + 8 * i) 8)
        { a := sbits 320 (m * (2 ^ (b + 151).toNat : Nat)), terms := terms, range := rg, rounded := rd, negzero := false }
      | 1 => { terms := terms, range := rg, rounded := rd }
      | 2 => match spill idx with
        | some x => x.add { range := rg, rounded := rd }
        | none => { poison := true }
      | 3 => { terms := terms, nan := true, negzero := false }
      | 4 => { terms := terms, pinf := true, negzero := false }
      | 5 => { terms := terms, ninf := true, negzero := false }
      | _ => { poison := true }

/-- Element `i` of an array in any format as an accumulator to add. -/
def accAt (f : Nat) (s : Int) (l : PBytes) (base i : Nat) (spill : Nat → Option Acc := fun _ => none) : Acc :=
  if f = fmtWide then
    let o := base + 48 * i
    if l.bad o 48 then { poison := true } else accOfWide (l.num o 40) (l.num (o + 40) 8)
  else if f = fmtXp64 then xpElem l (base + i / 32 * 280) (i % 32) i spill
  else (elemAt f s l base i).term

/-! ### Output (R285 to R287) -/

/-- Result flags by bit number (R287). -/
abbrev fInexact : Nat := 1
abbrev fOverflow : Nat := 2
abbrev fNan : Nat := 4
abbrev fInf : Nat := 8
abbrev fPoison : Nat := 16
abbrev fRange : Nat := 32
abbrev fRounded : Nat := 64
abbrev fTermLimit : Nat := 128
abbrev fNondet : Nat := 256
abbrev fSpilled : Nat := 512
abbrev fCondemned : Nat := 1024
abbrev fPreempted : Nat := 2048

/-- The largest finite code of a floating-point element format. -/
def FloatFmt.maxCode (f : FloatFmt) : Nat :=
  match f.tops with
  | 1 => (2 ^ f.ebits - 1) * 2 ^ f.mbits - 1
  | 2 => 2 ^ (f.ebits + f.mbits) - 2
  | _ => 2 ^ (f.ebits + f.mbits) - 1

/-- The code of `mag · 2^u` in format `f` under a mode, without its sign; whether rounding changed it; whether it is
too large for the format. -/
def encodeMag (f : FloatFmt) (mode : Nat) (neg : Bool) (mag : Nat) (u : Int) : Nat × Bool × Bool :=
  if mag = 0 then (0, false, false)
  else
    let emin : Int := 1 - (f.bias : Int)
    let e : Int := max ((Nat.log2 mag : Int) + u) emin
    let sh : Int := e - (f.mbits : Int) - u
    let r := if sh ≤ 0 then (mag * 2 ^ (-sh).toNat, false) else roundShift mag sh.toNat mode neg
    let code := ((e + (f.bias : Int)).toNat - 1) * 2 ^ f.mbits + r.1
    (code, r.2, decide (f.maxCode < code))

/-- Whether a value too large for a format with infinities becomes infinite under a mode (R286). -/
def toInfinity (mode : Nat) (neg : Bool) : Bool :=
  match mode with
  | 1 => false
  | 2 => !neg
  | 3 => neg
  | _ => true

/-- The code of an accumulator in a floating-point format that is not in a block (R285, R286), and its flags: a finite value
that becomes infinite makes an infinite output, so it sets inf too (R287). -/
def encodeFloat (f : FloatFmt) (mode : Nat) (x : Acc) : Nat × Nat :=
  let sgn := 2 ^ (f.ebits + f.mbits)
  let infCode := if f.tops = 1 then f.maxCode + 1 else f.maxCode
  let nanCode := if f.tops = 1 then f.maxCode + 1 + 2 ^ (f.mbits - 1) else 2 ^ (f.ebits + f.mbits) - 1
  match x.kind with
  | .poison => (nanCode, fPoison)
  | .nan => (nanCode, fNan)
  | .inf => (infCode + (if x.pinf then 0 else sgn), fInf)
  | .fin =>
    let v := x.value
    if v.2 = 0 then ((if x.negzero ∧ x.terms ≠ 0 then sgn else 0), 0)
    else
      let r := encodeMag f mode v.1 v.2 (-151)
      let s := if v.1 then sgn else 0
      if r.2.2 then
        if f.tops = 1 ∧ toInfinity mode v.1 then (infCode + s, fOverflow + fInexact + fInf)
        else (f.maxCode + s, fOverflow + fInexact)
      else (r.1 + s, if r.2.1 then fInexact else 0)

/-- An integer output of `w` bits: the value divided by 2^`s`, rounded and saturated (R279, R286). -/
def encodeInt (w : Nat) (s : Int) (mode : Nat) (x : Acc) : Nat × Nat :=
  let hi := 2 ^ (w - 1) - 1
  match x.kind with
  | .poison => (0, fPoison)
  | .nan => (0, fNan)
  | .inf => (if x.pinf then hi else 2 ^ (w - 1), fInf)
  | .fin =>
    let v := x.value
    let sh : Int := s + 151
    let r := roundShift v.2 sh.toNat mode v.1
    let lim := if v.1 then hi + 1 else hi
    let q := min r.1 lim
    (sbits w (if v.1 then -(q : Int) else (q : Int)),
     (if lim < r.1 then fOverflow + fInexact else if r.2 then fInexact else 0))

/-- Flags that come from an accumulator's sideband at output. -/
def Acc.outFlags (x : Acc) : Nat :=
  b2n x.range * fRange + b2n x.rounded * fRounded + b2n (decide (2 ^ 40 < x.terms)) * fTermLimit

/-- emax of an MX element format (R287). -/
def mxEmax (f : Nat) : Nat :=
  match f with
  | 0x05 => 8
  | 0x06 => 15
  | 0x07 => 4
  | 0x08 => 2
  | 0x09 => 2
  | _ => 0

/-- The code of an element of an MX block of scale exponent `X` (R287). -/
def encodeMxElem (f mode : Nat) (X : Int) (x : Acc) : Nat × Nat :=
  let v := x.value
  match floatFmt f with
  | some ff =>
    let s := if v.1 ∨ (v.2 = 0 ∧ x.negzero ∧ x.terms ≠ 0) then 2 ^ (ff.ebits + ff.mbits) else 0
    let top := if ff.tops = 1 then ff.maxCode else ff.maxCode
    let r := encodeMag ff mode v.1 v.2 (-151 - X)
    if r.2.2 then (top + s, fOverflow + fInexact) else (r.1 + s, if r.2.1 then fInexact else 0)
  | none => encodeInt 8 (X - 6) mode x

/-- An MX block of up to 32 accumulators: its bytes and flags (R287). -/
def encodeMxBlock (f mode : Nat) (l : List Acc) : List Byte × Nat :=
  let special := l.any (fun x => decide (x.kind ≠ .fin))
  let amax := l.foldl (fun a x => max a (x.value).2) 0
  let X : Int := if amax = 0 then -127 else max (-127) (min 127 ((Nat.log2 amax : Int) - 151 - (mxEmax f : Int)))
  if special then
    (leBytes 1 255 ++ List.replicate (4 * elemBits f) 0,
     l.foldl (fun a x => a ||| (match x.kind with
       | .poison => fPoison | .nan => fNan | .inf => fInf | .fin => 0)) 0)
  else
    let es := l.map (encodeMxElem f mode X)
    let body := (List.range es.length).foldl (fun a i => a + (es.getD i (0, 0)).1 <<< (elemBits f * i)) 0
    (leBytes 1 (X + 127).toNat ++ leBytes (4 * elemBits f) body, es.foldl (fun a e => a ||| e.2) 0)

/-- Whether byte `j` of an MX block holds bits of a poisoned element's code: the mark goes where the element is stored (R332). -/
def mxByteBad (f : Nat) (l : List Acc) (j : Nat) : Bool :=
  l.zipIdx.any (fun x => decide (x.1.kind = .poison) && decide (x.2 * elemBits f / 8 < j ∧ j ≤ (x.2 * elemBits f + elemBits f - 1) / 8 + 1))

/-- Encoded output: its bytes with poison marks, its flags, and its spilled elements by index. -/
structure Enc where
  bytes : PBytes := []
  flags : Nat := 0
  spill : List (Nat × Acc) := []
  noRoom  : Bool := false        -- an element found no room in the spill list (R333)
  deriving DecidableEq, Repr

/-- A list in pieces of 32. -/
def blocks32 {α : Type} (l : List α) : List (List α) :=
  (List.range ((l.length + 31) / 32)).map (fun i => (l.drop (32 * i)).take 32)

/-- Encode accumulators as elements `first`, `first + 1`, … of an array of format `f`, scale exponent `s` (R285 to
R289, R333). `room` spilled elements may still be listed. -/
def encode (f : Nat) (s : Int) (mode first room : Nat) (l : List Acc) : Enc :=
  let side := l.foldl (fun a x => a ||| x.outFlags) 0
  let e : Enc :=
    if f = fmtWide then
      { bytes := l.flatMap (fun x => pclean x.wide)
        flags := l.foldl (fun a x => a ||| (match x.kind with
          | .poison => fPoison | .nan => fNan | .inf => fInf | .fin => 0)) 0 }
    else if f = fmtXp64 then
      (blocks32 l).zipIdx.foldl (fun (a : Enc) b =>
        let t := xpShift b.1
        let sp := (List.range b.1.length).filter (fun i => xpState (b.1.getD i Acc.zero) t == 2)
        let left := room - a.spill.length
        let r := xpBlock b.1 (fun i => decide (left ≤ (sp.takeWhile (· < i)).length))
        { noRoom := a.noRoom || decide (r.2.length < sp.length)
          bytes := a.bytes ++ pclean r.1
          flags := a.flags ||| b.1.foldl (fun c x => c ||| (match x.kind with
            | .poison => fPoison | .nan => fNan | .inf => fInf | .fin => 0)) 0 |||
            (if sp.isEmpty then 0 else fSpilled) ||| (if r.2.length < sp.length then fPoison else 0)
          spill := a.spill ++ r.2.map (fun i => (first + 32 * b.2 + i, b.1.getD i Acc.zero)) }) {}
    else if fmtMx f then
      (blocks32 l).foldl (fun (a : Enc) b =>
        let r := encodeMxBlock f mode b
        { a with bytes := a.bytes ++ r.1.zipIdx.map (fun y => (y.1, mxByteBad f b y.2)), flags := a.flags ||| r.2 }) {}
    else
      l.foldl (fun (a : Enc) x =>
        let r := match floatFmt f with
          | some ff => encodeFloat ff mode x
          | none => encodeInt (elemBits f) s mode x
        { a with bytes := a.bytes ++ (leBytes (elemBits f / 8) r.1).map (fun y => (y, decide (x.kind = .poison)))
                 flags := a.flags ||| r.2 }) {}
  { e with flags := e.flags ||| side }

/-! ### Residues (R293, R294) -/

/-- p = 2^61 − 1. -/
def resP : Nat := 2 ^ 61 - 1

/-- 3^i mod p. -/
def pow3 : Nat → Nat
  | 0 => 1
  | n + 1 => 3 * pow3 n % resP

/-- The residue of elements at chunk positions `off`, `off + 1`, … (R293). -/
def residue (off : Nat) (l : List Acc) : Nat :=
  (l.foldl (fun (a : Nat × Nat) x =>
    let v := x.value
    let r := if x.kind = .fin then (if v.1 then resP - v.2 % resP else v.2 % resP) else 0
    ((a.1 + a.2 * r) % resP, 3 * a.2 % resP)) (0, pow3 off)).1

end Sys2Proof.Machine
end

