-- ==== Sys2Proof/Machine/UnitState.lean ====
section
/-!
DEFINITION. State of the time unit, circuits, the Drove, the Drover, the Common and Muster (chapters 07 to 13).
-/

namespace Sys2Proof.Machine

/-! ### The Bellwether (chapter 12) -/

/-- A domain clock (R428 to R430). `off` is domain time minus oscillator time in 2^-48 ns, `integ` the integral
rate f_k and `rate` the rate offset applied, both in 2^-32 ppb. -/
structure Domain where
  off       : Int := 0
  integ     : Int := 0
  rate      : Int := 0
  samples   : Nat := 0            -- valid samples since free or holdover, up to 2
  fromFree  : Bool := true        -- the run of samples began in free
  inLock    : Nat := 0            -- consecutive updates within BWTH_LOCK_NS, up to 16
  lastNs    : Nat := 0            -- when the last valid sample came, oscillator ns
  deriving DecidableEq, Repr

/-- PTP state of one port for one domain: the two-step Sync and the delay exchange in progress (R434, R435). Times of
this device's own are those of its oscillator, in 2^-48 ns. -/
structure PtpPort where
  syncSeq   : Option (Nat × Nat × Int) := none -- a two-step Sync: sequence, arrival, correction
  sync      : Option (Int × Nat) := none       -- the last complete Sync: origin time corrected, arrival
  req       : Option (Nat × Nat) := none       -- Delay_Req or Pdelay_Req outstanding: sequence, departure
  resp      : Option (Nat × Int × Nat) := none -- Pdelay_Resp awaiting its Follow_Up: sequence, receipt corrected, arrival
  pathDelay : Option Int := none               -- mean path delay, 2^-48 ns
  nextSeq   : Nat := 0                         -- next sequence number sent
  deriving DecidableEq, Repr

/-- The Bellwether. `dev` is device time in units of 2^-48 ns (R425); `trim` is what each ns adds beyond 1. -/
structure TimeSt where
  dev       : Nat := 0
  trim      : Int := 0
  t0        : Nat := 0             -- Bell origin in effect, ns (R447)
  n0        : Nat := 0             -- Bell number at the origin
  lastBell  : Nat := 0             -- last Bell number raised (R454)
  domains   : TMap Domain := []    -- by domain, 0 A and 1 B
  everLock  : Bool := false        -- device time has locked since it was last set to 0 (R432)
  switch    : Option (Nat × Nat) := none   -- pending period switch: instant in ns and latched code (R451)
  hiLatch   : Nat := 0             -- BWTH_TIME_HI (R459)
  ppsOut    : Bool := false        -- level of TIME_PPS_OUT
  ppsRoseAt : Nat := 0             -- oscillator ns of its last rise
  ppsSecond : Option Nat := none   -- the second of the last pulse: no second pulse in it (R445)
  ppsArmed  : Bool := false        -- BWTH_PPS_OUT_EN has been written since the last reset
  ppsInAt   : Option Nat := none   -- last TIME_PPS_IN edge, oscillator ns
  syncPeer  : TMap (Nat × Nat) := [] -- by block: t_send of the last TIME_SYNC received, and its arrival (2^-48 ns)
  ptp       : TMap PtpPort := []   -- by 2·port + domain
  frozen    : Bool := false        -- the servos are stopped (DS4, R426)
  stepped   : Bool := false        -- the acquisition step has been made (R432)
  overNow      : Nat := 0             -- consumers that overran the present tick, and the previous one (R459)
  overLast  : Nat := 0
  stile     : TMap (Nat × Bool) := [] -- by class: when the acknowledge of its last event arrives (ns), and the overrun flag (R455)
  deriving DecidableEq, Repr

/-- Heavy-pair counters by destination (R245), and one more than the Bell number at which the last window closed. -/
structure Circ where
  hp     : TMap Nat := []
  closed : Nat := 0
  deriving DecidableEq, Repr
/-! ### The Drove (chapters 08 and 09) -/

/-- The registers of a ring pair and what it holds (R316, R351, R412). -/
structure Ring where
  sqBase  : Nat := 0
  sqCfg   : Nat := 0x104
  sqTail  : Nat := 0
  sqHead  : Nat := 0
  cqBase  : Nat := 0
  cqCfg   : Nat := 4
  cqTail  : Nat := 0
  cqHead  : Nat := 0
  phase   : Bool := true
  fetched : List Nat := []          -- descriptors fetched and not yet admitted or started, oldest first
  busy    : Nat := 0                -- descriptors fetched and not completed
  susp    : Option Nat := none      -- context of the suspended operation
  stopped : Bool := false           -- a DMA ring that stopped (R415)
  deriving DecidableEq, Repr

/-- An architectural accumulator: two physical entries and the selector bit that names the committed one; `wrote` marks a
write of the running beat in the other (R265, R266). -/
structure AccCell where
  e0    : Acc := {}
  e1    : Acc := {}
  sel   : Bool := false
  wrote : Bool := false
  deriving DecidableEq, Repr

/-- The committed value: the entry that the selector names. -/
def AccCell.value (c : AccCell) : Acc := if c.sel then c.e1 else c.e0

/-- A write within a beat goes to the entry that the selector does not name (R266). -/
def AccCell.write (c : AccCell) (v : Acc) : AccCell :=
  if c.sel then { c with e0 := v, wrote := true } else { c with e1 := v, wrote := true }

/-- Commit flips the selector of an accumulator written in the beat (R266). -/
def AccCell.commit (c : AccCell) : AccCell := if c.wrote then { c with sel := !c.sel, wrote := false } else c

/-- Rollback leaves the selector as it was (R266). -/
def AccCell.rollback (c : AccCell) : AccCell := { c with wrote := false }

/-- Poison in the committed value (R300, R305, R306). -/
def AccCell.spoil (c : AccCell) : AccCell :=
  if c.sel then { c with e1 := { c.e1 with poison := true } } else { c with e0 := { c.e0 with poison := true } }

/-- Where an operation's completion goes. -/
inductive OpOrigin where
  | ring (r : Nat)
  | remote (dev port sink pasture : Nat)   -- op 0x30: its response goes to this requester
  | common (req : Nat)                     -- a Common request of the translation units
  | drover (coll step : Nat)
  deriving DecidableEq, Repr

/-- One Drove operation: its descriptor and its progress (R320, R339, R343). -/
structure Op where
  desc     : Nat := 0
  source   : Nat := 0
  origin   : OpOrigin := .ring 0
  pasture  : Nat := 0
  payload  : PBytes := []                          -- of a remote request
  feeds    : List (List Acc) := []                 -- inputs of the Drover's chunk lists
  done     : Nat := 0
  aux      : Nat := 0
  flags    : Nat := 0
  opflags  : Nat := 0
  beats    : Nat := 0
  spills   : Nat := 0                              -- spill-list entries written
  spillOut : List (Nat × Acc) := []                -- spills of a chunk output
  acc      : TMap AccCell := []                    -- accumulators that carry sums between beats, by output element
  i        : Nat := 0                              -- cursors of a set operation
  j        : Nat := 0
  last     : Option Nat := none
  lastA    : Option Nat := none                    -- previous keys, for opflags unsorted
  lastB    : Option Nat := none
  emitted  : Nat := 0
  finished : Bool := false                         -- no unit is left
  ended    : Option Nat := none                    -- status of a fault that ended it
  truncated : Bool := false                        -- 0x06 applies
  poisoned : Bool := false                         -- an output element is poisoned (R343)
  faultOff : Nat := 0
  inline   : PBytes := []                          -- output returned inline or as a chunk
  mirrors  : Nat := 0                              -- mirror writes not yet acknowledged
  mlost    : Bool := false
  late     : Bool := false                         -- counted in overruns (R275)
  gone     : Bool := false                         -- it has left its batch (R342)
  deriving DecidableEq, Repr

/-- The committed sums of an operation. -/
def Op.sums (o : Op) : TMap Acc := o.acc.map (fun e => (e.1, e.2.value))

/-- The operation with sums `m` written in the running beat: only what changes is written (R266). -/
def Op.sumsTo (o : Op) (m : TMap Acc) : Op :=
  { o with acc := m.map (fun e =>
      let c := TMap.get ({} : AccCell) o.acc e.1
      (e.1, if c.value = e.2 then c else c.write e.2)) }

/-- Commit of an operation's accumulators, and their rollback from what the discarded beat `b` wrote (R266, R300). -/
def Op.commit (o : Op) : Op := { o with acc := o.acc.map (fun e => (e.1, e.2.commit)) }
def Op.rollback (o b : Op) : Op := { o with acc := o.acc.map (fun e => (e.1, (TMap.get e.2 b.acc e.1).rollback)) }

/-- A context: an admitted operation, or the members of a batch (R319, R336, R342). `cls` is 1 deadline, 2 remote,
3 host and core; `queue` is the ring or source device it came from. -/
structure OpCtx where
  ops       : List Op := []
  cls       : Nat := 0
  queue     : Nat := 0
  order     : Nat := 0               -- order of admission
  wbase     : Nat := 0               -- first accumulator of its window
  window    : Nat := 0
  resident  : Nat := 0               -- KiB per tile
  started   : Bool := false
  saved     : Nat := 0               -- bytes of its context on each stack that lie in its save area
  condemned : Nat := 0               -- condemnations of the beat it is at
  lastBad   : List Nat := []         -- tiles that condemned the beat's last run
  susp      : Bool := false
  dying     : Option Nat := none     -- ends with this status at the next boundary
  deriving DecidableEq, Repr

/-- What the beat that runs is given to (R272). -/
inductive Holder where
  | idle
  | op (ctx : Nat)
  | save (ctx : Nat)
  | restore (ctx : Nat)
  | sentinel (tiles : List Nat)
  | test (tile : Nat) (unfence : Bool)
  | switch (tile : Nat)
  deriving DecidableEq, Repr

/-- A committed output waiting in a staging half for its write-out (R299). -/
structure OutWrite where
  ctx    : Nat
  member : Nat                 -- index in the context's list
  hpa    : Nat
  common : Option (Nat × Nat)  -- pasture and offset, for a Common operand
  bytes  : PBytes
  deriving DecidableEq, Repr

/-- A remote descriptor sent and waiting for its response (R345). -/
structure RemoteWait where
  ring     : Nat
  desc     : Nat
  dev      : Nat
  deadline : Nat            -- ns
  deriving DecidableEq, Repr

structure Drove where
  rings     : TMap Ring := []
  remote    : List Op := []             -- the remote queue, oldest first (R318)
  drover    : List Op := []             -- the Drover's internal queue
  waits     : List RemoteWait := []
  ctxs      : TMap OpCtx := []
  nextOrder : Nat := 0
  holder    : Holder := .idle
  beatAt    : Nat := 0                  -- number of the running beat: device time of its start / 2,048 ns
  halves    : TMap (List OutWrite) := [] -- staging halves not written out
  saves     : List (Nat × Bool × Nat) := [] -- saves and restores (true) to do, by context, with the beats left
  own       : TMap Nat := []            -- context + 1 whose value each accumulator holds
  act       : Nat := 0                  -- context + 1 of the operation that ran last
  roll      : Bool := false             -- a fence in the running beat rolls it back (R300)
  temps     : List Nat := []            -- THERM_PADDOCK at the start of the beat (R310)
  fencing   : List Nat := []            -- tiles to be fenced at the next boundary (R304)
  switches  : List Nat := []            -- fenced tiles whose spare switch is decided
  awaiting  : List (Nat × Nat) := []    -- fenced tiles whose switch waits for DROVE_TILE_CMD, with their logical numbers
  tests     : List (Nat × Bool) := []   -- tiles to run a sentinel alone, true to unfence
  sentinel  : Option Nat := none        -- beat number when a sentinel fell due
  sentBell  : Nat := 0                  -- Bell number of the last sentinel
  bad       : TMap (List Nat) := []     -- times of recent condemnations by tile, ns
  run       : TMap Nat := []            -- context + 1 that holds the turn of each class
  rrSrc     : Nat := 511                -- remote source served last
  rrRing    : Nat := 63                 -- ring served last
  rrLeft    : Nat := 0                  -- operations its turn has left
  floorBeat : Nat := 0                  -- beats of the running window of 256
  floorGot  : Nat := 0                  -- of them given to the 5th and 6th classes
  floorTurn : Nat := 2                  -- class of the next floor beat
  gated     : Bool := false             -- the clock is stopped (R276)
  stopping  : Bool := false             -- the saves that come before the clock stops (R276)
  slow      : Bool := false             -- DS1
  deriving DecidableEq, Repr

/-! ### The Drover (chapter 10) -/

/-- A segment of a chunk as received (R359, R360). -/
structure Seg where
  idx    : Nat := 0
  nseg   : Nat := 1
  spill  : Bool := false
  off    : Nat := 0          -- first element within the chunk
  cnt    : Nat := 0
  rflags : Nat := 0
  data   : PBytes := []
  deriving DecidableEq, Repr

/-- One chunk of a collective at this device. `stage` is 0 flock, 1 to 3 the up axis it stands before, 4 waiting for the
final rounding, 5 a result to deliver, 7 ended here. -/
structure CChunk where
  ins    : List (Nat × Seg) := []                       -- by local member
  steps  : List (Nat × Seg) := []                       -- by up stage
  runs   : List (Nat × Seg) := []                       -- RESULT segments, by down stage
  part   : Option (PBytes × List (Nat × Acc)) := none   -- the partial sum in step_fmt, with its spill list
  stage  : Nat := 0
  busy   : Bool := false                                -- a Drove operation of it is under way
  via    : Nat := 3                                     -- down stage its result came by: 3 it is the origin
  result : PBytes := []
  rflags : Nat := 0
  deriving DecidableEq, Repr

/-- A collective that a START has brought to this device. -/
structure CInst where
  row     : Nat := 0            -- row of its communicator
  seq     : Nat := 0
  start   : Nat := 0            -- start Bell number
  post    : Nat := 0            -- the POST payload of its START
  len     : Nat := 0            -- L after R356
  slot    : Option Nat := none
  cells   : Nat × Nat := (0, 0) -- reservation on the CUP and CDN sink queues
  chunks  : TMap CChunk := []
  granted : List Nat := []      -- local members that have a GRANT
  limit   : Nat := 0
  last    : Nat := 0            -- tick of the last committed step
  out     : Nat := 0            -- chunks delivered
  overflow : Nat := 0
  padded  : NSet := []
  rflags  : Nat := 0
  poisoned : Bool := false
  noted   : Option Nat := none  -- a NOTE sent and not yet answered by an ABORT
  held    : NSet := []          -- failed devices it is held for (R468)
  deriving DecidableEq, Repr

/-- The lead's entry for one seq of a communicator (R374, R376). -/
structure LeadEntry where
  comm     : Nat
  seq      : Nat
  post     : Nat
  started  : Bool := false
  start    : Nat := 0
  reissues : Nat := 0
  deriving DecidableEq, Repr

/-- A local member's POST. -/
structure PostRec where
  comm   : Nat
  seq    : Nat
  member : Nat
  post   : Nat
  deriving DecidableEq, Repr

structure Coll where
  posts   : List PostRec := []
  leads   : List LeadEntry := []
  insts   : TMap CInst := []          -- by number, in order of arrival
  next    : Nat := 1
  blocked : Bool := false             -- the head of admission waits for its reservation
  ended   : List (Nat × Nat) := []    -- (comm, seq) ended here, newest first
  notes   : List (Nat × Nat × Nat) := [] -- NOTEs sent and not yet answered: row, seq, code
  deriving DecidableEq, Repr

/-! ### The Common (chapter 11) -/

/-- Where a Common request stands at its home unit. -/
inductive ReqStage where
  | sink        -- left in the sink queue: a table or queue is full (R400, R405)
  | walk        -- waits for a page walk (R396)
  | held        -- in the hold queue (R400)
  | blocked     -- waits for an overlapping entry to clear (R405)
  | access      -- its HBM access is under way
  | drove       -- passed to the Drove
  | mirror      -- waits for its mirror acknowledgement (R407)
  deriving DecidableEq, Repr

/-- A Common request (R402). -/
structure CReq where
  unit    : Nat := 0            -- home paddock
  src     : Nat := 0
  srcPort : Nat := 0
  sink    : Nat := 0            -- the paddock whose sink took it
  pasture : Nat := 0
  op      : Nat := 0
  addr    : Nat := 0
  reqId   : Nat := 0
  count   : Nat := 0
  d       : Nat := 0
  fmt     : Nat := 0
  rmode   : Nat := 0
  payload : List Byte := []
  stage   : ReqStage := .sink
  leaf    : Nat := 0            -- the entry it was translated through
  hpa     : Nat := 0
  spans   : List (Nat × Nat) := [] -- the HPA ranges of its elements, for the in-flight table (R405)
  since   : Option Nat := none  -- when it first entered the hold queue, ns
  seq     : Nat := 0            -- its place in the order in which requests passed the checks (R405)
  status  : Nat := 0            -- of the answer that waits for a mirror
  mlost   : Bool := false
  deriving DecidableEq, Repr

/-- For whom a mirror write is outstanding. -/
inductive MirrorFor where
  | request (req : Nat)
  | drove (ctx member : Nat)
  | dma (ring : Nat)
  | resync (pasture : Nat)
  deriving DecidableEq, Repr

/-- A mirror write waiting for its MIRROR_ACK (R407). -/
structure Mirror where
  owner    : MirrorFor := .request 0
  pasture  : Nat := 0
  offset   : Nat := 0
  len      : Nat := 0
  deadline : Nat := 0
  deriving DecidableEq, Repr

/-- A COMMON_INVAL that has not completed: pasture, all pastures, mirror tables, first offset, end, and the requests
that were translated before it. `beat` is the beat that ran or ended last when it was written, `at_` that time. -/
structure Inval where
  pasture : Nat := 0
  all     : Bool := false
  mirror  : Bool := false
  lo      : Nat := 0
  hi      : Nat := 0
  reqs    : NSet := []
  mirrs   : NSet := []           -- mirror writes outstanding then
  beat    : Nat := 0
  at_     : Nat := 0             -- ns
  deriving DecidableEq, Repr

/-- One slot of a Common requester (R410): the DMA ring that holds it, if any. -/
structure Slot where
  holder   : Option Nat := none
  uses     : Nat := 0
  dev      : Nat := 0            -- the device asked
  cells    : Nat := 0            -- response space reserved (R230)
  deadline : Nat := 0
  deriving DecidableEq, Repr

/-- A DMA descriptor under way (R412 to R415). `pos` is the bytes written, `done` the acknowledged prefix. -/
structure DmaJob where
  desc    : Nat := 0
  live    : Bool := false
  pos     : Nat := 0
  done    : Nat := 0
  buf     : Option PBytes := none   -- the piece at `pos`, read and not yet written
  slot    : Option Nat := none      -- the requester slot its remote piece uses
  retried : Bool := false           -- the piece has been asked for again (R416)
  held    : Option Nat := none      -- since when it waits for a held page, ns
  status  : Nat := 0
  fault   : Nat := 0
  poison  : Bool := false
  mlost   : Bool := false
  gone    : Bool := false           -- its ring was reset: it ends without a record once its request is answered (R541)
  deriving DecidableEq, Repr

structure Common where
  tlb2    : TMap (List (Nat × Nat)) := []   -- 2 MiB entries by unit, newest first: (tag, entry)
  tlb1    : TMap (List (Nat × Nat)) := []   -- 1 GiB entries
  walks   : List (Nat × Nat) := []          -- walks in progress: (unit, tag of the 2 MiB page)
  reqs    : TMap CReq := []
  nextReq : Nat := 1
  mirrors : TMap Mirror := []
  nextMir : Nat := 1
  invals  : List Inval := []
  resync  : List (Nat × List Nat) := []     -- pasture under resync, and the page offsets left
  copying : Option (Nat × Nat) := none      -- page being copied to the buddy: offset and bytes sent
  faults  : List (Nat × Nat) := []          -- fault queue: LO and HI without pending (R417, R423)
  slots   : TMap Slot := []                 -- by 1,024·paddock + slot
  dmaRings : TMap Ring := []
  jobs    : TMap DmaJob := []               -- by ring
  lost    : List Nat := []                  -- lost walks to do: stack, or 16 for a mirror walk
  walked  : List Nat := []                  -- lost walks done and not yet announced
  lostWraps : Nat := 0                      -- wraps of the lost ring (R418)
  resvGib : Nat := 4                        -- CRIOTTE_RESV_GIB in effect (R390)
  deriving DecidableEq, Repr

/-- One entry of the sender-side log (R470). -/
structure LogEntry where
  bell  : Nat
  dest  : Nat
  kind  : Nat          -- 0 collective, 1 Common write
  lseq  : Nat
  frame : List Byte
  deriving DecidableEq, Repr

/-- One 1 MiB segment of a stack's log, of one destination (R470). -/
structure LogSeg where
  stack   : Nat
  dest    : Nat
  entries : List LogEntry := []   -- oldest first
  deriving DecidableEq, Repr

/-- A flood key that has been seen (R464), when, and the blocks on which it was queued. -/
structure FloodSeen where
  op     : Nat
  dev    : Nat
  origin : Nat
  bell   : Nat
  seen   : Nat            -- Bell number when it came first
  queued : NSet := []
  deriving DecidableEq, Repr

/-- A flood this device issued and repeats: the frame's fields, the next repeat and the end of repeating (R464). -/
structure OwnFlood where
  op     : Nat
  dev    : Nat
  serial : Nat
  bell   : Nat
  arg    : Nat
  next   : Nat
  until_ : Nat
  deriving DecidableEq, Repr

/-- A vote received (R463): for whom, from whom, and the Bell number of its receipt. -/
structure Vote where
  dev    : Nat
  origin : Nat
  bell   : Nat
  deriving DecidableEq, Repr

/-- What a stand-in has of the replay (R474, R477). -/
structure Recovery where
  deadline   : Nat := 0           -- end of MUSTER_REPLAY_TO_MS, ns
  last       : TMap Nat := []     -- one more than the last lseq received, by sender
  ends       : NSet := []         -- senders whose LOG_END it holds
  incomplete : Bool := false      -- a LOG_END had incomplete set
  deriving DecidableEq, Repr

structure Muster where
  segs    : List LogSeg := []     -- in order of opening
  lseq    : TMap Nat := []        -- next lseq by destination
  trimmed : TMap Nat := []        -- trimmed bell + 1 by destination (R470)
  frozen  : NSet := []            -- destinations whose log is frozen (R466)
  logMib  : Nat := 4096           -- MUSTER_LOG_MIB in effect
  h       : TMap Nat := []        -- by block, the highest bell received in a HEARTBEAT (R461)
  floods  : List FloodSeen := []  -- newest first, at most 1,024
  own     : List OwnFlood := []
  suspects : TMap Nat := []       -- one more than the Bell number of the last SUSPECT sent, by device suspected
  votes   : List Vote := []
  noticed : List Nat := []        -- devices of the notices recorded, newest first
  notices : Nat := 0              -- how many
  away    : TMap Nat := []        -- absent devices whose absence runs, by device: bell + a
  absent  : Bool := false         -- this device has announced an absence (R480)
  gaps    : NSet := []            -- destinations that lost frozen entries to a stack fence (R483)
  recov   : Option Recovery := none
  ringAt  : Nat := 0              -- next byte of the replay ring
  ringBad : Bool := false         -- the replay ring is marked incomplete (R478)
  deriving DecidableEq, Repr

end Sys2Proof.Machine
end

