-- ==== Sys2Proof/Machine/State.lean ====
section
/-!
DEFINITION. The state of the device: every object of the dictionary, every direct register that mirrors no
object, the memories, the state inside each block, the pins, what the device has sent, and the queue of
commands that wait.
-/

namespace Sys2Proof.Machine

/-- Why the machine stops with a fault. No meaning of this model ends in one. -/
inductive Fault where
  | none   -- raised by no command: an error of the DV7 is a status, a flag, a counter or an event, never a stop; safe
  deriving DecidableEq, Repr

/-- Why a command is refused. -/
inductive Refusal where
  | notModelled (mnemonic : String)  -- an arm that has no meaning yet raises it; none is left; safe
  deriving DecidableEq, Repr

/-- The state of the DV7. -/
structure State where
  objs    : TMap Nat := []          -- object rows, keyed by `okey object row`, unlisted rows at their defaults
  blobs   : TMap (List Byte) := []  -- objects of no fixed length, by object
  regs    : TMap Reg64 := []        -- direct registers that mirror no object, by BAR0 offset, unlisted at reset
  hbm     : TMap Byte := []         -- HBM bytes by HPA (R389), unlisted bytes read 0 (log entry 3)
  poison  : NSet := []              -- poisoned 64-byte units of HBM, by HPA / 64 (R332)
  host    : TMap Byte := []         -- host memory by host address, unlisted bytes read 0 (log entry 3)
  now     : Nat := 0                -- ns of the oscillator since the model's start
  time    : TimeSt := {}
  fold    : Fold := {}
  fwd     : Fwd := {}
  blocks  : TMap Block := []
  circ    : Circ := {}
  drove   : Drove := {}
  coll    : Coll := {}
  common  : Common := {}
  muster  : Muster := {}
  ctl     : Ctl := {}
  pcie    : Pcie := {}
  obsv    : Obsv := {}
  power   : Power := {}
  out     : List Out := []          -- what the device has sent, newest first (the model's own record)
  free    : Nat := 0                -- draws of free values made so far (the model's own counter)
  pending : List Instr := []        -- the commands waiting, first in first out (the model's own queue)
  deriving DecidableEq, Repr

/-- The device right after power-on reset: every object at its default (R20), every register at the reset value
of its field map, every memory with nothing listed, every block's inner state empty, no command waiting. -/
def State.reset : State := {}

end Sys2Proof.Machine
end

