-- ==== Sys2Proof/Machine/Ops.lean ====
section
/-!
DEFINITION. The named operations over objects, registers and memories: every meaning reads and writes the state
through these. Error flags, the error log and the event queues stand here too, because every part of the device
raises errors and events the same way (R494, R536).
-/

namespace Sys2Proof.Machine

/-! ### Time as the other parts read it -/

/-- Units of device time in one nanosecond (R425: 48 fractional bits). -/
def devUnit : Nat := 2 ^ 48

/-- The device time of a count of 2^-48 ns units as a TIME112 (R17, R424). -/
def time112 (dev : Nat) : Nat :=
  let ns := dev / devUnit
  (ns / 1000000000) % 2 ^ 64 * 2 ^ 48 + (ns % 1000000000) * 2 ^ 16 + (dev / 2 ^ 32) % 2 ^ 16

/-- The count of 2^-48 ns units of a TIME112. -/
def devOf (t : Nat) : Nat :=
  ((bits t 48 64) * 1000000000 + bits t 16 32) * devUnit + bits t 0 16 * 2 ^ 32

/-- Device time in whole ns (R447). -/
def State.devNs (s : State) : Nat := s.time.dev / devUnit

/-- T64 of the present device time (R427). -/
def State.t64 (s : State) : Nat :=
  (s.devNs / 1000000000) % 2 ^ 34 * 2 ^ 30 + s.devNs % 1000000000

/-- T96 of the present device time (R427). -/
def State.t96 (s : State) : Nat :=
  (s.devNs / 1000000000) % 2 ^ 32 * 2 ^ 64 + (s.devNs % 1000000000) * 2 ^ 32 + (s.time.dev / 2 ^ 32) % 2 ^ 16 * 2 ^ 16

/-! ### Objects -/

/-- The key of row `row` of object `oid` in `State.objs`. -/
def okey (oid row : Nat) : Nat := oid * 2 ^ 23 + row

/-- What an unlisted key of `State.objs` reads as. -/
def okeyDefault (k : Nat) : Nat := objDefault (k / 2 ^ 23) (k % 2 ^ 23)

/-- Row `row` of object `oid`. -/
def State.row (s : State) (oid row : Nat) : Nat := TMap.get (okeyDefault (okey oid row)) s.objs (okey oid row)

/-- The value of a scalar object. -/
def State.ob (s : State) (oid : Nat) : Nat := s.row oid 0

/-- Set row `row` of object `oid`. -/
def State.setRow (s : State) (oid row v : Nat) : State :=
  { s with objs := TMap.put (okeyDefault (okey oid row)) s.objs (okey oid row) v }

/-- Set a scalar object. -/
def State.setOb (s : State) (oid v : Nat) : State := s.setRow oid 0 v

/-- An object of no fixed length. -/
def State.blob (s : State) (oid : Nat) : List Byte := TMap.get [] s.blobs oid

/-- Set an object of no fixed length. -/
def State.setBlob (s : State) (oid : Nat) (v : List Byte) : State :=
  { s with blobs := TMap.put [] s.blobs oid v }

/-- Add `n` to the U64 counter in bits [64·i + 63 : 64·i] of a row. Counters wrap (log entry 9). -/
def State.countIn (s : State) (oid row i n : Nat) : State :=
  s.setRow oid row (setBits (s.row oid row) (64 * i) 64 (bits (s.row oid row) (64 * i) 64 + n))

/-- Add `n` to a U64 counter that is a row of its own or a scalar (row 0). -/
def State.count (s : State) (oid row n : Nat) : State := s.countIn oid row 0 n

/-- The objects of port block `b` stand 16 indices apart (R215). -/
def blockOid (oid b : Nat) : Nat := oid + 4096 * b

/-- An object of port block `b`. -/
def State.bob (s : State) (b oid : Nat) : Nat := s.ob (blockOid oid b)

/-! ### Registers -/

/-- A direct register that mirrors no object. -/
def State.reg (s : State) (off : Nat) : Nat := (TMap.get 0 s.regs off).toNat

/-- Set a direct register. -/
def State.setReg (s : State) (off v : Nat) : State :=
  { s with regs := TMap.put 0 s.regs off (BitVec.ofNat 64 v) }

/-- Add `n` to a 32-bit counter at bit `lo` of a register; it holds at 0xFFFF_FFFF. -/
def State.holdCount (s : State) (off lo n : Nat) : State :=
  s.setReg off (setBits (s.reg off) lo 32 (min 0xFFFFFFFF (bits (s.reg off) lo 32 + n)))

/-! ### Memories -/

/-- The `n` bytes of a memory from `a` on. -/
def memRead (m : TMap Byte) (a : Nat) : Nat → List Byte
  | 0 => []
  | n + 1 => TMap.get 0 m a :: memRead m (a + 1) n

/-- The memory with `l` written from `a` on. -/
def memWrite (m : TMap Byte) (a : Nat) : List Byte → TMap Byte
  | [] => m
  | b :: l => memWrite (TMap.put 0 m a b) (a + 1) l

/-- A memory is in its one canonical form: addresses rise strictly and no listed byte is what an unlisted one reads as. -/
def Memory.wf (m : TMap Byte) : Bool := TMap.wf (fun _ => 0) m

/-- `n` bytes of HBM from HPA `a`. -/
def State.hbmRead (s : State) (a n : Nat) : List Byte := memRead s.hbm a n

/-- Mark or clear the poison of the units that `[a, a + n)` covers: a clean write clears the mark of a unit it
covers whole and leaves others (R332, R530); a poisoned write marks every unit it touches. -/
def poisonAfter (p : NSet) (a n : Nat) (poisoned : Bool) : NSet :=
  if n = 0 then p else
  (List.range ((a + n - 1) / 64 - a / 64 + 1)).foldl (fun p i =>
    let u := a / 64 + i
    if poisoned then p.add u
    else if a ≤ 64 * u ∧ 64 * u + 64 ≤ a + n then p.remove u else p) p

/-- Write `l` to HBM from HPA `a` on. -/
def State.hbmWrite (s : State) (a : Nat) (l : List Byte) (poisoned : Bool := false) : State :=
  { s with hbm := memWrite s.hbm a l, poison := poisonAfter s.poison a l.length poisoned }

/-- Whether a unit of `[a, a + n)` carries poison. -/
def State.hbmPoisoned (s : State) (a n : Nat) : Bool :=
  s.poison.any (fun u => decide (a < 64 * u + 64 ∧ 64 * u < a + n))

/-- Bytes of host memory. -/
def State.hostRead (s : State) (a n : Nat) : List Byte := memRead s.host a n

/-- Write host memory. -/
def State.hostWrite (s : State) (a : Nat) (l : List Byte) : State :=
  { s with host := memWrite s.host a l }

/-! ### What the device sends -/

/-- Record something the device sends. -/
def State.emit (s : State) (o : Out) : State := { s with out := o :: s.out }

/-- A fresh draw of the model's free values. -/
def State.draw (s : State) : State := { s with free := s.free + 1 }

/-! ### The Bell number (R446, R447) -/

/-- The Bell period in ns (R446). -/
def State.period (s : State) : Nat := 2048 * 2 ^ s.ob O.BELL_PERIOD

/-- The Bell number of a device time `t` in ns under the origin in effect (R447). -/
def State.bellAt (s : State) (t : Nat) : Nat :=
  (s.time.n0 + (t - s.time.t0) / s.period) % 2 ^ 64

/-- The Bell number as it stands: it never falls below the last one raised (R454). -/
def State.bell (s : State) : Nat := max s.time.lastBell (s.bellAt s.devNs)

/-- The Bell number that a command names by its low 48 bits (R624). -/
def State.bellOf48 (s : State) (n48 : Nat) : Nat :=
  let c := s.bell
  let d := (n48 + 2 ^ 48 - c % 2 ^ 48) % 2 ^ 48
  if d < 2 ^ 47 then c + d else c - (2 ^ 48 - d)

/-! ### Functions of the host interface: event queues and MSI-X (R535, R536) -/

/-- Function `f`, 0 the PF and 1 to 32 a VF. -/
def State.fn (s : State) (f : Nat) : PciFn := TMap.get {} s.pcie.fns f

/-- Set function `f`. -/
def State.setFn (s : State) (f : Nat) (x : PciFn) : State :=
  { s with pcie := { s.pcie with fns := TMap.put {} s.pcie.fns f x } }

/-- Row numbers of PCIE_STAT (R545). -/
abbrev statEvqLost : Nat := 4

/-- An MSI-X table entry after reset: masked, as the PCI Express specification has it (PRESUMED, log entry 19). -/
abbrev msixReset : Nat := 2 ^ 96

/-- Send message `v` of function `f`: not sent when the vector is out of range, held pending when masked (R535).
Error bit 5 of R544 is raised by the caller. -/
def State.sendVector (s : State) (f v : Nat) : State :=
  if (if f = 0 then 2048 else 64) ≤ v then s.count O.PCIE_STAT 5 1
  else
    let e := TMap.get msixReset (s.fn f).msix v
    if e.testBit 96 then s.setFn f { s.fn f with msixPend := (s.fn f).msixPend.add v }
    else s.emit (.msix f (bits e 0 64) (bits e 64 32))

/-- The event record of R536 without its phase and overflow bits. -/
def eventRecord (kind fn unit arg t96 bell : Nat) : Nat :=
  kind + fn <<< 8 + (unit % 2 ^ 16) <<< 16 + (arg % 2 ^ 32) <<< 32 + t96 <<< 64 + (bell % 2 ^ 48) <<< 160

/-- The size of an event queue from PCIE_EVQ_CFG: exponents outside 6 to 16 are taken as 6 (R546). -/
def evqSize (cfg : Nat) : Nat := if 6 ≤ bits cfg 0 5 ∧ bits cfg 0 5 ≤ 16 then 2 ^ bits cfg 0 5 else 64

/-- Whether function `f`'s queue takes events of `kind`: enabled, and its kind bit set. -/
def PciFn.takes (x : PciFn) (kind : Nat) : Bool := x.evqCfg.testBit 5 && x.evqCfg.testBit (31 + kind)

/-- A record for function `f` is dropped and counted (R536). -/
def State.eventLost (s : State) (f : Nat) : State :=
  (s.setFn f { s.fn f with lost := min 0xFFFFFFFF ((s.fn f).lost + 1), overflow := true }).count O.PCIE_STAT statEvqLost 1

/-- Write one event to function `f`'s queue (R536): dropped and counted when the queue is full, or while PERST_N is
asserted (R542); else written with its phase, and the queue's vector sent. -/
def State.eventTo (s : State) (f kind unit arg : Nat) : State :=
  let x := s.fn f
  if s.pcie.perst then s.eventLost f
  else if x.takes kind then
    let size := evqSize x.evqCfg
    if (x.evqTail + 1) % size = x.evqHead % size then s.eventLost f
    else
      let r := eventRecord kind f unit arg s.t96 s.bell + b2n x.overflow <<< 208 + b2n x.phase <<< 255
      let s := s.hostWrite (x.evqBase + 32 * x.evqTail) (leBytes 32 r)
      let tail := (x.evqTail + 1) % size
      let send := x.evqCfg.testBit 17 && !x.unacked
      let s := s.setFn f { x with evqTail := tail, phase := if tail = 0 then !x.phase else x.phase
                                  overflow := false, unacked := x.unacked || send }
      if send then s.sendVector f (bits x.evqCfg 6 11) else s
  else s

/-- Write one event to the core event queue (R490, R536), a ring of CRIOTTE_EVQ_SIZE records in HBM. -/
def State.eventCore (s : State) (kind unit arg : Nat) : State :=
  let size := s.ob O.CRIOTTE_EVQ_SIZE
  if size = 0 then s else
    let n := s.ctl.coreEvqTail
    let r := eventRecord kind 0 unit arg s.t96 s.bell + b2n ((n / size) % 2 = 0) <<< 255
    let s := s.hbmWrite (s.ob O.CRIOTTE_EVQ_BASE + 32 * (n % size)) (leBytes 32 r)
    { s with ctl := { s.ctl with coreEvqTail := n + 1 } }

/-- An event written to the queues of the functions `fns` it is routed to (R537) and to the core queue, with no
error raised for a dropped record. -/
def State.eventQuiet (s : State) (fns : List Nat) (kind unit arg : Nat) : State :=
  (fns.foldl (fun s f => s.eventTo f kind unit arg) s).eventCore kind unit arg

/-! ### The error log (R494) -/

/-- The error-log record of R494. -/
def errRecord (t96 bell obj bit status unitKind unit detail : Nat) : Nat :=
  t96 + (bell % 2 ^ 48) <<< 96 + (obj % 2 ^ 16) <<< 144 + (bit % 256) <<< 160 + (status % 256) <<< 168 +
  (unitKind % 256) <<< 176 + (unit % 2 ^ 16) <<< 184 + (detail % 2 ^ 56) <<< 200

/-- Write one record of the error log ring, and the event that announces it (kind 0x09, to the PF). -/
def State.logRaw (s : State) (obj bit status unitKind unit detail : Nat) : State :=
  let h := s.ob O.ERRLOG_HEAD
  let s := s.setRow O.ERRLOG h (errRecord s.t96 s.bell obj bit status unitKind unit detail)
  let s := s.setOb O.ERRLOG_HEAD ((h + 1) % 1024)
  let s := if h + 1 = 1024 then
      { s.setOb O.ERRLOG_WRAPS ((s.ob O.ERRLOG_WRAPS + 1) % 2 ^ 32) with ctl := { s.ctl with logWrapped := true } }
    else s
  s.eventQuiet [0] 0x09 h obj

/-- Set bit `bit` of the flag object `oid` and log it when it goes from 0 to 1 (R494): the object's own index is
the record's, the unit is the caller's. -/
def State.flagRaw (s : State) (oid bit status unitKind unit detail : Nat) : State :=
  if (s.ob oid).testBit bit then s
  else (s.setOb oid (setBit (s.ob oid) bit)).logRaw (oid / 256) bit status unitKind unit detail

/-- Write a record of the error log; when the ring wraps, bit 7 of CTL_ERR is set and logged too (R523). -/
def State.errLog (s : State) (obj bit status unitKind unit detail : Nat) : State :=
  let t := s.logRaw obj bit status unitKind unit detail
  if t.ob O.ERRLOG_HEAD = 0 then t.flagRaw O.CTL_ERR 7 0 0 0 0 else t

/-- Raise error bit `bit` of flag object `oid`: set it, and write a log record when it goes from 0 to 1. -/
def State.raise (s : State) (oid bit : Nat) (status unitKind unit detail : Nat := 0) : State :=
  if (s.ob oid).testBit bit then s
  else
    let t := s.flagRaw oid bit status unitKind unit detail
    if t.ob O.ERRLOG_HEAD = 0 then t.flagRaw O.CTL_ERR 7 0 0 0 0 else t

/-- Raise an event (R536): the record goes to each function of `fns` and to the core queue; a dropped record sets
bit 4 of PCIE_ERR (R544), a vector out of range bit 5. -/
def State.event (s : State) (fns : List Nat) (kind unit arg : Nat) : State :=
  let t := s.eventQuiet fns kind unit arg
  let t := if s.row O.PCIE_STAT statEvqLost = t.row O.PCIE_STAT statEvqLost then t else t.raise O.PCIE_ERR 4
  if s.row O.PCIE_STAT 5 = t.row O.PCIE_STAT 5 then t else t.raise O.PCIE_ERR 5

/-! ### Blocks, dies and paddocks -/

/-- Port block `b`. -/
def State.block (s : State) (b : Nat) : Block := TMap.get {} s.blocks b

/-- Set port block `b`. -/
def State.setBlock (s : State) (b : Nat) (x : Block) : State := { s with blocks := TMap.put {} s.blocks b x }

/-- Change port block `b` by `f`. -/
def State.modBlock (s : State) (b : Nat) (f : Block → Block) : State := s.setBlock b (f (s.block b))

/-- The role of block `b` (R34): 0 off, 1 flock, 2 ring, 3 reach, 4 circuit. -/
def State.role (s : State) (b : Nat) : Nat := bits (s.bob b O.PORT_ROLE) 0 3

/-- The direction of block `b` (R34): 0 +X, 1 −X, 2 +Y, 3 −Y, 4 +Z, 5 −Z. -/
def State.dir (s : State) (b : Nat) : Nat := bits (s.bob b O.PORT_ROLE) 4 3

/-- Whether block `b` runs the Fold link (R35). -/
def State.isLink (s : State) (b : Nat) : Bool := decide (2 ≤ s.role b ∧ s.role b ≤ 4)

/-- The state of port `8·b + i`, encoded as in PORT_STATE (R215). -/
def State.portState (s : State) (port : Nat) : Nat := TMap.get 0 (s.block (port / 8)).states (port % 8)

/-- Whether block `b` is fenced (R485). -/
def State.blockFenced (s : State) (b : Nat) : Bool :=
  if b < 64 then (s.ob O.FENCE_BLOCKS).testBit b else (s.ob O.FENCE_BLOCKS_HI).testBit (b - 64)

/-- Whether a unit is gated (R593): a port block, a stack whose gate has begun or that is in self-refresh, a paddock. -/
def State.blockGated (s : State) (b : Nat) : Bool :=
  if b < 64 then (s.ob O.PWR_GATED_BLOCKS).testBit b else (s.ob O.PWR_GATED_BLOCKS_HI).testBit (b - 64)
def State.stackGated (s : State) (st : Nat) : Bool :=
  (s.ob O.PWR_GATED_UNITS).testBit (16 + st) || TMap.has s.power.gating st || s.power.asleep.testBit st
def State.paddockGated (s : State) (p : Nat) : Bool := (s.ob O.PWR_GATED_UNITS).testBit p

/-- Whether the lanes of block `b` have no clock or power, or the device is in DS3 or DS4 (R590, R593, R609). -/
def State.unclocked (s : State) (b : Nat) : Bool :=
  s.blockGated b || s.power.clockLost.testBit (b / 8) || decide (3 ≤ s.ob O.PWR_STATE)

/-- Whether ports start no frame: in DS3 and DS4, and in the step from DS2 to DS3 (R590). -/
def State.still (s : State) : Bool :=
  decide (3 ≤ s.ob O.PWR_STATE) || (s.ob O.PWR_STATE == 2 && (s.power.target == some 3 || s.power.target == some 4))

/-- The device sends `o` on the lanes of block `b`: nothing leaves while they are in electrical idle by the role off, a fence,
the Crook's squelch, a gate or the loss of their clock (R35, R210, R493, R593, R609). -/
def State.transmit (s : State) (b : Nat) (o : Out) : State :=
  if s.role b == 0 || s.blockFenced b || (s.ob O.CROOK_SQUELCH).testBit b || s.unclocked b then s else s.emit o

/-- The die of a destination d: ports by block, sinks by paddock (R5, R6, R68). -/
def dieOf (d : Nat) : Nat := if d < 1024 then d / 256 else (d - 1024) / 4

/-- The paddock of a destination. -/
def paddockOf (d : Nat) : Nat := if d < 1024 then d / 64 else d - 1024

/-- The objects of flags that carry a 32-bit count in a port block: row `i` of PORT_CNT (R215). -/
def State.portCount (s : State) (b i n : Nat) : State := s.count (blockOid O.PORT_CNT b) i n

/-- Raise bit `bit` of PORT_ERR of block `b`. -/
def State.portErr (s : State) (b bit : Nat) (status : Nat := 0) : State :=
  s.raise (blockOid O.PORT_ERR b) bit status 2 b 0

/-- The device at the far end of block `b` as its last hello named it (R195). -/
def State.peer (s : State) (b : Nat) : Nat := beAt (leBytes 128 (s.bob b O.PORT_PEER)) 3 2 % 512

/-- Whether feature `i` is in effect in pasture `p` (R512). -/
def State.pFeature (s : State) (p i : Nat) : Bool := (s.row O.FEAT_PASTURE_ACTIVE p).testBit i

/-- The number of vectors a function has (R535). -/
def vectorsOf (f : Nat) : Nat := if f = 0 then 2048 else 64

/-- This device's number (R32). -/
def State.own (s : State) : Nat := s.ob O.FAB_DEV_NUM

/-- Whether the device is placed (R32). -/
def State.placed (s : State) : Bool := s.ob O.FAB_PLACED == 1

/-- The size of each torus dimension, X first. -/
def State.dim (s : State) (ax : Nat) : Nat := s.ob (O.FAB_DIM_X + ax)

/-- Coordinate of device number `n` on axis `ax` (R29). -/
def State.coord (s : State) (n ax : Nat) : Nat :=
  match ax with
  | 0 => n % s.dim 0
  | 1 => n / s.dim 0 % s.dim 1
  | _ => n / (s.dim 0 * s.dim 1)

/-- The number of torus members (R28). -/
def State.torusSize (s : State) : Nat := s.dim 0 * s.dim 1 * s.dim 2

/-- The lowest axis on which two torus members differ (R222). -/
def State.firstAxis (s : State) (a b : Nat) : Option Nat := [0, 1, 2].find? (fun ax => s.coord a ax != s.coord b ax)

/-- Whether axis `ax` is wrapped (R32). -/
def State.wrapped (s : State) (ax : Nat) : Bool := (s.ob O.FAB_WRAP).testBit ax

/-- The neighbour of device `n` in direction `dir` (R29, R31), if there is one: a number beyond the torus is that of a spare
that is not standing in, which has no coordinates and so none. -/
def State.neighbour (s : State) (n dir : Nat) : Option Nat :=
  let ax := dir / 2
  let d := s.dim ax
  let c := s.coord n ax
  let step := if ax = 0 then 1 else if ax = 1 then s.dim 0 else s.dim 0 * s.dim 1
  if d ≤ 1 ∨ s.torusSize ≤ n then none
  else if dir % 2 = 0 then
    if c + 1 < d then some (n + step) else if s.wrapped ax then some (n - step * (d - 1)) else none
  else
    if 0 < c then some (n - step) else if s.wrapped ax then some (n + step * (d - 1)) else none

end Sys2Proof.Machine
end

