-- ==== Sys2Proof/Machine/Tally.lean ====
section
/-!
DEFINITION. Counting (R547 to R553): which counter counts what, wraps and chains. Every part of the device counts its
events through `State.tally`.
-/

namespace Sys2Proof.Machine

/-! ### Rows (R547 to R549) -/

def tEvent (r : Nat) : Nat := bits r 0 16
def tUnit (r : Nat) : Nat := bits r 16 14
def tEnable (r : Nat) : Bool := r.testBit 30
def tChain (r : Nat) : Bool := r.testBit 31

/-- The number of events of a class, from event 0 or, in class 0, from 1. -/
def tallyClassSize (c : Nat) : Nat := [5, 8, 4, 5, 5, 6, 3, 7, 5, 4, 5, 4, 3, 3, 4].getD c 0

/-- Whether an event number is one of the table; 0x0000 counts nothing (R548, R549). -/
def tallyEvent (e : Nat) : Bool := decide (e % 256 < tallyClassSize (e / 256))

/-- Whether a class is device-wide (R548). -/
def tallyWide (c : Nat) : Bool := c == 0 || c == 6 || c == 9 || c == 14

/-- The number of units of an event (R549). -/
def tallyUnits (e : Nat) : Nat :=
  match e / 256 with
  | 1 => 1024
  | 2 => if e = 0x0203 then 1024 else 128
  | 3 => 144
  | 4 => 4
  | 5 => 12480
  | 6 => 8
  | 7 => 4
  | 8 => 144
  | 9 => 1
  | 10 => 16
  | 11 => 16
  | 12 => if e = 0x0C01 then 1 else 128
  | 13 => if e = 0x0D02 then 4 else 64
  | 14 => if e = 0x0E00 then 96 else 1
  | _ => 16384

/-- The die of a unit of an event (R548). -/
def tallyDie (e u : Nat) : Nat :=
  match e / 256 with
  | 1 => u / 256
  | 2 => if e = 0x0203 then u / 256 else u / 32
  | 3 => if u < 128 then u / 32 else (u - 128) / 4
  | 5 => dieOf (u / 12)
  | 8 => u / 36
  | 10 => u / 4
  | 11 => u / 4
  | 12 => u / 32
  | 13 => if e = 0x0D02 then u else u / 16
  | _ => u

/-- Whether a unit of an event may be counted on a die: its own, or any for a device-wide one. Log bytes (0x0C01) are
one device-wide number (log entry 60). -/
def tallyOnDie (e u die : Nat) : Bool := tallyWide (e / 256) || e == 0x0C01 || tallyDie e u == die

/-- Whether row `v` may stand at counter `n` (R548). -/
def tallyRowOk (n v : Nat) : Bool :=
  tallyEvent (tEvent v) && !(tChain v && n % 2 == 0) &&
  (tEvent v == 0 || tEvent v / 256 == 0 || tUnit v == 0x3FFF || (decide (tUnit v < tallyUnits (tEvent v)) &&
    tallyOnDie (tEvent v) (tUnit v) (n / 2048)))

/-- Whether counter `n` is the high half of a chained pair, or half of one (R552). -/
def State.chainHigh (s : State) (n : Nat) : Bool := n % 2 == 1 && tChain (s.row O.TALLY_CFG n)
def State.chained (s : State) (n : Nat) : Bool := s.chainHigh n || s.chainHigh (n + 1)

/-- Whether the counters of paddock `p` are frozen by a fence or a gate (R559). -/
def State.tallyFrozen (s : State) (p : Nat) : Bool :=
  (s.ob O.FENCE_PADDOCKS).testBit p || (s.ob O.PWR_GATED_UNITS).testBit p

/-- Whether a row counts event `e` of unit `u` in paddock `p`. -/
def tallyCounts (r p e u : Nat) : Bool :=
  tEvent r == e && tEnable r &&
  (e / 256 == 0 || tUnit r == u || (tUnit r == 0x3FFF && tallyOnDie e u (p / 4)))

/-! ### Adding (R551, R552) -/

def ctrMax : Nat := 2 ^ 48

def State.ctr (s : State) (n : Nat) : Nat := TMap.get 0 s.obsv.ctr n
def State.setCtr (s : State) (n v : Nat) : State :=
  { s with obsv := { s.obsv with ctr := TMap.put 0 s.obsv.ctr n v } }

/-- Add `k` to counter `n`: a wrap of the low half of a pair carries into the high half; any other sets the overflow
flag, and an unchained one bit 0 of TALLY_ERR. -/
def State.ctrAdd (s : State) (n k : Nat) : State :=
  let v := s.ctr n % ctrMax + k
  let o := s.ctr n / ctrMax * ctrMax
  if v < ctrMax then s.setCtr n (o + v)
  else if s.chainHigh (n + 1) && n % 2 == 0 then
    let s := s.setCtr n (o + v % ctrMax)
    let w := s.ctr (n + 1) % ctrMax + v / ctrMax
    s.setCtr (n + 1) (w % ctrMax + (if w < ctrMax then s.ctr (n + 1) / ctrMax * ctrMax else ctrMax))
  else
    let s := s.setCtr n (ctrMax + v % ctrMax)
    if s.chainHigh n then s else s.raise O.TALLY_ERR 0

/-- The rows of TALLY_CFG that are listed. -/
def State.tallyRows (s : State) : List (Nat × Nat) :=
  (s.objs.filter (fun x => x.1 / 2 ^ 23 == O.TALLY_CFG)).map (fun x => (x.1 % 2 ^ 23, x.2))

/-- Event `e` of unit `u` occurs `k` times, or adds `k` (R549 to R552). The delays of R550 are left out. -/
def State.tally (s : State) (e u : Nat) (k : Nat := 1) : State :=
  if k = 0 then s
  else
    (s.tallyRows.filter (fun x => tallyCounts x.2 (x.1 / 512) e u && !s.chainHigh x.1 && !s.tallyFrozen (x.1 / 512))).foldl
      (fun s x => s.ctrAdd x.1 k) s

end Sys2Proof.Machine
end

