-- ==== Sys2Proof/Machine/Parse.lean ====
section
/-!
DEFINITION. Parsing of frames and the fabric header (R142 to R147, R217): the fields later steps read, and the
rewriting of headers.
-/

namespace Sys2Proof.Machine

/-! ### The fabric header (R145), read as a 256-bit big-endian quantity -/

/-- One bit step of the header CRC: polynomial 0x1021, no reflection (R146). -/
def crc16Bit (r : Nat) : Nat := if r.testBit 15 then xorN (2 * r % 65536) 0x1021 else 2 * r % 65536

/-- One byte of the header CRC. -/
def crc16Byte (r : Nat) (b : Byte) : Nat :=
  crc16Bit (crc16Bit (crc16Bit (crc16Bit (crc16Bit (crc16Bit (crc16Bit (crc16Bit (xorN r (b.toNat * 256)))))))))

/-- hdr_crc over bytes 0 to 29 of a header (R146). -/
def hdrCrc (h : Nat) : Nat := ((beBytes 32 h).take 30).foldl crc16Byte 0xFFFF

/-- The header with its hdr_crc recomputed (R146). -/
def hdrFix (h : Nat) : Nat := setBits h 0 16 (hdrCrc h)

/-- Fields of the header (R145). -/
def hVersion (h : Nat) : Nat := bits h 252 4
def hPasture (h : Nat) : Nat := bits h 240 12
def hVc (h : Nat) : Nat := bits h 237 3
def hEpoch (h : Nat) : Nat := bits h 236 1
def hEcn (h : Nat) : Nat := bits h 234 2
def hOp (h : Nat) : Nat := bits h 224 8
def hSeq (h : Nat) : Nat := bits h 208 16
def hFlags (h : Nat) : Nat := bits h 200 8
def hTsOff (h : Nat) : Nat := bits h 192 8
def hDstDev (h : Nat) : Nat := bits h 183 9
def hDstPort (h : Nat) : Nat := bits h 173 10
def hSrcDev (h : Nat) : Nat := bits h 151 9
def hSrcPort (h : Nat) : Nat := bits h 141 10
def hLen (h : Nat) : Nat := bits h 112 16

/-- A header built by a DV7 from the Reset column of R145, its CRC computed. -/
def mkHdr (pasture vc epoch ecn op dstDev dstPort srcDev srcPort len : Nat) : Nat :=
  hdrFix (1 <<< 252 + (pasture % 4096) <<< 240 + (vc % 8) <<< 237 + (epoch % 2) <<< 236 + (ecn % 4) <<< 234 +
    (op % 256) <<< 224 + (dstDev % 512) <<< 183 + (dstPort % 1024) <<< 173 + (srcDev % 512) <<< 151 +
    (srcPort % 1024) <<< 141 + (len % 65536) <<< 112)

/-- The channel of an op (R217), op 0x00 aside; none for a reserved op. -/
def vcOfOp (op : Nat) : Option Nat :=
  if op = 0 then none
  else if op ≤ 0x0F ∨ op = 0x70 then some 0
  else if op ≤ 0x1F then some 1
  else if op ≤ 0x2F then some 2
  else if op ≤ 0x3F then some 1
  else if op ≤ 0x4F then some 5
  else if op ≤ 0x5F then some 6
  else if op ≤ 0x6F then some 7
  else none

/-- Whether an op is that of a row or column multicast frame (R228). -/
def opMulti (op : Nat) : Bool := decide (0x58 ≤ op ∧ op ≤ 0x5F)

/-- Whether an op is reserved (R147, the op table). -/
def opReserved (op : Nat) : Bool := decide (0x71 ≤ op)

/-! ### Parsed layers (R142) -/

/-- What the parser found in the first 256 bytes of a frame. -/
structure Parsed where
  dmac   : Nat := 0
  smac   : Nat := 0
  tags   : Nat := 0            -- VLAN tags parsed
  pcp    : Nat := 0            -- of the outer tag
  vid    : Nat := 0
  etype  : Nat := 0            -- innermost EtherType
  l3     : Nat := 0            -- offset of what follows the innermost EtherType
  fab    : Option Nat := none  -- offset of the fabric header
  hdr    : Nat := 0            -- and its 32 bytes
  ipVer  : Nat := 0            -- 0 none, 4 or 6
  dscp   : Nat := 0
  ecn    : Nat := 0
  ttl    : Nat := 0
  proto  : Nat := 0
  sip    : Nat := 0
  dip    : Nat := 0
  l4     : Bool := false
  sport  : Nat := 0
  dport  : Nat := 0
  flags  : Nat := 0            -- TCP flags
  qp     : Nat := 0
  ptp    : Option Nat := none  -- offset of a PTP message
  deriving DecidableEq, Repr

/-- L4 of a packet of protocol `proto` at offset `o` (R142): ports, TCP flags, BTH, PTP. -/
def parseL4 (l : List Byte) (o proto : Nat) (p : Parsed) : Parsed :=
  if proto = 17 ∧ o + 8 ≤ l.length then
    let p := { p with l4 := true, sport := beAt l o 2, dport := beAt l (o + 2) 2 }
    let p := if p.dport = 4791 ∧ o + 20 ≤ l.length then { p with qp := beAt l (o + 13) 3 } else p
    if (p.dport = 319 ∨ p.dport = 320) ∧ o + 42 ≤ l.length then { p with ptp := some (o + 8) } else p
  else if proto = 6 ∧ o + max 20 (4 * (beAt l (o + 12) 1 / 16)) ≤ l.length then
    { p with l4 := true, sport := beAt l o 2, dport := beAt l (o + 2) 2, flags := beAt l (o + 13) 1 }
  else p

/-- Extension headers of an IPv6 packet (R142): up to `fuel` of types 0, 43, 44 and 60, each only where it ends within
the parsed bytes; answers the next header, its offset, and whether a fragment with a non-zero offset was met. -/
def parseExt (l : List Byte) : Nat → Nat → Nat → Nat × Nat × Bool
  | 0, nh, o => (nh, o, false)
  | fuel + 1, nh, o =>
    if nh = 0 ∨ nh = 43 ∨ nh = 60 then
      if o + 8 + 8 * beAt l (o + 1) 1 ≤ l.length then parseExt l fuel (beAt l o 1) (o + 8 + 8 * beAt l (o + 1) 1)
      else (nh, o, false)
    else if nh = 44 ∧ o + 8 ≤ l.length then
      let r := parseExt l fuel (beAt l o 1) (o + 8)
      (r.1, r.2.1, r.2.2 || decide (beAt l (o + 2) 2 / 8 ≠ 0))
    else (nh, o, false)

/-- What follows an EtherType at offset `o` (R142). -/
def parseL3 (l : List Byte) (fabType et o : Nat) (p : Parsed) : Parsed :=
  let p := { p with etype := et, l3 := o }
  if et = fabType then
    if o + 32 ≤ l.length then { p with fab := some o, hdr := beAt l o 32 } else p
  else if et = 0x0800 then
    let ihl := beAt l o 1 % 16
    if 5 ≤ ihl ∧ o + 4 * ihl ≤ l.length then
      let p := { p with ipVer := 4, dscp := beAt l (o + 1) 1 / 4, ecn := beAt l (o + 1) 1 % 4, ttl := beAt l (o + 8) 1
                        proto := beAt l (o + 9) 1, sip := beAt l (o + 12) 4, dip := beAt l (o + 16) 4 }
      if beAt l (o + 6) 2 % 8192 = 0 then parseL4 l (o + 4 * ihl) p.proto p else p
    else p
  else if et = 0x86DD then
    if o + 40 ≤ l.length then
      let tc := beAt l o 2 / 16 % 256
      let e := parseExt l 2 (beAt l (o + 6) 1) (o + 40)
      let p := { p with ipVer := 6, dscp := tc / 4, ecn := tc % 4, ttl := beAt l (o + 7) 1, proto := e.1
                        sip := beAt l (o + 8) 16, dip := beAt l (o + 24) 16 }
      if e.2.2 then p else parseL4 l e.2.1 e.1 p
    else p
  else if et = 0x88F7 ∧ o + 34 ≤ l.length then { p with ptp := some o }
  else p

/-- Parse an Ethernet frame: at most two tags, a third ends parsing (R142). A length field is no EtherType. -/
def parseOuter (fabType : Nat) (bytes : List Byte) : Parsed :=
  let l := bytes.take 256
  let p : Parsed := { dmac := beAt l 0 6, smac := beAt l 6 6 }
  let t0 := beAt l 12 2
  if t0 < 0x0600 then p
  else if t0 = 0x8100 ∨ t0 = 0x88A8 then
    let p := { p with tags := 1, pcp := beAt l 14 1 / 32, vid := beAt l 14 2 % 4096 }
    let t1 := beAt l 16 2
    if t1 = 0x8100 then
      let t2 := beAt l 20 2
      if t2 < 0x0600 then { p with tags := 2 }
      else if t2 = 0x8100 ∨ t2 = 0x88A8 then { p with tags := 2, etype := t2 }
      else parseL3 l fabType t2 22 { p with tags := 2 }
    else if t1 < 0x0600 then p
    else parseL3 l fabType t1 18 p
  else parseL3 l fabType t0 14 p

/-- The layers of the Ethernet frame that an op 0x00 header at `off` encapsulates, as far as they end within the first 256
bytes (R142, R147), beside the outer addresses and tags; it carries no further fabric header. -/
def parseInner (bytes : List Byte) (off : Nat) (p : Parsed) : Parsed :=
  if hOp p.hdr ≠ 0 then p
  else
    let b := off + 32
    let q := parseOuter 0 ((bytes.take 256).drop b)
    { p with etype := q.etype, l3 := b + q.l3, ipVer := q.ipVer, dscp := q.dscp, ecn := q.ecn, ttl := q.ttl, proto := q.proto
             sip := q.sip, dip := q.dip, l4 := q.l4, sport := q.sport, dport := q.dport, flags := q.flags, qp := q.qp
             ptp := q.ptp.map (· + b) }

/-- Parse the first 256 bytes of an Ethernet frame (R142), through an op 0x00 fabric header to the frame it carries. -/
def parseEth (fabType : Nat) (bytes : List Byte) : Parsed :=
  let p := parseOuter fabType bytes
  match p.fab with
  | some off => parseInner bytes off p
  | none => p

/-- Parse a frame as its arrival asks: a Fold link or local source frame begins with its fabric header. -/
def parseFrame (fabType : Nat) (f : Frame) : Parsed :=
  if f.fab then parseInner f.bytes 0 { fab := some 0, hdr := beAt f.bytes 0 32 } else parseEth fabType f.bytes

/-- The fabric header under which a stored frame crosses a Fold link: its own, or the one it gains there (R149). -/
def Frame.outHdr (f : Frame) (p : Parsed) : Option Nat :=
  if p.fab.isSome then some p.hdr else if f.out = 0 then none else some f.out

/-- The bytes that a frame occupies on a Fold link: a header is added where it has none (R149). -/
def linkLen (f : Frame) (p : Parsed) : Nat :=
  match p.fab with
  | some off => f.bytes.length - off
  | none => f.bytes.length + 32

/-- The frame with its fabric header replaced. -/
def Frame.setHdr (f : Frame) (off h : Nat) : Frame := { f with bytes := patch f.bytes off (beBytes 32 h) }

/-! ### Checksums and rewriting -/

/-- Ones'-complement sum of 16-bit words. -/
def onesSum (l : List Byte) : Nat → Nat → Nat
  | 0, acc => acc
  | fuel + 1, acc =>
    match l with
    | [] => acc
    | [a] => (acc + a.toNat * 256) % 65535
    | a :: b :: r => onesSum r fuel ((acc + a.toNat * 256 + b.toNat) % 65535)

/-- The IPv4 header checksum field of a header whose own field reads zero. -/
def ipv4Sum (h : List Byte) : Nat :=
  let z := patch h 10 [0, 0]
  (65535 - onesSum z z.length 0) % 65535

/-- Whether the IPv4 header at offset `o` carries the right checksum (R144). -/
def ipv4SumOk (l : List Byte) (o : Nat) : Bool :=
  let h := (l.drop o).take (4 * (beAt l o 1 % 16))
  ipv4Sum h % 65535 == beAt h 10 2 % 65535

/-- The frame with the checksum of the IPv4 header at `o` recomputed. -/
def ipv4Fix (l : List Byte) (o : Nat) : List Byte :=
  patch l (o + 10) (beBytes 2 (ipv4Sum ((l.drop o).take (4 * (beAt l o 1 % 16)))))

/-- The frame with the ECN field of its IP header set to `e` (R124, R150). -/
def setIpEcn (p : Parsed) (l : List Byte) (e : Nat) : List Byte :=
  if p.ipVer = 4 then ipv4Fix (patch l (p.l3 + 1) [BitVec.ofNat 8 (p.dscp * 4 + e)]) p.l3
  else if p.ipVer = 6 then patch l (p.l3 + 1) [BitVec.ofNat 8 (setBits (beAt l (p.l3 + 1) 1) 4 2 e)]
  else l

/-- The number of cells of a frame (R54). -/
def cellsOf (n : Nat) : Nat := (n + 511) / 512

/-- The number of sectors of a frame (R54). -/
def sectorsOf (n : Nat) : Nat := (n + 127) / 128

/-- Stored length and cells of a frame in the device. -/
def Frame.cells (f : Frame) : Nat := cellsOf f.bytes.length

end Sys2Proof.Machine
end

