-- ==== Sys2Proof/Machine/Heft.lean ====
section
/-!
DEFINITION. The Heft table (R156 to R164, R182, R185) and the forwarding counters (R183, R184).
-/

namespace Sys2Proof.Machine

/-! ### Forwarding counters and errors -/

/-- Counters of FWD_STAT in the order of R184. -/
inductive FwdStat where
  | parseDrops | hdrBad | pastureMismatch | aclDeny | unknownDst | learned | moved | limitHit | learnLost | stashIn
  | lpmMiss | ttlExpired | unreachable | staleEpoch | opReserved | roGap | roLate | roForced
  deriving DecidableEq, Repr

/-- The place of a counter in its row. -/
def FwdStat.idx : FwdStat → Nat
  | .parseDrops => 0 | .hdrBad => 1 | .pastureMismatch => 2 | .aclDeny => 3 | .unknownDst => 4 | .learned => 5
  | .moved => 6 | .limitHit => 7 | .learnLost => 8 | .stashIn => 9 | .lpmMiss => 10 | .ttlExpired => 11
  | .unreachable => 12 | .staleEpoch => 13 | .opReserved => 14 | .roGap => 15 | .roLate => 16 | .roForced => 17

/-- The error bit and status that go with a counter (R183); bit 0 is the header check's, whatever it counts. -/
def FwdStat.err : FwdStat → Option (Nat × Nat)
  | .staleEpoch => some (1, 5)
  | .unreachable => some (2, 4)
  | .learnLost => some (4, 0)
  | .roForced => some (6, 0)
  | _ => none

/-- Count `n` in a counter of die `d`, raising its error bit. -/
def State.fwdCount (s : State) (die : Nat) (c : FwdStat) (n : Nat := 1) : State :=
  let s := s.countIn O.FWD_STAT die c.idx n
  let s := match c with
    | .learned => s.tally 0x0702 die n
    | .staleEpoch => s.tally 0x0704 die n
    | .roGap => s.tally 0x0705 die n
    | .roLate => s.tally 0x0706 die n
    | _ => s
  match c.err with
  | some (bit, st) => s.raise O.FWD_ERR bit st 7 die 0
  | none => s

/-! ### Entries -/

/-- A Heft entry (R156) without its age. -/
def heftEntry (key pasture type static dev port : Nat) : Nat :=
  key % 2 ^ 48 + (pasture % 4096) <<< 48 + (type % 2) <<< 60 + (static % 2) <<< 61 + 1 <<< 62 +
  (dev % 512) <<< 64 + (port % 1024) <<< 73

def eKey (e : Nat) : Nat := bits e 0 48
def ePasture (e : Nat) : Nat := bits e 48 12
def eType (e : Nat) : Nat := bits e 60 1
def eStatic (e : Nat) : Bool := e.testBit 61
def eValid (e : Nat) : Bool := e.testBit 62
def eDev (e : Nat) : Nat := bits e 64 9
def ePort (e : Nat) : Nat := bits e 73 10
def eAge (e : Nat) : Nat := bits e 96 16

/-- The entry with its age stamp. -/
def eStamp (e age : Nat) : Nat := setBits e 96 16 age

/-- The identity of an entry: key, pasture and type. -/
def eId (e : Nat) : Nat := e % 2 ^ 61

/-- Seed of a way (R156). -/
def heftSeed (way : Nat) : Nat := way * 0x55555555

/-- The slot of way `way` for an entry: 262,144·way + bits [17:0] of the seeded CRC of the hash word (R156). -/
def heftSlot (way e : Nat) : Nat :=
  262144 * way + crc32cSeed (heftSeed way) (leBytes 8 (eId e)) % 262144

/-- One die's Heft. -/
def State.heft (s : State) (die : Nat) : HeftDie := TMap.get {} s.fwd.heft die

/-- Set one die's Heft. -/
def State.setHeft (s : State) (die : Nat) (h : HeftDie) : State :=
  { s with fwd := { s.fwd with heft := TMap.put {} s.fwd.heft die h } }

/-- Where an entry of identity `e` stands: a slot of a way, or a stash place. -/
def HeftDie.find (h : HeftDie) (e : Nat) : Option Nat :=
  match ([0, 1, 2, 3].filter (fun w => let x := TMap.get 0 h.slots (heftSlot w e); eValid x && eId x == eId e)) with
  | w :: _ => some (heftSlot w e)
  | [] =>
    match h.stash.findIdx? (fun x => eId x == eId e) with
    | some i => some (1048576 + i)
    | none => none

/-- The entry at a place of the die: slots first, then the stash. -/
def HeftDie.at (h : HeftDie) (i : Nat) : Nat :=
  if i < 1048576 then TMap.get 0 h.slots i else h.stash.getD (i - 1048576) 0

/-- The die with place `i` rewritten. -/
def HeftDie.setAt (h : HeftDie) (i e : Nat) : HeftDie :=
  if i < 1048576 then { h with slots := TMap.put 0 h.slots i e }
  else { h with stash := h.stash.set (i - 1048576) e }

/-- A lookup of key, pasture and type (R156): all four ways and the stash. -/
def HeftDie.lookup (h : HeftDie) (pasture type key : Nat) : Option Nat :=
  match h.find (heftEntry key pasture type 0 0 0) with
  | some i => some (h.at i)
  | none => none

/-- The displacement chain of R157: step `n` on way n mod 4, up to eight displacements; answers the table and the
entry left over, if any. Of several free slots the lowest way takes the entry (DESIGN CHOICE, log entry 138). -/
def heftChain : Nat → Nat → Nat → TMap Nat → TMap Nat × Option Nat
  | 0, _, e, m => (m, some e)
  | fuel + 1, n, e, m =>
    match ([0, 1, 2, 3].filter (fun w => !eValid (TMap.get 0 m (heftSlot w e)))) with
    | w :: _ => (TMap.put 0 m (heftSlot w e) e, none)
    | [] =>
      match fuel with
      | 0 => (m, some e)
      | _ =>
        let i := heftSlot (n % 4) e
        heftChain fuel (n + 1) (TMap.get 0 m i) (TMap.put 0 m i e)

/-- The stamp of the present tick (R156). -/
def State.heftStamp (s : State) : Nat := s.bell / 2 ^ s.ob O.HEFT_AGE_SHIFT % 65536

/-- Queue a record for the cores (R163): `kind` 1 rehash, 2 learned, 3 aged out; lost and counted when full. -/
def State.heftNotice (s : State) (die e kind : Nat) (discarded : Bool := false) : State :=
  let h := s.heft die
  if kind = 1 ∨ (s.ob O.HEFT_NOTIFY).testBit die then
    if h.notices.length < 256 then
      s.setHeft die { h with notices := h.notices ++ [(e, kind + 4 * b2n discarded)] }
    else s.fwdCount die .learnLost
  else s

/-- Insert a new entry on a die (R157); the second answer says that an entry was discarded. -/
def State.heftInsert (s : State) (die e : Nat) : State × Bool :=
  let h := s.heft die
  match heftChain 9 0 e h.slots with
  | (m, none) => (s.setHeft die { h with slots := m }, false)
  | (m, some left) =>
    if h.stash.length < 64 then
      let s := (s.setHeft die { h with slots := m, stash := h.stash ++ [left] }).fwdCount die .stashIn
      (s.heftNotice die left 1, false)
    else
      let s := (s.setHeft die { h with slots := m }).raise O.FWD_ERR 3 6 7 die 0
      (s.heftNotice die left 1 true, true)

/-- The dynamic entries of a die that point to a port. -/
def HeftDie.dynAt (h : HeftDie) (dev port : Nat) : Nat :=
  (h.slots.filter (fun x => !eStatic x.2 && eDev x.2 == dev && ePort x.2 == port)).length +
  (h.stash.filter (fun e => !eStatic e && eDev e == dev && ePort e == port)).length

/-- The die with the entries that `p` holds of removed. -/
def HeftDie.flush (h : HeftDie) (p : Nat → Bool) : HeftDie :=
  { h with slots := h.slots.filter (fun x => !p x.2), stash := h.stash.filter (fun e => !p e) }

/-- Flush the entries that `p` holds of on the dies of a mask. -/
def State.heftFlush (s : State) (dies : Nat) (p : Nat → Bool) : State :=
  (setBitsOf 4 dies).foldl (fun s d => s.setHeft d ((s.heft d).flush p)) s

/-! ### Learning (R158 to R160) -/

/-- Queue a learn request on a die: lost and counted when the queue of 1,024 is full (R158). `port` is the flock
port whose limit applies, or 1,024 for none. -/
def State.learnRequest (s : State) (die e port : Nat) : State :=
  let h := s.heft die
  if h.learn.length < 1024 then s.setHeft die { h with learn := h.learn ++ [(e, port)] }
  else s.fwdCount die .learnLost

/-- Whether learning source `e` from flock port `port` would break its limit (R160): a new source beyond it. -/
def State.overLimit (s : State) (die e port : Nat) : Bool :=
  let lim := bits (s.row O.FWD_PORTCFG port) 40 20
  let h := s.heft die
  lim != 0 && lim != 0xFFFFF && (h.find e).isNone && decide (lim ≤ h.dynAt s.own port)

/-- Carry out the learn request at the head of die `die`'s queue (R157, R159). -/
def State.heftLearn (s : State) (die : Nat) : State :=
  let h := s.heft die
  match h.learn with
  | [] => s
  | (e, port) :: rest =>
    let s := s.setHeft die { h with learn := rest }
    let h := s.heft die
    let e := eStamp e s.heftStamp
    match h.find e with
    | some i =>
      let old := h.at i
      if eDev old = eDev e ∧ ePort old = ePort e then s.setHeft die (h.setAt i (eStamp old s.heftStamp))
      else if eStatic old then s.fwdCount die .moved
      else (s.setHeft die (h.setAt i e)).fwdCount die .moved
    | none =>
      if port < 1024 ∧ s.overLimit die e port then s.fwdCount die .limitHit
      else
        let s := (s.heftInsert die e).1.fwdCount die .learned
        s.heftNotice die e 2

/-- One sweep of a die (R161): dynamic entries older than the limit go, with a notice each. -/
def State.heftSweep (s : State) (die : Nat) : State :=
  let lim := s.ob O.HEFT_AGE_LIMIT
  if lim = 0 then s else
    let h := s.heft die
    let old := fun e => !eStatic e && decide (lim ≤ (s.heftStamp + 65536 - eAge e) % 65536)
    let gone := (h.slots.map (·.2)).filter old ++ h.stash.filter old
    gone.foldl (fun s e => s.heftNotice die e 3) (s.setHeft die (h.flush old))

/-- Restamp every dynamic entry of every die with the present stamp (R161, R452). -/
def State.heftRestamp (s : State) : State :=
  let st := fun e => if eStatic e then e else eStamp e s.heftStamp
  [0, 1, 2, 3].foldl (fun s d =>
    let h := s.heft d
    s.setHeft d { h with slots := h.slots.map (fun x => (x.1, st x.2)), stash := h.stash.map st }) s

/-! ### HEFT_OP (R164) -/

/-- Set HEFT_OP_STATUS. -/
def State.heftStatus (s : State) (st : Nat) : State := s.setOb O.HEFT_OP_STATUS st

/-- Opcode 1: insert a static entry on the dies of the mask. An entry of the same identity is replaced. -/
def State.heftStatic (s : State) (mask e : Nat) : State :=
  let e := setBits (setBits (setBits (e &&& (2 ^ 83 - 1)) 61 2 3) 63 1 0) 96 16 0
  let r := (setBitsOf 4 mask).foldl (fun (a : State × Bool) d =>
    let h := a.1.heft d
    match h.find e with
    | some i => (a.1.setHeft d (h.setAt i e), a.2)
    | none => let x := a.1.heftInsert d e; (x.1, a.2 || x.2)) (s, false)
  r.1.heftStatus (if r.2 then 6 else 0)

/-- Opcode 2: delete an entry; 0x01 when no die of the mask finds it. -/
def State.heftDelete (s : State) (mask e : Nat) : State :=
  let r := (setBitsOf 4 mask).foldl (fun (a : State × Bool) d =>
    let h := a.1.heft d
    match h.find e with
    | some i =>
      (a.1.setHeft d (if i < 1048576 then { h with slots := TMap.put 0 h.slots i 0 }
        else { h with stash := h.stash.eraseIdx (i - 1048576) }), true)
    | none => a) (s, mask % 16 == 0)
  r.1.heftStatus (if r.2 then 0 else 1)

/-- Opcode 6: retry the insertion of every stash entry on a die. -/
def State.heftRetry (s : State) (die : Nat) : State × Bool :=
  let h := s.heft die
  h.stash.foldl (fun (a : State × Bool) e => let x := a.1.heftInsert die e; (x.1, a.2 || x.2))
    (s.setHeft die { h with stash := [] }, false)

/-- Opcode 6 on the dies of a mask. -/
def State.heftRetryAll (s : State) (mask : Nat) : State :=
  let r := (setBitsOf 4 mask).foldl (fun (a : State × Bool) d =>
    let x := a.1.heftRetry d; (x.1, a.2 || x.2)) (s, false)
  r.1.heftStatus (if r.2 then 6 else 0)

/-- HEFT_OP by its opcode (R164); none for an opcode the table does not list. -/
def State.heftOp (s : State) (opcode mask e : Nat) : Option State :=
  match opcode with
  | 1 => some (s.heftStatic mask e)
  | 2 => some (s.heftDelete mask e)
  | 3 => some ((s.heftFlush mask (fun x => !eStatic x && ePasture x == ePasture e)).heftStatus 0)
  | 4 => some ((s.heftFlush mask (fun x => !eStatic x && eDev x == eDev e && ePort x == ePort e)).heftStatus 0)
  | 5 => some ((s.heftFlush mask (fun x => !eStatic x)).heftStatus 0)
  | 6 => some (s.heftRetryAll mask)
  | _ => none

/-- HEFT_REQ_LO_d and HEFT_REQ_HI_d of the head record (R185); both zero while the queue is empty. -/
def State.heftReq (s : State) (die : Nat) : Nat × Nat :=
  match (s.heft die).notices with
  | [] => (0, 0)
  | (e, k) :: rest =>
    (setBits (e % 2 ^ 62) 62 2 (k % 4), eDev e + ePort e <<< 9 + (k / 4) <<< 19 + rest.length <<< 20)

/-- Remove the head record of die `die`'s notice queue (R185). -/
def State.heftPop (s : State) (die : Nat) : State :=
  let h := s.heft die
  s.setHeft die { h with notices := h.notices.drop 1 }

/-- HEFT_ENTRIES of a die: valid entries in the ways and the stash (R184). -/
def State.heftCount (s : State) (die : Nat) : Nat := (s.heft die).slots.length + (s.heft die).stash.length

end Sys2Proof.Machine
end

