-- ==== Sys2Proof/Machine/Lookup.lean ====
section
/-!
DEFINITION. Class, ACL, lookup, route banks, groups and member selection (R151 to R175, R217 to R229): where a
frame goes. The die named in each operation is the die of the arrival block, whose tables are read (R182).
-/

namespace Sys2Proof.Machine

/-! ### Channels and classes -/

/-- The class of a virtual channel (R219). -/
def State.vcClass (s : State) (vc : Nat) : Nat := s.row O.VC_CLASS vc % 8

/-- The channel of op 0x00 for a class (R218): FWDS when VC_ENC_SPRAY has its bit, else FWDO. -/
def State.encVc (s : State) (cls : Nat) : Nat := if (s.ob O.VC_ENC_SPRAY).testBit cls then 4 else 3

/-- The class of a flock frame (R151). -/
def State.flockClass (s : State) (port : Nat) (p : Parsed) : Nat :=
  let cfg := s.row O.FWD_PORTCFG port
  let c := if p.tags = 0 then bits cfg 12 3 else bits cfg (16 + 3 * p.pcp) 3
  if cfg.testBit 15 && p.ipVer != 0 then s.row O.FWD_DSCP_MAP p.dscp % 8 else c

/-- The rows of a table that are listed, in row order. -/
def State.rowsOf (s : State) (oid : Nat) : List (Nat × Nat) :=
  (s.objs.filter (fun x => x.1 / 2 ^ 23 == oid)).map (fun x => (x.1 % 2 ^ 23, x.2))

/-- Counters of VC_STAT (R242) and their bits of VC_ERR (R241). -/
def State.vcCount (s : State) (row : Nat) (bit : Option Nat) (n : Nat := 1) : State :=
  let s := s.count O.VC_STAT row n
  match bit with
  | some b => s.raise O.VC_ERR b
  | none => s

/-! ### ACL (R152, R153) -/

/-- The 320-bit key of a frame with address field `addr` (R152). -/
def aclKey (arrival pasture : Nat) (p : Parsed) (addr : Nat) : Nat :=
  arrival + (pasture % 4096) <<< 11 + p.vid <<< 23 + p.pcp <<< 35 + p.etype <<< 38 +
  (b2n p.fab.isSome) <<< 54 + (if p.fab.isSome then hOp p.hdr <<< 55 + hDstDev p.hdr <<< 63 else 0) +
  p.dscp <<< 72 + p.proto <<< 78 + p.sport <<< 86 + p.dport <<< 102 + p.flags <<< 118 + addr <<< 128

/-- Whether a row's key matches: bits differ nowhere under the mask. -/
def aclMatches (row key : Nat) : Bool :=
  (xorN (bits row 0 320) key) &&& (bits row 320 320) == 0

/-- The winning row: the lowest valid one that matches; an IPv6 pair needs both its rows (R152). The second row of a pair
needs no valid bit of its own and never matches alone (DESIGN CHOICE, log entry 126). -/
def State.aclSearch (s : State) (arrival pasture : Nat) (p : Parsed) : Option (Nat × Nat) :=
  let a1 := if p.ipVer = 4 then p.sip + p.dip <<< 32 else p.sip
  let k1 := aclKey arrival pasture p a1
  let k2 := aclKey arrival pasture p p.dip
  (s.rowsOf O.ACL_TABLE).find? (fun x =>
    let second := decide (0 < x.1) && (s.row O.ACL_TABLE (x.1 - 1)).testBit 694 && (s.row O.ACL_TABLE (x.1 - 1)).testBit 693
    x.2.testBit 693 && !second && aclMatches x.2 k1 &&
    (!x.2.testBit 694 || (p.ipVer == 6 && aclMatches (s.row O.ACL_TABLE (x.1 + 1)) k2)))

/-- Launch time of an ACL action: the receive timestamp as T64 plus `delay` ns (R115, R152). -/
def launchTime (rx delay : Nat) : Nat :=
  let ns := bits rx 16 32 + delay
  ((bits rx 48 64 + ns / 1000000000) % 2 ^ 34) * 2 ^ 30 + ns % 1000000000

/-! ### Route banks and groups -/

/-- A port is live as a group member: its state is up and its block not fenced (R172). -/
def State.live (s : State) (port : Nat) : Bool := s.portState port == 6 && !s.blockFenced (port / 8)

/-- The live members of group row `g` in row order (R172). -/
def State.liveMembers (s : State) (g : Nat) : List Nat :=
  let r := s.row O.ROUTE_GROUP g
  ((List.range (bits r 16 7)).map (fun i => s.row O.ROUTE_MEMBER (bits r 0 16 + i) % 1024)).filter s.live

/-- The hash key of a frame (R173). -/
def hashKey (f : Frame) (p : Parsed) : List Byte :=
  if p.fab.isSome then
    beBytes 2 (hPasture p.hdr) ++ beBytes 2 (hSrcDev p.hdr) ++ beBytes 2 (hSrcPort p.hdr) ++
    beBytes 2 (hDstDev p.hdr) ++ beBytes 2 (hDstPort p.hdr) ++ beBytes 1 (hVc p.hdr)
  else if p.ipVer = 4 ∨ p.ipVer = 6 then
    let n := if p.ipVer = 4 then 4 else 16
    beBytes 2 f.pasture ++ beBytes n p.sip ++ beBytes n p.dip ++ beBytes 1 p.proto ++ beBytes 2 p.sport ++
    beBytes 2 p.dport ++ beBytes 3 p.qp
  else
    beBytes 2 f.pasture ++ beBytes 6 p.dmac ++ beBytes 6 p.smac ++ beBytes 2 p.vid ++ beBytes 2 p.etype

/-- The member an ordered frame takes (R173). -/
def State.hashMember (s : State) (members : List Nat) (f : Frame) (p : Parsed) : Option Nat :=
  let h := crc32cSeed (s.ob O.FWD_HASH_SEED) (hashKey f p) % 65536
  members[h * members.length / 65536]?

/-- Queue `q` of destination `d`. -/
def State.queue (s : State) (d q : Nat) : EQueue := TMap.get {} s.fold.queues (12 * d + q)

/-- Whether the sender of a Fold link block holds a credit on a channel (R198): one cell. -/
def State.hasCredit (s : State) (b vc cells : Nat) : Bool :=
  decide (cells ≤ TMap.get 0 (s.block b).credits vc) || decide (cells ≤ TMap.get 0 (s.block b).credits 8)

/-- The member a sprayed frame takes (R174): least cells charged to its class queue among live members with a
credit on FWDS; ties to the first after the group's pointer, a place in the group's member rows, which moves past the
member chosen. While no live member has a credit, all of them compete (DESIGN CHOICE, log entry 35). -/
def State.sprayMember (s : State) (g : Nat) : Option (State × Nat) :=
  let r := s.row O.ROUTE_GROUP g
  let cls := s.vcClass 4
  let n := bits r 16 7
  let ptr := TMap.get 0 s.fwd.sprayPtr g
  let port := fun i => s.row O.ROUTE_MEMBER (bits r 0 16 + i) % 1024
  let order := ((List.range n).map (fun i => (ptr + i) % n)).filter (fun i => s.live (port i))
  let held := order.filter (fun i => s.hasCredit (port i / 8) 4 1)
  let ok := if held.isEmpty then order else held
  let depth := fun i => (s.queue (port i) cls).used
  match ok with
  | [] => none
  | i :: r =>
    let best := r.foldl (fun b j => if depth j < depth b then j else b) i
    some ({ s with fwd := { s.fwd with sprayPtr := TMap.put 0 s.fwd.sprayPtr g ((best + 1) % n) } }, port best)

/-- The route entry that serves a lookup (R169, R171), with the direction of the failover profile it came from: the
failover profiles of the set bits first, then the pasture's bank `e`. `spray` says whether the frame is FWDS, `multi`
whether it is multicast, which never reads failover profiles (R225). -/
def State.routeEntry (s : State) (p e d : Nat) (spray multi : Bool) : Nat × Option Nat :=
  let row := s.row O.ROUTE_PASTURE p
  let usable := fun x : Nat => x.testBit 12 || (spray && x.testBit 28)
  let fails := if multi then [] else
    ((setBitsOf 6 (s.ob O.ROUTE_FAILOVER_ACT)).map (fun i => (s.row O.ROUTE_PROFILE (512 * (1024 + i) + d), i))).filter
      (fun x => usable x.1)
  match fails with
  | x :: _ => (x.1, some x.2)
  | [] => (s.row O.ROUTE_PROFILE (512 * bits row (if e = 0 then 0 else 16) 10 + d), none)

/-- Whether the path of dimension order to `dst` crosses the neighbour in direction `i` in the middle of its segment on that
axis (R225): the path leaves this device on the axis, and does not turn or end at that neighbour. -/
def State.midSegment (s : State) (i dst : Nat) : Bool :=
  decide (dst < s.torusSize) && s.firstAxis s.own dst == some (i / 2) &&
  (match s.neighbour s.own i with
   | some f => s.coord f (i / 2) != s.coord dst (i / 2)
   | none => false)

/-- Whether a port chosen from the failover profile of direction `i` is a U-turn for `dst` (R225): its ring or reach block
runs in the opposite direction of the same, wrapped axis, and the failed device stands in the middle of the segment. -/
def State.isUturn (s : State) (i : Option Nat) (port dst : Nat) : Bool :=
  match i with
  | some i =>
    let b := port / 8
    (s.role b == 2 || s.role b == 3) && s.dir b != i && s.dir b / 2 == i / 2 && s.wrapped (i / 2) && s.midSegment i dst
  | none => false

/-- Whether a multicast frame sent on `port` would cross a device under failover (R229). -/
def State.crossesFailed (s : State) (port : Nat) : Bool :=
  (s.role (port / 8) == 2 || s.role (port / 8) == 3) && (s.ob O.ROUTE_FAILOVER_ACT).testBit (s.dir (port / 8))

/-- What a lookup yields: destinations 0 to 1,039, or a drop with its counter. -/
inductive Fate where
  | go (dests : List Nat) (routed uturn : Bool)
  | drop (c : FwdStat)
  | discard                    -- dropped by a rule that counts elsewhere
  deriving DecidableEq, Repr

/-- Whether two devices differ in exactly one coordinate (R228). -/
def State.oneAxis (s : State) (a b : Nat) : Bool :=
  ([0, 1, 2].filter (fun ax => s.coord a ax != s.coord b ax)).length == 1

/-- route(p, e, d) (R169) for frame `f` on channel `f.vc`, with the member chosen (R173, R174). -/
def State.route (s : State) (p e d : Nat) (f : Frame) (ps : Parsed) (multi : Bool) : State × Fate :=
  let row := s.row O.ROUTE_PASTURE p
  if !row.testBit 35 then (s, .drop .unreachable)
  else if !row.testBit (33 + e % 2) then (s, .drop .staleEpoch)
  else
    -- with bit 5 of R512 not in effect a FWDS frame takes the link group
    let spray := decide (f.vc = 4) && s.pFeature p 5
    let x := s.routeEntry p e d spray multi
    if spray && x.1.testBit 28 then
      let g := 4096 + bits x.1 16 10
      match s.sprayMember g with
      | some (s, port) => (s, .go [port] true (s.isUturn x.2 port d))
      | none => (s, .drop .unreachable)
    else if x.1.testBit 12 then
      match s.hashMember (s.liveMembers (bits x.1 0 12)) f ps with
      | some port => (s, .go [port] true (s.isUturn x.2 port d))
      | none => (s, .drop .unreachable)
    else (s, .drop .unreachable)

/-- Whether port `port` exists and is a flock port (R8, R148). -/
def State.isFlockPort (s : State) (port : Nat) : Bool :=
  s.role (port / 8) == 1 && decide (port % 8 < s.bob (port / 8) O.PORT_SPLIT)

/-- port(p) of R154: a port not in the flock role makes the frame unreachable (R148). -/
def State.toPort (s : State) (port : Nat) : Fate :=
  if s.isFlockPort port then .go [port] false false else .drop .unreachable

/-- Every flock port of pasture `p` but `arrival` (R155). -/
def State.floodPorts (s : State) (p arrival : Nat) : List Nat :=
  (List.range 1024).filter (fun port =>
    s.isFlockPort port && bits (s.row O.FWD_PORTCFG port) 0 12 == p && port != arrival)

/-- Whether a core of paddock `pd` runs, so that frames to the cores are not dropped (R491). -/
def State.coresRun (s : State) (pd : Nat) : Bool :=
  [0, 1, 2, 3].any (fun i => s.row O.CRIOTTE_STATE (4 * pd + i) == 1)

/-- A copy to the Criotte cores of the arrival paddock (R153, R155): lossy; dropped while they are halted, and by a full
receive ring (R230), of which the spec gives neither place nor size: whether it is full is a free value (log entry 136). -/
def State.copyToCores (s : State) (f : Frame) : State :=
  let pd := if f.port < 1024 then f.port / 64 else f.port - 1024
  if !s.coresRun pd then s
  else if Config.freeCoreRing s.free then s.draw
  else s.draw.emit (.cores pd f)

/-- miss(p) (R155). -/
def State.missAction (s : State) (die p : Nat) (f : Frame) : State × Fate :=
  let act := bits (s.row O.FWD_PASTURE p) 0 2
  let s := if act = 2 ∨ act = 3 then s.copyToCores f else s
  if act = 1 ∨ act = 3 then
    (s.fwdCount die .unknownDst, .go (s.floodPorts p f.port) false false)
  else (s, .discard)

/-- The LPM key of a prefix (R165). -/
def lpmKey (v6 : Bool) (plen pasture pfx : Nat) : Nat :=
  ((b2n v6 * 256 + plen) * 4096 + pasture) * 2 ^ 128 + pfx

/-- The longest prefix of `addr` (width `w`) in pasture `p`: lengths from `n` down (R165). -/
def lpmFind (m : TMap Nat) (v6 : Bool) (w p addr : Nat) : Nat → Option Nat
  | 0 => let x := TMap.get 0 m (lpmKey v6 0 p 0); if x = 0 then none else some (x - 1)
  | n + 1 =>
    let x := TMap.get 0 m (lpmKey v6 (n + 1) p (addr / 2 ^ (w - (n + 1)) * 2 ^ (w - (n + 1))))
    if x = 0 then lpmFind m v6 w p addr n else some (x - 1)

/-- lpm(p, dip) (R154, R165). -/
def State.lpm (s : State) (p : Nat) (ps : Parsed) : Option Nat :=
  if ps.ipVer = 4 then lpmFind s.fwd.lpm false 32 p ps.dip 32 else lpmFind s.fwd.lpm true 128 p ps.dip 128

/-- The frame of a routed packet (R166): MACs, tag and TTL from the next hop, the IPv4 checksum updated. A tagged
next hop keeps the PCP of the arrival (log entry 10). -/
def routeRewrite (f : Frame) (ps : Parsed) (mac nh : Nat) : Frame :=
  let vid := bits nh 48 12
  let tag := if vid = 0 then [] else beBytes 2 0x8100 ++ beBytes 2 (ps.pcp * 8192 + vid)
  let head := beBytes 6 (bits nh 0 48) ++ beBytes 6 mac ++ tag ++ beBytes 2 ps.etype
  let pkt := f.bytes.drop ps.l3
  let pkt := if ps.ipVer = 4 then ipv4Fix (patch pkt 8 [BitVec.ofNat 8 (ps.ttl - 1)]) 0
             else patch pkt 7 [BitVec.ofNat 8 (ps.ttl - 1)]
  { f with bytes := head ++ pkt }

/-- deliver(p, dev, port) (R154). -/
def State.deliver (s : State) (p dev port : Nat) (f : Frame) (ps : Parsed) : State × Fate × Frame :=
  if dev = s.own then (s, s.toPort port, f)
  else
    let e := bits (s.row O.ROUTE_PASTURE p) 32 1
    -- the header of R149 is built here and added at departure: the frame is stored as received (R54)
    let ecn := if ps.ipVer = 0 then 0 else ps.ecn
    let h := mkHdr p f.vc e ecn 0 dev port s.own f.port f.bytes.length
    let r := s.route p e dev f ps false
    (r.1, r.2, { f with out := h })

/-- Whether the link group that serves a multicast frame's route has a port towards a device under failover (R229). -/
def State.groupCrosses (s : State) (p e d : Nat) : Bool :=
  let x := (s.routeEntry p e d false true).1
  let r := s.row O.ROUTE_GROUP (bits x 0 12)
  x.testBit 12 && (List.range (bits r 16 7)).any (fun i => s.crossesFailed (s.row O.ROUTE_MEMBER (bits r 0 16 + i) % 1024))

/-- A multicast frame on its way (R228, R229): every device after the origin, which its src_dev names, delivers one copy, and
forwards the frame on; at a device before one under failover it is dropped, whether a member towards it lives or not. -/
def State.multicast (s : State) (die : Nat) (f : Frame) (h : Nat) (ps : Parsed) : State × Fate × Frame :=
  let r := s.route f.pasture (hEpoch h) (hDstDev h) f ps true
  let lost := ((r.1.fwdCount die .unreachable).vcCount 8 (some 3), Fate.discard, f)
  match r.2 with
  | .go ports rt ut =>
    if ports.any r.1.crossesFailed then lost
    else (r.1, .go ((if hSrcDev h ≠ s.own then [1024 + hDstPort h % 16] else []) ++ ports) rt ut, f)
  | .drop .unreachable =>
    if s.groupCrosses f.pasture (hEpoch h) (hDstDev h) then lost else (r.1, r.2, f)
  | x => (r.1, x, f)

/-- The lookup of R154 for a frame of arrival die `die` that has passed steps 1 to 4. -/
def State.lookup (s : State) (die : Nat) (f : Frame) (ps : Parsed) : State × Fate × Frame :=
  let p := f.pasture
  let miss := fun (s : State) => let r := s.missAction die p f; (r.1, r.2, f)
  match ps.fab with
  | some off =>
    let flock := decide (f.port < 1024) && s.role (f.port / 8) == 1
    let resolve := (hFlags ps.hdr).testBit 1 && flock
    let found := if resolve then (s.heft die).lookup p 1 (beAt f.bytes (off + 32) 4) else none
    let s := if resolve then s.tally (if found.isSome then 0x0700 else 0x0701) die else s
    if resolve && found.isNone then miss s
    else
      let h := match found with
        | some e => hdrFix (setBits (setBits (setBits ps.hdr 183 9 (eDev e)) 173 10 (ePort e)) 201 1 0)
        | none => ps.hdr
      let f := if found.isSome then f.setHdr off h else f
      let ps := { ps with hdr := h }
      let multi := opMulti (hOp h)
      if multi && !s.oneAxis (hSrcDev h) (hDstDev h) then (s.vcCount 0 (some 0), .discard, f)
      else if hDstDev h = s.own then
        if hOp h = 0 then (s, s.toPort (hDstPort h), f)
        else (s, .go [1024 + hDstPort h % 16] false false, f)
      else if multi then
        s.multicast die f h ps
      else
        let r := s.route p (hEpoch h) (hDstDev h) f ps false
        (r.1, r.2, f)
  | none =>
    let mac := s.ob O.FWD_ROUTER_MAC % 2 ^ 48
    let copyMiss := (s.row O.FWD_PASTURE p).testBit 2
    if ps.ipVer ≠ 0 ∧ mac ≠ 0 ∧ ps.dmac = mac ∧ (s.row O.FWD_PASTURE p).testBit 3 then
      if ps.ipVer = 4 ∧ !ipv4SumOk f.bytes ps.l3 then (s, .drop .hdrBad, f)
      else if ps.ttl ≤ 1 then
        (if copyMiss then s.copyToCores f else s, .drop .ttlExpired, f)
      else
        let lpmMiss := (if copyMiss then s.copyToCores f else s, Fate.drop .lpmMiss, f)
        match s.lpm p ps with
        | none => lpmMiss
        | some i =>
          let nh := s.row O.LPM_NEXTHOP i
          if !nh.testBit 60 then lpmMiss
          else
            let f := routeRewrite f ps mac nh
            s.deliver p (bits nh 64 9) (bits nh 73 10) f (parseEth f.etype f.bytes)
    else if ps.dmac.testBit 40 then miss s
    else
      match (s.heft die).lookup p 0 ps.dmac with
      | none => miss s
      | some e => s.deliver p (eDev e) (ePort e) f ps

end Sys2Proof.Machine
end

