-- ==== Sys2Proof/Machine/FoldOps.lean ====
section
/-!
DEFINITION. Operations of the Fold (R54 to R99): pools, admission, VOQs, pens and PFC, linking, releasing and
dropping of frames, reordering at the destination (R176 to R180).
-/

namespace Sys2Proof.Machine

/-! ### Small accessors -/

def State.eq (s : State) (qid : Nat) : EQueue := TMap.get {} s.fold.queues qid
def State.setEq (s : State) (qid : Nat) (x : EQueue) : State :=
  { s with fold := { s.fold with queues := TMap.put {} s.fold.queues qid x } }
def State.modEq (s : State) (qid : Nat) (f : EQueue → EQueue) : State := s.setEq qid (f (s.eq qid))
def State.ep (s : State) (d : Nat) : EPort := TMap.get {} s.fold.eports d
def State.setEp (s : State) (d : Nat) (x : EPort) : State :=
  { s with fold := { s.fold with eports := TMap.put {} s.fold.eports d x } }
def State.modEp (s : State) (d : Nat) (f : EPort → EPort) : State := s.setEp d (f (s.ep d))
def State.copy (s : State) (c : Nat) : Copy := TMap.get {} s.fold.copies c
def State.setCopy (s : State) (c : Nat) (x : Copy) : State :=
  { s with fold := { s.fold with copies := TMap.put {} s.fold.copies c x } }
def State.bank (s : State) (g : Nat) : BankGroup := TMap.get {} s.fold.banks g
def State.setBank (s : State) (g : Nat) (x : BankGroup) : State :=
  { s with fold := { s.fold with banks := TMap.put {} s.fold.banks g x } }

/-- Key of a VOQ (R64). -/
def voqKey (input dest cls : Nat) : Nat := 8320 * input + 8 * dest + cls
def State.voq (s : State) (k : Nat) : List Nat := TMap.get [] s.fold.voqs k
def State.setVoq (s : State) (k : Nat) (l : List Nat) : State :=
  { s with fold := { s.fold with voqs := TMap.put [] s.fold.voqs k l } }

/-- Add to (or take from) a count of cells held in a sparse table. -/
def addTo (m : TMap Nat) (k n : Nat) : TMap Nat := TMap.put 0 m k (TMap.get 0 m k + n)
def subFrom (m : TMap Nat) (k n : Nat) : TMap Nat := TMap.put 0 m k (TMap.get 0 m k - n)

/-- The copy that is departing from queue `qid`, if any. -/
def State.busyCopy (s : State) (qid : Nat) : Option Nat :=
  match (s.ep (qid / 12)).dep with
  | some d => if d.queue = qid ∧ d.started then some d.copy else none
  | none => none

/-- The frame that departs next from queue `qid`: its head, past one that is departing. -/
def State.headOf (s : State) (qid : Nat) : Option Nat :=
  ((s.eq qid).frames.filter (fun id => s.busyCopy qid != some id)).head?

/-- Near-fold cells in use on a die change by `n` (FOLD_NEAR_USED, R98). -/
def State.nearAdd (s : State) (die n : Nat) : State :=
  s.setOb (O.FOLD_NEAR_USED + die) (s.ob (O.FOLD_NEAR_USED + die) + n)
def State.nearSub (s : State) (die n : Nat) : State :=
  s.setOb (O.FOLD_NEAR_USED + die) (s.ob (O.FOLD_NEAR_USED + die) - n)

/-! ### Pools (R79, R86, R87) -/

/-- MiB of the die's far fold taken by reach pools and replay buffers (R86, R208). -/
def State.reachMib (s : State) (die : Nat) : Nat :=
  ((List.range 32).filter (fun i => s.role (32 * die + i) == 3)).foldl
    (fun a i => a + 2 * s.bob (32 * die + i) O.PORT_POOL_MIB) 0

/-- Eviction slots of 8 KiB of a die: its quarter of the far fold in effect, less reach pools and replay buffers. -/
def State.evictSlots (s : State) (die : Nat) : Nat :=
  (s.ob O.FOLD_FAR_SIZE_EFF * 1024 / 4 - s.reachMib die) * 128

/-- Cells that a bank group offers: none when degraded, less its fenced banks (R59, R97). -/
def BankGroup.capacity (b : BankGroup) : Nat := if b.degraded then 0 else 512 * (12 - popcount 12 b.fenced)

/-- Near-fold cells of the die's live bank groups (R79): a bank group leaves the pool whole, when it is degraded (R97). -/
def State.nearCells (s : State) (die : Nat) : Nat :=
  (List.range 32).foldl (fun a i => a + if (s.bank (32 * die + i)).degraded then 0 else 6144) 0

/-- The die's pool in cells (R79). -/
def State.pool (s : State) (die : Nat) : Nat := s.nearCells die - 1024 + 16 * s.evictSlots die

/-! ### Near cells (R59, R62, R91, R97) -/

/-- Free cells of bank group `g`: those it offers, less those in use and those that transfers in flight will take. -/
def State.bankFree (s : State) (g : Nat) : Nat :=
  (s.bank g).capacity - (s.bank g).used - (s.fold.inflight.filter (fun t => t.group == g)).length

/-- Free cells of a die's bank groups. -/
def State.dieFree (s : State) (die : Nat) : Nat :=
  (List.range 32).foldl (fun a i => a + s.bankFree (32 * die + i)) 0

/-- Free cells of a die that others than fetches may take: those beyond what is left of the fetch reserve (R62). -/
def State.plainFree (s : State) (die : Nat) : Nat :=
  s.dieFree die - (1024 - TMap.get 0 s.fold.fetchUsed die)

/-- A bank group of a die with a free cell: group `first` where it has one, else the lowest-numbered that has
(DESIGN CHOICE, log entry 122). -/
def State.pickBank (s : State) (die first : Nat) : Option Nat :=
  (first :: (List.range 32).map (· + 32 * die)).find? (fun g => decide (0 < s.bankFree g))

/-- A cell of bank group `g` comes into use. -/
def State.bankTake (s : State) (g : Nat) : State :=
  (s.setBank g { s.bank g with used := (s.bank g).used + 1 }).nearAdd (g / 32) 1

/-- A cell of bank group `g` is released; the die's fetch reserve is made whole first (R62). A place of 128 or more is
no near cell. -/
def State.bankGive (s : State) (g : Nat) : State :=
  if 128 ≤ g then s
  else
    let s := (s.setBank g { s.bank g with used := (s.bank g).used - 1 }).nearSub (g / 32) 1
    { s with fold := { s.fold with fetchUsed := subFrom s.fold.fetchUsed (g / 32) 1 } }

/-- The place of a cell that lies in a reach block's pool in HBM (R67). -/
abbrev poolCell : Nat := 144

/-- Take `n` cells of a die that are not of the fetch reserve, from `first` on; those that find none lie in the pool
(DEDUCED, log entry 122). -/
def State.takeCells (s : State) (die first : Nat) : Nat → State × List Nat
  | 0 => (s, [])
  | n + 1 =>
    match (if s.plainFree die = 0 then none else s.pickBank die first) with
    | some g =>
      let r := State.takeCells (s.bankTake g) die first n
      (r.1, g :: r.2)
    | none =>
      let r := State.takeCells s die first n
      (r.1, poolCell :: r.2)

/-! ### Ridge credits (R74) -/

def State.ridge (s : State) (d : Nat) : RidgeDir := TMap.get {} s.fold.ridges d
def State.setRidge (s : State) (d : Nat) (x : RidgeDir) : State :=
  { s with fold := { s.fold with ridges := TMap.put {} s.fold.ridges d x } }

/-- Credits free on a ridge direction. -/
def State.ridgeFree (s : State) (d : Nat) : Nat := 4096 - (s.ridge d).usedCredits

/-- Take or give back credits of a ridge direction. -/
def State.ridgeUse (s : State) (d n : Nat) : State := s.setRidge d { s.ridge d with usedCredits := (s.ridge d).usedCredits + n }
def State.ridgeGive (s : State) (d n : Nat) : State := s.setRidge d { s.ridge d with usedCredits := (s.ridge d).usedCredits - n }

/-- The direction whose credit a transfer holds: that of the buffer it lies in, else that of its next hop. -/
def Transfer.holds (t : Transfer) : Option Nat :=
  match t.held with
  | some d => some d
  | none => t.hops.head?

/-- The Fold's reset is released: cell times count from here (R56), and FOLD_HBM_SHARE is in effect as it stands (R98). -/
def State.foldRelease (s : State) : State :=
  { s with fold := { s.fold with zero := s.now, share := s.ob O.FOLD_HBM_SHARE } }

/-! ### Thresholds (R80 to R82) -/

/-- Fields of a threshold row (R80). -/
def thrAlpha (r : Nat) : Nat := bits r 0 4
def thrMax (r : Nat) : Nat := bits r 4 30
def thrReserve (r : Nat) : Nat := bits r 34 30

/-- The reserve of queue `qid`: its row's, and the Drover's preallocation on it (R80, R81). -/
def State.reserveOf (s : State) (qid : Nat) : Nat :=
  thrReserve (s.row O.FOLD_THR_QUEUE qid) + TMap.get 0 s.fold.prealloc qid

/-- The reserves of all queues and preallocations on one die together (R81). -/
def State.reservesTotal (s : State) (die : Nat) : Nat :=
  ((s.rowsOf O.FOLD_THR_QUEUE).filter (fun x => dieOf (x.1 / 12) == die)).foldl (fun a x => a + thrReserve x.2) 0 +
  (s.fold.prealloc.filter (fun x => dieOf (x.1 / 12) == die)).foldl (fun a x => a + x.2) 0

/-- Cells the die's queues hold beyond their reserves (R82). -/
def State.sharedUsed (s : State) (die : Nat) : Nat :=
  (s.fold.queues.filter (fun x => dieOf (x.1 / 12) == die)).foldl (fun a x => a + (x.2.used - s.reserveOf x.1)) 0

/-- Cells charged to the queues of destination `d`. -/
def State.portUsed (s : State) (d : Nat) : Nat :=
  (List.range 12).foldl (fun a q => a + (s.eq (12 * d + q)).used) 0

/-- Cells of a pasture on a die. -/
def State.pastureUsed (s : State) (die p : Nat) : Nat := TMap.get 0 s.fold.pastUsed (4096 * die + p)

/-! ### Admission (R82, R226) -/

/-- The checks of R82 for one member queue, a frame of `n` cells. -/
def State.admits (s : State) (qid pasture n : Nat) : Bool :=
  let d := qid / 12
  let die := dieOf d
  let q := s.eq qid
  let res := s.reserveOf qid
  let add := (q.used + n - res) - (q.used - res)
  if add = 0 then true else
    let avail := s.pool die - s.reservesTotal die - s.sharedUsed die
    if avail < add then false else
      let ok := fun (row used occ : Nat) =>
        !(thrMax row != 0 && decide (thrMax row < used + n)) &&
        !(thrAlpha row != 15 && decide (2 ^ thrAlpha row * avail < 128 * (occ + add)))
      ok (s.row O.FOLD_THR_QUEUE qid) q.used (q.used - res) &&
      ok (s.row O.FOLD_THR_PORT d) (s.portUsed d) (s.portUsed d) &&
      ok (s.row O.FOLD_THR_PASTURE pasture) (s.pastureUsed die pasture) (s.pastureUsed die pasture)

/-- The axis of block `b`'s ring: ring and reach blocks only. -/
def State.ringAxis (s : State) (b : Nat) : Option Nat :=
  if s.role b = 2 ∨ s.role b = 3 then some (s.dir b / 2) else none

/-- Whether a frame enters a ring at destination `d`: the port is a ring or reach port, and the frame did not
arrive on a ring or reach link of the same axis (R226). -/
def State.entersRing (s : State) (f : Frame) (d : Nat) : Bool :=
  if d < 1024 then
    match s.ringAxis (d / 8) with
    | some ax => !(decide (f.port < 1024) && s.ringAxis (f.port / 8) == some ax)
    | none => false
  else false

/-- The queue a frame joins at destination `d` (R100, R220, R221). -/
def State.memberQueue (s : State) (f : Frame) (d : Nat) : Nat :=
  if d < 1024 ∧ s.isLink (d / 8) then
    if f.launch.isSome ∧ (f.vc = 3 ∨ f.vc = 4) ∧ (s.ob O.FEAT_ACCEPT).testBit 11 then
      12 * d + 8 + 2 * (f.vc - 3) + f.launchQ % 2
    else 12 * d + s.vcClass f.vc
  else if f.launch.isSome then 12 * d + 8 + f.launchQ
  else 12 * d + f.cls

/-- A launch time that a Fold link port ignores (R221). -/
def State.launchIgnored (s : State) (f : Frame) (d : Nat) : Bool :=
  decide (d < 1024) && s.isLink (d / 8) && f.launch.isSome && f.vc != 3 && f.vc != 4

/-! ### PFC (R126 to R128, R140, R232) -/

/-- The line rate of a port in Mbit/s (R186, R190): Fold link 2,048,000; flock lanes by split and lane rate. -/
def State.lineRate (s : State) (port : Nat) : Nat :=
  let b := port / 8
  if s.isLink b then 2048000
  else 8 / max 1 (s.bob b O.PORT_SPLIT) * (if s.bob b O.PORT_LANE_RATE = 0 then 200000 else 100000)

/-- ns that `quanta` pause quanta of 512 bit times last at a port's line rate (R127, R130). -/
def State.quantaNs (s : State) (port quanta : Nat) : Nat := quanta * 512 * 1000 / s.lineRate port

def pfcXoff (r : Nat) : Nat := bits r 0 10
def pfcXon (r : Nat) : Nat := bits r 10 10
def pfcHeadroom (r : Nat) : Nat := bits r 20 10
def pfcEnabled (r : Nat) : Bool := r.testBit 30

/-- Bring (port, priority) to the XOFF state its pen count, the parser FIFO and its pasture's hold ask for, and
send the PFC frame of a change (R127, R140, R232). -/
def State.pfcUpdate (s : State) (port prio : Nat) : State :=
  let r := s.row O.PFC_CFG (8 * port + prio)
  let b := port / 8
  let n := TMap.get 0 s.fold.penPrio (8 * port + prio)
  let isOff := (s.ep port).xoff.testBit prio
  let held := s.row O.ROUTE_HOLD (bits (s.row O.FWD_PORTCFG port) 0 12) != 0
  let want := s.isFlockPort port && pfcEnabled r &&
    (decide (pfcXoff r ≤ n) || (isOff && decide (pfcXon r < n)) || (s.block b).fifoXoff || held)
  if want && !isOff then
    (s.modEp port (fun e => { e with xoff := setBit e.xoff prio
                                     xoffAt := TMap.put 0 e.xoffAt prio (s.now + s.quantaNs port 0xFFFF / 2) })).transmit b
      (.pfc port (2 ^ prio) 0xFFFF) |>.tally 0x0106 port
  else if !want && isOff then
    (s.modEp port (fun e => { e with xoff := clearBit e.xoff prio, xoffAt := TMap.put 0 e.xoffAt prio 0 })).transmit b
      (.pfc port (2 ^ prio) 0)
  else s

/-- All priorities of all ports of a block. -/
def State.pfcUpdateBlock (s : State) (b : Nat) : State :=
  (List.range 64).foldl (fun s i => s.pfcUpdate (8 * b + i / 8) (i % 8)) s

/-! ### Pens (R63 to R67, R126, R200) -/

/-- A credit is due back to the sender of block `b`: space (VC, 0 reserve or 1 shared) as charged (R200). -/
def State.creditDue (s : State) (b space cells : Nat) : State :=
  if cells = 0 then s else s.modBlock b (fun x => { x with
    returns := match x.returns.findIdx? (fun r => r.1 == space) with
      | some i => x.returns.modify i (fun r => (r.1, r.2 + cells))
      | none => x.returns ++ [(space, cells)]
    charged := subFrom x.charged (if space / 16 = 1 then 8 else space) cells })

/-- The VOQ of member `qid` of a copy (R64): its input's, for the member's destination and the frame's class. -/
def Copy.voqOf (c : Copy) (qid : Nat) : Nat := voqKey c.input (qid / 12) c.frame.cls

/-- Put a frame bound for `dests` into the VOQs of input `i`: one copy on each die that holds a destination (R68), in the
VOQ of each of its destinations there, so that no frame passes another of its port, class and destination (R64, R77;
DESIGN CHOICE, log entry 36). The pen, or on a reach block the landing (R67), is charged once. -/
def State.enqueue (s : State) (i : Nat) (f : Frame) (dests : List Nat) : State :=
  let n := f.cells
  let reach := decide (i < 128) && s.role i == 3
  let arr := s.fold.nextId
  let s := { s with fold := { s.fold with nextId := arr + 1 } }
  let s := if reach then
      let r := s.takeCells (i / 32) i n
      { r.1 with fold := { r.1.fold with landing := addTo r.1.fold.landing i n
                                         landCells := TMap.put [] r.1.fold.landCells arr r.2 } }
    else { s with fold := { s.fold with
        penUsed := addTo s.fold.penUsed i n
        arrCells := TMap.put 0 s.fold.arrCells arr n
        penPrio := if f.port < 1024 ∧ s.isFlockPort f.port ∧ f.lossless then addTo s.fold.penPrio (8 * f.port + f.prio) n
                   else s.fold.penPrio } }
  [0, 1, 2, 3].foldl (fun s die =>
    match dests.eraseDups.filter (fun d => dieOf d == die) with
    | [] => s
    | ds =>
      let id := s.fold.nextId
      let s := { s with fold := { s.fold with nextId := id + 1 } }
      let c : Copy := { frame := f, arr := arr, input := i, die := die, members := ds.map (s.memberQueue f)
                        joint := f.joint, landed := if reach then some i else none
                        stored := if reach then List.replicate n s.now else [] }
      c.members.foldl (fun s q => s.setVoq (c.voqOf q) (s.voq (c.voqOf q) ++ [id])) (s.setCopy id c)) s

/-- The frames a producer holds while local source `i` is full (R65). -/
def State.backlog (s : State) (i : Nat) : List (Frame × List Nat) := TMap.get [] s.fold.backlog i
def State.setBacklog (s : State) (i : Nat) (l : List (Frame × List Nat)) : State :=
  { s with fold := { s.fold with backlog := TMap.put [] s.fold.backlog i l } }

/-- Whether local source `i`, a pen of 1,024 cells, has room for `n` more (R65). -/
def State.sourceRoom (s : State) (i n : Nat) : Bool := decide (TMap.get 0 s.fold.penUsed i + n ≤ 1024)

/-- Frames that waited for local source `i` enter it in order while it has room (R65); fuel is the number waiting. -/
def State.drainBacklog (s : State) (i : Nat) : Nat → State
  | 0 => s
  | fuel + 1 =>
    match s.backlog i with
    | x :: rest =>
      if s.sourceRoom i x.1.cells then State.drainBacklog ((s.setBacklog i rest).enqueue i x.1 x.2) i fuel else s
    | [] => s

/-- Pen cells of an arrival are freed: `n` cells of input `i` for a frame `f`; credits of a ring or circuit block
go back cell by cell (R200), a priority may fall to XON (R127), and a local source takes what waits for it (R65). -/
def State.penFree (s : State) (i n : Nat) (f : Frame) : State :=
  let s := { s with fold := { s.fold with
    penUsed := subFrom s.fold.penUsed i n
    penPrio := if f.port < 1024 ∧ s.isFlockPort f.port ∧ f.lossless then subFrom s.fold.penPrio (8 * f.port + f.prio) n
               else s.fold.penPrio } }
  let s : State := match f.credit with
    | some (b, space) => if s.role b = 3 then s else s.creditDue b space n
    | none => s
  let s := if f.port < 1024 ∧ s.isFlockPort f.port then s.pfcUpdate f.port f.prio else s
  if 128 ≤ i then s.drainBacklog i (s.backlog i).length else s

/-- The copies of `c`'s arrival that still stand at its input, as `c` does: in the pen, or in the landing. -/
def State.siblings (s : State) (c : Copy) : List Copy :=
  (s.fold.copies.filter (fun x => x.2.arr == c.arr && x.2.landed == c.landed)).map (·.2)

/-- The pen gives up the cells of `c`'s arrival that no copy of it still has to send (R71, R200). -/
def State.penSweep (s : State) (c : Copy) : State :=
  let keep := (s.siblings c).foldl (fun a x => max a (c.frame.cells - x.left)) 0
  let had := TMap.get 0 s.fold.arrCells c.arr
  if had ≤ keep then s
  else ({ s with fold := { s.fold with arrCells := TMap.put 0 s.fold.arrCells c.arr keep } }).penFree c.input (had - keep) c.frame

/-- Landing cells of an arrival. -/
def State.landing (s : State) (arr : Nat) : List Nat := TMap.get [] s.fold.landCells arr
def State.setLanding (s : State) (arr : Nat) (l : List Nat) : State :=
  { s with fold := { s.fold with landCells := TMap.put [] s.fold.landCells arr l } }

/-- The landing of block `b` gives up the cells of `c`'s arrival that no copy of it still has to read; when the last copy
has read the last of them, the pool regains the frame's cells and its credits go back (R67). -/
def State.landSweep (s : State) (c : Copy) (b : Nat) : State :=
  let l := s.siblings c
  let spent := fun i => !l.any (fun x => decide (x.left ≤ i))
  let cells := s.landing c.arr
  let s := (List.range cells.length).foldl (fun s i => if spent i then s.bankGive (cells.getD i 128) else s) s
  let s := s.setLanding c.arr (if l.isEmpty then []
    else (List.range cells.length).map (fun i => if spent i then 128 else cells.getD i 128))
  if !l.isEmpty then s
  else
    let s := { s with fold := { s.fold with landing := subFrom s.fold.landing b c.frame.cells } }
    match c.frame.credit with
    | some (b, space) => s.creditDue b space c.frame.cells
    | none => s

/-- Copy `c` needs less of its input than before, or has gone: what its arrival no longer needs there is given up. -/
def State.inputSweep (s : State) (c : Copy) : State :=
  match c.landed with
  | some b => s.landSweep c b
  | none => s.penSweep c

/-! ### Reordering at the destination (R176 to R180) -/

def State.ctx (s : State) (k : Nat) : Reorder := TMap.get {} s.fwd.reorder k
def State.setCtx (s : State) (k : Nat) (x : Reorder) : State :=
  { s with fwd := { s.fwd with reorder := TMap.put {} s.fwd.reorder k x } }

/-- Distance of a number from E (R177). -/
def seqDist (n e : Nat) : Nat := (n + 65536 - e) % 65536

/-! ### Linking and releasing copies -/

/-- Whether group `g` has waited longer than the residency window, counted from when its first cell was stored (R88,
R90); 0 turns age eviction off. -/
def State.aged (s : State) (g : CellGroup) : Bool :=
  match g.cells with
  | (id, i) :: _ => s.ob O.FOLD_RESIDENCY_NS != 0 &&
      (match (s.copy id).stored[i]? with
       | some t => decide (t + s.ob O.FOLD_RESIDENCY_NS < s.now)
       | none => false)
  | [] => false

/-- Append the cells of copy `id` (`n` cells) to the groups of a queue; a group that is complete, `aged` ones among them,
takes no more (R88). -/
def addCells (aged : CellGroup → Bool) (groups : List CellGroup) (id n : Nat) : List CellGroup :=
  (List.range n).foldl (fun g i =>
    match g.getLast? with
    | some l =>
      if l.complete || decide (16 ≤ l.cells.length) || aged l then
        g.dropLast ++ [{ l with complete := true }, { cells := [(id, i)] }]
      else g.dropLast ++ [{ l with cells := l.cells ++ [(id, i)], complete := decide (l.cells.length = 15) }]
    | none => [{ cells := [(id, i)] }]) groups

/-- Link a copy into the queues it joins, in order (R77). -/
def State.link (s : State) (id : Nat) : State :=
  let c := s.copy id
  let s := c.members.foldl (fun s qid =>
    let first := (s.headOf qid).isNone
    s.modEq qid (fun q =>
      { q with headT64 := if first then s.t64 else q.headT64
               frames := q.frames ++ [id]
               groups := addCells s.aged q.groups id c.frame.cells })) s
  s.setCopy id { s.copy id with stage := .queued }

/-- Charge a copy of `n` cells to queue `qid` and its pasture (R82, R84). -/
def State.charge (s : State) (qid pasture n : Nat) : State :=
  let s := s.modEq qid (fun q => { q with used := q.used + n, depthMax := max q.depthMax (q.used + n) })
  { s with fold := { s.fold with pastUsed := addTo s.fold.pastUsed (4096 * dieOf (qid / 12) + pasture) n } }

/-- Release `n` charged cells of queue `qid`. -/
def State.uncharge (s : State) (qid pasture n : Nat) : State :=
  let s := s.modEq qid (fun q => { q with used := q.used - n })
  { s with fold := { s.fold with pastUsed := subFrom s.fold.pastUsed (4096 * dieOf (qid / 12) + pasture) n } }

/-- Cells of a copy that member `qid` has read. -/
def State.readBy (s : State) (id qid : Nat) : Nat :=
  match (s.ep (qid / 12)).dep with
  | some d => if d.copy = id ∧ d.queue = qid then d.cellRead else 0
  | none => 0

/-- The copy leaves the VOQs of the members given. -/
def State.leaveVoqs (s : State) (id : Nat) (c : Copy) (members : List Nat) : State :=
  members.foldl (fun s q => s.setVoq (c.voqOf q) ((s.voq (c.voqOf q)).filter (· != id))) s

/-- Copy `id` no longer stands in any reorder context; one that holds no frame any more has no timer and takes its window
afresh (R178, R184). -/
def State.leaveCtx (s : State) (id : Nat) : State :=
  ((s.fwd.reorder.filter (fun x => x.2.held.any (fun h => h.2 == id))).map (·.1)).foldl (fun s k =>
    let held := (s.ctx k).held.filter (fun h => h.2 != id)
    s.setCtx k { s.ctx k with held := held
                              deadline := if held.isEmpty then none else (s.ctx k).deadline
                              window := if held.isEmpty then 0 else (s.ctx k).window }) s

/-- Copy `id` ends: it leaves its VOQs and its context, the ridge credits of its transfers in flight go back (R74), and its
arrival's cells at its input are given up where no other copy needs them. -/
def State.endCopy (s : State) (id : Nat) : State :=
  let c := s.copy id
  let s := (s.leaveVoqs id c c.members).leaveCtx id
  let s := (s.fold.inflight.filter (fun t => t.copy == id)).foldl (fun s t =>
    match t.holds with
    | some d => s.ridgeGive d t.sectors
    | none => s) s
  let s := { s with fold := { s.fold with inflight := s.fold.inflight.filter (fun t => t.copy != id)
                                          copies := TMap.put {} s.fold.copies id {} } }
  if c.arr = 0 then s else s.inputSweep c

/-- Free the store cells of a copy that every remaining member has read; a copy with no member left ends. -/
def State.freeCells (s : State) (id : Nat) : State :=
  let c := s.copy id
  let n := c.frame.cells
  let upto := c.members.foldl (fun a q => min a (s.readBy id q)) n
  let gone := ((List.range n).filter (fun i => decide (c.freed ≤ i ∧ i < upto)))
  -- cells of a landing that other copies share are given up by the sweep (R67)
  let shared := c.landed.isSome && !(s.landing c.arr).isEmpty
  let s := if shared then s else gone.foldl (fun s i => s.bankGive (c.groups.getD i 128)) s
  let freed := max c.freed upto
  let s := s.setCopy id { c with freed := freed, left := if c.landed.isSome then freed else c.left }
  if c.members.isEmpty then s.endCopy id
  else if shared then s.inputSweep c else s

/-- An eviction slot of a die is freed; the far_full flag clears with it (R97). -/
def State.slotFree (s : State) (die n : Nat) : State :=
  if n = 0 then s
  else (s.setOb (O.FOLD_FAR_USED + die) (s.ob (O.FOLD_FAR_USED + die) - n)).setOb O.FOLD_ERR
    (clearBit (s.ob O.FOLD_ERR) 3)

/-- Groups of a queue that hold an eviction slot. -/
def slotsHeld (gs : List CellGroup) : Nat := (gs.filter (fun g => g.place != .near)).length

/-- The groups of a queue with the cells that `p` holds of removed; a group without cells goes. -/
def cutGroups (gs : List CellGroup) (p : Nat × Nat → Bool) : List CellGroup :=
  (gs.map (fun g => { g with cells := g.cells.filter (fun x => !p x) })).filter (fun g => !g.cells.isEmpty)

/-- Remove the cells that `p` holds of from queue `qid`'s groups, freeing the slots of groups that go. -/
def State.cutCells (s : State) (qid : Nat) (p : Nat × Nat → Bool) : State :=
  let g := (s.eq qid).groups
  let g' := cutGroups g p
  (s.modEq qid (fun q => { q with groups := g' })).slotFree (dieOf (qid / 12)) (slotsHeld g - slotsHeld g')

/-- Remove copy `id` from queue `qid`: its frame, its cells, its remaining charge, and its place in the VOQ of that member;
a queue that empties loses its deficit (R109), and a new head's time as head starts (R117). `read` cells of it had been
released already. -/
def State.unlink (s : State) (id qid read : Nat) : State :=
  let c := s.copy id
  let s := s.uncharge qid c.frame.pasture (c.frame.cells - read)
  let wasHead := s.headOf qid == some id
  let s := (s.leaveVoqs id c [qid]).modEq qid (fun q =>
    let fs := q.frames.filter (· != id)
    { q with frames := fs
             headT64 := if wasHead then s.t64 else q.headT64
             overran := if wasHead then false else q.overran
             deficit := if fs.isEmpty then 0 else q.deficit })
  let s := s.cutCells qid (fun x => x.1 == id)
  (s.setCopy id { s.copy id with members := c.members.filter (· != qid) }).freeCells id

/-- A frame is dropped from or at queue `qid`, counted in its record (R133). -/
def State.countDrop (s : State) (qid : Nat) : State :=
  (s.modEq qid (fun q => { q with drops := min 65535 (q.drops + 1) })).tally 0x0503 qid

/-- Drop copy `id` from queue `qid`, counted in the queue's record (R133). -/
def State.dropFrom (s : State) (id qid : Nat) : State :=
  (s.unlink id qid (s.readBy id qid)).countDrop qid

/-- Drop every frame of queue `qid` that `p` holds of, but one that is departing; answers the number. -/
def State.dropQueue (s : State) (qid : Nat) (p : Copy → Bool) : State × Nat :=
  let victims := (s.eq qid).frames.filter (fun id => p (s.copy id) && s.busyCopy qid != some id)
  (victims.foldl (fun s id => s.dropFrom id qid) s, victims.length)

/-- Drop every frame queued to port `d` (R37, R206, R207); answers the number. -/
def State.dropPort (s : State) (d : Nat) : State × Nat :=
  (List.range 12).foldl (fun (a : State × Nat) q =>
    let r := a.1.dropQueue (12 * d + q) (fun _ => true); (r.1, a.2 + r.2)) (s, 0)

/-! ### Poison and stored errors -/

/-- A copy is found to be poisoned (R97). -/
def State.poisonCopy (s : State) (id : Nat) : State :=
  let c := s.copy id
  s.setCopy id { c with bad := true, frame := { c.frame with poison := true } }

/-! ### What a reorder context does with a frame (R176 to R180) -/

/-- The timeout of source `src` in ns (R178). -/
def State.reorderTo (s : State) (src : Nat) : Nat :=
  let t := s.row O.FWD_REORDER_TO src
  if t = 0 then s.ob O.FWD_REORDER_TO_DEF else t

/-- The timer of context `k` after E has moved or a frame has been held (R178). -/
def State.ctxTimer (s : State) (k : Nat) (moved : Bool) : State :=
  let x := s.ctx k
  s.setCtx k { x with deadline :=
    if x.held.isEmpty then none
    else if moved || x.deadline.isNone then some (s.now + s.reorderTo (k / 8)) else x.deadline
                      window := if x.held.isEmpty then 0 else x.window }

/-- Release every held frame that follows on from E without a gap; fuel is the number held. -/
def State.releaseRun (s : State) (k : Nat) : Nat → State
  | 0 => s
  | fuel + 1 =>
    let x := s.ctx k
    match x.held.find? (fun h => h.1 == x.expect) with
    | some h =>
      let s := s.setCtx k { x with expect := (x.expect + 1) % 65536, held := x.held.filter (· != h) }
      State.releaseRun (s.link h.2) k fuel
    | none => s

/-- The held frame of smallest distance from E. -/
def Reorder.nearest (x : Reorder) : Option (Nat × Nat) :=
  x.held.foldl (fun a h => match a with
    | none => some h
    | some b => if seqDist h.1 x.expect < seqDist b.1 x.expect then some h else some b) none

/-- `gap` missing numbers are given up: `ro_gap`, and `ro_forced` where the window forces them (R177, R183). -/
def State.countGap (s : State) (die gap : Nat) (forced : Bool) : State :=
  let s := if gap = 0 then s else s.fwdCount die .roGap gap
  if gap ≠ 0 ∧ forced then s.fwdCount die .roForced else s

/-- Release the held frames of context `k` in order as long as `more` of their distance from E, counting the numbers
skipped, those from E to the first of them among them, as gaps of die `die` (R177, R179; DESIGN CHOICE for the first, log
entry 123); fuel is the number held. -/
def State.releaseWhile (s : State) (k die : Nat) (forced : Bool) (more : Reorder → Nat → Bool) : Nat → State
  | 0 => s
  | fuel + 1 =>
    let x := s.ctx k
    match x.nearest with
    | some h =>
      if more x (seqDist h.1 x.expect) then
        let s := (s.countGap die (seqDist h.1 x.expect) forced).setCtx k
          { x with expect := (h.1 + 1) % 65536, held := x.held.filter (· != h) }
        State.releaseWhile (s.link h.2) k die forced more fuel
      else s
    | none => s

/-- Move E to `e`: the held frames of every number before it are released in order, the missing numbers are gaps, and the
run held from `e` on follows (R177). -/
def State.moveTo (s : State) (k e die : Nat) (forced : Bool) : State :=
  let n := (s.ctx k).held.length
  let s := s.releaseWhile k die forced (fun x d => decide (d < seqDist e x.expect)) n
  let s := s.countGap die (seqDist e (s.ctx k).expect) forced
  (s.setCtx k { s.ctx k with expect := e % 65536 }).releaseRun k n

/-- Drop a copy that its context finds late: it was charged at admission, so its charges go (R177). -/
def State.dropLate (s : State) (id die : Nat) : State :=
  let c := s.copy id
  let s := c.members.foldl (fun s q => s.unlink id q 0) s
  s.fwdCount die .roLate

/-- A sprayed copy admitted at its dst_dev meets its reorder context (R177, R179). -/
def State.reorderArrive (s : State) (id : Nat) (h : Nat) : State :=
  let c := s.copy id
  let k := 8 * hSrcDev h + c.frame.cls
  let n := hSeq h
  let e0 := (s.ctx k).expect
  let s := if (s.ctx k).window = 0 then s.setCtx k { s.ctx k with window := s.ob O.FWD_REORDER_WINDOW } else s
  -- a sync releases what is held and sets E (R179)
  let s := if (hFlags h).testBit 2 then
      let s := s.releaseWhile k c.die false (fun _ _ => true) (s.ctx k).held.length
      s.setCtx k { s.ctx k with expect := n }
    else s
  let x := s.ctx k
  let w := x.window
  let d := seqDist n x.expect
  let s' := if d ≠ 0 ∧ w ≤ d ∧ d < 32768 ∧ w < 65536 then s.moveTo k ((n + 65536 - w + 1) % 65536) c.die true else s
  let moved := (s'.ctx k).expect != e0
  let d' := seqDist n (s'.ctx k).expect
  if d' = 0 then
    let s := s'.link id
    let s := s.setCtx k { s.ctx k with expect := (n + 1) % 65536 }
    (s.releaseRun k ((s.ctx k).held.length)).ctxTimer k true
  else if d' < w ∨ w = 65536 then
    let s := (s'.setCopy id { s'.copy id with stage := .held }).setCtx k
      { s'.ctx k with held := (s'.ctx k).held ++ [(n, id)] }
    s.ctxTimer k moved
  else (s'.dropLate id c.die).ctxTimer k moved

/-- The timer of context `k` expires (R178). -/
def State.reorderExpire (s : State) (k die : Nat) : State :=
  let x := s.ctx k
  match x.nearest with
  | some h =>
    let s := (s.countGap die (seqDist h.1 x.expect) false).setCtx k { x with expect := h.1 }
    (s.releaseRun k x.held.length).ctxTimer k true
  | none => s

end Sys2Proof.Machine
end

