-- ==== Sys2Proof/Machine/Ingress.lean ====
section
/-!
DEFINITION. The ingress pipeline (R138 to R155, R43, R48, R189, R218, R232) and the frames the device itself
produces: request and response frames of local sources, and CTRL frames addressed to the peer of one port.
-/

namespace Sys2Proof.Machine

/-- What the header check of R147 finds for a frame with a fabric header; none when every check passes. -/
def State.hdrCheck (s : State) (f : Frame) (p : Parsed) (off : Nat) : Option FwdStat :=
  let h := p.hdr
  let flock := decide (f.port < 1024) && s.role (f.port / 8) == 1
  if bits h 0 16 ≠ hdrCrc h then some .hdrBad
  else if hVersion h ≠ 1 then some .hdrBad
  else if hLen h ≠ f.bytes.length - (off + 32) then some .hdrBad
  else if flock && hPasture h != bits (s.row O.FWD_PORTCFG f.port) 0 12 then some .pastureMismatch
  else if hDstDev h = s.own ∧ (opReserved (hOp h) ∨ (hOp h ≠ 0 ∧ bits (hDstPort h) 4 6 ≠ 0)) then some .opReserved
  else none

/-- A frame is dropped by the forwarding path of its die; a local producer learns the status (R169, R183). -/
def State.fwdDrop (s : State) (die : Nat) (f : Frame) (c : FwdStat) : State :=
  let s := s.fwdCount die c
  if 1024 ≤ f.port then
    match c with
    | .staleEpoch => s.emit (.producer (f.port - 1024) 5)
    | .unreachable => s.emit (.producer (f.port - 1024) 4)
    | _ => s
  else s

/-- Cells of a block's pen held by lossless priorities, and cells set aside for them (R129). -/
def State.lossyRoom (s : State) (b : Nat) : Nat :=
  let aside := (List.range 64).foldl (fun a i =>
    let r := s.row O.PFC_CFG (64 * b + i)
    if pfcEnabled r && s.isFlockPort (8 * b + i / 8) then a + pfcXoff r + pfcHeadroom r else a) 0
  let used := (List.range 64).foldl (fun a i => a + TMap.get 0 s.fold.penPrio (64 * b + i)) 0
  (1024 - aside) - (TMap.get 0 s.fold.penUsed b - used)

/-- The frame enters its pen (R63, R66, R128), or its landing on a reach block (R67), or is dropped there. A local source
that is full takes its frames, which are lossless, in order as it has room again (R65, R66). -/
def State.penEnter (s : State) (i : Nat) (f : Frame) (dests : List Nat) : State :=
  let n := f.cells
  if 128 ≤ i then
    if (s.backlog i).isEmpty && s.sourceRoom i n then s.enqueue i f dests
    else s.setBacklog i (s.backlog i ++ [(f, dests)])
  else if s.isLink i then s.enqueue i f dests
  else if f.lossless then
    let r := s.row O.PFC_CFG (8 * f.port + f.prio)
    if pfcXoff r + pfcHeadroom r ≤ TMap.get 0 s.fold.penPrio (8 * f.port + f.prio) then
      (s.count O.PFC_HEADROOM_DROPS 0 1).raise O.EGR_ERR 0
    else (s.enqueue i f dests).pfcUpdate f.port f.prio
  else if s.lossyRoom i < n then (s.count O.FOLD_LOSSY_DROPS 0 1).tally 0x0301 i
  else s.enqueue i f dests

/-- Source learning of a frame (R158, R160): answers the state and whether the frame is to be dropped. -/
def State.learnFrom (s : State) (die : Nat) (f : Frame) (p : Parsed) : State × Bool :=
  let flock := decide (f.port < 1024) && s.role (f.port / 8) == 1
  let cfg := s.row O.FWD_PORTCFG f.port
  if flock then
    let e? := match p.fab with
      | none => some (heftEntry p.smac f.pasture 0 0 s.own f.port)
      | some off => if hOp p.hdr = 0x70 then some (heftEntry (beAt f.bytes (off + 32) 4) f.pasture 1 0 s.own f.port) else none
    match e? with
    | none => (s, false)
    | some e =>
      if bits cfg 40 20 = 0 then (s, false)
      else if s.overLimit die e f.port then (s.fwdCount die .limitHit, !cfg.testBit 60)
      else (s.learnRequest die e f.port, false)
  else if f.fab && decide (f.port < 1024) && hOp p.hdr == 0 then
    (s.learnRequest die (heftEntry (beAt f.bytes 38 6) f.pasture 0 0 (hSrcDev p.hdr) (hSrcPort p.hdr)) 1024, false)
  else (s, false)

/-- The fabric header of a frame arriving from a flock port: src_dev, src_port and epoch are filled in (R48, R146). -/
def State.flockHdr (s : State) (f : Frame) (p : Parsed) : Frame × Parsed :=
  match p.fab with
  | some off =>
    let e := bits (s.row O.ROUTE_PASTURE f.pasture) 32 1
    let h := hdrFix (setBits (setBits (setBits p.hdr 151 9 s.own) 141 10 f.port) 236 1 e)
    (f.setHdr off h, { p with hdr := h })
  | none => (f, p)

/-- A destination that is the local sink of a fenced or gated paddock, which drops its frames (R482, R593). -/
def State.sinkFenced (s : State) (d : Nat) : Bool :=
  decide (1024 ≤ d) && ((s.ob O.FENCE_PADDOCKS).testBit (d - 1024) || s.paddockGated (d - 1024))

/-- What becomes of a frame that the ACL redirects to device port `d` (R153): dropped if that port is not up. -/
def State.redirectFate (s : State) (d : Nat) : Fate :=
  if s.portState d = 6 then .go [d] false false else .drop .unreachable

/-- A redirected frame: on a Fold link one without a fabric header gains one for the link's peer (R149). -/
def State.redirected (s : State) (f : Frame) (p : Parsed) (d : Nat) : Frame :=
  let e := bits (s.row O.ROUTE_PASTURE f.pasture) 32 1
  let h := mkHdr f.pasture f.vc e 0 0 (s.peer (d / 8)) 0 s.own f.port f.bytes.length
  if p.fab.isNone && s.isLink (d / 8) then { f with out := h } else f

/-- The credits of a Fold link frame that goes no further than the pipeline return to its sender (R200). -/
def State.refund (s : State) (f : Frame) : State :=
  match f.credit with
  | some (b, space) => s.creditDue b space f.cells
  | none => s

/-- An ACL row whose fleece action is set has matched a frame (R152): a capture of it at the ingress point has cause 0x10 and
the row (R564), while the ring is on and takes that cause. -/
def State.aclFleece (s : State) (row : Nat) (f : Frame) : State :=
  if s.ob O.FLEECE_SIZE = 0 ∨ !(s.ob O.FLEECE_TRIG).testBit 0x10 then s
  else { s with obsv := { s.obsv with aclHits := s.obsv.aclHits ++ [(f.port, row, f.bytes)] } }

/-- Steps 3 to 7 of R141 for a frame whose checks have passed: class, ACL, lookup, learning, pen. What the lookup drops is
counted there, whatever learning says of it. -/
def State.classify (s : State) (i die : Nat) (f : Frame) (p : Parsed) : State :=
  let flock := decide (f.port < 1024) && s.role (f.port / 8) == 1
  let arrival := f.port
  -- ACL (R152, R153)
  let hit := if flock || decide (1024 ≤ f.port) then s.aclSearch arrival f.pasture p else none
  let s := match hit with
    | some x => (s.count O.ACL_HITS x.1 1).tally 0x0703 die
    | none => s
  let act := match hit with | some x => x.2 | none => 0
  let s := if act.testBit 653 then s.aclFleece (hit.map (·.1) |>.getD 0) f else s
  if bits act 640 2 = 1 then s.fwdDrop die f .aclDeny
  else
    let arrived := f
    let f := if act.testBit 654 && p.fab.isNone then { f with cls := bits act 655 3 } else f
    let f := if act.testBit 658 && (s.ob O.FEAT_ACCEPT).testBit 15 then
        { f with launch := some (launchTime f.rx (bits act 661 32)), launchQ := bits act 659 2 } else f
    let f := if p.fab.isNone then { f with vc := s.encVc f.cls } else f
    let s := if act.testBit 652 then s.copyToCores f else s
    -- lookup (R154), or the redirect (R153)
    let r := if bits act 640 2 = 2 then
        (s, s.redirectFate (bits act 642 10), s.redirected f p (bits act 642 10))
      else s.lookup die f p
    let s := r.1
    let f := r.2.2
    let l := s.learnFrom die f p
    let s := l.1
    match r.2.1 with
    | .drop c => (s.fwdDrop die f c).refund arrived
    | .discard => s.refund arrived
    | .go dsts rt ut =>
      let dests := dsts.filter (fun d => !s.sinkFenced d)
      if l.2 || dsts.isEmpty then s.refund arrived
      else if dests.isEmpty then (s.fwdDrop die f .unreachable).refund arrived
      else
        let s := dests.foldl (fun s d => if s.launchIgnored f d then s.vcCount 2 none else s) s
        s.penEnter i { f with routed := rt, uturn := ut, joint := p.fab.isSome && opMulti (hOp p.hdr) } dests

/-- Whether device port `port` exists: block b in a port role and sub-port s of its split (R8); a Fold link block has port
b.0 alone. -/
def State.portExists (s : State) (port : Nat) : Bool :=
  (s.isLink (port / 8) && port % 8 == 0) || s.isFlockPort port

/-- A whole frame reaches the ingress pipeline of port `port` (R141): `bytes` without preamble and FCS, `credit` the
space it was charged to on a Fold link. -/
def State.ingress (s : State) (port : Nat) (bytes : List Byte) (fcsOk : Bool) (credit : Option (Nat × Nat)) : State :=
  let b := port / 8
  let die := b / 32
  let link := s.isLink b
  let len := if link then bytes.length else bytes.length + 4
  let refund := fun (s : State) => match credit with
    | some (cb, space) => s.creditDue cb space (cellsOf bytes.length)
    | none => s
  if !fcsOk then refund ((s.portCount b 2 1).tally 0x0104 port)
  else if len < (if link then 32 else 64) then refund (((s.portCount b 7 1).portErr b 7).tally 0x0105 port)
  else if (if link then 16896 else s.bob b O.PORT_MAX_FRAME) < len then refund (((s.portCount b 8 1).portErr b 7).tally 0x0105 port)
  else
    let s := (s.tally 0x0100 port).tally 0x0101 port bytes.length
    let f0 : Frame := { bytes := bytes, fab := link, port := port, rx := time112 s.time.dev, credit := credit
                        etype := s.ob O.FWD_ETHERTYPE }
    let p := parseFrame f0.etype f0
    let portPasture := bits (s.row O.FWD_PORTCFG port) 0 12
    let prio := if p.tags = 0 then bits (s.row O.FWD_PORTCFG port) 12 3 else p.pcp
    let lossless := link || pfcEnabled (s.row O.PFC_CFG (8 * port + prio))
    let f1 := { f0 with prio := prio, lossless := lossless
                        pasture := if link then hPasture p.hdr else portPasture }
    -- PAUSE and PFC frames (R125, R126)
    if !link ∧ p.etype = 0x8808 then s.count O.PFC_PAUSE_IGNORED 0 1
    else if !lossless ∧ 256 ≤ (s.block b).fifo then s.fwdCount die .parseDrops
    else match p.fab with
      | some off =>
        match s.hdrCheck f1 p off with
        | some c => refund ((s.fwdCount die c).raise O.FWD_ERR 0 0 7 die 0)
        | none =>
          let x := if link then (f1, p) else s.flockHdr f1 p
          let h := x.2.hdr
          let cls := if link then s.vcClass (hVc h) else s.flockClass port p
          let vcOk := match vcOfOp (hOp h) with
            | some v => v == hVc h
            | none => opReserved (hOp h) || if link then hVc h == 3 || hVc h == 4 else hVc h == s.encVc cls
          if !vcOk then refund (s.vcCount 0 (some 0))
          else if s.role b = 4 ∧ hDstDev h ≠ s.own then
            refund ((s.fwdCount die .unreachable).vcCount 9 (some 2))
          else if !lossless ∧ s.row O.ROUTE_HOLD portPasture ≠ 0 then s.vcCount 6 none
          else s.classify b die { x.1 with cls := cls, vc := hVc h, poison := (hFlags h).testBit 0 } x.2
      | none =>
        if !lossless ∧ s.row O.ROUTE_HOLD portPasture ≠ 0 then s.vcCount 6 none
        else s.classify b die { f1 with cls := s.flockClass port p } p

/-! ### Frames the device produces -/

/-- A local source's frame with the header given enters the pipeline of its paddock (R65, R151); a fenced or gated
paddock's source drops it (R482, R593). -/
def State.issue (s : State) (paddock : Nat) (hdr : Nat) (payload : List Byte) : State :=
  let f : Frame := { bytes := beBytes 32 hdr ++ payload, fab := true, port := 1024 + paddock
                     cls := s.vcClass (hVc hdr), pasture := hPasture hdr, rx := time112 s.time.dev
                     etype := s.ob O.FWD_ETHERTYPE
                     lossless := true, vc := hVc hdr, poison := (hFlags hdr).testBit 0 }
  if (s.ob O.FENCE_PADDOCKS).testBit paddock || s.paddockGated paddock then s.fwdDrop (paddock / 4) f .unreachable
  else s.classify (128 + paddock) (paddock / 4) f { fab := some 0, hdr := hdr }

/-- Whether producers issue no new frame with header `hdr` (R232): REQ, CUP, CDN and LOG frames of a pasture in hold or purge. -/
def State.issueHeld (s : State) (hdr : Nat) : Bool :=
  (hVc hdr == 1 || hVc hdr == 5 || hVc hdr == 6 || hVc hdr == 7) && s.row O.ROUTE_HOLD (hPasture hdr) != 0

/-- A local producer issues a frame, or keeps it while its pasture is held (R232). -/
def State.produce (s : State) (paddock : Nat) (hdr : Nat) (payload : List Byte) : State :=
  if s.issueHeld hdr then { s with fold := { s.fold with unissued := s.fold.unissued ++ [(paddock, hdr, payload)] } }
  else s.issue paddock hdr payload

/-- Pasture `p` runs again: what producers kept of it is issued in order, under its present epoch (R146, R232). -/
def State.issueKept (s : State) (p : Nat) : State :=
  let mine := fun (x : Nat × Nat × List Byte) => hPasture x.2.1 == p
  let kept := s.fold.unissued.filter mine
  let s := { s with fold := { s.fold with unissued := s.fold.unissued.filter (fun x => !mine x) } }
  kept.foldl (fun (s : State) x =>
    s.issue x.1 (hdrFix (setBits x.2.1 236 1 (bits (s.row O.ROUTE_PASTURE p) 32 1))) x.2.2) s

/-- The header of a frame this device builds for op `op` of pasture `p` (R145), its epoch the pasture's. -/
def State.ownHdr (s : State) (p op dstDev dstPort srcPort len : Nat) : Nat :=
  mkHdr p ((vcOfOp op).getD 3) (bits (s.row O.ROUTE_PASTURE p) 32 1) 0 op dstDev dstPort s.own srcPort len

/-- A local producer sends a frame of op `op` to a paddock of a device. -/
def State.send (s : State) (paddock p op dstDev dstPort : Nat) (payload : List Byte) : State :=
  s.produce paddock (s.ownHdr p op dstDev dstPort paddock payload.length) payload

/-- A CTRL frame of op `op` to the peer of block `b` (R222). -/
def State.ctrlFrame (s : State) (b op : Nat) (payload : List Byte) (tsOff : Nat) : Frame :=
  let h := hdrFix (setBits (s.ownHdr 0 op (s.peer b) 0 (8 * b) payload.length) 192 8 tsOff)
  { bytes := beBytes 32 h ++ payload, fab := true, port := 1024 + b / 8, cls := s.vcClass 0
    lossless := true, vc := 0, rx := time112 s.time.dev, etype := s.ob O.FWD_ETHERTYPE }

/-- Whether the control queue of port b.0 takes frame `f`; on a ring or reach port it is an entering one (R226, R230). -/
def State.ctrlRoom (s : State) (b : Nat) (f : Frame) : Bool :=
  s.admits (12 * (8 * b) + s.vcClass 0) 0 (f.cells + if s.entersRing f (8 * b) then 33 else 0) &&
  decide (f.cells ≤ s.plainFree (b / 32))

/-- A CTRL frame joins the control queue of port b.0, or is discarded and counted when it cannot be queued (R230). -/
def State.sendCtrl (s : State) (b op : Nat) (payload : List Byte) (tsOff : Nat := 0) : State :=
  let f := s.ctrlFrame b op payload tsOff
  let qid := 12 * (8 * b) + s.vcClass 0
  let n := f.cells
  if s.ctrlRoom b f then
    let id := s.fold.nextId
    let r := ({ s with fold := { s.fold with nextId := id + 1 } }).takeCells (b / 32) b n
    let c : Copy := { frame := f, arr := id, input := 128 + b / 8, die := b / 32, members := [qid]
                      sent := sectorsOf f.bytes.length, left := n, written := sectorsOf f.bytes.length
                      groups := r.2, stored := List.replicate n s.now, admitNs := s.now }
    ((r.1.setCopy id c).charge qid 0 n).link id
  else s.vcCount 3 (some 4)

/-- The Fold link blocks that are up or in ctrl, in block order. -/
def State.liveLinks (s : State) : List Nat :=
  (List.range 128).filter (fun b => s.isLink b && (s.portState (8 * b) == 6 || s.portState (8 * b) == 5))

end Sys2Proof.Machine
end

