-- ==== Sys2Proof/Machine/Access.lean ====
section
/-!
DEFINITION. How an access to the dictionary is judged and answered (R18, R19, R22, R23, R493 to R499, R539): roles,
responses, and the one frame that every object write of the command table goes through.
-/

namespace Sys2Proof.Machine

/-- The answer of every meaning of this model: a next state. -/
abbrev Ans := Host.Outcome State Fault Refusal

/-- Roles as numbers: 1 Obs, 2 Opr, 3 Adm (R19, R497). -/
def Role.num : Role → Nat
  | .obs => 1
  | .opr => 2
  | .adm => 3

/-- The session of row `i` (R508). -/
def State.session (s : State) (i : Nat) : Option Session := TMap.get none s.ctl.sessions i

/-- The role a path applies (R495): 1 Obs, 2 Opr, 3 Adm; 0 for a session row that is not open. -/
def State.roleOf (s : State) : Path → Nat
  | .window => 3
  | .pfMailbox => 3
  | .vfMailbox _ => 1
  | .cores => 3
  | .oxpin i => match s.session i.val with
    | some x => x.role
    | none => 0

/-- Objects that the Crook answers itself (R493). -/
def crookSet (oid : Nat) : Bool :=
  [0x0000, 0x0100, 0x0101, 0x0200, 0x0201, 0x0202, 0x0204, 0x4200, 0x4201, 0x4202, 0x4300, 0x4301].contains (oid / 256)
  || oid == O.FW_STATE || oid == O.MUSTER_CMD || oid == O.MUSTER_CMD_STATUS

/-- Whether the Crook runs: no source of power-on reset is asserted (R492, R577, R578). -/
def State.crookUp (s : State) : Bool :=
  !(s.power.sources.contains ResetSource.auxClk || s.power.sources.contains ResetSource.aonRail)

/-- Whether the object server is in a reset that is asserted, or powered down in DS4 (R493, R591). -/
def State.serverInReset (s : State) : Bool := s.power.width != 0 || s.ob O.PWR_STATE == 4

/-- What a unit of the four dies does when it is out of reset and powered; else nothing happens. -/
def live (s : State) (a : Ans) : Ans := if s.serverInReset then .next s else a

/-- What a unit that stays powered in DS4, the host interface or the Bellwether, does when it is out of reset. -/
def awake (s : State) (a : Ans) : Ans := if s.power.width ≠ 0 then .next s else a

/-- A read of a register of the dies: it reads zero in DS4 (R591). -/
def readable (s : State) (a : Ans) : Ans :=
  if s.power.width ≠ 0 then .next s else if s.ob O.PWR_STATE = 4 then .next (s.emit (.value 0)) else a

/-- Answer a dictionary access: the path's response, or nothing on the BAR0 window, whose writes are posted. -/
def State.reply (s : State) (who : Path) (status done : Nat) (data : List Byte) : State :=
  if who = .window then s else s.emit (.response who status done data)

/-- Whether a write through the BAR0 window reaches an object of this type (R23). -/
def ObjType.inSlot : ObjType → Bool
  | .time112 => false
  | .str => false
  | .blob => false
  | .table => false
  | _ => true

/-- Carry out a write or command on object `oid`: turned away when the object server is in reset (0x0D) or the role
does not suffice (0x02), else `body` acts and gives the status. A slot of a long object starts nothing (R23), and a Crook in
power-on reset answers nothing (R577). -/
def State.access (s : State) (who : Path) (oid : Nat) (body : State → State × Nat) : State :=
  match objDef oid with
  | none => s.reply who 0x01 0 []
  | some d =>
    if (who = .window ∧ !d.ty.inSlot) ∨ !s.crookUp then s
    else
      let s := if who = .window then s else s.count O.CTL_STAT 0 1
      if s.serverInReset && !crookSet oid then s.reply who 0x0D 0 []
      else if d.acc = .ro then s.reply who 0x02 0 []
      else if s.roleOf who < d.wr.num then s.reply who 0x02 0 []
      else
        let r := body s
        let s := if crookSet oid then r.1 else { r.1 with ctl := { r.1.ctl with mainAlive := true } }
        s.reply who r.2 0 []

/-- A body that always succeeds. -/
def okay (f : State → State) (s : State) : State × Nat := (f s, 0)

/-- A body rejected with 0x0A unless `c` holds. -/
def checked (c : State → Bool) (f : State → State) (s : State) : State × Nat :=
  if c s then (f s, 0) else (s, 0x0A)

end Sys2Proof.Machine
end

