-- ==== Sys2Proof/Machine/Clock.lean ====
section
/-!
DEFINITION. The passing of time: device time follows its domain (R425 to R431), the Bell number may be held (R454), and
counters of levels and cycles count on (R549).
-/

namespace Sys2Proof.Machine

/-! ### Levels and cycles (R549) -/

/-- Cycles of the 2.0 GHz switch clock in a number of ns (R270). -/
def cyclesOf (ns : Nat) : Nat := 2 * ns

/-- Cycles of the next `ns` in which queue `qid` is paused by PFC. -/
def State.pausedFor (s : State) (qid ns : Nat) : Nat :=
  match (TMap.get ({} : EQueue) s.fold.queues qid).pauseUntil with
  | some t => cyclesOf (min ns (t - s.now))
  | none => 0

/-- The VC of a stored frame. -/
def Frame.vcNow (f : Frame) : Nat := if f.fab then hVc (beAt f.bytes 0 32) else f.vc

/-- What each unit of a level or cycle event adds in `ns`, as (unit, amount). -/
def State.levels (s : State) (e ns : Nat) : List (Nat × Nat) :=
  let c := cyclesOf ns
  let one := fun (l : List Nat) => l.eraseDups.map (fun u => (u, c))
  match e with
  | 0x0001 => [(0, c)]
  | 0x0107 => (s.fold.queues.map (·.1 / 12)).eraseDups.map (fun p =>
      (p, (List.range 12).foldl (fun a i => max a (s.pausedFor (12 * p + i) ns)) 0))
  | 0x0203 => one (s.fold.queues.filterMap (fun q =>
      match q.2.frames with
      | id :: _ =>
        let f := (TMap.get ({} : Copy) s.fold.copies id).frame
        if q.1 < 12288 && s.isLink (q.1 / 96) && !s.hasCredit (q.1 / 96) f.vcNow f.cells then some (8 * (q.1 / 96) + f.vcNow) else none
      | [] => none))
  | 0x0300 => s.fold.penUsed.map (fun x => (x.1, x.2 * c))
  | 0x0400 => [0, 1, 2, 3].map (fun d => (d, s.ob (O.FOLD_NEAR_USED + d) * c))
  | 0x0502 => s.fold.queues.map (fun q => (q.1, q.2.used * c))
  | 0x0505 => s.fold.queues.map (fun q => (q.1, s.pausedFor q.1 ns))
  | 0x0900 => [(0, (s.coll.insts.filter (fun x => x.2.slot.isSome)).length * c)]
  | _ => []

/-- Events whose amounts depend on what happens inside a unit cycle by cycle: a counter of them gains a free value
(log entry 61). -/
def tallyOpen (e : Nat) : Bool :=
  [0x0602, 0x0802, 0x0803, 0x0804, 0x0B00, 0x0B01, 0x0B02, 0x0B03, 0x0D00, 0x0D01, 0x0D02, 0x0E01, 0x0E02].contains e

/-- Counters of levels and cycles count `ns` on. -/
def State.tallyTime (s : State) (ns : Nat) : State :=
  (s.tallyRows.filter (fun x => tEnable x.2 && !s.chainHigh x.1 && !s.tallyFrozen (x.1 / 512))).foldl (fun (s : State) x =>
    let e := tEvent x.2
    if tallyOpen e then
      if ns = 0 then s else s.draw.ctrAdd x.1 (Config.freeWord s.free).toNat
    else
      let k := ((s.levels e ns).map (fun l => if tallyCounts x.2 (x.1 / 512) e l.1 then l.2 else 0)).sum
      if k = 0 then s else s.ctrAdd x.1 k) s

/-! ### The passing of time (R425, R430, R431, R454) -/

/-- Domain `x`, 0 A and 1 B. -/
def State.domain (s : State) (x : Nat) : Domain := TMap.get {} s.time.domains x

/-- An object of domain `x`: those of B stand one index above A's (R458). -/
def domOid (oid x : Nat) : Nat := oid + 256 * x

/-- The state of domain `x` (R429). -/
def State.domState (s : State) (x : Nat) : Nat := s.ob (domOid O.DOM_STATE x)

/-- What a rate offset in 2^-32 ppb adds to each ns, in 2^-48 ns. -/
def rateUnits (r : Int) : Int := r * 65536 / 1000000000

/-- Domain time in 2^-48 ns: the oscillator's count with the domain's offset. -/
def State.domTime (s : State) (x : Nat) : Int := ((s.now * devUnit : Nat) : Int) + (s.domain x).off

/-- The residual of R431: the selected domain's time less device time. A free domain has no time to follow. -/
def State.residual (s : State) : Int :=
  if s.domState (s.ob O.BWTH_SEL) = 0 then 0 else s.domTime (s.ob O.BWTH_SEL) - ((s.time.dev : Nat) : Int)

/-- The most that one ns of slewing corrects, in 2^-48 ns (R431). -/
def State.slewUnits (s : State) : Int := ((s.ob O.BWTH_SLEW_PPB * 281475 : Nat) : Int)

/-- What of the residual is corrected within `ns` (R431). -/
def State.correction (s : State) (ns : Nat) : Int :=
  if s.time.frozen then 0 else max (-(ns * s.slewUnits)) (min (ns * s.slewUnits) s.residual)

/-- Device time at the start of the last tick raised, in ns. -/
def State.lastStart (s : State) : Nat := s.time.t0 + (s.time.lastBell - s.time.n0) * s.period

/-- `ns` of the oscillator pass: device time follows the selected domain at the present trim, its residual is slewed out,
and while the Bell number is held each cycle counts in ticks_held (R454). -/
def State.advance (s : State) (ns : Nat) : State :=
  let held := if s.bellAt s.devNs < s.time.lastBell then min ns (s.lastStart - s.devNs) else 0
  let step := ns * ((devUnit : Int) + s.time.trim) + s.correction ns
  let run := fun (m : TMap Domain) x => TMap.put {} m x
    { TMap.get {} m x with off := (TMap.get {} m x).off + ns * rateUnits (TMap.get {} m x).rate }
  let s := s.tallyTime ns
  let s := { s with now := s.now + ns
                    time := { s.time with dev := s.time.dev + step.toNat, domains := run (run s.time.domains 0) 1 } }
  if held = 0 then s else (s.count O.BELL_STAT 1 (cyclesOf held)).raise O.BELL_ERR 1

/-- What a step on an empty queue does (log entry 1, DESIGN CHOICE): one cell time of 2 ns (R56) passes. -/
def State.idle (s : State) : State := s.advance 2

/-- Time moves on to the moment `at` of the oscillator, if it has not passed (log entry 8). -/
def State.advanceTo (s : State) (t : Nat) : State :=
  if t ≤ s.now then s else s.advance (t - s.now)

/-- The number of ns after which device time has gained `d` (in 2^-48 ns). -/
def State.nsFor (s : State) (d : Nat) : Nat :=
  let base := (devUnit : Int) + s.time.trim
  let r := s.residual
  let m := s.slewUnits
  let slewing := base + (if r < 0 then -m else m)
  let n := ((d : Int) + slewing - 1) / slewing
  if s.time.frozen || r == 0 then (((d : Int) + base - 1) / base).toNat
  else if n * m ≤ r.natAbs then n.toNat
  else (((d : Int) - r + base - 1) / base).toNat

/-- Time moves on until device time is at least `t` (in 2^-48 ns). -/
def State.advanceDev (s : State) (t : Nat) : State :=
  if t ≤ s.time.dev then s else s.advance (s.nsFor (t - s.time.dev))

end Sys2Proof.Machine
end

