-- ==== Sys2Proof/Machine/Forwarding.lean ====
section
/-!
DEFINITION. Meanings of the forwarding and routing commands (chapters 04 and 06): the ingress pipeline, Heft, LPM,
table writes, route flips, holds, snapshots and failover.
-/

namespace Sys2Proof.Machine

/-- INGRESS_FRAME (R141). A frame taken whole by the pipeline of port `port`; `fifo` is the number of frames in the
block's parser FIFO (R140), which asserts XOFF from 192 and releases at 64. `shared` names the space a Fold link
frame was charged to. No frame comes by a port that does not exist (R8), by a fenced block (R482), or from outside by a
port in near-end loopback; one in far-end loopback sends it back (R215; DESIGN CHOICE, log entry 132). -/
def State.setFifo (s : State) (b n : Nat) : State :=
  let x := s.block b
  let off := decide (192 ≤ n) || (x.fifoXoff && decide (64 < n))
  let s := s.setBlock b { x with fifo := n, fifoXoff := off }
  if off = x.fifoXoff then s else s.pfcUpdateBlock b

def execIngressFrame (port : Fin 1024) (bytes : List Byte) (fcsOk : Bool) (fifo : Fin 257) (s : State) : Ans := live s <|
  let loop := if s.isLink (port.val / 8) then 0 else s.bob (port.val / 8) O.PORT_LOOPBACK
  if !s.portExists port.val ∨ s.blockFenced (port.val / 8) ∨ loop = 1 then .next s
  else if loop = 2 then .next (s.transmit (port.val / 8) (.eth port.val bytes (!fcsOk)))
  else .next ((s.setFifo (port.val / 8) fifo.val).ingress port.val bytes fcsOk none)

/-- REORDER_TIMEOUT (R178) of the context of `src` and `cls`: the timer is running, and its moment has come. The gap counts on
the die of the held copy nearest to E (DESIGN CHOICE, log entry 123). -/
def execReorderTimeout (src : Fin 512) (cls : Fin 8) (s : State) : Ans := live s <|
  let k := 8 * src.val + cls.val
  let x := s.ctx k
  match x.deadline with
  | some t =>
    let s := s.advanceTo t
    let die := match x.nearest with | some h => (s.copy h.2).die | none => 0
    .next (s.reorderExpire k die)
  | none => .next s

/-- HEFT_INSERT (R157): the learn request at the head of die `die`'s queue is carried out. -/
def execHeftInsert (die : Fin 4) (s : State) : Ans := live s <| .next (s.heftLearn die.val)

/-- HEFT_AGE_SWEEP (R161) of one die. -/
def execHeftAgeSweep (die : Fin 4) (s : State) : Ans := live s <| .next (s.heftSweep die.val)

/-- HEFT_AGE_SHIFT_WRITE (R161): 0 to 20; a new value restamps every dynamic entry. -/
def State.writeAgeShift (s : State) (v : Nat) : State × Nat :=
  if 20 < v then (s, 0x0A)
  else if v = s.ob O.HEFT_AGE_SHIFT then (s, 0)
  else ((s.setOb O.HEFT_AGE_SHIFT v).heftRestamp, 0)

def execHeftAgeShiftWrite (who : Path) (v : BitVec 8) (s : State) : Ans :=
  .next (s.access who O.HEFT_AGE_SHIFT (fun s => s.writeAgeShift v.toNat))

/-- HEFT_OP by opcode (R164). -/
def State.heftCmd (s : State) (who : Path) (opcode mask e : Nat) : State :=
  s.access who O.HEFT_OP (fun s => match s.heftOp opcode mask e with
    | some t => (t, 0)
    | none => (s, 0x0A))

/-- HEFT_INSERT_STATIC (R164): opcode 1. -/
def execHeftInsertStatic (who : Path) (mask : BitVec 4) (e : BitVec 128) (s : State) : Ans :=
  .next (s.heftCmd who 1 mask.toNat e.toNat)

/-- HEFT_DELETE (R164): opcode 2. -/
def execHeftDelete (who : Path) (mask : BitVec 4) (e : BitVec 128) (s : State) : Ans :=
  .next (s.heftCmd who 2 mask.toNat e.toNat)

/-- HEFT_FLUSH_PASTURE (R164): opcode 3. -/
def execHeftFlushPasture (who : Path) (mask : BitVec 4) (pasture : Fin 4096) (s : State) : Ans :=
  .next (s.heftCmd who 3 mask.toNat (pasture.val <<< 48))

/-- HEFT_FLUSH_PORT (R164): opcode 4, the device and port of the entry given. -/
def execHeftFlushPort (who : Path) (mask : BitVec 4) (dev : Fin 512) (port : Fin 1024) (s : State) : Ans :=
  .next (s.heftCmd who 4 mask.toNat (dev.val <<< 64 + port.val <<< 73))

/-- HEFT_FLUSH_ALL (R164): opcode 5. -/
def execHeftFlushAll (who : Path) (mask : BitVec 4) (s : State) : Ans :=
  .next (s.heftCmd who 5 mask.toNat 0)

/-- HEFT_STASH_RETRY (R164): opcode 6. -/
def execHeftStashRetry (who : Path) (mask : BitVec 4) (s : State) : Ans :=
  .next (s.heftCmd who 6 mask.toNat 0)

/-- HEFT_REQ_POP (R185): a read of HEFT_REQ_HI_d answers the head record's high half and removes the record. -/
def execHeftReqPop (die : Fin 4) (s : State) : Ans := readable s <|
  .next ((s.heftPop die.val).emit (.value (s.heftReq die.val).2))

/-! ### LPM_OP (R167) -/

/-- Units of the table in use (LPM_USED): one for an IPv4 prefix, two for IPv6 (R165). -/
def State.lpmUsed (s : State) : Nat :=
  (s.fwd.lpm.map (fun x => if x.1 / 2 ^ 148 = 0 then 1 else 2)).sum

/-- A prefix cut to its length, of width `w`. -/
def cutPrefix (w plen pfx : Nat) : Nat := pfx / 2 ^ (w - plen) * 2 ^ (w - plen)

/-- LPM_ADD (R167): rejected when the length is above 32 or 128 or the units would exceed 262,144. -/
def State.lpmAdd (s : State) (v6 : Bool) (plen pasture nh pfx : Nat) : State × Nat :=
  let w := if v6 then 128 else 32
  if w < plen then (s, 0x0A)
  else
    let k := lpmKey v6 plen pasture (cutPrefix w plen pfx)
    let new := if TMap.get 0 s.fwd.lpm k = 0 then (if v6 then 2 else 1) else 0
    if 262144 < s.lpmUsed + new then (s.raise O.FWD_ERR 5 0x0A, 0x0A)
    else ({ s with fwd := { s.fwd with lpm := TMap.put 0 s.fwd.lpm k (nh + 1) } }, 0)

/-- LPM_DELETE (R167): rejected when the prefix is absent. -/
def State.lpmDelete (s : State) (v6 : Bool) (plen pasture pfx : Nat) : State × Nat :=
  let w := if v6 then 128 else 32
  if w < plen then (s, 0x0A)
  else
    let k := lpmKey v6 plen pasture (cutPrefix w plen pfx)
    if TMap.get 0 s.fwd.lpm k = 0 then (s, 0x0A)
    else ({ s with fwd := { s.fwd with lpm := TMap.put 0 s.fwd.lpm k 0 } }, 0)

/-- LPM_ADD and LPM_DELETE of an IPv4 prefix take it from the first four of the sixteen prefix bytes (DESIGN CHOICE, log entry
137). -/
def execLpmAdd (who : Path) (v6 : Bool) (plen : BitVec 8) (pasture : Fin 4096) (nh : Fin 65536) (pfx : BitVec 128)
    (s : State) : Ans :=
  .next (s.access who O.LPM_OP (fun s => s.lpmAdd v6 plen.toNat pasture.val nh.val
    (if v6 then pfx.toNat else pfx.toNat / 2 ^ 96)))

def execLpmDelete (who : Path) (v6 : Bool) (plen : BitVec 8) (pasture : Fin 4096) (pfx : BitVec 128) (s : State) : Ans :=
  .next (s.access who O.LPM_OP (fun s => s.lpmDelete v6 plen.toNat pasture.val
    (if v6 then pfx.toNat else pfx.toNat / 2 ^ 96)))

/-! ### Table writes (R170, R172, R181, R236) -/

/-- Whether a live bank of an enabled or disabled pasture names profile `n` (R170). -/
def State.profileLive (s : State) (n : Nat) : Bool :=
  (s.rowsOf O.ROUTE_PASTURE).any (fun x =>
    (x.2.testBit 33 && bits x.2 0 10 == n) || (x.2.testBit 34 && bits x.2 16 10 == n))

/-- The rules of the forwarding tables for a new row value; reserved bits are not kept (R15). -/
def State.fwdRowOk (s : State) (oid row v : Nat) : Bool :=
  if oid = O.ACL_TABLE then bits v 640 2 != 3
  else if oid = O.ROUTE_PROFILE then !s.profileLive (row / 512)
  else if oid = O.ROUTE_GROUP then decide (bits v 16 7 ≤ 64 ∧ bits v 0 16 + bits v 16 7 ≤ 65536)
  else true

/-- The bits of a row that are not reserved (R15). -/
def fwdRowMask (oid : Nat) : Nat :=
  if oid = O.LPM_NEXTHOP then (2 ^ 61 - 1) + (2 ^ 19 - 1) <<< 64
  else if oid = O.ACL_TABLE then (2 ^ 126 - 1) + (2 ^ 128 - 1) <<< 128 + (2 ^ 375 - 1) <<< 320
  else if oid = O.ROUTE_PROFILE then 0x1FFF + 0x3FF <<< 16 + 1 <<< 28
  else if oid = O.ROUTE_PASTURE then 0x3FF + 0x3FF <<< 16 + 0xF <<< 32
  else if oid = O.ROUTE_GROUP then 0x7FFFFF
  else if oid = O.ROUTE_MEMBER then 0x3FF
  else 2 ^ 2048 - 1

/-- Write a row of an LPM, next-hop, ACL, route, group or member table: applied to all four dies (R181). -/
def State.fwdRowWrite (s : State) (oid row v : Nat) : State × Nat :=
  match objDef oid with
  | some d =>
    if d.rows ≤ row then (s, 0x01)
    else if s.fwdRowOk oid row v then (s.setRow oid row (v % 2 ^ (8 * d.size) &&& fwdRowMask oid), 0)
    else (s, 0x0A)
  | none => (s, 0x01)

/-- The tables of FORWARDING_TABLE_WRITE. -/
def fwdTableOid (t : Fin 6) : Nat :=
  match t.val with
  | 0 => O.LPM_NEXTHOP
  | 1 => O.ACL_TABLE
  | 2 => O.ROUTE_PASTURE
  | 3 => O.ROUTE_PROFILE
  | 4 => O.ROUTE_GROUP
  | _ => O.ROUTE_MEMBER

/-- FORWARDING_TABLE_WRITE (R181) of one row: 0 next hop, 1 ACL, 2 route pasture, 3 route profile entry, 4 group,
5 member. -/
def execForwardingTableWrite (who : Path) (table : Fin 6) (row : Nat) (v : BitVec 768) (s : State) : Ans :=
  .next (s.access who (fwdTableOid table) (fun s => s.fwdRowWrite (fwdTableOid table) row v.toNat))

/-! ### Flips, holds and snapshots (R170, R232 to R239) -/

/-- Whether a profile holds a valid entry (R170). -/
def State.profileUsed (s : State) (n : Nat) : Bool :=
  (s.rowsOf O.ROUTE_PROFILE).any (fun x => x.1 / 512 == n && (x.2.testBit 12 || x.2.testBit 28))

/-- The profile of the bank that is not current of pasture `p`. -/
def State.otherProfile (s : State) (p : Nat) : Nat :=
  let r := s.row O.ROUTE_PASTURE p
  if r.testBit 32 then bits r 0 10 else bits r 16 10

/-- ROUTE_FLIP (R170): rejected when its tick has begun, a flip is pending, or the new bank is empty. A Bell number
of 0 in the map of pending flips cannot occur, since tick 0 has always begun. -/
def State.routeFlip (s : State) (p n48 : Nat) : State × Nat :=
  let b := s.bellOf48 n48
  if b ≤ s.bell ∨ TMap.get 0 s.fwd.flips p ≠ 0 ∨ !s.profileUsed (s.otherProfile p) then (s, 0x0A)
  else ({ s with fwd := { s.fwd with flips := TMap.put 0 s.fwd.flips p b } }, 0)

def execRouteFlip (who : Path) (pasture : Fin 4096) (bell : BitVec 48) (s : State) : Ans :=
  .next (s.access who O.ROUTE_FLIP (fun s => s.routeFlip pasture.val bell.toNat))

/-- The flip of pasture `p` takes effect on every die: epoch to the other bank, that bank live, the old not. -/
def State.flipApply (s : State) (p : Nat) : State :=
  let r := s.row O.ROUTE_PASTURE p
  let e := 1 - bits r 32 1
  let r := setBits (setBits r 32 1 e) 33 2 (if e = 0 then 1 else 2)
  { s.setRow O.ROUTE_PASTURE p r with fwd := { s.fwd with flips := TMap.put 0 s.fwd.flips p 0 } }

/-- ROUTE_FLIP_APPLY (R170): at the start of the tick named, for one pasture; nothing without a pending flip. -/
def execRouteFlipApply (pasture : Fin 4096) (s : State) : Ans := live s <|
  if TMap.get 0 s.fwd.flips pasture.val = 0 then .next s
  else if s.bell < TMap.get 0 s.fwd.flips pasture.val then .next s
  else .next (s.flipApply pasture.val)

/-- ROUTE_FLIP_CANCEL (R235): rejected when no flip is pending or its tick has begun. -/
def State.flipCancel (s : State) (p : Nat) : State × Nat :=
  let b := TMap.get 0 s.fwd.flips p
  if b = 0 ∨ b ≤ s.bell then (s, 0x0A)
  else ({ s with fwd := { s.fwd with flips := TMap.put 0 s.fwd.flips p 0 } }, 0)

def execRouteFlipCancel (who : Path) (pasture : Fin 4096) (s : State) : Ans :=
  .next (s.access who O.ROUTE_FLIP_CANCEL (fun s => s.flipCancel pasture.val))

/-- The flock ports of a pasture. -/
def State.pasturePorts (s : State) (p : Nat) : List Nat :=
  (List.range 1024).filter (fun port => s.isFlockPort port && bits (s.row O.FWD_PORTCFG port) 0 12 == p)

/-- A write of ROUTE_HOLD row `p` (R232): 0 run, 1 hold, 2 purge; XOFF follows on the pasture's flock ports, and a run issues what
producers have kept. Purge
sets bit 5 of VC_ERR when it is used (R241). -/
def State.holdWrite (s : State) (p v : Nat) : State × Nat :=
  if 2 < v then (s, 0x0A)
  else
    let s := s.setRow O.ROUTE_HOLD p v
    let s := (s.pasturePorts p).foldl (fun s port => (List.range 8).foldl (fun s i => s.pfcUpdate port i) s) s
    (if v = 0 then s.issueKept p else s, 0)

def execRouteHoldWrite (who : Path) (pasture : Fin 4096) (v : BitVec 8) (s : State) : Ans :=
  .next (s.access who O.ROUTE_HOLD (fun s => s.holdWrite pasture.val v.toNat))

/-- ROUTE_SNAP (R234): clears valid, replaces a pending snapshot; rejected when its tick has begun. -/
def State.routeSnap (s : State) (p n48 : Nat) : State × Nat :=
  let b := s.bellOf48 n48
  if b ≤ s.bell then (s, 0x0A)
  else
    let s := s.setRow O.ROUTE_SNAP_RES p (setBits (s.row O.ROUTE_SNAP_RES p) 48 1 0)
    ({ s with fwd := { s.fwd with snaps := TMap.put 0 s.fwd.snaps p b } }, 0)

def execRouteSnap (who : Path) (pasture : Fin 4096) (bell : BitVec 48) (s : State) : Ans :=
  .next (s.access who O.ROUTE_SNAP (fun s => s.routeSnap pasture.val bell.toNat))

/-- Frames of pasture `p` in replay buffers: those whose last flit is not acked (R234). -/
def State.replayFrames (s : State) (p : Nat) : Nat :=
  (s.blocks.map (fun x => (x.2.replay.filter (fun f => f.ends == some p)).length)).sum

/-- in_device of a pasture (R234): frames in pens, landings, queues and reorder contexts, one for each arrival, those that
wait for a local source, and frames in replay buffers. -/
def State.inDevice (s : State) (p : Nat) : Nat :=
  ((s.fold.copies.filter (fun x => x.2.frame.pasture == p)).map (fun x => x.2.arr)).eraseDups.length +
  (s.fold.backlog.map (fun x => (x.2.filter (fun f => f.1.pasture == p)).length)).sum + s.replayFrames p

/-- The snapshot of pasture `p` is taken at Bell number `b`. -/
def State.snapTake (s : State) (p b : Nat) : State :=
  let held := b2n (s.row O.ROUTE_HOLD p != 0)
  let s' := s.setRow O.ROUTE_SNAP_RES p (b % 2 ^ 48 + 1 <<< 48 + held <<< 49 + (min (s.inDevice p) 0xFFFFFFFF) <<< 64)
  { s' with fwd := { s'.fwd with snaps := TMap.put 0 s'.fwd.snaps p 0 } }

/-- ROUTE_SNAP_TAKE (R234): at the tick named, for one pasture; nothing without a pending snapshot. -/
def execRouteSnapTake (pasture : Fin 4096) (s : State) : Ans := live s <|
  let b := TMap.get 0 s.fwd.snaps pasture.val
  if b = 0 ∨ s.bell < b then .next s else .next (s.snapTake pasture.val b)

/-- ROUTE_FAILOVER_CLEAR (R239): a write of ROUTE_FAILOVER_ACT clears the bits written 1. -/
def execRouteFailoverClear (who : Path) (v : BitVec 32) (s : State) : Ans :=
  .next (s.access who O.ROUTE_FAILOVER_ACT
    (okay (fun s => s.setOb O.ROUTE_FAILOVER_ACT (s.ob O.ROUTE_FAILOVER_ACT &&& (63 - v.toNat % 64)))))

end Sys2Proof.Machine
end

