-- ==== Sys2Proof/Machine/Translate.lean ====
section
/-!
DEFINITION. HBM physical addresses, the layout of a stack, and the translation of Common addresses (R386 to R400).
-/

namespace Sys2Proof.Machine

/-! ### The layout of HBM (R389, R390) -/

/-- 80 GiB. -/
abbrev stackBytes : Nat := 80 * 2 ^ 30

/-- The stack of an HPA, and its offset there. -/
def hpaStack (a : Nat) : Nat := a / 2 ^ 37
def hpaOff (a : Nat) : Nat := a % 2 ^ 37

/-- Whether the `n` bytes from HPA `a` exist (R389). -/
def hpaExists (a n : Nat) : Bool :=
  decide (a + n ≤ 2 ^ 41) && decide (hpaOff a + n ≤ stackBytes)

/-- In-stack base of the Common pool: what stands above the system area, the Criotte reservation, the far fold with
its sideband, and the log (R390). -/
def State.poolBase (s : State) : Nat :=
  let far := s.ob O.FOLD_FAR_SIZE_EFF * 2 ^ 30 / 16
  2 ^ 30 + s.common.resvGib * 2 ^ 30 + far + far * 3 / 32 + s.muster.logMib * 2 ^ 20

/-- A row of COMMON_POOL. -/
def State.poolRow (s : State) : Nat := s.poolBase + (stackBytes - s.poolBase) <<< 64

/-- Whether the `n` bytes from HPA `a` lie in the Common pool. -/
def State.inPool (s : State) (a n : Nat) : Bool := hpaExists a n && decide (s.poolBase ≤ hpaOff a)

/-- Whether stack `st` is fenced, or in self-refresh and so out of reach (R399, R591, R593). -/
def State.stackShut (s : State) (st : Nat) : Bool :=
  (s.ob O.FENCE_STACKS).testBit st || s.power.asleep.testBit st

/-! ### Walks (R392 to R394) -/

/-- A fault of a translation: status, and fault kind 1 not present, 2 permission, 3 walk error, 0 none of them. -/
structure TFault where
  status : Nat
  kind   : Nat
  deriving DecidableEq, Repr

/-- The fields of an entry (R393). -/
def pteValid (e : Nat) : Bool := e.testBit 0
def pteLeaf (e : Nat) : Bool := e.testBit 1
def pteR (e : Nat) : Bool := e.testBit 2
def pteW (e : Nat) : Bool := e.testBit 3
def pteA (e : Nat) : Bool := e.testBit 4
def pteKind (e : Nat) : Nat := bits e 5 2
def pteHold (e : Nat) : Bool := e.testBit 7
def pteLost (e : Nat) : Bool := e.testBit 8
def pteFrame (e : Nat) : Nat := bits e 16 29 * 4096

/-- An 8-byte entry at HPA `a`, or why it cannot be read: poison leaves no valid entry (log entry 31). -/
def State.readPte (s : State) (a : Nat) : Except TFault Nat :=
  if !hpaExists a 8 then .error ⟨1, 1⟩
  else if !s.inPool a 8 then .error ⟨2, 3⟩
  else if s.stackShut (hpaStack a) then .error ⟨4, 0⟩
  else if s.hbmPoisoned a 8 then .error ⟨1, 1⟩
  else .ok (leNum (s.hbmRead a 8))

/-- A leaf found by a walk: its entry, whether it maps 1 GiB, and the HPA it was read from. -/
structure Leaf where
  entry : Nat
  giant : Bool
  at_   : Nat
  deriving DecidableEq, Repr

/-- The leaf for an offset of a pasture in the own or mirror tables (R393, R394). -/
def State.walk (s : State) (mirror : Bool) (pasture off : Nat) : Except TFault Leaf :=
  let root := s.row (if mirror then O.COMMON_MIRROR_ROOT else O.COMMON_ROOT) pasture
  if !root.testBit 0 then .error ⟨1, 1⟩
  else
    let a1 := bits root 16 25 * 65536 + 8 * (off / 2 ^ 30)
    match s.readPte a1 with
    | .error f => .error f
    | .ok e1 =>
      if !pteValid e1 then .error ⟨1, 1⟩
      else if pteLeaf e1 then
        if pteKind e1 = 3 then .error ⟨1, 1⟩
        else if pteFrame e1 % 2 ^ 30 ≠ 0 then .error ⟨1, 3⟩
        else .ok ⟨e1, true, a1⟩
      else
        let a2 := pteFrame e1 + 8 * (off / 2 ^ 21 % 512)
        match s.readPte a2 with
        | .error f => .error f
        | .ok e2 =>
          if !pteValid e2 || !pteLeaf e2 || pteKind e2 == 3 then .error ⟨1, 1⟩
          else if pteFrame e2 % 2 ^ 21 ≠ 0 then .error ⟨1, 3⟩
          else .ok ⟨e2, false, a2⟩

/-! ### The TLB (R396) -/

/-- The home paddock of an offset (R387). -/
def homeOf (off : Nat) : Nat := bits off 21 4

/-- The tag of a page: pasture, table and page number. -/
def tlbTag (mirror : Bool) (pasture off : Nat) (giant : Bool) : Nat :=
  (off / (if giant then 2 ^ 30 else 2 ^ 21)) + pasture <<< 22 + b2n mirror <<< 34

/-- Look a page up in unit `u`'s TLB. -/
def State.tlbFind (s : State) (u : Nat) (mirror : Bool) (pasture off : Nat) : Option (Nat × Bool) :=
  match (TMap.get [] s.common.tlb2 u).find? (fun e => e.1 == tlbTag mirror pasture off false) with
  | some e => some (e.2, false)
  | none => match (TMap.get [] s.common.tlb1 u).find? (fun e => e.1 == tlbTag mirror pasture off true) with
    | some e => some (e.2, true)
    | none => none

/-- Move or add an entry to the front of unit `u`'s TLB, the least recently used dropped (R396). -/
def State.tlbUse (s : State) (u : Nat) (mirror : Bool) (pasture off entry : Nat) (giant : Bool) : State :=
  let tag := tlbTag mirror pasture off giant
  let put := fun (m : TMap (List (Nat × Nat))) (cap : Nat) =>
    TMap.put [] m u (((tag, entry) :: (TMap.get [] m u).filter (fun e => e.1 != tag)).take cap)
  if giant then { s with common := { s.common with tlb1 := put s.common.tlb1 128 } }
  else { s with common := { s.common with tlb2 := put s.common.tlb2 2048 } }

/-- Whether translation unit `u` is gated or fenced: what needs it fails with 0x04 (R482, R596). -/
def State.unitShut (s : State) (u : Nat) : Bool :=
  (s.ob O.PWR_GATED_UNITS).testBit u || (s.ob O.FENCE_PADDOCKS).testBit u

/-- The leaf for an offset as its home unit has it: the cached entry, or a walk. -/
def State.leafFor (s : State) (mirror : Bool) (pasture off : Nat) : Except TFault (Nat × Bool) :=
  if s.unitShut (homeOf off) then .error ⟨4, 0⟩
  else match s.tlbFind (homeOf off) mirror pasture off with
  | some e => .ok e
  | none => match s.walk mirror pasture off with
    | .ok l => .ok (l.entry, l.giant)
    | .error f => .error f

/-- What a range of pages covers, for an invalidation (R398): tags of a pasture or of all, of one table. -/
def Inval.hits (v : Inval) (giant : Bool) (tag : Nat) : Bool :=
  let size := if giant then 2 ^ 30 else 2 ^ 21
  let lo := bits tag 0 22 * size
  (v.all || bits tag 22 12 == v.pasture) && (tag.testBit 34 == v.mirror) && decide (lo < v.hi) && decide (v.lo < lo + size)

/-- Whether an invalidation covers the page of an offset, as its unit has the page now (R398). -/
def State.invalHits (s : State) (v : Inval) (mirror : Bool) (pasture off : Nat) : Bool :=
  let giant := match s.leafFor mirror pasture off with | .ok e => e.2 | .error _ => false
  v.hits false (tlbTag mirror pasture off false) || (giant && v.hits true (tlbTag mirror pasture off true))

/-- Drop the entries that an invalidation covers from every unit. -/
def State.tlbDrop (s : State) (v : Inval) : State :=
  let cut := fun (m : TMap (List (Nat × Nat))) giant =>
    (List.range 16).foldl (fun m u => TMap.put [] m u ((TMap.get [] m u).filter (fun e => !v.hits giant e.1))) m
  { s with common := { s.common with tlb2 := cut s.common.tlb2 false, tlb1 := cut s.common.tlb1 true } }

/-! ### Checks on a leaf (R399) -/

/-- The right an access needs: 0 read, 1 write, 2 atomic. -/
def pteRight (e right : Nat) : Bool :=
  match right with
  | 0 => pteR e
  | 1 => pteW e
  | _ => pteA e

/-- The HPA of an offset under a leaf. -/
def pteHpa (e : Nat) (giant : Bool) (off : Nat) : Nat := pteFrame e + off % (if giant then 2 ^ 30 else 2 ^ 21)

/-- Permission and stack of an access of `n` bytes at offset `off` under a leaf, and that it stays in the Common pool
(R392). -/
def State.checkLeaf (s : State) (e : Nat) (giant : Bool) (off n right : Nat) : Except TFault Nat :=
  let a := pteHpa e giant off
  if !hpaExists a n then .error ⟨1, 1⟩
  else if !s.inPool a n then .error ⟨2, 3⟩
  else if !pteRight e right then .error ⟨2, 2⟩
  else if s.stackShut (hpaStack a) then .error ⟨4, 0⟩
  else .ok a

/-- Whether a page waits for a resync copy, which holds its requests without the leaf's hold bit (R408). -/
def State.resyncHolds (s : State) (pasture off : Nat) (mirror : Bool) : Bool :=
  !mirror && s.common.copying.isSome && (match s.common.resync with
    | (p, o :: _) :: _ =>
      let size := match s.walk false p o with | .ok l => if l.giant then 2 ^ 30 else 2 ^ 21 | .error _ => 2 ^ 21
      p == pasture && off / size == o / size
    | _ => false)

/-- A piece of an access: HPA, bytes, and the Common pasture and offset it was translated from. -/
structure Piece where
  hpa    : Nat
  len    : Nat
  common : Option (Nat × Nat)
  deriving DecidableEq, Repr

/-- Where an access fails: status, fault kind, and the address or offset of its first faulting byte. -/
structure AFault where
  status : Nat
  kind   : Nat
  off    : Nat
  deriving DecidableEq, Repr

/-- Cut `n` bytes at Common offset `off` into pieces that cross no 2 MiB boundary, each translated for `right`; a held
page is not present to the Drove (R400). -/
def State.findCommon (s : State) (pasture right : Nat) : Nat → Nat → Nat → Except AFault (List Piece)
  | 0, _, _ => .ok []
  | fuel + 1, off, n =>
    if n = 0 then .ok []
    else if 2 ^ 43 ≤ off then .error ⟨2, 2, off % 2 ^ 43⟩
    else
      let k := min n (2 ^ 21 - off % 2 ^ 21)
      match s.leafFor false pasture off with
      | .error f => .error ⟨f.status, f.kind, off⟩
      | .ok e =>
        match s.checkLeaf e.1 e.2 off k right with
        | .error f => .error ⟨f.status, f.kind, off⟩
        | .ok a =>
          if pteHold e.1 || s.resyncHolds pasture off false then .error ⟨1, 1, off⟩
          else match s.findCommon pasture right fuel (off + k) (n - k) with
            | .error f => .error f
            | .ok l => .ok (⟨a, k, some (pasture, off)⟩ :: l)

/-- The pieces of an HPA access: one on each stack it touches. -/
def State.findHpa (s : State) (a n : Nat) : Except AFault (List Piece) :=
  if n = 0 then .ok []
  else if !hpaExists a n then .error ⟨1, 1, a⟩
  else if s.stackShut (hpaStack a) then .error ⟨4, 0, a⟩
  else .ok [⟨a, n, none⟩]

/-- The pieces of an access to a Common address by a Drove operation or DMA of pasture `p` (R386, R399). -/
def State.findAddr (s : State) (p addr n right : Nat) : Except AFault (List Piece) :=
  if n = 0 then .ok []
  else if bits addr 43 9 ≠ s.own ∨ bits addr 52 12 ≠ p then .error ⟨2, 2, bits addr 0 43⟩
  else s.findCommon p right (n / 2 ^ 21 + 2) (bits addr 0 43) n

/-! ### Poison-aware HBM access -/

/-- The `n` bytes at HPA `a` with their poison marks, those of the units in `ue` read in error included (R300). -/
def State.hbmReadP (s : State) (ue : List Nat) (a n : Nat) : PBytes :=
  (List.range n).map (fun i =>
    (TMap.get 0 s.hbm (a + i), s.poison.contains ((a + i) / 64) || ue.contains ((a + i) / 64)))

/-- Write bytes with their marks to HPA `a`: a unit that takes a poisoned byte is marked (R332). -/
def State.hbmWriteP (s : State) (a : Nat) (l : PBytes) : State :=
  let s1 := s.hbmWrite a (l.map (·.1))
  { s1 with poison := l.zipIdx.foldl (fun p b => if b.1.2 then p.add ((a + b.2) / 64) else p) s1.poison }

/-! ### Faults (R417) -/

/-- Count a walk error and raise the Common's error bit for a fault (R421). -/
def State.commonFaultBits (s : State) (f : TFault) : State :=
  let s := if f.kind = 3 then (s.count O.COMMON_STAT 2 1).raise O.COMMON_ERR 2 f.status else s
  if f.kind = 1 then s.raise O.COMMON_ERR 0 f.status
  else if f.kind = 2 then s.raise O.COMMON_ERR 1 f.status
  else s

/-- Queue a fault record and raise the Common fault event; a record that finds the queue full is lost and counted
(R417, R423). -/
def State.faultRecord (s : State) (unit addr src op kind : Nat) (mirror : Bool) : State :=
  if kind = 0 then s
  else if 1024 ≤ s.common.faults.length then (s.count O.COMMON_STAT 10 1).raise O.COMMON_ERR 6
  else
    let hi := src % 512 + (op % 256) <<< 9 + kind <<< 17 + b2n mirror <<< 19
    let s := { s with common := { s.common with faults := s.common.faults ++ [(addr, hi)] } }
    s.event [0] 0x03 unit s.common.faults.length

/-- A Common address of this device. -/
def State.commonAddr (s : State) (pasture off : Nat) : Nat := pasture <<< 52 + s.own <<< 43 + off % 2 ^ 43

end Sys2Proof.Machine
end

