-- ==== Sys2Proof/Machine/DroveDesc.lean ====
section
/-!
DEFINITION. The Drove descriptor (R320, R321), the opcode table (R323) and the checks of admission (R334, R335).
-/

namespace Sys2Proof.Machine

/-! ### Fields (R320, R321) -/

def dOpcode (d : Nat) : Nat := bits d 0 8
def dRmode (d : Nat) : Nat := bits d 8 3
def dOrd (d : Nat) : Bool := d.testBit 11
def dRemote (d : Nat) : Bool := d.testBit 12
def dBatchable (d : Nat) : Bool := d.testBit 13
def dIrq (d : Nat) : Bool := d.testBit 14
def dWindow (d : Nat) : Nat := bits d 16 7
def dRdev (d : Nat) : Nat := bits d 24 9
def dRpaddock (d : Nat) : Nat := bits d 33 4
def dResident (d : Nat) : Nat := bits d 37 11
def dN (d : Nat) : Nat := bits d 64 32
def dSpillCap (d : Nat) : Nat := bits d 96 32
def dTag (d : Nat) : Nat := bits d 128 64
def dSaveOff (d : Nat) : Nat := bits d 192 40
def dSaveKib (d : Nat) : Nat := bits d 232 24
def dP0 (d : Nat) : Nat := bits d 256 64
def dP1 (d : Nat) : Nat := bits d 320 64
def dDeadline (d : Nat) : Nat := bits d 384 48
def dSpillAddr (d : Nat) : Nat := bits d 448 64

/-- Operand slots A to D, 0 to 3. -/
def dSlot (d i : Nat) : Nat := bits d (512 + 128 * i) 128
def oAddr (o : Nat) : Nat := bits o 0 64
def oCount (o : Nat) : Nat := bits o 64 32
def oFormat (o : Nat) : Nat := bits o 96 5
def oSpace (o : Nat) : Nat := bits o 101 2
def oUsed (o : Nat) : Bool := o.testBit 103
def oScale (o : Nat) : Int := sint 9 (bits o 104 9)

/-! ### The opcode table (R323) -/

/-- The operation group of an opcode (R310, R323). -/
def opGroup (opcode : Nat) (ord : Bool) : Nat :=
  match opcode with
  | 0x01 => 1
  | 0x02 => if ord then 3 else 2
  | 0x03 => 4
  | 0x04 => 4
  | 0x05 => 5
  | 0x06 => 6
  | 0x07 => 7
  | 0x08 => 8
  | 0x09 => 9
  | 0x0A => 9
  | 0x0B => 9
  | 0x0C => 10
  | 0x0D => 11
  | 0x0E => 11
  | 0x0F => 12
  | _ => 0

/-- The smallest window of a descriptor (R323). -/
def minWindow (d : Nat) : Nat :=
  match dOpcode d with
  | 0x05 => 0
  | 0x08 => (bits (dP0 d) 0 16 + 2 + 255) / 256
  | 0x09 => 0
  | 0x0A => 0
  | 0x0B => 0
  | 0x0C => 0
  | 0x0D => 0
  | 0x0F => 0
  | _ => 1

/-- The minimum resident region in KiB (R323). -/
def minResident (opcode : Nat) : Nat :=
  match opcode with
  | 0x09 => 64
  | 0x0A => 64
  | 0x0B => 64
  | 0x0C => 256
  | _ => 0

/-- The resident region of a descriptor in KiB. -/
def residentOf (d : Nat) : Nat := max (dResident d) (minResident (dOpcode d))

/-- Whether operand `i` (A to D) is used by the descriptor's opcode, and how: 0 not, 1 read, 2 written, 3 read and
written. -/
def opUse (d i : Nat) : Nat :=
  let l := match dOpcode d with
    | 0x01 => [1, 0, 0, 2]
    | 0x02 => [1, 1, 0, 2]
    | 0x03 => [1, 0, 0, 3]
    | 0x04 => [1, 0, 2, 3]
    | 0x05 => [1, 1, 2, 3]
    | 0x06 => [1, 1, 1, 2]
    | 0x07 => [1, 1, 0, 3]
    | 0x08 => [1, 0, if oUsed (dSlot d 2) then 1 else 0, 2]
    | 0x09 => [1, 1, 0, 2]
    | 0x0A => [1, 1, 0, 2]
    | 0x0B => [1, 0, 0, 2]
    | 0x0C => [1, 1, 1, 2]
    | 0x0D => [1, 0, 0, 2]
    | 0x0E => [1, 0, 0, 2]
    | 0x0F => [1, 1, 0, 2]
    | _ => [0, 0, 0, 0]
  l.getD i 0

/-- Whether operand `i` is read in a format (index lists, keys, words and bytes are not). -/
def opTyped (d i : Nat) : Bool :=
  match dOpcode d with
  | 0x01 => i == 0 || i == 3
  | 0x02 => i == 0 || i == 1 || i == 3
  | 0x03 => i == 0 || i == 3
  | 0x04 => i == 0 || i == 3
  | 0x06 => i == 0 || i == 3
  | 0x07 => i == 0 || i == 3
  | 0x08 => i == 0 || (i == 2 && oUsed (dSlot d 2)) || i == 3
  | 0x0E => i == 0 || i == 3
  | 0x0F => i == 0 || i == 3
  | _ => false

/-- Row length d of GATHER_REDUCE and SCATTER_ADD. -/
def dRow (d : Nat) : Nat := bits (dP0 d) 0 32
/-- k of REDUCE and WREDUCE. -/
def dK (d : Nat) : Nat := bits (dP0 d) 0 16
/-- Key bytes of a set operation. -/
def dKey (d : Nat) : Nat := bits (dP0 d) 0 4

/-- Bytes of an inline return of D (R344). -/
def inlineBytes (d : Nat) : Nat :=
  let f := oFormat (dSlot d 3)
  match dOpcode d with
  | 0x06 => fmtBytes f (dN d * dRow d)
  | 0x07 => fmtBytes f (oCount (dSlot d 3) * dRow d)
  | 0x08 => fmtBytes f (bits (dP0 d) 0 16 + 2)
  | 0x09 => oCount (dSlot d 3) * dKey d
  | 0x0A => oCount (dSlot d 3) * dKey d
  | 0x0B => oCount (dSlot d 3) * dKey d
  | 0x0C => 4 * oCount (dSlot d 3)
  | 0x0D => dN d
  | 0x05 => 8 * dN d
  | _ => fmtBytes f (dN d)

/-- Whether two byte ranges overlap. -/
def overlap (a n b m : Nat) : Bool := decide (a < b + m ∧ b < a + n)

/-- Bytes of operand `i` of a COPY or CONVERT. -/
def moveBytes (d i : Nat) : Nat := if dOpcode d = 0x0D then dN d else fmtBytes (oFormat (dSlot d i)) (dN d)

/-- An FP32 parameter that is finite. -/
def fp32Finite (v : Nat) : Bool := bits v 23 8 != 255

/-- The bytes a context takes on each stack (R302, R320). -/
def contextBytes (window residentKib : Nat) : Nat := 8 * (12288 * window + 1024 * residentKib)

/-- Whether the source is the rings of the physical function or of the cores (R322). -/
def hpaSource (source owner : Nat) : Bool := decide (source < 64) && (decide (48 ≤ source) || owner == 0)

/-- The reason a descriptor is rejected at admission, in the order of the table (R335), and its status; `owner` is the
function that owns its ring. The Drover's and the translation units' own descriptors name feeds and payloads that
the rules on spaces and save areas do not reach (R337, R401). -/
def State.rejects (s : State) (d source owner : Nat) : Option (Nat × Nat) :=
  let op := dOpcode d
  let inner := source == 0xFF || source == 0xFD
  let typed := [0, 1, 2, 3].filter (opTyped d)
  let fmt := fun i => oFormat (dSlot d i)
  let used := [0, 1, 2, 3].filter (fun i => opUse d i != 0)
  let remote := dRemote d && decide (source < 64)
  if op = 0 ∨ 0x10 ≤ op then some (9, 1)
  else if typed.any (fun i => !fmtKnown (fmt i)) || ((op == 3 || op == 4 || op == 7) && fmt 3 == fmtXp64) ||
      (op == 0x0F && (fmt 0 == fmtXp64 || fmt 3 == fmtXp64)) ||
      (op == 2 && [fmt 0, fmt 1].any (fun f => f == 0x0D || f == fmtWide || f == fmtXp64)) ||
      (op == 8 && !(fmt 3 == fmtWide || (fmt 3 == 0x0D && oScale (dSlot d 3) == 0))) then some (9, 2)
  else if 5 ≤ dRmode d then some (9, 3)
  else if 64 < dWindow d ∨ dWindow d < minWindow d then some (9, 4)
  else if 1024 < dResident d then some (9, 5)
  else if !inner && !remote && decide (dWindow d ≠ 0 ∨ residentOf d ≠ 0) &&
      !(source == 0xFE && dSaveOff d == 0 && decide (dWindow d ≤ 1) && residentOf d == 0) &&
      decide (dSaveOff d = 0 ∨ dSaveOff d % 4096 ≠ 0 ∨ dSaveKib d * 1024 < contextBytes (dWindow d) (residentOf d)) then
    some (9, 6)
  else if op == 2 && dOrd d && (s.ob O.DROVE_ORD_ALLOW == 0 || !(s.ob O.FEAT_ACCEPT).testBit 12) then some (9, 7)
  else if ((op == 6 || op == 7) && decide (65536 < dRow d)) ||
      (op == 8 && (decide (16382 < bits (dP0 d) 0 16) || !fp32Finite (bits (dP1 d) 0 32) || !fp32Finite (bits (dP1 d) 32 32) ||
        (bits (dP1 d) 32 32).testBit 31 || bits (dP1 d) 32 31 == 0)) ||
      ((op == 9 || op == 0x0A || op == 0x0B) && !(dKey d == 4 || dKey d == 8)) ||
      ((op == 0x0D || op == 0x0E) && oSpace (dSlot d 0) == oSpace (dSlot d 3) && decide (oSpace (dSlot d 0) < 2) &&
        overlap (oAddr (dSlot d 0)) (moveBytes d 0) (oAddr (dSlot d 3)) (moveBytes d 3)) then some (9, 8)
  else if typed.any (fun i => fmtInt (fmt i) && decide (oScale (dSlot d i) < -151 ∨ 96 < oScale (dSlot d i))) then some (9, 9)
  else if (op == 6 || op == 7) && (fmtBlocked (fmt 0) || fmtBlocked (fmt 3)) && decide (dRow d % 32 ≠ 0) then some (9, 10)
  else if !inner && used.any (fun i => oSpace (dSlot d i) == 3 &&
      !((source == 0xFE && (opUse d i == 1 || (i == 3 && opUse d 3 == 2))) || (remote && i == 3 && opUse d 3 == 2))) then some (9, 11)
  else if !inner && oSpace (dSlot d 3) == 3 && decide (16384 < inlineBytes d) then some (9, 11)
  else if !inner && used.any (fun i =>
      let sp := oSpace (dSlot d i)
      sp == 2 || (sp == 0 && (remote || !hpaSource source owner)) ||
      (sp == 1 && !remote && decide (bits (oAddr (dSlot d i)) 43 9 ≠ s.own)) ||
      (sp == 1 && remote && decide (bits (oAddr (dSlot d i)) 43 9 ≠ dRdev d))) then some (2, 12)
  else none

end Sys2Proof.Machine
end

