-- ==== Sys2Proof/Machine/CommonOps.lean ====
section
/-!
DEFINITION. The Common's translation units and requesters: answers, mirroring, checks and order of requests
(R399 to R411), and the preallocations that hold a response's space (R81, R230).
-/

namespace Sys2Proof.Machine

/-! ### Preallocations (R81, R230) -/

/-- Take `n` cells as a preallocation on local sink queue `qid`, unless the die's reserves would pass 49,152 cells. -/
def State.prealloc (s : State) (qid n : Nat) : Option State :=
  if 49152 < s.reservesTotal (dieOf (qid / 12)) + n then none
  else some { s with fold := { s.fold with prealloc := addTo s.fold.prealloc qid n } }

/-- Give back `n` cells of a preallocation. -/
def State.unprealloc (s : State) (qid n : Nat) : State :=
  { s with fold := { s.fold with prealloc := subFrom s.fold.prealloc qid n } }

/-- The sink queue of paddock `p` that takes frames of channel `vc`. -/
def State.sinkQueue (s : State) (p vc : Nat) : Nat := 12 * (1024 + p) + s.vcClass vc

/-! ### Requests -/

def State.creq (s : State) (id : Nat) : CReq := TMap.get {} s.common.reqs id
def State.setCreq (s : State) (id : Nat) (q : CReq) : State :=
  { s with common := { s.common with reqs := TMap.put {} s.common.reqs id q } }
def State.dropCreq (s : State) (id : Nat) : State :=
  { s with common := { s.common with reqs := TMap.erase s.common.reqs id } }

/-- The response op of a request op (R401). -/
def respOp (op : Nat) : Nat :=
  match op with
  | 0x10 => 0x20
  | 0x18 => 0x20
  | 0x13 => 0x22
  | 0x14 => 0x22
  | 0x15 => 0x22
  | 0x17 => 0x23
  | _ => 0x21

/-- The response header (R402). -/
def respHeader (reqId status rflags done faultOff : Nat) (poison mlost : Bool) : Nat :=
  (reqId % 2 ^ 32) <<< 224 + (status % 256) <<< 216 + (rflags % 65536) <<< 200 + b2n poison <<< 199 + b2n mlost <<< 198 +
  (done % 2 ^ 32) <<< 160 + (faultOff % 2 ^ 48) <<< 96

/-- Answer request `q` from its home unit. -/
def State.answer (s : State) (q : CReq) (status rflags done faultOff : Nat) (data : List Byte) (poison mlost : Bool) :
    State :=
  s.send q.unit q.pasture (respOp q.op) q.src q.srcPort
    (beBytes 32 (respHeader q.reqId status rflags done faultOff poison mlost) ++ data)

/-- Bytes of the pages a request touches, from its address (R402). -/
def CReq.span (q : CReq) : Nat :=
  match q.op with
  | 0x12 => fmtBytes q.fmt q.count
  | 0x13 => fmtBytes q.fmt q.count
  | 0x14 => 8 * q.count
  | 0x15 => 0
  | 0x16 => 0
  | _ => q.count

/-- Bytes of payload a request carries after its header, and of data its response carries (R401). -/
def CReq.payBytes (q : CReq) : Nat :=
  match q.op with
  | 0x11 => q.count
  | 0x12 => fmtBytes q.fmt q.count
  | 0x13 => fmtBytes q.fmt q.count
  | 0x14 => 16 * q.count
  | 0x15 => 8 * q.count
  | 0x16 => 4 * q.count + fmtBytes q.fmt q.d * q.count
  | 0x17 => q.count
  | _ => 0
def CReq.respBytes (q : CReq) : Nat :=
  match q.op with
  | 0x10 => q.count
  | 0x18 => q.count
  | 0x13 => fmtBytes q.fmt q.count
  | 0x14 => 8 * q.count
  | 0x15 => q.count * q.d
  | _ => 0

/-- The offset of a request. -/
def CReq.off (q : CReq) : Nat := bits q.addr 0 43

/-- Whether a request goes through the mirror table. -/
def CReq.mirror (q : CReq) : Bool := q.op == 0x17 || q.op == 0x18

/-- The right a request needs (R393): 0 read, 1 write, 2 atomic. -/
def CReq.right (q : CReq) : Nat :=
  match q.op with
  | 0x10 => 0
  | 0x18 => 0
  | 0x15 => 0
  | 0x11 => 1
  | 0x17 => 1
  | _ => 2

/-- Whether a request runs on the Drove (R401). -/
def CReq.onDrove (q : CReq) : Bool := decide (0x12 ≤ q.op ∧ q.op ≤ 0x16)

/-- Offset `j` of a GATHER, row index `j` of a SCATTER_ADD. -/
def CReq.entry (q : CReq) (j : Nat) : Nat :=
  if q.op = 0x15 then leAt q.payload (8 * j) 8 % 2 ^ 43 else leAt q.payload (4 * j) 4

/-- The offsets a request touches, each with its bytes: GATHER's elements, SCATTER_ADD's rows, or its one span (R402). -/
def CReq.parts (q : CReq) : List (Nat × Nat) :=
  let row := fmtBytes q.fmt q.d
  if q.op = 0x15 then (List.range q.count).map (fun j => (q.entry j, q.d))
  else if q.op = 0x16 ∧ q.count ≠ 0 then (List.range q.count).map (fun j => (q.off + q.entry j * row, row))
  else [(q.off, q.span)]

/-- The shape check of R399: reserved ops, the limits of R403, d, and spans that cross 2 MiB, a SCATTER_ADD's rows each
(log entry 144); and the features of R509. -/
def State.reqShapeOk (s : State) (q : CReq) : Bool :=
  decide (0x10 ≤ q.op ∧ q.op ≤ 0x18) && decide (q.payBytes ≤ 16384) && decide (q.respBytes ≤ 16384) &&
  decide (q.payBytes ≤ q.payload.length) &&
  q.parts.all (fun x => decide (x.1 % 2 ^ 21 + x.2 ≤ 2 ^ 21)) &&
  !((q.op == 0x15 || q.op == 0x16) && q.d == 0) &&
  !(q.op == 0x15 && (decide (64 < q.d) ||
    (List.range q.count).any (fun j => decide (64 < q.entry j % 64 + q.d)))) &&
  !(q.mirror && !s.pFeature q.pasture 3) && !(q.onDrove && !s.pFeature q.pasture 4) &&
  !((q.op == 0x12 || q.op == 0x13 || q.op == 0x16) && fmtMx q.fmt && !s.pFeature q.pasture 2)

/-- Whether two requests touch a common 64-byte unit. -/
def unitsMeet (a b : List (Nat × Nat)) : Bool :=
  a.any (fun x => b.any (fun y => decide (x.1 / 64 * 64 < y.1 + y.2 ∧ y.1 / 64 * 64 < x.1 + x.2)))

/-- Whether a stage holds an entry of the in-flight table (R405). -/
def ReqStage.inFlight : ReqStage → Bool
  | .access => true
  | .drove => true
  | .mirror => true
  | _ => false

/-- Requests of unit `u` in a stage. -/
def State.unitReqs (s : State) (u : Nat) (p : ReqStage → Bool) : List (Nat × CReq) :=
  s.common.reqs.filter (fun x => x.2.unit == u && p x.2.stage)

/-- The Drove descriptor a translation unit builds for a request (R401): operands in Common space for memory and in the
payload for the rest. -/
def State.tuDesc (s : State) (q : CReq) : Nat :=
  let opc := match q.op with
    | 0x12 => 3
    | 0x13 => 4
    | 0x14 => 5
    | 0x15 => 0x0F
    | _ => 7
  let slot := fun (addr count space : Nat) => addr % 2 ^ 64 + (count % 2 ^ 32) <<< 64 + q.fmt <<< 96 + space <<< 101
  let mem := slot (s.commonAddr q.pasture q.off) q.count 1
  let A := if q.op = 0x15 then slot (s.commonAddr q.pasture 0) 0 1
    else if q.op = 0x16 then slot (4 * q.count) q.count 3 else slot 0 q.count 3
  let C := slot 0 q.count 3
  let D := if q.op = 0x15 then slot 0 q.count 3 else mem
  let win := if q.op = 0x14 ∨ q.op = 0x15 then 0 else 1
  opc + q.rmode <<< 8 + 1 <<< 13 + win <<< 16 + q.count <<< 64 + q.d <<< 256 +
  A <<< 512 + (slot 0 q.count 3) <<< 640 + C <<< 768 + D <<< 896

/-- The order step of R405: the request takes an in-flight entry and starts, or waits for one that overlaps, behind those
that passed the checks before it. -/
def State.startReq (s : State) (id : Nat) : State :=
  let old := s.creq id
  let n := if old.stage = .blocked then old.seq else s.common.nextReq
  let q := { old with seq := n }
  let s := { s with common := { s.common with nextReq := max s.common.nextReq (n + 1) } }
  let ahead := s.common.reqs.any (fun x => decide (x.1 ≠ id) &&
    (x.2.stage.inFlight || (x.2.stage == .blocked && decide (x.2.seq < n))) && unitsMeet q.spans x.2.spans)
  if 4096 ≤ (s.unitReqs q.unit ReqStage.inFlight).length then s.setCreq id { q with stage := .sink }
  else if ahead then s.setCreq id { q with stage := .blocked }
  else if q.onDrove then
    if s.drove.gated then (s.answer q 4 0 0 q.off [] false false).dropCreq id  -- R276
    else if 1024 ≤ s.drove.remote.length then s.setCreq id { q with stage := .sink }
    else
      let op : Op := { desc := s.tuDesc q, source := 0xFD, origin := .common id, pasture := q.pasture
                       payload := pclean q.payload }
      let s := s.setCreq id { q with stage := .drove }
      { s with drove := { s.drove with remote := s.drove.remote ++ [op] } }
  else s.setCreq id { q with stage := .access }

/-- Answer a request that fails a check of R399 at its entry `j` and offset `off`, with its fault record. -/
def State.failReq (s : State) (id : Nat) (f : TFault) (j off : Nat) : State :=
  let q := s.creq id
  let s := s.commonFaultBits f
  let addr := q.pasture <<< 52 + bits q.addr 43 9 <<< 43 + off % 2 ^ 43
  let s := s.faultRecord q.unit addr q.src q.op f.kind q.mirror
  (s.answer q f.status 0 0 (if q.op = 0x15 ∨ q.op = 0x16 then j else off) [] false false).dropCreq id

/-- Where a check of R399 on a request's elements first fails. -/
structure PartFault where
  fault : TFault
  entry : Nat
  off   : Nat
  deriving DecidableEq, Repr

/-- The checks of R399 from Present to Stack on the elements of a request from entry `j` on: their leaves and HPA
ranges, or the first that fails. -/
def State.checkParts (s : State) (q : CReq) : Nat → List (Nat × Nat) → Except PartFault (List (Nat × Nat × Nat))
  | _, [] => .ok []
  | j, x :: l =>
    if 2 ^ 43 ≤ x.1 then .error ⟨⟨2, 2⟩, j, x.1⟩
    else match s.leafFor q.mirror q.pasture x.1 with
      | .error f => .error ⟨f, j, x.1⟩
      | .ok e => match s.checkLeaf e.1 e.2 x.1 x.2 q.right with
        | .error f => .error ⟨f, j, x.1⟩
        | .ok a => match s.checkParts q (j + 1) l with
          | .error f => .error f
          | .ok r => .ok ((e.1, a, x.2) :: r)

/-- Whether the page of an offset holds requests (R400, R408). -/
def State.pageHolds (s : State) (mirror : Bool) (pasture off : Nat) : Bool :=
  (match s.leafFor mirror pasture off with | .ok e => pteHold e.1 | .error _ => false) || s.resyncHolds pasture off mirror

/-- The offset a request is held at, or the entry of a GATHER or SCATTER_ADD (R402). -/
def State.heldAt (s : State) (q : CReq) : Nat :=
  if q.op = 0x15 ∨ q.op = 0x16 then q.parts.findIdx (fun x => s.pageHolds q.mirror q.pasture x.1) else q.off

/-- A request for a held page enters its unit's hold queue, or stays in the sink queue when that is full (R400). Its time
counts from its first entry. -/
def State.holdReq (s : State) (id : Nat) : State :=
  let q := s.creq id
  if ((s.unitReqs q.unit (fun x => x == .held)).filter (fun x => x.1 != id)).length < 256 then
    let s := if q.since.isSome then s else (s.count O.COMMON_STAT 4 1).tally 0x0A02 q.unit
    s.setCreq id { q with stage := .held, since := some (q.since.getD s.now) }
  else s.setCreq id { q with stage := .sink }

/-- Checks of R399 from the leaf on: permission, stack, hold; then the probe and poison answers, and the start. -/
def State.checkReq (s : State) (id : Nat) : State :=
  let q := s.creq id
  match s.checkParts q 0 q.parts with
  | .error f => s.failReq id f.fault f.entry f.off
  | .ok l =>
    let at_ := l.headD (0, 0, 0)
    let s := s.setCreq id { q with leaf := at_.1, hpa := at_.2.1, spans := (l.map (·.2)).filter (fun x => x.2 != 0) }
    if q.parts.any (fun x => s.pageHolds q.mirror q.pasture x.1) then s.holdReq id
    else if q.count = 0 then (s.answer q 0 0 0 0 [] false false).dropCreq id
    else if q.status = 3 then (s.answer q 3 0 0 0 [] false false).dropCreq id
    else s.startReq id

/-- Count a TLB miss of unit `u` (R396, R423). -/
def State.tlbMiss (s : State) (u : Nat) : State :=
  ((s.count O.COMMON_STAT 1 1).holdCount (0x1A0010 + 8 * u) 0 1).tally 0x0A01 u

/-- Use the TLB entry of a page: a hit comes to the front; a miss is counted and what its walk finds is entered
(R396). -/
def State.tlbTouch (s : State) (mirror : Bool) (pasture off : Nat) : State :=
  let u := homeOf off
  match s.tlbFind u mirror pasture off with
  | some e => s.tlbUse u mirror pasture off e.1 e.2
  | none =>
    let s := s.tlbMiss u
    match s.walk mirror pasture off with
    | .ok l => s.tlbUse u mirror pasture off l.entry l.giant
    | .error _ => s

/-- Translate a request (R396): a TLB hit is checked at once; a miss starts a walk, or waits for one. The pages of a
GATHER or SCATTER_ADD are walked for here (log entry 144). -/
def State.translateReq (s : State) (id : Nat) : State :=
  let q := s.creq id
  if q.op = 0x15 ∨ q.op = 0x16 then
    (q.parts.foldl (fun (s : State) x => s.tlbTouch false q.pasture (x.1 % 2 ^ 43)) s).checkReq id
  else match s.tlbFind q.unit q.mirror q.pasture q.off with
    | some e => (s.tlbUse q.unit q.mirror q.pasture q.off e.1 e.2).checkReq id
    | none =>
      let w := (q.unit, tlbTag q.mirror q.pasture q.off false)
      let s := (s.tlbMiss q.unit).setCreq id { q with stage := .walk }
      if s.common.walks.contains w ∨ 32 ≤ (s.common.walks.filter (fun x => x.1 == q.unit)).length then s
      else { s with common := { s.common with walks := s.common.walks ++ [w] } }

/-- The first checks of R399 on a request: device, pasture and shape; a unit that is gated or fenced answers 0x04. -/
def State.admitReq (s : State) (id : Nat) : State :=
  let q := s.creq id
  let dev := if q.mirror then s.ob O.COMMON_MIRROR_OF else s.own
  if s.unitShut q.unit then
    (s.answer q 4 0 0 0 [] false false).dropCreq id
  else if bits q.addr 43 9 ≠ dev ∨ bits q.addr 52 12 ≠ q.pasture then
    (((s.raise O.COMMON_ERR 1 2).faultRecord q.unit q.addr q.src q.op 2 q.mirror).answer q 2 0 0 q.off [] false false).dropCreq id
  else if !s.reqShapeOk q then (s.answer q 9 0 0 0 [] false false).dropCreq id
  else s.translateReq id

/-- Whether an earlier request than `id` waits in the sink queue of paddock `sink`, which is first in, first out. -/
def State.sinkAhead (s : State) (sink id : Nat) : Bool :=
  s.common.reqs.any (fun x => decide (x.1 < id) && x.2.sink == sink && x.2.stage == .sink)

/-- Requests that waited for entries or room are taken up again, oldest first. -/
def State.wakeReqs (s : State) : State :=
  (s.common.reqs.map (·.1)).foldl (fun s id =>
    let q := s.creq id
    if q.stage = .blocked then s.startReq id
    else if q.stage = .sink ∧ TMap.has s.common.reqs id ∧ !s.sinkAhead q.sink id then s.admitReq id
    else s) s

/-- Held requests that `p` selects by one of their offsets are checked again, in order (R400); room in the hold queue is
then taken by those that wait for it. -/
def State.recheckHeld (s : State) (p : Bool → Nat → Nat → Bool) : State :=
  ((s.common.reqs.filter (fun x => x.2.stage == .held && x.2.parts.any (fun y => p x.2.mirror x.2.pasture y.1))).foldl
    (fun s x => s.translateReq x.1) s).wakeReqs

/-- Slots of paddock `p`'s requester in use, by DMA and by remote Drove descriptors (R345, R410). -/
def State.slotsUsed (s : State) (p : Nat) : Nat :=
  (s.common.slots.filter (fun x => x.1 / 1024 == p && x.2.holder.isSome)).length +
  (s.drove.waits.filter (fun w => w.ring % 16 == p)).length

/-! ### Mirroring (R406, R407) -/

/-- Set or clear mirror_lost in the leaf of a page, by an 8-byte read-modify-write, and in the units' copies (R397). -/
def State.setLost (s : State) (pasture off : Nat) (v : Bool) : State :=
  match s.walk false pasture off with
  | .error _ => s
  | .ok l =>
    let e := leNum (s.hbmRead l.at_ 8)
    let s := s.hbmWrite l.at_ (leBytes 8 (setBits e 8 1 (b2n v)))
    let tag := tlbTag false pasture off l.giant
    let fix := fun (m : TMap (List (Nat × Nat))) => (List.range 16).foldl (fun m u => TMap.put [] m u
      ((TMap.get [] m u).map (fun e => if e.1 = tag then (e.1, setBits e.2 8 1 (b2n v)) else e))) m
    if l.giant then { s with common := { s.common with tlb1 := fix s.common.tlb1 } }
    else { s with common := { s.common with tlb2 := fix s.common.tlb2 } }

/-- What a write to a page of leaf `e` owes its buddy: 0 nothing, 1 a mirror write, 2 the page is lost already. -/
def State.mirrorDue (s : State) (pasture e : Nat) : Nat :=
  if pteKind e ≠ 2 ∨ !s.pFeature pasture 3 then 0 else if pteLost e then 2 else 1

/-- Count and mark a page whose mirror write failed. -/
def State.mirrorLost (s : State) (pasture off : Nat) : State :=
  ((s.setLost pasture off true).count O.COMMON_STAT 7 1).raise O.COMMON_ERR 3

/-- Send one MIRROR_WRITE of the `n` bytes at offset `off`, with their HPA, for `owner` (R407). -/
def State.sendMirror (s : State) (owner : MirrorFor) (pasture off hpa n : Nat) : State :=
  let id := s.common.nextMir
  let u := homeOf off
  let body := beBytes 32 ((s.commonAddr pasture off) <<< 192 + id <<< 160 + n <<< 128 +
    b2n (s.hbmPoisoned hpa n) <<< 96) ++ s.hbmRead hpa n
  let m : Mirror := { owner := owner, pasture := pasture, offset := off, len := n
                      deadline := s.now + 1000 * s.ob O.COMMON_MIRROR_TO_US }
  let s := { s with common := { s.common with nextMir := (id + 1) % 2 ^ 32, mirrors := TMap.put {} s.common.mirrors id m } }
  ((s.count O.COMMON_STAT 6 1).tally 0x0A03 u).send u pasture 0x17 (s.ob O.COMMON_BUDDY) u body

/-- Mirror the 64-byte units of a write of `n` bytes at offset `off` whose HPA is `hpa`; whether the page lost its buddy
copy at once because no buddy is named, and how many mirror writes were sent. -/
def State.mirrorWrite (s : State) (owner : MirrorFor) (pasture off hpa n : Nat) : State × Bool × Nat :=
  if s.ob O.COMMON_BUDDY = 0xFFFF then (s.mirrorLost pasture off, true, 0)
  else
    let lo := off / 64 * 64
    let base := hpa - off % 64
    let len := (off + n + 63) / 64 * 64 - lo
    let k := (len + 16383) / 16384
    ((List.range k).foldl (fun s i =>
      s.sendMirror owner pasture (lo + 16384 * i) (base + 16384 * i) (min 16384 (len - 16384 * i))) s, false, k)

/-- The entry a page's units have now. -/
def State.leafEntry (s : State) (pasture off : Nat) : Nat :=
  match s.leafFor false pasture off with
  | .ok e => e.1
  | .error _ => 0

/-- A write of a Drove operation or DMA to Common memory, once in HBM, owes its buddy what R407 says: the mirror writes
sent and whether the copy is lost. -/
def State.mirrorOf (s : State) (owner : MirrorFor) (pasture off hpa n : Nat) : State × Bool × Nat :=
  match s.mirrorDue pasture (s.leafEntry pasture off) with
  | 0 => (s, false, 0)
  | 1 => s.mirrorWrite owner pasture off hpa n
  | _ => (s, true, 0)

/-- Whether mirror writes for `owner` are outstanding. -/
def State.mirrorsFor (s : State) (owner : MirrorFor) : Bool := s.common.mirrors.any (fun m => m.2.owner == owner)

/-- A request's answer after its mirror writes have ended. -/
def State.requestMirrored (s : State) (id : Nat) : State :=
  let q := s.creq id
  if s.mirrorsFor (.request id) then s
  else ((s.answer q 0 0 q.count 0 [] false q.mlost).dropCreq id).wakeReqs

end Sys2Proof.Machine
end

