-- ==== Sys2Proof/Machine/Rings.lean ====
section
/-!
DEFINITION. Submission and completion rings of the Drove and of DMA (R316, R317, R351, R412, R532 to R534).
`dma` tells the two kinds apart everywhere.
-/

namespace Sys2Proof.Machine

/-- Ring `r`. -/
def State.ring (s : State) (dma : Bool) (r : Nat) : Ring :=
  TMap.get {} (if dma then s.common.dmaRings else s.drove.rings) r

/-- Set ring `r`. -/
def State.setRing (s : State) (dma : Bool) (r : Nat) (x : Ring) : State :=
  if dma then { s with common := { s.common with dmaRings := TMap.put {} s.common.dmaRings r x } }
  else { s with drove := { s.drove with rings := TMap.put {} s.drove.rings r x } }

/-- Entries of a ring, from its CFG register: other exponents are taken as 4 (R351). -/
def ringSize (cfg : Nat) : Nat := if 4 ≤ bits cfg 0 5 ∧ bits cfg 0 5 ≤ 16 then 2 ^ bits cfg 0 5 else 16

/-- Whether a ring fetches. -/
def Ring.enabled (x : Ring) : Bool := x.sqCfg.testBit 5

/-- The function that owns a host ring (R533); core rings have none. -/
def State.ringOwner (s : State) (dma : Bool) (r : Nat) : Nat :=
  if r < 48 then bits (s.reg (0x1E0200 + 8 * (if dma then 48 + r else r))) 0 6 else 0

/-- The pasture of a ring: a VF's comes from PCIE_VF_CFG (R533). -/
def State.ringPasture (s : State) (dma : Bool) (r : Nat) : Nat :=
  let o := s.ringOwner dma r
  if o = 0 then bits (s.ring dma r).sqCfg 16 12 else bits (s.reg (0x1E0100 + 8 * (o - 1))) 0 12

/-- Whether a base register of ring `r` names host memory; of a VF's ring always (R533). -/
def State.ringInHost (s : State) (dma : Bool) (r base : Nat) : Bool := base.testBit 0 || s.ringOwner dma r != 0

/-- The ring's address. -/
def ringAddr (base : Nat) : Nat := base / 128 * 128

/-- Functions that ring events of `r` are routed to (R537). -/
def State.ringFns (s : State) (dma : Bool) (r : Nat) : List Nat := if r < 48 then [s.ringOwner dma r] else []

/-- Count a misuse of a ring (R317, R349, R351). -/
def State.ringMisuse (s : State) : State := (s.count O.DROVE_OPCNT 0 1).raise O.DROVE_OP_ERR 6

/-- Free records of a completion ring. -/
def Ring.cqFree (x : Ring) : Nat := (x.cqHead + ringSize x.cqCfg - x.cqTail - 1) % ringSize x.cqCfg

/-- Whether the device may fetch a descriptor (R317). -/
def State.mayFetch (s : State) (dma : Bool) (r : Nat) : Bool :=
  let x := s.ring dma r
  x.enabled && x.sqHead != x.sqTail && decide (x.busy < x.cqFree) && x.susp.isNone && !x.stopped && !(dma && s.paddockGated (r % 16))

/-- Fetch the next descriptor of a ring into its list of fetched ones (R317). -/
def State.fetch (s : State) (dma : Bool) (r : Nat) : State :=
  let x := s.ring dma r
  let n := if dma then 64 else 128
  let a := ringAddr x.sqBase + n * x.sqHead
  let l := if s.ringInHost dma r x.sqBase then s.hostRead a n else s.hbmRead a n
  s.setRing dma r { x with sqHead := (x.sqHead + 1) % ringSize x.sqCfg, fetched := x.fetched ++ [leNum l]
                           busy := x.busy + 1 }

/-- Write a completion record, without its phase bit, to ring `r`, and raise its completion event (R343, R415, R532). -/
def State.putRecord (s : State) (dma : Bool) (r rec : Nat) (irq : Bool) : State :=
  let x := s.ring dma r
  let x := { x with busy := x.busy - 1 }
  if !x.cqCfg.testBit 5 then s.setRing dma r x
  else
    let a := ringAddr x.cqBase + 32 * x.cqTail
    let l := leBytes 32 (rec % 2 ^ 255 + b2n x.phase <<< 255)
    let s := if s.ringInHost dma r x.cqBase then s.hostWrite a l else s.hbmWrite a l
    let t := (x.cqTail + 1) % ringSize x.cqCfg
    let s := s.setRing dma r { x with cqTail := t, phase := if t = 0 then !x.phase else x.phase }
    if irq && x.cqCfg.testBit 27 && decide (r < 48) then
      let v0 := s.row O.PCIE_STAT 5
      let s := s.sendVector (s.ringOwner dma r) (bits x.cqCfg 16 11)
      if s.row O.PCIE_STAT 5 = v0 then s else s.raise O.PCIE_ERR 5
    else s

/-- A write of register `i` (0 SQ_BASE to 7 CQ_HEAD) of ring `r` with value `v`, through the physical function's BAR0
(`pf`) or a ring page (R351, R532, R533): writes to base and size while the ring is enabled, and one that clears CQ
enable while descriptors are out, are ignored and counted; the pasture and weight of a VF's ring keep the PF's values. -/
def State.ringWrite (s : State) (dma : Bool) (r i v : Nat) (pf : Bool) : State :=
  let x := s.ring dma r
  let vf := s.ringOwner dma r != 0
  match i with
  | 0 =>
    if x.enabled then s.ringMisuse
    else s.setRing dma r { x with sqBase := v / 128 * 128 + (if vf then 1 else v % 2) }
  | 1 =>
    let size := bits v 0 5 != bits x.sqCfg 0 5
    let s := if size && x.enabled then s.ringMisuse else s
    let lg := if x.enabled then bits x.sqCfg 0 5 else bits v 0 5
    let past := if pf then bits v 16 12 else bits x.sqCfg 16 12
    let w := if vf && !pf then bits x.sqCfg 8 8 else bits v 8 8
    s.setRing dma r { x with sqCfg := lg + bits v 5 1 <<< 5 + w <<< 8 + past <<< 16 }
  | 2 =>
    if ringSize x.sqCfg ≤ v % 65536 then s.ringMisuse else s.setRing dma r { x with sqTail := v % 65536 }
  | 4 =>
    if x.cqCfg.testBit 5 || x.enabled then s.ringMisuse
    else s.setRing dma r { x with cqBase := v / 128 * 128 + (if vf then 1 else v % 2) }
  | 5 =>
    if x.cqCfg.testBit 5 && !v.testBit 5 && decide (0 < x.busy) then s.ringMisuse
    else
      let s := if bits v 0 5 ≠ bits x.cqCfg 0 5 ∧ x.cqCfg.testBit 5 then s.ringMisuse else s
      let lg := if x.cqCfg.testBit 5 then bits x.cqCfg 0 5 else bits v 0 5
      let x := if !x.cqCfg.testBit 5 && v.testBit 5 then { x with phase := true, cqTail := 0 } else x
      s.setRing dma r { x with cqCfg := lg + bits v 5 1 <<< 5 + bits v 16 12 <<< 16 }
  | 7 => s.setRing dma r { x with cqHead := v % 65536 }
  | _ => s

/-- What register `i` of ring `r` reads. -/
def State.ringRead (s : State) (dma : Bool) (r i : Nat) : Nat :=
  let x := s.ring dma r
  match i with
  | 0 => x.sqBase
  | 1 => x.sqCfg
  | 2 => x.sqTail
  | 3 => x.sqHead + b2n (x.busy == 0) <<< 16 + b2n (x.susp.isSome || x.stopped) <<< 17 + (x.susp.getD 0) <<< 18
  | 4 => x.cqBase
  | 5 => x.cqCfg
  | 6 => x.cqTail + b2n x.phase <<< 16
  | _ => x.cqHead

/-- Stop a DMA ring after its record (R415, R534): DMA_ERR and the event of kind 2. -/
def State.stopDmaRing (s : State) (r status : Nat) : State :=
  let s := s.setRing true r { s.ring true r with stopped := true }
  let s := (s.raise O.DMA_ERR (r % 32) status).raise O.COMMON_ERR 7 status
  (s.countIn O.DMA_STAT (r % 16) 2 1).event (s.ringFns true r) 0x02 r status

end Sys2Proof.Machine
end

