-- ==== Sys2Proof/Machine/CollOps.lean ====
section
/-!
DEFINITION. Communicators, collective frames and the path of a chunk (R352 to R373).
-/

namespace Sys2Proof.Machine

/-! ### Communicator records (R352, R353) -/

def cmId (r : Nat) : Nat := bits r 0 16
def cmPasture (r : Nat) : Nat := bits r 16 12
def cmChunk (r : Nat) : Nat := bits r 28 4
def cmM (r : Nat) : Nat := bits r 32 7
def cmStepFmt (r : Nat) : Nat := if r.testBit 39 then fmtWide else fmtXp64
def cmBufs (r : Nat) : Nat := bits r 40 4
def cmBase (r ax : Nat) : Nat := bits r (48 + 8 * ax) 4
def cmExt (r ax : Nat) : Nat := bits r (52 + 8 * ax) 4 + 1
def cmLead (r : Nat) : Nat := bits r 72 9
def cmLag (r : Nat) : Nat := bits r 96 16
def cmTimeout (r : Nat) : Nat := bits r 128 32
def cmCapKib (r : Nat) : Nat := bits r 160 32
def cmWorkOff (r : Nat) : Nat := bits r 192 40
def cmWorkMib (r : Nat) : Nat := bits r 232 24
def cmSaveOff (r : Nat) : Nat := bits r 256 40
def cmSaveKib (r : Nat) : Nat := bits r 296 24
def cmPort (r j : Nat) : Nat := bits r (512 + 16 * j) 10

/-- P, the chunk payload in bytes. -/
def cmPayload (r : Nat) : Nat := 4096 * 2 ^ cmChunk r

/-- K, devices of the box, and M, its members. -/
def cmK (r : Nat) : Nat := cmExt r 0 * cmExt r 1 * cmExt r 2
def cmMembers (r : Nat) : Nat := cmK r * cmM r

/-- Communicator row `i`, and the row of an identifier. -/
def State.comm (s : State) (i : Nat) : Nat := s.row O.COLL_COMM_TABLE i
def State.commRow (s : State) (id : Nat) : Option Nat :=
  if id = 0 then none
  else ((s.rowsOf O.COLL_COMM_TABLE).find? (fun x => cmId x.2 == id)).map (·.1)

/-- Box coordinate of device `n` on an axis: its distance from the box's first coordinate. -/
def State.boxAt (s : State) (r n ax : Nat) : Nat := (s.coord n ax + s.dim ax - cmBase r ax) % s.dim ax

/-- Whether device `n` lies in the box. -/
def State.inBox (s : State) (r n : Nat) : Bool :=
  decide (n < s.torusSize) && [0, 1, 2].all (fun ax => decide (s.boxAt r n ax < cmExt r ax))

/-- The device at box coordinates (a, b, e). -/
def State.boxDev (s : State) (r a b e : Nat) : Nat :=
  let c := fun ax i => (cmBase r ax + i) % s.dim ax
  c 0 a + s.dim 0 * (c 1 b + s.dim 1 * c 2 e)

/-- Box index of device `n` (R353). -/
def State.boxIndex (s : State) (r n : Nat) : Nat :=
  s.boxAt r n 0 + cmExt r 0 * (s.boxAt r n 1 + cmExt r 1 * s.boxAt r n 2)

/-- Box coordinates of a box index. -/
def boxCoord (r i ax : Nat) : Nat :=
  match ax with
  | 0 => i % cmExt r 0
  | 1 => i / cmExt r 0 % cmExt r 1
  | _ => i / (cmExt r 0 * cmExt r 1)

/-- The device that acts as lead: the record's, or the live device of lowest number in the box while it has failed
(R468). -/
def State.leadOf (s : State) (r : Nat) : Nat :=
  let live := fun n => bits (s.row O.MUSTER_DEV_STATE n) 0 3 == 0 || bits (s.row O.MUSTER_DEV_STATE n) 0 3 == 1
  if live (cmLead r) then cmLead r
  else ((List.range s.torusSize).find? (fun n => s.inBox r n && live n)).getD (cmLead r)

/-! ### The POST payload (R355) -/

def pKind (p : Nat) : Nat := bits p 125 3
def pRmode (p : Nat) : Nat := bits p 122 3
def pInFmt (p : Nat) : Nat := bits p 115 5
def pOutFmt (p : Nat) : Nat := bits p 110 5
def pRoot (p : Nat) : Nat := bits p 80 16
def pInScale (p : Nat) : Int := sint 16 (bits p 64 16)
def pOutScale (p : Nat) : Int := sint 16 (bits p 48 16)
def pN (p : Nat) : Nat := bits p 0 32

abbrev kAllReduce : Nat := 0
abbrev kReduceScatter : Nat := 1
abbrev kAllGather : Nat := 2
abbrev kBroadcast : Nat := 3
abbrev kReduce : Nat := 4
abbrev kBarrier : Nat := 5

/-- Whether a kind has an up phase. -/
def hasUp (k : Nat) : Bool := k != kAllGather && k != kBroadcast

/-- Whether a kind has a down phase. -/
def hasDown (k : Nat) : Bool := k == kAllReduce || k == kAllGather || k == kBroadcast || k == kBarrier

/-- Whether a POST is one the Drover can run: kind, formats, rounding mode, scales. -/
def postOk (p : Nat) : Bool :=
  decide (pKind p ≤ 5) && (pKind p == kBarrier || (decide (pInFmt p ≤ 0x0D) &&
    (!hasUp (pKind p) || (decide (pRmode p ≤ 4) && (decide (pOutFmt p ≤ 0x0D) || pOutFmt p == fmtWide))) &&
    (!fmtInt (pInFmt p) || decide (-151 ≤ pInScale p ∧ pInScale p ≤ 96)) &&
    (!(hasUp (pKind p) && fmtInt (pOutFmt p)) || decide (-151 ≤ pOutScale p ∧ pOutScale p ≤ 96))))

/-! ### Geometry of a collective (R356, R359) -/

/-- Input and output formats: a BARRIER carries one INT32 element. -/
def CInst.inFmt (c : CInst) : Nat := if pKind c.post = kBarrier then 0x0D else pInFmt c.post
def CInst.outFmt (c : CInst) : Nat :=
  if pKind c.post = kBarrier then 0x0D else if hasUp (pKind c.post) then pOutFmt c.post else pInFmt c.post
def CInst.inScale (c : CInst) : Int := if pKind c.post = kBarrier then 0 else pInScale c.post
def CInst.outScale (c : CInst) : Int := if pKind c.post = kBarrier then 0 else pOutScale c.post

/-- The most elements of format `f` that fit in `n` bytes, in whole blocks for a blocked format. -/
def fitElems (f n : Nat) : Nat := if fmtBlocked f then n / blockBytes f * 32 else n / (elemBits f / 8)

/-- C, elements per chunk. -/
def State.chunkElems (s : State) (c : CInst) : Nat := fitElems c.inFmt (cmPayload (s.comm c.row))

/-- Elements of one contribution, before chunking: M·L for REDUCE_SCATTER. -/
def State.contribution (s : State) (c : CInst) : Nat :=
  if pKind c.post = kReduceScatter then cmMembers (s.comm c.row) * c.len else c.len

/-- Chunks of one run of L elements. -/
def State.chunksOf (s : State) (c : CInst) : Nat := (c.len + s.chunkElems c - 1) / max 1 (s.chunkElems c)

/-- Chunks of a contribution: REDUCE_SCATTER cuts each member's share by itself (R366; log entry 33). -/
def State.inChunks (s : State) (c : CInst) : Nat :=
  if pKind c.post = kReduceScatter then cmMembers (s.comm c.row) * s.chunksOf c else s.chunksOf c

/-- Nc as completion records report it, and the number of chunks the down phase carries: an ALL_GATHER numbers the
chunks of member r from r times the chunks of a contribution on (log entry 33). -/
def State.allChunks (s : State) (c : CInst) : Nat :=
  if pKind c.post = kAllGather then cmMembers (s.comm c.row) * s.chunksOf c else s.inChunks c

/-- First element, within its contribution, and element count of chunk `k` of a contribution. -/
def State.chunkSpan (s : State) (c : CInst) (k : Nat) : Nat × Nat :=
  let C := s.chunkElems c
  let q := max 1 (s.chunksOf c)
  if pKind c.post = kReduceScatter then (k / q * c.len + k % q * C, min C (c.len - k % q * C))
  else (k % q * C, min C (c.len - k % q * C))

/-- The owner's box coordinates and the direction of chunk `k` (R366): 0 for +1, 1 for −1. -/
def State.ownerOf (s : State) (c : CInst) (k ax : Nat) : Nat :=
  let r := s.comm c.row
  if pKind c.post = kReduceScatter then boxCoord r (k / max 1 (s.chunksOf c) / cmM r) ax
  else if pKind c.post = kReduce then boxCoord r (pRoot c.post / cmM r) ax
  else match ax with
    | 0 => k % cmExt r 0
    | 1 => k / cmExt r 0 % cmExt r 1
    | _ => k / (cmExt r 0 * cmExt r 1) % cmExt r 2
def State.dirOf (s : State) (c : CInst) (k : Nat) : Nat :=
  if pKind c.post = kReduceScatter ∨ pKind c.post = kReduce then k % 2 else k / cmK (s.comm c.row) % 2

/-! ### Frames (R360, R361) -/

/-- A collective header; a field holds the low bits of its value. -/
def collHdr (comm seq chunk seg nseg stage dir crc fmt spill off cnt check rflags arg : Nat) : Nat :=
  comm <<< 240 + seq <<< 224 + (chunk % 2 ^ 32) <<< 192 + (seg % 256) <<< 184 + (nseg % 256) <<< 176 + stage <<< 173 +
  dir <<< 172 + crc <<< 171 + fmt <<< 166 + spill <<< 165 + (off % 2 ^ 21) <<< 144 + (cnt % 65536) <<< 128 + check <<< 64 +
  (rflags % 65536) <<< 48 + arg % 2 ^ 48

def chComm (h : Nat) : Nat := bits h 240 16
def chSeq (h : Nat) : Nat := bits h 224 16
def chChunk (h : Nat) : Nat := bits h 192 32
def chSeg (h : Nat) : Nat := bits h 184 8
def chNseg (h : Nat) : Nat := bits h 176 8
def chStage (h : Nat) : Nat := bits h 173 3
def chCrc (h : Nat) : Bool := h.testBit 171
def chFmt (h : Nat) : Nat := bits h 166 5
def chSpill (h : Nat) : Bool := h.testBit 165
def chOff (h : Nat) : Nat := bits h 144 21
def chCnt (h : Nat) : Nat := bits h 128 16
def chCheck (h : Nat) : Nat := bits h 64 64
def chRflags (h : Nat) : Nat := bits h 48 16
def chArg (h : Nat) : Nat := bits h 0 48

/-- The collective header of a frame of a sink, and its segment, poisoned when the frame carries the flag (R147). -/
def collOf (bytes : List Byte) : Nat := beAt bytes 32 32
def segOf (bytes : List Byte) : Seg :=
  let h := collOf bytes
  let bad := (hFlags (beAt bytes 0 32)).testBit 0
  { idx := chSeg h, nseg := chNseg h, spill := chSpill h, off := chOff h, cnt := chCnt h, rflags := chRflags h
    data := (bytes.drop 64).map (fun b => (b, bad)) }

/-- The home paddock of a collective: its slot modulo 16 (R371), before it has one that of its communicator's number. -/
def State.homePaddock (s : State) (c : CInst) : Nat := (c.slot.getD (cmId (s.comm c.row))) % 16

/-- Send a collective frame to the sink of a device. -/
def State.collSend (s : State) (paddock r op dev srcPort : Nat) (h : Nat) (data : PBytes) : State :=
  let pay := beBytes 32 h ++ data.map (·.1)
  let hd := s.ownHdr (cmPasture r) op dev paddock srcPort pay.length
  let hd := if data.any (·.2) then hdrFix (setBit hd 200) else hd
  s.produce paddock hd pay

/-- Send a collective frame to local member `j` on its flock port (R369). -/
def State.collToMember (s : State) (paddock r op j : Nat) (h : Nat) (data : PBytes) : State :=
  let pay := beBytes 32 h ++ data.map (·.1)
  let hd := s.ownHdr (cmPasture r) op s.own (cmPort r j) paddock pay.length
  let hd := if data.any (·.2) then hdrFix (setBit hd 200) else hd
  let f : Frame := { bytes := beBytes 32 hd ++ pay, fab := true, port := 1024 + paddock, cls := s.vcClass 6
                     pasture := cmPasture r, rx := time112 s.time.dev, lossless := true, vc := 6
                     poison := data.any (·.2) }
  if s.isFlockPort (cmPort r j) then s.penEnter (128 + paddock) f [cmPort r j] else s

/-- Send a NOTE about collective `seq` of communicator row `row` to the lead (R376, R378); it is remembered until a START
or an ABORT answers it (R466). -/
def State.collNote (s : State) (row seq code : Nat) : State :=
  let r := s.comm row
  let p := cmId r % 16
  let s := s.collSend p r 0x42 (s.leadOf r) p (collHdr (cmId r) seq 0 0 1 0 0 0 0 0 0 0 0 0 0) [(BitVec.ofNat 8 code, false)]
  if s.coll.notes.contains (row, seq, code) then s
  else { s with coll := { s.coll with notes := s.coll.notes ++ [(row, seq, code)] } }

/-- Send run `op` from this device along axis `ax` over the box's line (R368): one run of extent − 1 hops in direction
`dir` where the line is a whole wrapped ring, else one run to each end of the box. `paddock` names the sinks. -/
def State.collRun (s : State) (r op ax dir paddock srcPort h : Nat) (data : PBytes) : State :=
  let e := cmExt r ax
  let at_ := s.boxAt r s.own ax
  let dev := fun i => s.boxDev r (if ax = 0 then i else s.boxAt r s.own 0) (if ax = 1 then i else s.boxAt r s.own 1)
    (if ax = 2 then i else s.boxAt r s.own 2)
  if e ≤ 1 then s
  else if e = s.dim ax ∧ s.wrapped ax then
    s.collSend paddock r op (dev (if dir = 0 then (at_ + e - 1) % e else (at_ + 1) % e)) srcPort h data
  else
    let s := if at_ + 1 < e then s.collSend paddock r op (dev (e - 1)) srcPort h data else s
    if 0 < at_ then s.collSend paddock r op (dev 0) srcPort h data else s

/-- Runs a device issues for a frame it got on down stage `via` (3: it is the origin; 4 Z, 5 Y, 6 X): Z, Y, X from the origin, Y and X
after Z, X after Y (R229, R368). `mk` gives the header for a down stage. -/
def State.collSpread (s : State) (r op via dir paddock srcPort : Nat) (mk : Nat → Nat) (data : PBytes) : State :=
  let s := if via ≤ 3 then s.collRun r op 2 dir paddock srcPort (mk 4) data else s
  let s := if via ≤ 4 then s.collRun r op 1 dir paddock srcPort (mk 5) data else s
  if via ≤ 5 then s.collRun r op 0 dir paddock srcPort (mk 6) data else s

/-! ### Segments (R359) -/

/-- Elements a segment holds at most, of a format, within `limit` data bytes. -/
def segElems (f limit : Nat) : Nat := max 1 (fitElems f limit)

/-- Data bytes of a segment of partial sums: 32 XP64 blocks, or 256 WIDE elements. -/
def stepLimit (f : Nat) : Nat := if f = fmtXp64 then 32 * 280 else 256 * 48

/-- Cut a chunk of `n` elements in format `f` into segments; a spill list makes one more. -/
def cutSegs (f n limit : Nat) (data : PBytes) (spill : List (Nat × Acc)) : List Seg :=
  let per := segElems f limit
  let k := (n + per - 1) / per
  let total := k + (if spill.isEmpty then 0 else 1)
  let main := (List.range k).map (fun i =>
    let cnt := min per (n - i * per)
    ({ idx := i, nseg := total, off := i * per, cnt := cnt
       data := (data.drop (fmtOff f (i * per))).take (fmtBytes f cnt) } : Seg))
  main ++ (if spill.isEmpty then [] else
    [({ idx := k, nseg := total, spill := true, cnt := spill.length
        data := spill.flatMap (fun x => pclean (leBytes 8 x.1 ++ x.2.wide ++ List.replicate 8 0)) } : Seg)])

/-- The spill entries of a spill segment (R333). -/
def spillsOf (g : Seg) : List (Nat × Acc) :=
  (List.range (g.data.length / 64)).map (fun i =>
    (g.data.num (64 * i) 8,
     if g.data.bad (64 * i) 64 then { poison := true } else accOfWide (g.data.num (64 * i + 8) 40) (g.data.num (64 * i + 48) 8)))

/-- The elements of a data segment. -/
def Seg.accs (g : Seg) (f : Nat) (sc : Int) (spill : List (Nat × Acc)) : List Acc :=
  (List.range g.cnt).map (fun i =>
    if f = fmtXp64 then xpElem g.data (i / 32 * 280) (i % 32) i (fun _ => (spill.find? (fun e => e.1 == g.off + i)).map (·.2))
    else accAt f sc g.data 0 i)

/-- The residue of a segment's elements at their chunk positions (R293, R360). -/
def Seg.residue (g : Seg) (f : Nat) (sc : Int) : Nat :=
  if g.spill then
    (spillsOf g).foldl (fun a e =>
      let v := e.2.value
      let x := v.2 % resP
      (a + pow3 e.1 * (if v.1 then resP - x else x)) % resP) 0
  else Sys2Proof.Machine.residue g.off (g.accs f sc [])

/-- A segment with its frame's poison flag left aside: a residue is that of the values the data spells (R293). -/
def Seg.clean (g : Seg) : Seg := { g with data := pclean g.data.raw }

/-- CRC-32C of a segment's data. -/
def Seg.crc (g : Seg) : Nat := crc32c (g.data.map (·.1))

/-- Whether every segment of a list of one chunk has arrived. -/
def segsDone (l : List Seg) : Bool :=
  match l with
  | [] => false
  | g :: _ => (List.range g.nseg).all (fun i => l.any (fun x => x.idx == i))

/-- The elements of a chunk from its segments: places no segment covers hold no term (R356). -/
def chunkAccs (f : Nat) (sc : Int) (n : Nat) (l : List Seg) : List Acc :=
  let spill := (l.filter (·.spill)).flatMap spillsOf
  let parts := (l.filter (fun g => !g.spill)).map (fun g => (g.off, g.accs f sc spill))
  (List.range n).map (fun i =>
    match parts.find? (fun p => decide (p.1 ≤ i ∧ i < p.1 + p.2.length)) with
    | some p => p.2.getD (i - p.1) Acc.zero
    | none => Acc.zero)

/-- The bytes of a chunk from its segments, in a format that is passed on unchanged; missing elements are zero bytes. -/
def chunkBytes (f n : Nat) (l : List Seg) : PBytes :=
  l.foldl (fun (a : PBytes) g =>
    let o := fmtOff f g.off
    let k := min g.data.length (a.length - o)
    a.take o ++ g.data.take k ++ a.drop (o + k)) (List.replicate (fmtBytes f n) (0, false))

/-! ### Collectives here -/

def State.inst (s : State) (id : Nat) : CInst := TMap.get {} s.coll.insts id
def State.setInst (s : State) (id : Nat) (c : CInst) : State :=
  { s with coll := { s.coll with insts := TMap.put {} s.coll.insts id c } }
def State.dropInst (s : State) (id : Nat) : State :=
  { s with coll := { s.coll with insts := TMap.erase s.coll.insts id } }

/-- The collective of a (communicator, seq). -/
def State.findInst (s : State) (comm seq : Nat) : Option Nat :=
  (s.coll.insts.find? (fun x => cmId (s.comm x.2.row) == comm && x.2.seq == seq)).map (·.1)

def CInst.chunk (c : CInst) (k : Nat) : CChunk := TMap.get {} c.chunks k
def CInst.setChunk (c : CInst) (k : Nat) (x : CChunk) : CInst := { c with chunks := TMap.put {} c.chunks k x }

/-- A stray or stale frame (R383). -/
def State.collStray (s : State) : State := (s.count O.COLL_STAT 8 1).raise O.COLL_ERR 8
def State.collStale (s : State) : State := (s.count O.COLL_STAT 9 1).raise O.COLL_ERR 8

/-- Local members that contribute: every one, or for BROADCAST the root alone. -/
def State.senders (s : State) (c : CInst) : List Nat :=
  let r := s.comm c.row
  let mine := s.boxIndex r s.own
  match pKind c.post with
  | 3 => if pRoot c.post / cmM r = mine then [pRoot c.post % cmM r] else []
  | 5 => []
  | _ => List.range (cmM r)

/-- The chunk that local member `j`'s contribution chunk `k` is here: an ALL_GATHER keeps each member's apart. -/
def State.inKey (s : State) (c : CInst) (j k : Nat) : Nat :=
  if pKind c.post = kAllGather then (s.boxIndex (s.comm c.row) s.own * cmM (s.comm c.row) + j) * s.chunksOf c + k else k

/-- The local members that contribute to chunk `k` of this device. -/
def State.sendersOf (s : State) (c : CInst) (k : Nat) : List Nat :=
  if pKind c.post = kAllGather then
    let r := s.comm c.row
    let j := k / max 1 (s.chunksOf c)
    let lo := s.boxIndex r s.own * cmM r
    if lo ≤ j ∧ j < lo + cmM r then [j - lo] else []
  else s.senders c

/-- Whether the members' contributions to chunk `k` are all here. A BARRIER waits for the members' POSTs. -/
def State.flockReady (s : State) (c : CInst) (k : Nat) : Bool :=
  let r := s.comm c.row
  if pKind c.post = kBarrier then
    (List.range (cmM r)).all (fun j => s.coll.posts.any (fun p => p.comm == cmId r && p.seq == c.seq && p.member == j))
  else
    let l := s.sendersOf c k
    !l.isEmpty && l.all (fun j => segsDone (((c.chunk k).ins.filter (fun x => x.1 == j)).map (·.2)))

/-- A chunk's partial as elements. -/
def CInst.partAccs (c : CInst) (stepFmt n k : Nat) : List Acc :=
  match (c.chunk k).part with
  | none => List.replicate n Acc.zero
  | some p => (List.range n).map (fun i => accAt stepFmt 0 p.1 0 i (fun e => (p.2.find? (fun x => x.1 == e)).map (·.2)))

/-- The descriptor of a Drover operation: a REDUCE of `k` lists of `n` elements, due by the end of tick `bell`
(R365, R373). -/
def droverDesc (k n rmode bell : Nat) (fmt : Nat) (sc : Int) : Nat :=
  let slot := fun (f : Nat) (sc : Int) => f <<< 96 + 2 <<< 101 + sbits 9 sc <<< 104
  0x01 + rmode <<< 8 + 1 <<< 16 + n <<< 64 + k <<< 256 + (bell % 2 ^ 48) <<< 384 +
  (slot fmtWide 0) <<< 512 + (slot fmt sc) <<< 896

/-- Post a Drove operation for chunk `k` of collective `id` in stage `stage`. -/
def State.collPost (s : State) (id k stage n rmode fmt : Nat) (sc : Int) (feeds : List (List Acc)) : State :=
  let c := s.inst id
  let op : Op := { desc := droverDesc feeds.length n rmode s.bell fmt sc, source := 0xFF
                   origin := .drover id (8 * k + stage), pasture := cmPasture (s.comm c.row), feeds := feeds }
  let s := s.setInst id (c.setChunk k { c.chunk k with busy := true })
  { s with drove := { s.drove with drover := s.drove.drover ++ [op] } }

/-- The STEP segments of chunk `k` at up stage `st`. -/
def CChunk.stepSegs (x : CChunk) (st : Nat) : List Seg := (x.steps.filter (fun y => y.1 == st)).map (·.2)

/-- Send a chunk's partial to the next device of its chain on axis `ax` (R366, R367). -/
def State.sendSteps (s : State) (id k ax : Nat) : State :=
  let c := s.inst id
  let r := s.comm c.row
  let x := c.chunk k
  let n := (s.chunkSpan c k).2
  let d := s.dirOf c k
  let e := cmExt r ax
  let nbr := if d = 0 then (s.boxAt r s.own ax + 1) % e else (s.boxAt r s.own ax + e - 1) % e
  let dev := s.boxDev r (if ax = 0 then nbr else s.boxAt r s.own 0) (if ax = 1 then nbr else s.boxAt r s.own 1)
    (if ax = 2 then nbr else s.boxAt r s.own 2)
  let f := cmStepFmt r
  let segs := cutSegs f n (stepLimit f) (x.part.getD ([], [])).1 (x.part.getD ([], [])).2
  segs.foldl (fun s g =>
    let h := collHdr (cmId r) c.seq k g.idx g.nseg (ax + 1) d 0 f (b2n g.spill) g.off g.cnt (g.clean.residue f 0) x.rflags 0
    (s.collSend (s.homePaddock c) r 0x44 dev ((8 * k + g.idx) % 1024) h g.data).tally 0x0902 0) s

/-- Move chunk `k` on from the up stage it stands at: skip axes of extent 1 and axes it owns nothing to wait for, send
its partial where this device begins or ends a chain (R366). It stops where a STEP must come first. -/
def State.collUp (s : State) (id k : Nat) : Nat → State
  | 0 => s
  | fuel + 1 =>
    let c := s.inst id
    let r := s.comm c.row
    let x := c.chunk k
    if x.stage = 0 ∨ 4 ≤ x.stage then s
    else
      let ax := x.stage - 1
      let e := cmExt r ax
      let at_ := s.boxAt r s.own ax
      let o := s.ownerOf c k ax
      let first := if s.dirOf c k = 0 then (o + 1) % e else (o + e - 1) % e
      if e = 1 then (s.setInst id (c.setChunk k { x with stage := x.stage + 1 })).collUp id k fuel
      else if at_ = first ∧ at_ ≠ o then
        let s := s.sendSteps id k ax
        let c := s.inst id
        s.setInst id (c.setChunk k { c.chunk k with stage := 7, part := none })
      else s

/-- Deliver a result chunk to local member `j` as OUT segments (R369). -/
def State.collOut (s : State) (id k j : Nat) (data : PBytes) (rflags : Nat) : State :=
  let c := s.inst id
  let r := s.comm c.row
  let n := (s.chunkSpan c k).2
  (cutSegs c.outFmt n 8192 data []).foldl (fun s g =>
    s.collToMember (s.homePaddock c) r 0x51 j
      (collHdr (cmId r) c.seq k g.idx g.nseg 7 0 1 c.outFmt 0 g.off g.cnt g.crc rflags 0) g.data) s

/-- The local members that receive chunk `k`. -/
def State.receivers (s : State) (c : CInst) (k : Nat) : List Nat :=
  let r := s.comm c.row
  match pKind c.post with
  | 1 => [k / max 1 (s.chunksOf c) % cmM r]
  | 4 => if pRoot c.post / cmM r = s.boxIndex r s.own then [pRoot c.post % cmM r] else []
  | 5 => []
  | _ => List.range (cmM r)

/-- A result chunk is here: its runs go on and its members get it (R368, R369). -/
def State.collDeliver (s : State) (id k : Nat) : State :=
  let c := s.inst id
  let r := s.comm c.row
  let x := c.chunk k
  let n := (s.chunkSpan c k).2
  let s := if hasDown (pKind c.post) then
      (cutSegs c.outFmt n 16384 x.result []).foldl (fun s g =>
        s.collSpread r 0x59 x.via (s.dirOf c k) (s.homePaddock c) ((8 * k + g.idx) % 1024)
          (fun st => collHdr (cmId r) c.seq k g.idx g.nseg st (s.dirOf c k) 1 c.outFmt 0 g.off g.cnt g.crc x.rflags 0) g.data) s
    else s
  let s := (s.receivers c k).foldl (fun s j => s.collOut id k j x.result x.rflags) s
  let c := s.inst id
  s.setInst id { c.setChunk k { stage := 7 } with
    out := c.out + 1, rflags := c.rflags ||| x.rflags, poisoned := c.poisoned || x.result.any (·.2), last := s.bell }

/-- Work that the start of a tick finds complete for chunk `k` (R365, R366, R373). -/
def State.collIssueChunk (s : State) (id k : Nat) : State :=
  let c := s.inst id
  let r := s.comm c.row
  let x := c.chunk k
  let n := (s.chunkSpan c k).2
  let f := cmStepFmt r
  if x.busy then s
  else match x.stage with
    | 0 =>
      if !s.flockReady c k then s
      else if hasUp (pKind c.post) then
        let feeds := if pKind c.post = kBarrier then
            List.replicate (cmM r) [({ a := 2 ^ 151, terms := 1, negzero := false } : Acc)]
          else (s.senders c).map (fun j => chunkAccs c.inFmt c.inScale n ((x.ins.filter (fun y => y.1 == j)).map (·.2)))
        s.collPost id k 0 n 0 f 0 feeds
      else
        -- ALL_GATHER and BROADCAST reduce nothing: the member's chunk is the result
        let s := s.setInst id (c.setChunk k { x with stage := 5, via := 3, result := chunkBytes c.inFmt n (x.ins.map (·.2)) })
        s.collDeliver id k
    | 4 => s.collPost id k 4 n (pRmode c.post) c.outFmt c.outScale [c.partAccs f n k]
    | 5 => s.collDeliver id k
    | 7 => s
    | st =>
      let segs := x.stepSegs st
      if segsDone segs then s.collPost id k st n 0 f 0 [c.partAccs f n k, chunkAccs f 0 n segs] else s

/-- GRANT the members that posted chunks up to the limit (R362, R365). -/
def State.collGrant (s : State) (id : Nat) (again : Bool) : State :=
  let c := s.inst id
  let r := s.comm c.row
  let lowest := ((List.range (s.inChunks c)).find? (fun k =>
    (s.senders c).any (fun j => (c.chunk (s.inKey c j k)).stage == 0))).getD (s.inChunks c)
  let limit := min (s.inChunks c) (lowest + cmBufs r)
  let posted := (s.senders c).filter (fun j => s.coll.posts.any (fun p => p.comm == cmId r && p.seq == c.seq && p.member == j))
  let dsts := posted.filter (fun j => again || limit != c.limit || !c.granted.contains j)
  let s := dsts.foldl (fun s j => s.collToMember (s.homePaddock c) r 0x50 j
    (collHdr (cmId r) c.seq 0 0 1 0 0 0 0 0 0 0 0 0 limit) []) s
  let c := s.inst id
  s.setInst id { c with limit := limit, granted := (c.granted ++ dsts).eraseDups }

/-- A Drove operation of the Drover has completed (R365, R366): its sum becomes the chunk's partial, or its result. -/
def State.collStepDone (s : State) (id code : Nat) (op : Op) : State :=
  if !TMap.has s.coll.insts id then s
  else
    let c := s.inst id
    let r := s.comm c.row
    let k := code / 8
    let st := code % 8
    let x := c.chunk k
    let at_ := fun ax => s.boxAt r s.own ax
    let rf := x.rflags ||| op.flags
    let c := { c with last := s.bell }
    if st = 4 then
      s.setInst id (c.setChunk k { x with busy := false, stage := 5, via := 3, result := op.inline, part := none
                                          rflags := rf, steps := [], ins := [] })
    else
      let x := { x with busy := false, part := some (op.inline, op.spillOut), rflags := rf, ins := []
                        steps := x.steps.filter (fun y => y.1 != st) }
      if st = 0 then ((s.setInst id (c.setChunk k { x with stage := 1 })).collUp id k 4).collGrant id false
      else if at_ (st - 1) = s.ownerOf c k (st - 1) then
        (s.setInst id (c.setChunk k { x with stage := st + 1 })).collUp id k 4
      else
        let s := (s.setInst id (c.setChunk k x)).sendSteps id k (st - 1)
        let c := s.inst id
        s.setInst id (c.setChunk k { c.chunk k with stage := 7, part := none })

end Sys2Proof.Machine
end

