-- ==== Sys2Proof/Machine/MusterLog.lean ====
section
/-!
DEFINITION. The sender-side log (R469 to R471): which frames are logged, and the appending of entries.
-/

namespace Sys2Proof.Machine

/-- Bytes of a log entry: a 32-byte header and the frame, padded to a multiple of 32 (R470). -/
def LogEntry.size (e : LogEntry) : Nat := 32 + (e.frame.length + 31) / 32 * 32

/-- Bytes used in a segment. -/
def LogSeg.used (g : LogSeg) : Nat := (g.entries.map LogEntry.size).sum

/-- The log entry header as stored (R470). -/
def LogEntry.header (e : LogEntry) : Nat :=
  e.bell % 2 ^ 48 + (e.dest % 512) <<< 48 + (e.kind % 2) <<< 57 + (e.frame.length % 65536) <<< 64 +
  (e.lseq % 2 ^ 32) <<< 96

/-- Under which device, and as which kind, a frame departing at `d` with header `h` is logged (R469). -/
def State.loggedUnder (s : State) (d h : Nat) : Option (Nat × Nat) :=
  if d < 1024 ∧ s.isLink (d / 8) ∧ s.muster.logMib ≠ 0 then
    if hVc h = 5 ∨ hVc h = 6 then some (s.peer (d / 8), 0)
    else if (hOp h = 0x11 ∨ hOp h = 0x12 ∨ hOp h = 0x13 ∨ hOp h = 0x14 ∨ hOp h = 0x16) ∧ hSrcDev h = s.own then
      some (hDstDev h, 1)
    else none
  else none

/-- The newest entry of a segment gives its destination's trimmed bell when the segment is freed (R470). -/
def State.freeSeg (s : State) (i : Nat) : State :=
  match s.muster.segs[i]? with
  | some g =>
    let b := match g.entries.getLast? with | some e => e.bell + 1 | none => TMap.get 0 s.muster.trimmed g.dest
    { s with muster := { s.muster with segs := s.muster.segs.eraseIdx i
                                       trimmed := TMap.put 0 s.muster.trimmed g.dest b } }
  | none => s

/-- MUSTER_LOG_USED: segments in use. -/
def State.logUsed (s : State) : Nat := s.muster.segs.length

/-- The stack that takes the log entries of paddock `p` (R470): its own, or while that is gated or fenced the others of its
die in rotation (R593). -/
def State.logStack (s : State) (p : Nat) : Nat :=
  let shut := fun (k : Nat) => s.stackGated k || (s.ob O.FENCE_STACKS).testBit k
  let others := ([0, 1, 2, 3].map (fun i => 4 * (p / 4) + i)).filter (fun k => k != p && !shut k)
  if !shut p || others.isEmpty then p
  else (others[(s.muster.lseq.map (·.2)).sum % others.length]?).getD p

/-- Room for an entry of `size` bytes for `dest` on `stack`: the last segment of the pair, or none. -/
def State.segFor (s : State) (stack dest size : Nat) : Option Nat :=
  let ok := (List.range s.muster.segs.length).filter (fun i =>
    match s.muster.segs[i]? with
    | some g => g.stack == stack && g.dest == dest && decide (g.used + size ≤ 1048576)
    | none => false)
  ok.getLast?

/-- Whether the stack has a free segment. -/
def State.segFree (s : State) (stack : Nat) : Bool :=
  decide ((s.muster.segs.filter (fun g => g.stack == stack)).length < s.muster.logMib)

/-- Make room on `stack` for an entry (R471): a free segment; in mode 1 the oldest segment that is not frozen is
freed at once and counted; answers none when the frame must wait. -/
def State.logRoom (s : State) (stack dest size : Nat) : Option State :=
  if (s.segFor stack dest size).isSome ∨ s.segFree stack then some s
  else if s.ob O.MUSTER_LOG_MODE = 1 then
    match s.muster.segs.findIdx? (fun g => g.stack == stack && !s.muster.frozen.contains g.dest) with
    | some i => some (((s.freeSeg i).count O.MUSTER_STAT 7 1).raise O.MUSTER_ERR 3)
    | none => none
  else none

/-- Append an entry of kind `kind` for `dest` to the log of `stack` (R470). -/
def State.logAppend (s : State) (stack dest kind : Nat) (frame : List Byte) : State :=
  let n := TMap.get 0 s.muster.lseq dest
  let e : LogEntry := { bell := s.bell, dest := dest, kind := kind, lseq := n, frame := frame }
  let segs := match s.segFor stack dest e.size with
    | some i => s.muster.segs.modify i (fun g => { g with entries := g.entries ++ [e] })
    | none => s.muster.segs ++ [{ stack := stack, dest := dest, entries := [e] }]
  let s := s.tally 0x0C01 0 e.size
  { s with muster := { s.muster with segs := segs, lseq := TMap.put 0 s.muster.lseq dest ((n + 1) % 2 ^ 32) } }

end Sys2Proof.Machine
end

