-- ==== Sys2Proof/Machine/LinkOps.lean ====
section
/-!
DEFINITION. Flits, credits and the states of a Fold link (R190 to R210): operations shared by the link commands and
by departures.
-/

namespace Sys2Proof.Machine

/-! ### Flits -/

/-- One bit step of the CRC-24 of a flit (R193). -/
def crc24Bit (r : Nat) : Nat := if r.testBit 23 then xorN (2 * r % 2 ^ 24) 0x864CFB else 2 * r % 2 ^ 24

/-- One byte of the CRC-24. -/
def crc24Byte (r : Nat) (b : Byte) : Nat :=
  crc24Bit (crc24Bit (crc24Bit (crc24Bit (crc24Bit (crc24Bit (crc24Bit (crc24Bit (xorN r (b.toNat <<< 16)))))))))

/-- crc24 over header bytes 0 to 16 and the payload (R193). -/
def crc24 (h : Nat) (payload : List Byte) : Nat :=
  ((beBytes 20 h).take 17 ++ payload).foldl crc24Byte 0xFFFFFF

/-- A credit return as a 16-bit field: VC, shared, cells (R193). `space` is VC + 16·shared. -/
def cretField (r : Nat × Nat) : Nat := (r.1 % 8) <<< 13 + (r.1 / 16 % 2) <<< 12 + r.2 % 4096

/-- The space and cells of a credit return field. -/
def cretOf (x : Nat) : Nat × Nat := (bits x 13 3 + 16 * bits x 12 1, bits x 0 12)

/-- The header of a flit (R193) with its CRC. -/
def flitHeader (type seq ack nak start shared c0 c1 : Nat) (payload : List Byte) : Nat :=
  let h := type <<< 152 + (seq % 2 ^ 24) <<< 128 + (ack % 2 ^ 24) <<< 104 + nak <<< 103 + start <<< 76 +
    shared <<< 56 + c0 <<< 40 + c1 <<< 24
  h + crc24 h payload

/-- The number of the last flit received in order (R193). -/
def Block.ack (x : Block) : Nat := (x.rxSeq + 2 ^ 24 - 1) % 2 ^ 24

/-- Flits a frame of `n` bytes occupies when it starts a flit (R192). -/
def flitsOf (n : Nat) : Nat := ((n + 31) / 32 + 19) / 20

/-- Flits the replay buffer of block `b` holds: 1,024 on die, or the pool of a reach block (R202). -/
def State.replaySize (s : State) (b : Nat) : Nat :=
  if s.role b = 3 then s.bob b O.PORT_POOL_MIB * 1048576 / 640 else 1024

/-- Take up to two credit returns for a flit (R200); none while the parser FIFO holds 192 frames or more (R140). -/
def takeReturns (x : Block) : List (Nat × Nat) × List (Nat × Nat) :=
  if 192 ≤ x.fifo then ([], x.returns)
  else
    let two := (x.returns.take 2).map (fun r => (r.1, min r.2 4095))
    let left := (x.returns.take 2).filterMap (fun r => if r.2 ≤ 4095 then none else some (r.1, r.2 - 4095))
    (two, left ++ x.returns.drop 2)

/-- The lane on which the flit numbered `s` goes out (R191). -/
def laneOf (seq : Nat) : Option Nat := some (seq % 8)

/-- Send one data flit on block `b` with acknowledgement, a nak that is due and credit returns, and keep it for replay (R191,
R192, R202, R203); `ends` is the pasture of a frame that ends in it. -/
def State.sendFlit (s : State) (b start shared : Nat) (payload : List Byte) (ends : Option Nat := none) : State :=
  let x := s.block b
  let r := takeReturns x
  let cr := r.1.map cretField
  let h := flitHeader 1 x.txSeq x.ack (b2n x.nakDue) start shared (cr.getD 0 0) (cr.getD 1 0) payload
  let f : Flit := { seq := x.txSeq, start := start, shared := shared, crets := cr, ends := ends, payload := payload }
  (s.setBlock b { x with txSeq := (x.txSeq + 1) % 2 ^ 24, replay := x.replay ++ [f], returns := r.2, nakDue := false
                         ackTold := x.rxSeq, ackAt := if x.replay.isEmpty then s.now else x.ackAt }).transmit b
    (.flit b (laneOf x.txSeq) (beBytes 20 h) payload) |>.tally 0x0200 b

/-- Send a frame as flits: it starts at chunk 0 of a flit, the rest of its last flit idle fill (R192; where in a
flit a frame starts is the sender's choice, log entry 13). -/
def State.sendFrameFlits (s : State) (b : Nat) (bytes : List Byte) (shared : Bool) : State :=
  (List.range (flitsOf bytes.length)).foldl (fun s i =>
    s.sendFlit b (if i = 0 then 2 ^ 19 else 0) (if i = 0 ∧ shared then 2 ^ 19 else 0)
      (padTo 640 ((bytes.drop (640 * i)).take 640))
      (if i + 1 = flitsOf bytes.length then some (beAt bytes 0 2 % 4096) else none)) s

/-- Whether the replay buffer of block `b` has room for `n` new flits (R202). -/
def State.flitRoom (s : State) (b n : Nat) : Bool := decide ((s.block b).replay.length + n ≤ s.replaySize b)

/-- A flit that carries acknowledgements and credit returns alone (R192), while the replay buffer takes a new one (R202). -/
def State.sendIdle (s : State) (b : Nat) : State :=
  if s.flitRoom b 1 then s.sendFlit b 0 0 (List.replicate 640 0) else s

/-- A training idle flit (R193, R194): unsequenced and never delivered. -/
def State.sendTraining (s : State) (b : Nat) : State :=
  let payload := List.replicate 640 0
  s.transmit b (.flit b none (beBytes 20 (flitHeader 0 0 (s.block b).ack 0 0 0 0 0 payload)) payload)

/-! ### Link states -/

/-- Set the state of port `p` (encoded as in PORT_STATE). -/
def State.setPortState (s : State) (p v : Nat) : State :=
  s.modBlock (p / 8) (fun x => { x with states := TMap.put 0 x.states (p % 8) v })

/-- The present link_epoch of block `b` (R196): the random draw of its last reset, plus its increments. -/
def State.linkEpoch (s : State) (b : Nat) : Nat :=
  ((Config.freeEpoch (s.block b).epochSeed b).toNat + (s.block b).epochInc) % 2 ^ 32

/-- The ports that exist on block `b` (R8). -/
def State.ports (s : State) (b : Nat) : List Nat :=
  (List.range (if s.isLink b then 1 else s.bob b O.PORT_SPLIT)).map (fun i => 8 * b + i)

/-- Fields of a CIRC_EXPECT row (R250). -/
def exSerial (r : Nat) : Nat := bits r 0 64
def exBlock (r : Nat) : Nat := bits r 64 7
def exValid (r : Nat) : Bool := r.testBit 71
def exDev (r : Nat) : Nat := bits r 72 9
def exCheck (r : Nat) : Bool := r.testBit 81

/-- Whether block `b` keeps presets: ring and circuit blocks (R248). -/
def State.keepsPresets (s : State) (b : Nat) : Bool := s.role b == 2 || s.role b == 4

/-- Whether link feature `i` is in effect on block `b` (R510, R511): what its last bring-up agreed, or before one what
this device accepts (log entry 14). -/
def State.lFeature (s : State) (b i : Nat) : Bool :=
  let v := s.bob b O.PORT_FEAT
  (if v = 0 then s.ob O.FEAT_ACCEPT else v).testBit i

/-- The slot of block `b` that holds a preset for the peer `serial`, `block`. -/
def State.presetFor (s : State) (b serial block : Nat) : Option Nat :=
  (List.range 64).find? (fun i =>
    let r := s.row O.CIRC_PRESET (64 * b + i)
    r.testBit 71 && bits r 0 64 == serial && bits r 64 7 == block)

/-- A block in wait with signal on all lanes enters train (R194, R252), from where its partner sees training idle flits, the
first of which it sends: a preset for the expected peer is loaded where there is one. -/
def State.tryTrain (s : State) (b : Nat) : State :=
  let x := s.block b
  if !s.isLink b || x.inner != 1 || x.signal != 255 || s.blockFenced b || s.unclocked b then s
  else
    let s := if (s.portState (8 * b)) = 7 then s else s.setPortState (8 * b) 2
    let s := (s.modBlock b (fun x => { x with inner := 2, stepAt := some (s.now + 50000000), lastUsed := false })).sendTraining b
    let ex := s.row O.CIRC_EXPECT b
    if s.keepsPresets b && exValid ex && s.lFeature b 7 then
      match s.presetFor b (exSerial ex) (exBlock ex) with
      | some i =>
        let r := s.row O.CIRC_PRESET (64 * b + i)
        let uses := min 0xFFFFFFFF (bits r 128 32 + 1)
        let s := s.setRow O.CIRC_PRESET (64 * b + i) (setBits (setBits r 96 32 s.bell) 128 32 uses)
        s.modBlock b (fun x => { x with presetSlot := some i, presetAt := some (s.now + 20000), stepAt := none, lastSlot := i
                                        preset := r })
      | none => s.count O.CIRC_STAT 3 1
    else s

/-- Bring-up restarts from wait (R194); `ask` says that it runs from hold and asks to resume (R204), which only a link
with feature 6 does (R509), and none that is armed (R255). -/
def State.restartWait (s : State) (b : Nat) (ask : Bool) : State :=
  (s.modBlock b (fun x => { x with inner := 1, stepAt := none, trained := 0, locked := 0
                                   askResume := ask && s.lFeature b 6 && x.armAt.isNone
                                   nakDue := false, skewed := []
                                   helloSeen := false, helloSent := 0, echoes := 0, rttMin := 0
                                   presetSlot := none, presetAt := none })).tryTrain b

/-- The frame in transmission at destination `d`, if any, is cut short and dropped; answers the number. -/
def State.cutDeparture (s : State) (d : Nat) : State × Nat :=
  match (s.ep d).dep with
  | some x => ((((s.modEp d (fun e => { e with dep := none })).unlink x.copy x.queue x.cellRead).countDrop x.queue), 1)
  | none => (s, 0)

/-- Every frame of port `p` is dropped, one in transmission with them, and counted in link_drops of its block. -/
def State.emptyPort (s : State) (p : Nat) : State :=
  let c := s.cutDeparture p
  let r := c.1.dropPort p
  r.1.portCount (p / 8) 6 (c.2 + r.2)

/-- What the reset of a link drops (R206): the frames of its replay buffer, a partial frame, one in transmission and those
queued, counted in link_drops. -/
def State.linkClear (s : State) (b : Nat) : State :=
  let x := s.block b
  let n := (x.replay.filter (fun f => f.ends.isSome)).length + b2n (!x.partialRx.isEmpty)
  let s := (s.emptyPort (8 * b)).portCount b 6 n
  s.modBlock b (fun x => { x with replay := [], replays := 0, partialRx := [], credits := []
                                  granted := [], charged := [], returns := [], txSeq := 0, rxSeq := 0, nakSent := false
                                  nakDue := false, ackTold := 0, skewed := []
                                  askResume := false, holdAt := none, quiesceAt := none })

/-- Reset the link of block `b` (R206): what it holds goes, credits are loaded from the next hello, and bring-up starts
from wait. -/
def State.linkReset (s : State) (b : Nat) : State :=
  ((s.linkClear b).setPortState (8 * b) 1).restartWait b false

/-- The link of block `b` enters hold (R204): replay buffer, credits and a partial frame are kept; bring-up restarts
from wait. A hold time of 0 resets it at once (R206). -/
def State.linkHold (s : State) (b : Nat) : State :=
  if s.bob b O.PORT_HOLD_MS = 0 then s.linkReset b
  else
    let x := s.block b
    let s := s.setBlock b { x with quiesceAt := none, holdAt := some (match x.holdAt with
      | some t => t
      | none => s.now + s.bob b O.PORT_HOLD_MS * 1000000) }
    (s.setPortState (8 * b) 7).restartWait b true

/-- Flush the dynamic Heft entries that point to flock port `p` on its die, if the port says so (R162). -/
def State.flushDown (s : State) (p : Nat) : State :=
  if (s.row O.FWD_PORTCFG p).testBit 62 then
    s.heftFlush (2 ^ (p / 256)) (fun e => !eStatic e && eDev e == s.own && ePort e == p)
  else s

/-- A flock port's link goes down (R207): its frames are kept for PORT_HOLD_MS, which at 0 is over at once; its Heft entries
may be flushed. -/
def State.flockDown (s : State) (p : Nat) : State :=
  let b := p / 8
  let s := (s.flushDown p).setPortState p 1
  if s.bob b O.PORT_HOLD_MS = 0 then
    let r := s.dropPort p
    r.1.portCount b 6 r.2
  else s.modBlock b (fun x =>
    { x with portDownAt := TMap.put 0 x.portDownAt (p % 8) (s.now + s.bob b O.PORT_HOLD_MS * 1000000) })

/-- Take block `b` down for a change of role, split or lane rate (R37, R188): its frames, one in transmission among them,
drop and count, its lanes go to electrical idle, and no bring-up goes on. -/
def State.blockDown (s : State) (b : Nat) : State :=
  let s := if s.isLink b then s.linkClear b else
    (s.ports b).foldl (fun s p => (if s.portState p = 6 then s.flushDown p else s).emptyPort p) s
  s.modBlock b (fun x => { x with states := [], inner := 0, signal := 0, locked := 0, trained := 0, portDownAt := [], stepAt := none
                                  presetSlot := none, presetAt := none, quiesceAt := none, holdAt := none, askResume := false })

/-- Block `b` starts bring-up under its present role: off, or wait on each of its ports. -/
def State.blockStart (s : State) (b : Nat) : State :=
  if s.role b = 0 then s.modBlock b (fun x => { x with states := [] })
  else if s.blockFenced b then s
  else ((s.ports b).foldl (fun s p => s.setPortState p 1) s).restartWait b false

end Sys2Proof.Machine
end

