-- ==== Sys2Proof/Machine/FoldCmds.lean ====
section
/-!
DEFINITION. Meanings of the Fold's commands (chapter 02): admission, the gate matcher, ridge links, eviction and fetch.
-/

namespace Sys2Proof.Machine

/-! ### Admission (R82 to R84, R117, R226) -/

/-- A T64 as ns since the start of its 34-bit seconds. -/
def t64Ns (t : Nat) : Nat := (t / 2 ^ 30) * 1000000000 + t % 2 ^ 30

/-- The span of T64 in ns. -/
def t64Span : Nat := 2 ^ 34 * 1000000000

/-- ns from T64 `a` to T64 `b`, taken the shorter way round; 0 when `b` is before `a`. -/
def t64After (a b : Nat) : Nat :=
  let d := (t64Ns b + t64Span - t64Ns a) % t64Span
  if d < t64Span / 2 then d else 0

/-- A launch time beyond the port's horizon at admission (R117). -/
def State.beyondHorizon (s : State) (f : Frame) (d : Nat) : Bool :=
  let hz := bits (s.row O.EGR_PORTCFG d) 104 24
  match f.launch with
  | some t => hz != 0 && decide (hz * 1000 < t64After s.t64 t)
  | none => false

/-- Whether the member passes admission with `n` cells, an entering frame with 33 more (R226). -/
def State.memberPasses (s : State) (c : Copy) (qid : Nat) : Bool :=
  s.admits qid c.frame.pasture (c.frame.cells + if s.entersRing c.frame (qid / 12) then 33 else 0)

/-- Refused only for the hurdle's difference. -/
def State.hurdleOnly (s : State) (c : Copy) (qid : Nat) : Bool :=
  s.entersRing c.frame (qid / 12) && !s.memberPasses c qid && s.admits qid c.frame.pasture c.frame.cells

/-- The offset of RING_ENTRY_b (R243). -/
def ringEntryOff (b : Nat) : Nat := 0x150000 + 8 * b

/-- Whether a sprayed copy meets a reorder context here: it came on a Fold link and is addressed to this device. -/
def State.reorders (s : State) (c : Copy) (h : Nat) : Bool :=
  c.frame.fab && hVc h == 4 && hDstDev h == s.own && decide (c.frame.port < 1024) && s.isLink (c.frame.port / 8)

/-- Direction u of ridge link l, as 2·l + u, from die `a` to its neighbour `b` (R73). -/
def ridgeHop (a b : Nat) : Nat :=
  match a, b with
  | 0, 1 => 0 | 1, 0 => 1 | 1, 3 => 2 | 3, 1 => 3 | 2, 3 => 4 | 3, 2 => 5 | 0, 2 => 6 | _, _ => 7

/-- The ridge directions of the fixed path between two dies (R73): a diagonal goes through the lower-numbered
neighbour of the source. -/
def ridgePath (a b : Nat) : List Nat :=
  if a = b then []
  else match a, b with
    | 0, 3 => [0, 2]
    | 1, 2 => [1, 6]
    | 2, 1 => [7, 0]
    | 3, 0 => [3, 1]
    | _, _ => [ridgeHop a b]

/-- The die of a gate matcher input (R68). -/
def inputDie (i : Nat) : Nat := if i < 128 then i / 32 else (i - 128) / 4

/-- A landed frame bound for its own die stays where it landed (R67). -/
def Copy.stays (c : Copy) : Bool := match c.landed with | some b => b / 32 == c.die | none => false

/-- Admit copy `id` for its members (R82): charge it, start its storing, and link it or hand it to its context. -/
def State.admitCopy (s : State) (id : Nat) : State :=
  let c := s.copy id
  let n := c.frame.cells
  let s := c.members.foldl (fun s q => s.charge q c.frame.pasture n) s
  let total := sectorsOf c.frame.bytes.length
  let s := if c.stays then
      let s := s.setCopy id { s.copy id with sent := total, written := total, groups := s.landing c.arr, admitNs := s.now }
      -- a frame with no other copy owns its landing cells, which may then be evicted as any other's
      if (s.siblings c).length = 1 then s.setLanding c.arr [] else s
    else s.setCopy id { s.copy id with admitNs := s.now }
  -- a launch earlier than its predecessor's is counted (R116)
  let s := c.members.foldl (fun s q =>
    match c.frame.launch, (s.eq q).frames.getLast? with
    | some t, some p => if 8 ≤ q % 12 ∧ (match (s.copy p).frame.launch with | some u => decide (t < u) | none => false) = true
        then s.count O.EGR_LAUNCH_INVERSIONS 0 1 else s
    | _, _ => s) s
  let h := beAt c.frame.bytes 0 32
  let s := if s.reorders c h then s.reorderArrive id h else s.link id
  if c.stays then s.leaveVoqs id c c.members else s

/-- Discard copy `id` that never was admitted: it leaves its VOQs and its pen. -/
def State.discardCopy (s : State) (id : Nat) : State := s.endCopy id

/-- Whether a logged frame must wait because its log has no room (R471, mode 0). -/
def State.logBlocked (s : State) (c : Copy) : Bool :=
  let p := parseFrame c.frame.etype c.frame
  c.members.any (fun q => match s.loggedUnder (q / 12) ((c.frame.outHdr p).getD 0) with
    | some (dest, _) => (s.logRoom (s.logStack (q / 12 / 64)) dest (32 + (linkLen c.frame p + 31) / 32 * 32)).isNone
    | none => false)

/-- Whether a copy heads the VOQ of each of its members. -/
def State.heads (s : State) (id : Nat) : Bool :=
  let c := s.copy id
  c.members.all (fun q => (s.voq (c.voqOf q)).head? == some id)

/-- The copies that are admitted together with copy `id`: itself, or all of a joint arrival's (R229). -/
def State.jointIds (s : State) (id : Nat) : List Nat :=
  let c := s.copy id
  if c.joint then (s.fold.copies.filter (fun x => x.2.arr == c.arr && x.2.joint)).map (·.1) else [id]

/-- Whether the fixed path from a copy's input to its die crosses a fenced ridge link (R97). -/
def State.cutOff (s : State) (c : Copy) : Bool :=
  (ridgePath (inputDie c.input) c.die).any (fun d => s.fold.ridgeFenced.testBit (d / 2))

/-- A frame refused admission waits at its VOQ head (R83); `c.waited` says that it has been counted. -/
def State.holdHead (s : State) (id : Nat) (c : Copy) : State :=
  let s := c.members.foldl (fun s q =>
    if s.hurdleOnly c q then (s.holdCount (ringEntryOff (q / 96)) 0 1).tally 0x0304 c.input 4 else s) s
  if c.waited then s
  else
    let s := s.setCopy id { c with waited := true }
    if c.frame.lossless then (s.count O.FOLD_ADMIT_WAITS 0 1).tally 0x0403 c.die else s

/-- The members that a lossy frame's copy fails to join are dropped at their queues, each counted (R83, R84, R133). -/
def State.refuse (s : State) (id : Nat) (c : Copy) (lost : List Nat) : State :=
  let s := (s.leaveVoqs id c lost).setCopy id { c with members := c.members.filter (fun q => !lost.contains q) }
  lost.foldl (fun s q => s.countDrop q) s

/-- One admission decision for the head of VOQ `k` (R82, R83, R84, R97, R117, R226, R229, R471). A copy in several VOQs is
decided when it heads them all. -/
def State.decideHead (s : State) (k : Nat) : State :=
  match s.voq k with
  | [] => s
  | id :: _ =>
    let c := s.copy id
    if c.stage ≠ .waiting ∨ !(s.jointIds id).all s.heads then s
    else if s.cutOff c then (s.discardCopy id).fwdDrop (inputDie c.input) c.frame .unreachable
    else
      -- a launch beyond the horizon is dropped at its queue
      let late := c.members.filter (fun q => s.beyondHorizon c.frame (q / 12))
      let s := late.foldl (fun s _ => (s.count O.EGR_DROP_HORIZON 0 1).raise O.EGR_ERR 3) (s.refuse id c late)
      let c := s.copy id
      if c.members.isEmpty then s.discardCopy id
      else if s.logBlocked c then
        if c.waited then s else (((s.setCopy id { c with waited := true }).count O.MUSTER_STAT 6 1).tally 0x0C02 (c.members.headD 0 / 96)).raise O.MUSTER_ERR 3
      else
        let all := s.jointIds id
        let ok := all.all (fun j => (s.copy j).members.all (fun q => s.memberPasses (s.copy j) q))
        if ok then all.foldl (fun s j => s.admitCopy j) s
        else if c.frame.lossless ∨ c.members.any (fun q => s.hurdleOnly c q) then s.holdHead id c
        else
          let lost := c.members.filter (fun q => !s.memberPasses c q)
          let s := (s.refuse id c lost).count O.FOLD_LOSSY_DROPS 0 lost.length
          if (s.copy id).members.isEmpty then s.discardCopy id else s.admitCopy id

/-- VOQ_HEAD_ADMISSION (R82): the frame at the head of a VOQ meets admission on its destination die. -/
def execVoqHeadAdmission (input : Fin 144) (dest : Fin 1040) (cls : Fin 8) (s : State) : Ans := live s <|
  .next (s.decideHead (voqKey input.val dest.val cls.val))

/-- ADMISSION_RETRY (R83): a lossless head refused before is checked again. -/
def execAdmissionRetry (input : Fin 144) (dest : Fin 1040) (cls : Fin 8) (s : State) : Ans := live s <|
  let k := voqKey input.val dest.val cls.val
  match s.voq k with
  | id :: _ => if (s.copy id).waited then .next (s.decideHead k) else .next s
  | [] => .next s

/-! ### The gate matcher (R68 to R71) -/

/-- Offset of RIDGE_STAT of direction `d` = 2·l + u (R99), and of GATE_STAT. -/
def ridgeStatOff (d : Nat) : Nat := 0x100020 + 8 * d
abbrev gateStatOff : Nat := 0x100060

/-- Sectors of the next transfer of a copy: the rest of its next cell (R69, R54). -/
def nextSectors (c : Copy) : Nat := min 4 (sectorsOf c.frame.bytes.length - c.sent)

/-- A round-robin pick: the first element of `l` greater than `ptr`, else the first. `l` rises. -/
def rrPick (l : List Nat) (ptr : Nat) : Option Nat :=
  match l.find? (fun x => decide (ptr < x)) with
  | some x => some x
  | none => l.head?

/-- A round-robin order of `l` from the element after `ptr`. -/
def rrOrder (l : List Nat) (ptr : Nat) : List Nat := l.filter (fun x => decide (ptr < x)) ++ l.filter (fun x => decide (x ≤ ptr))

/-- The matching under way in one cell time: transfers accepted, by input and by bank group. -/
structure Matching where
  taken  : List Transfer := []
  byIn   : TMap Nat := []
  byOut  : TMap Nat := []
  byDie  : TMap Nat := []    -- cells taken on a die
  ridge  : TMap Nat := []    -- credits taken by direction in this cell time
  sent   : TMap Nat := []    -- sectors sent by copy in this cell time
  deriving DecidableEq, Repr

/-- Whether copy `id` has sectors left to send beyond those matched in this cell time. -/
def State.unsent (s : State) (m : Matching) (id : Nat) : Bool :=
  decide ((s.copy id).sent + TMap.get 0 m.sent id < sectorsOf (s.copy id).frame.bytes.length)

/-- Keys of the VOQs of an input whose head is admitted and has sectors left; a copy in several VOQs counts in that of its
first member. -/
def State.readyVoqs (s : State) (i : Nat) : List Nat :=
  ((s.fold.voqs.filter (fun x => x.1 / 8320 == i)).filter (fun x =>
    match x.2 with
    | id :: _ => let c := s.copy id
                 c.stage != .waiting && s.unsent {} id && (c.members.head?.map c.voqOf == some x.1)
    | [] => false)).map (·.1)

/-- Whether a relayed sector waits for ridge direction `d` (R75). -/
def State.relayWaits (s : State) (d : Nat) : Bool :=
  s.fold.inflight.any (fun t => t.held.isSome && t.hops.head? == some d)

/-- Whether a local sector, of an admitted VOQ head, waits for ridge direction `d` (R75). -/
def State.localWaits (s : State) (d : Nat) : Bool :=
  s.fold.voqs.any (fun x => match x.2 with
    | id :: _ => let c := s.copy id
                 c.stage != .waiting && s.unsent {} id && (ridgePath (inputDie (x.1 / 8320)) c.die).head? == some d
    | [] => false)

/-- Whether the turn at ridge direction `d` is the relayed sectors', of a round of RIDGE_RELAY_W relayed and RIDGE_LOCAL_W
local sectors in which the relayed ones go first (R75; DESIGN CHOICE, log entry 49). `taken` are local sectors that this
cell time adds. A turn in which nothing waits does not count. -/
def State.relayTurnOf (s : State) (d taken : Nat) : Bool :=
  s.relayWaits d &&
    decide ((s.ridge d).relayTurn < s.ob O.RIDGE_RELAY_W ∨ s.ob O.RIDGE_LOCAL_W ≤ (s.ridge d).localTurn + taken)

/-- `n` relayed or local sectors have been served at ridge direction `d`: the counts of the round advance while both sides
wait, and rounds whose weights are both served are taken off, so that what was served beyond them counts in the next. -/
def State.roundStep (s : State) (d relayed local_ : Nat) : State :=
  let r := s.ridge d
  let a := r.relayTurn + relayed
  let b := r.localTurn + local_
  let rounds := min (a / s.ob O.RIDGE_RELAY_W) (b / s.ob O.RIDGE_LOCAL_W)
  s.setRidge d { r with relayTurn := a - rounds * s.ob O.RIDGE_RELAY_W, localTurn := b - rounds * s.ob O.RIDGE_LOCAL_W }

/-- Local sectors served while relayed ones wait; alone, they open a new round. -/
def State.servedLocal (s : State) (d n : Nat) : State :=
  if s.relayWaits d then s.roundStep d 0 n else s.setRidge d { s.ridge d with relayTurn := 0, localTurn := 0 }

/-- Relayed sectors served while local ones wait; alone, they open a new round. -/
def State.servedRelay (s : State) (d n : Nat) : State :=
  if s.localWaits d then s.roundStep d n 0 else s.setRidge d { s.ridge d with relayTurn := 0, localTurn := 0 }

/-- Whether a transfer of `k` sectors may enter direction `d` in this cell time: credits at hand (R74), and local sectors
having their turn (R75). -/
def State.ridgeOpen (s : State) (m : Matching) (d k : Nat) : Bool :=
  decide (k + TMap.get 0 m.ridge d ≤ s.ridgeFree d) && !s.relayTurnOf d (TMap.get 0 m.ridge d)

/-- Whether the head `id` of input `i` may request bank group `g`: of its destination die, with write room in this cell time
and a free cell outside the fetch reserve (R62), and, across a ridge, only while a first-hop credit can be held (R70). -/
def State.wants (s : State) (m : Matching) (limit i id g : Nat) : Bool :=
  let c := s.copy id
  let k := nextSectors { c with sent := c.sent + TMap.get 0 m.sent id }
  g / 32 == c.die && s.unsent m id && decide (TMap.get 0 m.byOut g < limit) &&
  decide (TMap.get 0 m.byOut g < s.bankFree g) && decide (TMap.get 0 m.byDie c.die < s.plainFree c.die) &&
  (match ridgePath (inputDie i) c.die with
   | [] => true
   | d :: _ => s.ridgeOpen m d k)

/-- Accept for input `i`, which requests for the VOQs `ks` and was granted the bank groups `mine` (R70): the next VOQ in round
robin, in the lowest-numbered group that granted it (DESIGN CHOICE, log entry 124). `first` moves the pointers. -/
def State.accept (s : State) (m : Matching) (limit i : Nat) (first : Bool) (ks mine : List Nat) : State × Matching :=
  match rrPick (ks.mergeSort (· ≤ ·)) (TMap.get 0 s.fold.gate.accept i) with
  | none => (s, m)
  | some k =>
    let id := (s.voq k).headD 0
    match mine.find? (fun g => s.wants m limit i id g) with
    | none => (s, m)
    | some g =>
      let c := s.copy id
      let at_ := c.sent + TMap.get 0 m.sent id
      let n := nextSectors { c with sent := at_ }
      let path := ridgePath (inputDie i) c.die
      let m := { m with taken := m.taken ++ [{ copy := id, cell := at_ / 4, sectors := n, group := g, hops := path, held := none }]
                        byIn := addTo m.byIn i 1, byOut := addTo m.byOut g 1, byDie := addTo m.byDie c.die 1
                        sent := addTo m.sent id n
                        ridge := match path with | d :: _ => addTo m.ridge d n | [] => m.ridge }
      if first then
        ({ s with fold := { s.fold with gate := { s.fold.gate with
            accept := TMap.put 0 s.fold.gate.accept i k
            grant := TMap.put 143 s.fold.gate.grant g i } } }, m)
      else (s, m)

/-- One request–grant–accept iteration (R70) of the VOQ heads that the inputs picked for this cell time: `first` moves the
pointers of the pairs accepted. -/
def State.iterate (s : State) (limit : Nat) (first : Bool) (heads : List (Nat × List Nat)) (m : Matching) : State × Matching :=
  let reqs := heads.filter (fun r => decide (TMap.get 0 m.byIn r.1 < limit))
  let ask := fun (i k g : Nat) => s.wants m limit i ((s.voq k).headD 0) g
  let grants := (List.range 128).filterMap (fun g =>
    let who := (reqs.filter (fun r => r.2.any (fun k => ask r.1 k g))).map (·.1)
    (rrPick who (TMap.get 143 s.fold.gate.grant g)).map (fun i => (g, i)))
  reqs.foldl (fun (a : State × Matching) r =>
    let mine := (grants.filter (fun x => x.2 == r.1)).map (·.1)
    let ks := r.2.filter (fun k => mine.any (fun g => a.1.wants a.2 limit r.1 ((a.1.voq k).headD 0) g))
    a.1.accept a.2 limit r.1 first ks mine) (s, m)

/-- The first ridge direction on the path of the head of VOQ `k`. -/
def State.firstHop (s : State) (k : Nat) : Option Nat :=
  (ridgePath (inputDie (k / 8320)) (s.copy ((s.voq k).headD 0)).die).head?

/-- Whether the head of VOQ `k` lacks the credit of its first ridge hop (R76). -/
def State.lacksCredit (s : State) (m : Matching) (k : Nat) : Bool :=
  let id := (s.voq k).headD 0
  match s.firstHop k with
  | some d => decide (s.ridgeFree d < nextSectors { s.copy id with sent := (s.copy id).sent + TMap.get 0 m.sent id } + TMap.get 0 m.ridge d)
  | none => false

/-- The parity of the present cell time, counted from the release of the Fold's reset (R56). -/
def State.evenCell (s : State) : Bool := decide ((s.now - s.fold.zero) / 2 % 2 = 0)

/-- What GATE_STAT, RIDGE_STAT and Tally count of a matching (R99). A request counts as unmatched when its input could have
sent one transfer more (DESIGN CHOICE, log entry 124); a direction stalls for the cell time, four cycles, when a local
or a relayed sector waits for its credit. -/
def State.gateStats (s : State) (limit : Nat) (heads : List (Nat × List Nat)) (m : Matching) : State :=
  let left := heads.map (fun r => (r.1, r.2.filter (fun k => s.unsent m ((s.voq k).headD 0))))
  let spare := (left.filter (fun r => decide (TMap.get 0 m.byIn r.1 < limit) && r.2.any (fun k => !s.lacksCredit m k))).map (·.1)
  let s := if spare.isEmpty then s else s.holdCount gateStatOff 0 1
  let s := spare.foldl (fun s i => s.tally 0x0302 i) s
  let short := left.map (fun r => (r.1, r.2.filter (fun k => s.lacksCredit m k))) |>.filter (fun r => !r.2.isEmpty)
  let s := if short.isEmpty then s else s.holdCount gateStatOff 32 1
  let s := short.foldl (fun s r => s.tally 0x0303 r.1) s
  let relayed := s.fold.inflight.filterMap (fun t => match t.held, t.hops with
    | some _, d :: _ => if s.ridgeFree d < t.sectors + TMap.get 0 m.ridge d then some d else none
    | _, _ => none)
  ((short.flatMap (fun r => r.2.filterMap s.firstHop)) ++ relayed).eraseDups.foldl (fun s d => s.holdCount (ridgeStatOff d) 0 4) s

/-- GATE_MATCH (R69, R70): one cell time's matching of three iterations over the four VOQ heads that each input picks;
transfers accepted leave for the store. -/
def State.gateMatch (s : State) : State :=
  let limit := if s.evenCell then 2 else 1
  let inputs := ((s.fold.voqs.map (fun x => x.1 / 8320)).eraseDups)
  let heads := inputs.map (fun i => (i, (rrOrder (s.readyVoqs i) (TMap.get 0 s.fold.gate.request i)).take 4))
  let r1 := s.iterate limit true heads {}
  let r2 := r1.1.iterate limit false heads r1.2
  let r3 := r2.1.iterate limit false heads r2.2
  let s := r3.1
  let m := r3.2
  -- request pointers move past the VOQs that requested
  let s := heads.foldl (fun s r =>
    match r.2.getLast? with
    | some k => { s with fold := { s.fold with gate := { s.fold.gate with request := TMap.put 0 s.fold.gate.request r.1 k } } }
    | none => s) s
  let s := s.gateStats limit heads m
  -- take the credits of first hops, serve the local side of each direction's round, and record what has left each copy
  let s := m.ridge.foldl (fun s x => ((s.tally 0x0600 x.1 x.2).ridgeUse x.1 x.2).servedLocal x.1 x.2) s
  let s := m.sent.foldl (fun s x => s.setCopy x.1 { s.copy x.1 with sent := (s.copy x.1).sent + x.2 }) s
  let s := { s with fold := { s.fold with inflight := s.fold.inflight ++ m.taken } }
  -- a head whose last sector has left its VOQ makes way for the next (R64)
  m.sent.foldl (fun s x => if s.unsent {} x.1 then s else s.leaveVoqs x.1 (s.copy x.1) (s.copy x.1).members) s

def execGateMatch (s : State) : Ans := live s <| .next s.gateMatch

/-- The transfers in flight without place `i`. -/
def State.dropTransfer (s : State) (i : Nat) : State :=
  { s with fold := { s.fold with inflight := s.fold.inflight.eraseIdx i } }

/-- A transfer's sectors are written into its bank group (R71): a cell is taken as they come. A copy that has gone
meanwhile takes none. -/
def State.writeSectors (s : State) (t : Transfer) : State :=
  let c := s.copy t.copy
  if c.arr = 0 then s
  else
    (s.bankTake t.group).setCopy t.copy { c with written := c.written + t.sectors, groups := c.groups ++ [t.group]
                                                 stored := if c.stored.length ≤ t.cell then c.stored ++ [s.now] else c.stored }

/-- The transfer leaves its input: its cell leaves the pen (R71, R200); the cell of a landing was given up as it was
read (R67). -/
def State.leftInput (s : State) (t : Transfer) : State :=
  let c := s.copy t.copy
  if c.arr = 0 ∨ c.landed.isSome then s
  else (s.setCopy t.copy { c with left := c.left + 1 }).inputSweep c

/-- Whether a transfer that has not left its input waits for its cell to be read from the landing (R57, R67). -/
def State.unread (s : State) (t : Transfer) : Bool := !t.left && !t.read && (s.copy t.copy).landed.isSome

/-- Whether an earlier transfer of the same copy is still in flight before place `i`: a path keeps its order (R77). -/
def State.behindOwn (s : State) (i : Nat) (t : Transfer) : Bool := (s.fold.inflight.take i).any (fun x => x.copy == t.copy)

/-- GATE_TRANSFER_WRITE (R71) of transfer `i` in flight: it leaves its input; on one hop or none it is written; on a
diagonal it reaches the relay die's receive buffer, from where RIDGE_RELAY_FORWARD takes it on (R74). A cell not yet
read from its landing, and one behind another of its frame, wait. -/
def State.transferWrite (s : State) (i : Nat) : State :=
  match s.fold.inflight[i]? with
  | none => s
  | some t =>
    if t.held.isSome || s.unread t then s
    else
      match t.hops with
      | d :: e :: rest =>
        let s := s.leftInput t
        { s with fold := { s.fold with inflight := s.fold.inflight.set i { t with hops := e :: rest, held := some d, left := true } } }
      | hops =>
        if s.behindOwn i t then s
        else
          let s := if t.left then s else s.leftInput t
          let s := match hops with | d :: _ => s.ridgeGive d t.sectors | [] => s
          (s.dropTransfer i).writeSectors t

def execGateTransferWrite (i : Nat) (s : State) : Ans := live s <| .next (s.transferWrite i)

/-- RIDGE_RELAY_FORWARD (R74, R75) of transfer `i`: it leaves the relay die once a second-hop credit is held; while local
sectors wait for the same direction too, relayed ones take RIDGE_RELAY_W sectors of each round and local ones
RIDGE_LOCAL_W. -/
def State.relayForward (s : State) (i : Nat) : State :=
  match s.fold.inflight[i]? with
  | none => s
  | some t =>
    match t.held, t.hops with
    | some d1, d2 :: _ =>
      if s.ridgeFree d2 < t.sectors ∨ (s.localWaits d2 ∧ !s.relayTurnOf d2 0) then s
      else
        let s := ((s.ridgeUse d2 t.sectors).ridgeGive d1 t.sectors).servedRelay d2 t.sectors
        let s := (s.tally 0x0600 d2 t.sectors).tally 0x0601 d2 t.sectors
        { s with fold := { s.fold with inflight := s.fold.inflight.set i { t with held := none } } }
    | _, _ => s

def execRidgeRelayForward (i : Nat) (s : State) : Ans := live s <| .next (s.relayForward i)

/-- Whether a copy's path from its input crosses ridge link `l` and it is not wholly written. -/
def copyCrosses (l : Nat) (c : Copy) : Bool :=
  decide (c.written < sectorsOf c.frame.bytes.length) && (ridgePath (inputDie c.input) c.die).any (fun d => d / 2 == l)

/-- Remove copy `id` wherever it stands: its VOQs, its queues, its reorder context (R97, R238). -/
def State.purgeCopy (s : State) (id : Nat) : State :=
  let c := s.copy id
  if c.stage = .waiting then s.endCopy id else c.members.foldl (fun s q => s.dropFrom id q) s

/-- RIDGE_LINK_FENCE (R97): the link is fenced, traffic whose path uses it dropped and counted as unreachable with
status 0x04, and FAULT_N asserted. -/
def State.ridgeFence (s : State) (l : Nat) : State :=
  let s := { s with fold := { s.fold with ridgeFenced := setBit s.fold.ridgeFenced l } }
  let s := s.raise O.FOLD_ERR 5 4
  let s := { s with power := { s.power with faultN := false } }
  let lost := (s.fold.copies.filter (fun x => copyCrosses l x.2)).map (·.1)
  lost.foldl (fun s id => (s.purgeCopy id).fwdDrop (inputDie (s.copy id).input) (s.copy id).frame .unreachable) s

def execRidgeLinkFence (l : Fin 4) (s : State) : Ans := live s <|
  if s.fold.ridgeFenced.testBit l.val then .next s else .next (s.ridgeFence l.val)

/-! ### Eviction and fetch (R86 to R92) -/

/-- Groups of the near zone (R89). -/
def State.nearZone (s : State) : Nat := s.ob O.FOLD_HEAD_GUARD + s.ob O.FOLD_PREFETCH

/-- Whether cell `x` of a group is stored near, written and of an unshared frame: one queue's (R88), and no cell of a landing
that other dies' copies of the frame still need. -/
def State.cellEvictable (s : State) (x : Nat × Nat) : Bool :=
  let c := s.copy x.1
  c.members.length == 1 && decide ((c.groups.getD x.2 128) < 128) && !(c.stays && !(s.landing c.arr).isEmpty)

/-- Places of the groups of queue `qid` that may be evicted (R88 to R90): complete ones, and with `age` aged ones alone. -/
def State.evictable (s : State) (qid : Nat) (age : Bool) : List Nat :=
  let gs := (s.eq qid).groups
  (List.range gs.length).filter (fun i =>
    match gs[i]? with
    | some g => decide (s.nearZone ≤ i) && g.place == .near && (s.aged g || (!age && g.complete)) && g.cells.all s.cellEvictable
    | none => false)

/-- The stack that holds or is to hold a group's slot. -/
def GroupPlace.stack : GroupPlace → Option Nat
  | .near => none
  | .evicting k => some k
  | .far k => some k
  | .fetching k => some k

/-- The groups that hold a slot on stack `st` (R87). -/
def State.slotsOn (s : State) (st : Nat) : Nat :=
  (s.fold.queues.map (fun x => (x.2.groups.filter (fun g => g.place.stack == some st)).length)).sum

/-- Whether stack `st` has a free eviction slot: a quarter of its die's (R86, R87), and the stack is not fenced or gated. -/
def State.slotFreeOn (s : State) (st : Nat) : Bool :=
  decide (s.slotsOn st < s.evictSlots (st / 4) / 4) && !(s.ob O.FENCE_STACKS).testBit st && !s.stackGated st

/-- The next stack of a die's rotation (R87), skipping fenced stacks, those whose Fold class is at its limit, and those
without a free slot (the last a DESIGN CHOICE, log entry 125). -/
def State.nextStack (s : State) (die busy : Nat) : Option Nat :=
  let p := TMap.get 0 s.fold.rotate die
  ([0, 1, 2, 3].map (fun i => (p + i) % 4)).find? (fun i => !busy.testBit i && s.slotFreeOn (4 * die + i))

/-- Start evicting group `i` of queue `qid` (R87, R90): a slot on the next stack; far_full when no stack has one free. -/
def State.evictStart (s : State) (qid i busy : Nat) : State :=
  let die := dieOf (qid / 12)
  if [0, 1, 2, 3].all (fun k => !s.slotFreeOn (4 * die + k)) then s.raise O.FOLD_ERR 3
  else match s.nextStack die busy with
    | none => s
    | some k =>
      let s := s.setOb (O.FOLD_FAR_USED + die) (s.ob (O.FOLD_FAR_USED + die) + 1)
      let s := { s with fold := { s.fold with rotate := TMap.put 0 s.fold.rotate die ((k + 1) % 4) } }
      s.modEq qid (fun q => { q with groups := q.groups.modify i (fun g =>
        { g with place := .evicting (4 * die + k), complete := true }) })

/-- The queues of a die that hold cells. -/
def State.dieQueues (s : State) (die : Nat) : List Nat :=
  (s.fold.queues.map (·.1)).filter (fun q => dieOf (q / 12) == die)

/-- Whether an aged group of the die may be evicted: age eviction goes before occupancy eviction (R90). -/
def State.ageDue (s : State) (die : Nat) : Bool := (s.dieQueues die).any (fun q => !(s.evictable q true).isEmpty)

/-- Whether stack `st` has evictions pending: one in flight, or one its die asks for (R90, R99). -/
def State.evictPending (s : State) (st : Nat) : Bool :=
  s.fold.queues.any (fun x => x.2.groups.any (fun g => g.place == .evicting st)) || s.ageDue (st / 4) ||
  (s.fold.occEvict.testBit (st / 4) && (s.dieQueues (st / 4)).any (fun q => !(s.evictable q false).isEmpty))

/-- The stacks of a die whose Fold class is at its limit are seen to be `busy` (R87, R93); one that is not, or that has no
eviction pending, has not been so for the whole tick (R99). -/
def State.seeLimit (s : State) (die busy : Nat) : State :=
  let at_ := setBits s.fold.atLimit (4 * die) 4 busy
  let whole := [0, 1, 2, 3].foldl (fun m i =>
    if busy.testBit i && s.evictPending (4 * die + i) then m else clearBit m (4 * die + i)) s.fold.limitTick
  { s with fold := { s.fold with atLimit := at_, limitTick := whole } }

/-- EVICTION_AGE (R90): the oldest group of queue `qid` whose first cell has outstayed the residency window;
`busy` masks the die's stacks whose Fold class is at its limit. -/
def execEvictionAge (qid : Fin 12480) (busy : BitVec 4) (s : State) : Ans := live s <|
  let s := s.seeLimit (dieOf (qid.val / 12)) busy.toNat
  match (s.evictable qid.val true).head? with
  | some i => .next (s.evictStart qid.val i busy.toNat)
  | none => .next s

/-- The queue of a die with the most evictable near cells (R90); of queues that hold equally many, the lowest-numbered
(DESIGN CHOICE, log entry 125). -/
def State.fullest (s : State) (die : Nat) : Option Nat :=
  let cells := fun qid => ((s.evictable qid false).map (fun i =>
    match (s.eq qid).groups[i]? with | some g => g.cells.length | none => 0)).sum
  (s.dieQueues die).foldl (fun a q =>
    if cells q = 0 then a else match a with
      | none => some q
      | some b => if cells b < cells q then some q else some b) none

/-- EVICTION_OCCUPANCY (R90) of a die: from FOLD_EVICT_HI per cent of 196,608 until below FOLD_EVICT_LO per cent,
one group of the fullest queue, newest first or, with FOLD_EVICT_ORDER 1, oldest first; none while age eviction has one
to take. -/
def execEvictionOccupancy (die : Fin 4) (busy : BitVec 4) (s : State) : Ans := live s <|
  let used := s.ob (O.FOLD_NEAR_USED + die.val)
  let on := decide (s.ob O.FOLD_EVICT_HI * 196608 / 100 ≤ used) ||
    (s.fold.occEvict.testBit die.val && decide (s.ob O.FOLD_EVICT_LO * 196608 / 100 ≤ used))
  let s := { s with fold := { s.fold with occEvict := setBits s.fold.occEvict die.val 1 (b2n on) } }
  let s := s.seeLimit die.val busy.toNat
  if on ∧ !s.ageDue die.val then
    match s.fullest die.val with
    | some qid =>
      match (if s.ob O.FOLD_EVICT_ORDER = 1 then (s.evictable qid false).head? else (s.evictable qid false).getLast?) with
      | some i => .next (s.evictStart qid i busy.toNat)
      | none => .next s
    | none => .next s
  else .next s

/-- Free the near cells of a group that has gone far. -/
def State.releaseNear (s : State) (cells : List (Nat × Nat)) : State :=
  cells.foldl (fun s x =>
    let c := s.copy x.1
    (s.bankGive (c.groups.getD x.2 128)).setCopy x.1 { c with groups := c.groups.set x.2 128 }) s

/-- Place of the first group of a queue that `p` holds of. -/
def EQueue.groupAt (q : EQueue) (p : CellGroup → Bool) : Option Nat := q.groups.findIdx? p

/-- Whether a group is being written to, lies on, or is being read from HBM. -/
def GroupPlace.isEvicting : GroupPlace → Bool
  | .evicting _ => true
  | _ => false
def GroupPlace.isFar : GroupPlace → Bool
  | .far _ => true
  | _ => false
def GroupPlace.isFetching : GroupPlace → Bool
  | .fetching _ => true
  | _ => false

/-- Set the place of group `i` of queue `qid`. -/
def State.setPlace (s : State) (qid i : Nat) (p : GroupPlace) : State :=
  s.modEq qid (fun q => { q with groups := q.groups.modify i (fun g => { g with place := p }) })

/-- Whether a fetch waits on stack `st`: one in progress that finds a near cell to land in (R91, R94). -/
def State.fetchWaits (s : State) (st : Nat) : Bool :=
  s.fold.queues.any (fun x => dieOf (x.1 / 12) == st / 4 && x.2.groups.any (fun g => g.place == .fetching st &&
    decide (g.cells.length ≤ s.dieFree (st / 4))))

/-- Whether a log write waits on stack `st`: that of a frame whose entry has not been accepted (R94, R469). -/
def State.logWaits (s : State) (st : Nat) : Bool :=
  s.fold.eports.any (fun x => s.logStack (x.1 / 64) == st && (match x.2.dep with | some d => !d.logged | none => false))

/-- EVICTION_WRITE_ACK (R92, R94) for the first evicting group of queue `qid`: its near cells are freed; had its head
reached the near zone meanwhile, the eviction is cancelled and the slot freed. An eviction is served after the fetches and
log writes that wait on its stack. -/
def execEvictionWriteAck (qid : Fin 12480) (s : State) : Ans := live s <|
  let q := s.eq qid.val
  match q.groupAt (fun g => g.place.isEvicting) with
  | none => .next s
  | some i =>
    if i < s.nearZone then .next ((s.setPlace qid.val i .near).slotFree (dieOf (qid.val / 12)) 1)
    else match q.groups[i]? with
      | some g =>
        let k := g.place.stack.getD 0
        if s.fetchWaits k || s.logWaits k then .next s
        else .next (((s.setPlace qid.val i (.far k)).releaseNear g.cells).count O.FOLD_EVICTED 0 1 |>.tally 0x0401 (dieOf (qid.val / 12)))
      | none => .next s

/-- GROUP_FETCH (R91, R92): the first group of queue `qid` that stands in the near zone and not near. An eviction in
flight is cancelled; a far group starts to be fetched. -/
def execGroupFetch (qid : Fin 12480) (s : State) : Ans := live s <|
  let q := s.eq qid.val
  match ((q.groups.take s.nearZone).findIdx? (fun g => g.place.isEvicting || g.place.isFar)) with
  | none => .next s
  | some i =>
    match q.groups[i]? with
    | none => .next s
    | some g =>
      match g.place with
      | .far k => .next (s.setPlace qid.val i (.fetching k))
      | _ => .next ((s.setPlace qid.val i .near).slotFree (dieOf (qid.val / 12)) 1)

/-- `n` cells of a die found poisoned (R97, R98). -/
def State.countPoison (s : State) (die n : Nat) : State := (s.count O.FOLD_POISONED 0 n).tally 0x0404 die n

/-- A fetched cell `x` lands in a near cell of the die (R91): a free one, or one of the fetch reserve (R62). -/
def State.fetchCell (s : State) (die : Nat) (x : Nat × Nat) : State :=
  match s.pickBank die (32 * die) with
  | none => s
  | some b =>
    let s := if s.plainFree die = 0 then { s with fold := { s.fold with fetchUsed := addTo s.fold.fetchUsed die 1 } } else s
    let s := s.bankTake b
    s.setCopy x.1 { s.copy x.1 with groups := (s.copy x.1).groups.set x.2 b }

/-- FETCH_COMPLETE (R57, R91, R97): the fetched group lands in near cells. Bit i of `crc` says that cell i fails its CRC,
which poisons its frame; `ue` that HBM read the slot uncorrectably, which poisons every frame of the group, as does a
slot on a fenced stack. -/
def State.fetchDone (s : State) (qid i : Nat) (g : CellGroup) (crc : Nat) (ue : Bool) : State :=
  let die := dieOf (qid / 12)
  let bad := (List.range g.cells.length).filter (fun j => ue || g.fenced || crc.testBit j)
  let s := g.cells.foldl (fun s x => s.fetchCell die x) s
  let s := bad.foldl (fun s j => s.poisonCopy (g.cells.getD j (0, 0)).1) s
  let s := if ue then s.raise O.FOLD_ERR 2 3 5 (g.place.stack.getD 0) 0 else s
  let s := if !ue && !g.fenced && !bad.isEmpty then s.raise O.FOLD_ERR 0 3 else s
  let s := if bad.isEmpty then s else s.countPoison die bad.length
  (((s.setPlace qid i .near).slotFree die 1).count O.FOLD_FETCHED 0 1).tally 0x0402 die

/-- The first fetch in progress of queue `qid` completes, with the cells that fail their CRC and whether its slot was read
uncorrectably; one that finds no near cell for every cell waits (R91). -/
def execFetchComplete (qid : Fin 12480) (bad : BitVec 16 × Bool) (s : State) : Ans := live s <|
  match (s.eq qid.val).groupAt (fun g => g.place.isFetching) with
  | none => .next s
  | some i =>
    match (s.eq qid.val).groups[i]? with
    | some g =>
      if s.dieFree (dieOf (qid.val / 12)) < g.cells.length then .next s
      else .next (s.fetchDone qid.val i g bad.1.toNat bad.2)
    | none => .next s

end Sys2Proof.Machine
end

