-- ==== Sys2Proof/Machine/Egress.lean ====
section
/-!
DEFINITION. Egress queues, scheduling and shaping (R100 to R137): eligibility, deficit round robin, gates, token
buckets, marking, PFC pauses, departures and the reads of cells.
-/

namespace Sys2Proof.Machine

/-! ### Configuration fields -/

def qLevel (r : Nat) : Nat := bits r 0 3
def qWeight (r : Nat) : Nat := bits r 4 8
def qPauseEn (r : Nat) : Bool := r.testBit 12
def qPausePrio (r : Nat) : Nat := bits r 13 3
def qRecSel (r : Nat) : Bool := r.testBit 16
def qEcnThr (r : Nat) : Nat := bits r 32 32
def qRate (r : Nat) : Nat := bits r 64 22
def qBurst (r : Nat) : Nat := bits r 96 27
def pRate (r : Nat) : Nat := bits r 0 22
def pBurst (r : Nat) : Nat := bits r 32 27
def pOverhead (r : Nat) : Nat := bits r 64 6
def pGateEn (r : Nat) : Bool := r.testBit 70
def pMaxLate (r : Nat) : Nat := bits r 72 32

/-- The rate that means unshaped (R119). -/
abbrev rateOpen : Nat := 0x3FFFFF

/-! ### Heads and charged lengths -/

/-- The charged length of a frame at destination `d` (R105). -/
def State.chargedLen (s : State) (d : Nat) (f : Frame) : Nat :=
  f.bytes.length + (if d < 1024 then pOverhead (s.row O.EGR_PORTCFG d) else 0)

/-- A byte in the unit of a bucket's `short`. -/
abbrev byteUnit : Nat := 4000 * 2 ^ 24

/-- A bucket of rate `rate` and burst `burst`, `short` below its burst, holds `n` bytes (R119, R121). -/
def bucketHolds (rate burst short n : Nat) : Bool :=
  rate == rateOpen || (rate != 0 && decide (n * byteUnit + short ≤ burst * byteUnit))

/-! ### Gates (R111 to R114) -/

/-- Whether device time has reached a T64 launch time. -/
def State.reached (s : State) (t : Nat) : Bool :=
  decide ((t64Ns s.t64 + t64Span - t64Ns t) % t64Span < t64Span / 2)

/-- The gate row in effect at port `d` (R114). -/
def State.gateRow (s : State) (d : Nat) : Nat :=
  match (s.ep d).gateRow with
  | some r => r
  | none => s.row O.EGR_GATE d

/-- Whether queue `q` is open in slot `i` of a gate row. -/
def slotOpen (row q i : Nat) : Bool := row.testBit (12 * (i % 64) + q)

/-- The number of consecutive open slots from slot `i` on, at most `fuel`. -/
def openRun (row q i : Nat) : Nat → Nat
  | 0 => 0
  | fuel + 1 => if slotOpen row q i then 1 + openRun row q (i + 1) fuel else 0

/-- Position in the present tick in 2^-48 ns (R447). -/
def State.tickPos (s : State) : Nat := (s.time.dev - s.time.t0 * devUnit) % (s.period * devUnit)

/-- The present slot of the tick. -/
def State.slot (s : State) : Nat := s.tickPos * 64 / (s.period * devUnit)

/-- How the gate of queue `q` at port `d` treats a head of `n` charged bytes: shut, open and fitting, or too long for
every window and in the first slot of one, at whatever instant of it the port becomes free (R112, R113; the last a DESIGN
CHOICE, log entry 127). -/
inductive GateAnswer where
  | shut | fits | overrun
  deriving DecidableEq, Repr

def State.gate (s : State) (d q n : Nat) : GateAnswer :=
  if 1024 ≤ d ∨ !pGateEn (s.row O.EGR_PORTCFG d) then .fits
  else
    let row := s.gateRow d
    let i := s.slot
    let rate := s.lineRate d
    if !slotOpen row q i then .shut
    else
      let run := openRun row q i 64
      let unit := s.period / 64 * devUnit
      if run = 64 then .fits
      else if n * 8000 * devUnit ≤ ((i + run) * unit - s.tickPos) * rate then .fits
      else
        let longest := (List.range 64).foldl (fun a j => max a (openRun row q j 64)) 0
        if n * 8000 ≤ longest * (s.period / 64) * rate then .shut
        else if slotOpen row q (i + 63) then .shut
        else .overrun

/-! ### Eligibility (R104) -/

/-- Whether queue `qid` is paused by PFC (R130); a write of its row that ends its obedience ends the pause (R110). -/
def State.paused (s : State) (qid : Nat) : Bool :=
  match (s.eq qid).pauseUntil with
  | some t => decide (s.now < t)
  | none => false

/-- The first cell of the head's group is near, and all its cells are written (R72, R91). -/
def State.headNear (s : State) (qid id : Nat) : Bool :=
  let c := s.copy id
  c.stage == .queued && decide (c.written = sectorsOf c.frame.bytes.length) &&
  (match (s.eq qid).groups.find? (fun g => g.cells.contains (id, 0)) with
   | some g => match g.place with | .near => true | .evicting _ => true | _ => false
   | none => false)

/-- The virtual channel of a frame at a Fold link port. -/
def frameVc (f : Frame) (p : Parsed) : Nat := if p.fab.isSome then hVc p.hdr else f.vc

/-- Whether the link of port `d` takes the frame: up, or carrying VC0 alone (R33, R41, R195). -/
def State.linkTakes (s : State) (d : Nat) (f : Frame) (p : Parsed) : Bool :=
  let b := d / 8
  let st := s.portState d
  if s.isLink b then
    let vc := frameVc f p
    let only0 := st == 5 || !s.placed || (s.block b).recheck
    (st == 6 || st == 5) && (!only0 || (vc == 0 && (s.role b == 4 || !f.routed))) &&
    s.hasCredit b vc (cellsOf (linkLen f p)) && s.flitRoom b (flitsOf (linkLen f p))
  else st == 6

/-- Eligibility of queue `qid`: the head and how its gate answers, or none (R104). -/
def State.eligible (s : State) (qid : Nat) : Option (Nat × GateAnswer) :=
  let d := qid / 12
  let q := qid % 12
  match s.headOf qid with
  | none => none
  | some id =>
    let f := (s.copy id).frame
    let n := s.chargedLen d f
    let r := s.row O.EGR_QCFG qid
    let pr := s.row O.EGR_PORTCFG d
    let g := s.gate d q n
    let launchOk := decide (q < 8) || (match f.launch with | some t => s.reached t | none => true)
    let portOk := decide (1024 ≤ d) ||
      (bucketHolds (qRate r) (qBurst r) (s.eq qid).short n && bucketHolds (pRate pr) (pBurst pr) (s.ep d).short n &&
       !s.paused qid && s.linkTakes d f (parseFrame f.etype f))
    if s.headNear qid id && launchOk && g != .shut && portOk then some (id, g) else none

/-! ### What becomes of a head before selection (R97, R117, R131, R222, R224, R233) -/

/-- The route check of R222 for a frame at port `d`. -/
def State.orderOk (s : State) (d : Nat) (f : Frame) (h : Nat) : Bool :=
  let b := d / 8
  if !(s.role b == 2 || s.role b == 3) || !s.placed || !f.routed || f.uturn then true
  else
    let dst := hDstDev h
    if s.torusSize ≤ dst ∨ s.torusSize ≤ s.own then s.peer b == dst
    else
      match s.firstAxis s.own dst with
      | none => false
      | some ax =>
        let up := s.dir b % 2 == 0
        s.dir b / 2 == ax &&
        (s.wrapped ax || (if up then decide (s.coord s.own ax < s.coord dst ax) else decide (s.coord dst ax < s.coord s.own ax)))

/-- How late a launch time was when its frame became the head (R117). -/
def State.lateBy (s : State) (qid t : Nat) : Nat := t64After t (s.eq qid).headT64

/-- A status of a local producer for a frame dropped at departure (R222, R224). -/
def State.tellProducer (s : State) (f : Frame) (status : Nat) : State :=
  if 1024 ≤ f.port then s.emit (.producer (f.port - 1024) status) else s

/-- Drop the head of queue `qid` where a rule asks for it; none where it stays. -/
def State.headDrop (s : State) (qid : Nat) : Option State :=
  let d := qid / 12
  let q := qid % 12
  match s.headOf qid with
  | none => none
  | some id =>
    let c := s.copy id
    let f := c.frame
    let h := (f.outHdr (parseFrame f.etype f)).getD 0
    let r := s.row O.EGR_QCFG qid
    let pfc := s.row O.PFC_CFG (8 * d + qPausePrio r)
    if s.row O.ROUTE_HOLD f.pasture = 2 then some ((s.dropFrom id qid).vcCount 7 (some 5))
    else if (decide (8 ≤ q) && (match f.launch with
        | some t => pMaxLate (s.row O.EGR_PORTCFG d) != 0 && decide (pMaxLate (s.row O.EGR_PORTCFG d) < s.lateBy qid t)
        | none => false)) then
      some (((s.dropFrom id qid).count O.EGR_DROP_LATE 0 1).raise O.EGR_ERR 2)
    else if 1024 ≤ d then none
    else if s.paused qid ∧ (s.eq qid).wdFired ∧ pfc.testBit 48 then some ((s.dropFrom id qid).count O.PFC_WD_DROPS 0 1)
    else if c.bad then some (s.dropFrom id qid)
    else if s.isLink (d / 8) ∧ h ≠ 0 ∧ !s.orderOk d f h then
      some (((s.dropFrom id qid).vcCount 1 (some 1)).tellProducer f 4)
    else if s.role (d / 8) = 4 ∧ h ≠ 0 ∧ hDstDev h ≠ s.peer (d / 8) then
      some (((s.dropFrom id qid).fwdDrop (d / 256) f .unreachable).vcCount 9 (some 2))
    else none

/-- Drop heads of queue `qid` until one stays. -/
def State.headDrops (s : State) (qid : Nat) : Nat → State
  | 0 => s
  | fuel + 1 =>
    match s.headDrop qid with
    | some t => State.headDrops t qid fuel
    | none => s

/-! ### Selection (R107 to R109) -/

/-- The deficit round robin of level `lvl` from queue `q` on, until a queue of `w` has enough (R108). -/
def State.drrLoop (s : State) (d lvl : Nat) (w : List (Nat × Nat)) (q : Nat) : Nat → State × Option Nat
  | 0 => (s, none)
  | fuel + 1 =>
    let q := (q + 1) % 12
    match w.find? (fun x => x.1 == q) with
    | none => State.drrLoop s d lvl w q fuel
    | some x =>
      let qid := 12 * d + q
      let have_ := (s.eq qid).deficit + 1024 * qWeight (s.row O.EGR_QCFG qid)
      if x.2 ≤ have_ then
        (((s.modEq qid (fun e => { e with deficit := have_ - x.2 })).modEp d (fun e =>
          { e with cursors := TMap.put 0 e.cursors lvl q })), some qid)
      else State.drrLoop (s.modEq qid (fun e => { e with deficit := have_ })) d lvl w q fuel

/-- drr(lvl, w) of R108; `w` pairs a queue with its head's charged length. -/
def State.drr (s : State) (d lvl : Nat) (w : List (Nat × Nat)) : State × Option Nat :=
  let q := TMap.get 0 (s.ep d).cursors lvl
  match w.find? (fun x => x.1 == q && decide (x.2 ≤ (s.eq (12 * d + q)).deficit)) with
  | some x => (s.modEq (12 * d + q) (fun e => { e with deficit := e.deficit - x.2 }), some (12 * d + q))
  | none => s.drrLoop d lvl w q 1000

/-- rr0(lvl, e) of R107. -/
def State.rr0 (s : State) (d lvl : Nat) (e : List (Nat × Nat)) : State × Option Nat :=
  let last := TMap.get 11 (s.ep d).rr0 lvl
  match rrPick (e.map (·.1)) last with
  | some q => (s.modEp d (fun x => { x with rr0 := TMap.put 11 x.rr0 lvl q }), some (12 * d + q))
  | none => (s, none)

/-- next_frame(port) of R108 over the eligible queues `e`, from level `lvl` down. -/
def State.nextFrame (s : State) (d : Nat) (e : List (Nat × Nat)) : Nat → State × Option Nat
  | 0 => (s, none)
  | n + 1 =>
    let here := e.filter (fun x => qLevel (s.row O.EGR_QCFG (12 * d + x.1)) == n)
    let w := here.filter (fun x => qWeight (s.row O.EGR_QCFG (12 * d + x.1)) != 0)
    if !w.isEmpty then s.drr d n w
    else if !here.isEmpty then s.rr0 d n here
    else State.nextFrame s d e n

/-- The head of queue `qid` is chosen to depart next at its destination, as the rows stand now (R110, R123). -/
def State.choose (s : State) (qid : Nat) : State :=
  let d := qid / 12
  match s.headOf qid with
  | none => s
  | some id =>
    let thr := qEcnThr (s.row O.EGR_QCFG qid)
    let x : Chosen :=
      { queue := qid, copy := id, len := s.chargedLen d (s.copy id).frame
        qShaped := qRate (s.row O.EGR_QCFG qid) != rateOpen, pShaped := pRate (s.row O.EGR_PORTCFG d) != rateOpen
        mark := decide (d < 1024) && thr != 0 && decide (thr ≤ (s.eq qid).used) }
    s.modEp d (fun e => { e with next := some x })

/-- EGRESS_SELECT (R108): the scheduler of destination `d` picks the frame that departs next. -/
def State.select (s : State) (d : Nat) : State :=
  if (s.ep d).next.isSome then s
  else
    let s := (List.range 12).foldl (fun s q => s.headDrops (12 * d + q) ((s.eq (12 * d + q)).frames.length)) s
    let el := (List.range 12).filterMap (fun q => match s.eligible (12 * d + q) with
      | some x => some (q, s.chargedLen d (s.copy x.1).frame, x.2)
      | none => none)
    let r := s.nextFrame d (el.map (fun x => (x.1, x.2.1))) 8
    match r.2 with
    | none => r.1
    | some qid =>
      let s := r.1.choose qid
      if el.any (fun x => x.1 == qid % 12 && x.2.2 == .overrun) then
        ((s.modEq qid (fun e => { e with overran := true })).count O.EGR_GATE_OVERRUNS 0 1).raise O.EGR_ERR 4
      else s

def execEgressSelect (d : Fin 1040) (s : State) : Ans := live s <| .next (s.select d.val)

/-! ### Departure (R105, R106, R121 to R124, R146, R149, R150, R175, R441) -/

/-- A frame marked CE (R124): its bytes, and whether it could be marked. -/
def markFrame (f : Frame) (p : Parsed) : List Byte × Bool :=
  match p.fab with
  | some off => ((f.setHdr off (hdrFix (setBits p.hdr 234 2 3))).bytes, true)
  | none => if p.ipVer ≠ 0 ∧ (p.ecn = 1 ∨ p.ecn = 2) then (setIpEcn p f.bytes 3, true) else (f.bytes, false)

/-- The next spray number for (dst_dev, class) and whether it carries sync (R175). -/
def State.sprayNumber (s : State) (k : Nat) : State × Nat × Bool :=
  let v := TMap.get 0 s.fwd.spraySeq k
  let n := v - 1
  ({ s with fwd := { s.fwd with spraySeq := TMap.put 0 s.fwd.spraySeq k ((n + 1) % 65536 + 1) } }, n, v == 0)

/-- Departure time written at `off + 2n` of a frame whose header stands at `off` (R441): the Inserted format. -/
def insertTime (l : List Byte) (off n t112 : Nat) : List Byte :=
  patch l (off + 2 * n) (beBytes 12 ((bits t112 48 48) * 2 ^ 48 + t112 % 2 ^ 48))

/-- The outer Ethernet header of a frame that keeps its fabric header (R150). -/
def State.outerHeader (s : State) (h cls : Nat) (inner : List Byte) : List Byte :=
  let et := s.ob O.FWD_ETHERTYPE
  if hOp h = 0 then
    inner.take (12 + 4 * (parseOuter 0 inner).tags) ++ beBytes 2 et
  else beBytes 6 (s.ob O.FWD_ROUTER_MAC) ++ beBytes 6 (s.ob O.FWD_ROUTER_MAC) ++ beBytes 2 0x8100 ++
    beBytes 2 (cls * 8192) ++ beBytes 2 et

/-- The inner frame of an op 0x00 frame with the ecn of its header transferred (R150); the second answer says that
marking was skipped. -/
def decap (h : Nat) (inner : List Byte) : List Byte × Bool :=
  let p := parseOuter 0 inner
  if hEcn h ≠ 3 then (inner, false)
  else if p.ipVer = 0 ∨ p.ecn = 0 then (inner, true)
  else if p.ecn = 3 then (inner, false)
  else (setIpEcn p inner 3, false)

/-- An incremental repair of an Internet checksum `c` when the bytes `a` become `b`. -/
def checksumFix (c : Nat) (a b : List Byte) : Nat :=
  let words := fun (l : List Byte) => (List.range (l.length / 2)).map (fun i => beAt l (2 * i) 2)
  let v := (0xFFFF - c) + ((words a).map (fun w => 0xFFFF - w)).sum + (words b).sum
  let v := v % 65536 + v / 65536
  let v := v % 65536 + v / 65536
  0xFFFF - v

/-- A PTP message with `n` bytes at offset `off` of the frame replaced, and the checksum of the UDP header before it
repaired (R435, R442); a zero UDP checksum over IPv4 stays zero. -/
def ptpPatch (p : Parsed) (l : List Byte) (off : Nat) (new : List Byte) : List Byte :=
  match p.ptp with
  | none => l
  | some m =>
    let old := (l.drop off).take new.length
    let l := patch l off new
    if p.ipVer = 0 then l
    else
      let c := beAt l (m - 2) 2
      if c = 0 ∧ p.ipVer = 4 then l
      else
        let v := checksumFix c old new
        patch l (m - 2) (beBytes 2 (if v = 0 then 0xFFFF else v))

/-- The transparent clock (R435): an event message that crosses this device between flock ports gains its residence time
in correctionField. -/
def State.transparent (s : State) (d : Nat) (f : Frame) (p : Parsed) : State × List Byte :=
  match p.ptp with
  | none => (s, f.bytes)
  | some m =>
    if 1024 ≤ f.port ∨ s.isLink (f.port / 8) ∨ !(s.row O.BWTH_PORT f.port).testBit 5 ∨ 4 ≤ beAt f.bytes m 1 % 16 ∨ 1024 ≤ d then
      (s, f.bytes)
    else
      let res : Int := ((s.time.dev / 2 ^ 32 : Nat) : Int) - ((devOf f.rx / 2 ^ 32 : Nat) : Int)
      let c := sint 64 (beAt f.bytes (m + 8) 8)
      (s.count O.BWTH_STAT 8 1, ptpPatch p f.bytes (m + 8) (beBytes 8 (sbits 64 (c + res))))

/-- The header of a frame as it starts to depart on its member port (R175): the device whose number it carries gives a
sprayed frame its number. -/
def State.sprayHdr (s : State) (h : Nat) : State × Nat :=
  if hVc h = 4 ∧ hSrcDev h = s.own then
    let n := s.sprayNumber (8 * hDstDev h + s.vcClass 4)
    (n.1, hdrFix (setBits (setBits h 208 16 n.2.1) 202 1 (b2n n.2.2)))
  else (s, h)

/-- The frame as it leaves port `d` (R146, R149, R150, R175, R441), after marking. -/
def State.departBytes (s : State) (d : Nat) (f : Frame) : State × List Byte :=
  let p := parseFrame f.etype f
  let link := s.isLink (d / 8)
  match p.fab with
  | none =>
    if link then
      let r := s.sprayHdr (hdrFix (setBits f.out 234 2 (if p.ipVer = 0 then 0 else p.ecn)))
      (r.1, beBytes 32 r.2 ++ f.bytes)
    else s.transparent d f p
  | some off =>
    let r := if link then s.sprayHdr p.hdr else (s, p.hdr)
    let s := r.1
    let h := r.2
    -- timestamp insertion (R441)
    let n := hTsOff h
    let ok := (s.pFeature f.pasture 16 || hOp h == 4) && decide (16 ≤ n ∧ 2 * n + 12 ≤ 32 + hLen h)
    let body := (f.setHdr off h).bytes.drop off
    -- a TIME_SYNC takes the Bell number of its departure with the time (R436), and so does a HEARTBEAT (R460)
    let body := if hOp h = 4 then patch body 87 (beBytes 8 s.bell) else if hOp h = 8 then patch body 32 (beBytes 8 s.bell) else body
    let body := if n ≠ 0 ∧ ok then insertTime body 0 n (time112 s.time.dev) else body
    let s := if n ≠ 0 ∧ !ok then (s.count O.BWTH_STAT 4 1).raise O.BWTH_ERR 4 else s
    if link then (s, body)
    else
      let inner := body.drop 32
      if hOp h = 0 ∧ !(s.row O.FWD_PORTCFG d).testBit 61 then
        let x := decap h inner
        (if x.2 then s.count O.EGR_MARK_SKIPPED 0 1 else s, x.1)
      else (s, s.outerHeader h f.cls inner ++ body)

/-- Congestion marking of a frame that departs from queue `qid` and that its selection found over the threshold (R123, R124):
the frame as it leaves this queue; other members of a frame with several are marked by their own queues alone. -/
def State.markHead (s : State) (qid : Nat) (f : Frame) : State × Frame :=
  let x := markFrame f (parseFrame f.etype f)
  if x.2 then
    ((s.modEq qid (fun q => { q with marks := min 65535 (q.marks + 1) })).count O.EGR_MARKS 0 1 |>.tally 0x0504 qid,
      { f with bytes := x.1 })
  else (s.count O.EGR_MARK_SKIPPED 0 1, f)

/-- The charged length of the frame chosen is taken from each of its buckets that was shaped (R110, R121). -/
def State.takeTokens (s : State) (x : Chosen) : State :=
  let d := x.queue / 12
  if 1024 ≤ d then s
  else
    let s := if x.qShaped then s.modEq x.queue (fun q => { q with short := q.short + x.len * byteUnit }) else s
    if x.pShaped then s.modEp d (fun e => { e with short := e.short + x.len * byteUnit }) else s

/-- Charge a frame of `n` cells on channel `vc` to the sender's counts (R198): reserve first, else shared. -/
def State.chargeCredit (s : State) (b vc n : Nat) : State × Nat :=
  let x := s.block b
  if n ≤ TMap.get 0 x.credits vc then (s.setBlock b { x with credits := subFrom x.credits vc n }, 0)
  else (s.setBlock b { x with credits := subFrom x.credits 8 n }, 1)

/-- Heavy-pair counting of a departure (R245, R247): bytes stored, by destination, of this device's own frames on ring
and reach ports, CTRL and LOG apart; a counter holds at 2^64 − 1. -/
def State.heavyCount (s : State) (d h len : Nat) : State :=
  if d < 1024 ∧ (s.role (d / 8) = 2 ∨ s.role (d / 8) = 3) ∧ s.placed ∧ s.ob O.CIRC_HP_WINDOW ≠ 0 ∧ hSrcDev h = s.own ∧
      hVc h ≠ 0 ∧ hVc h ≠ 7 then
    let n := min (2 ^ 64 - 1) (TMap.get 0 s.circ.hp (hDstDev h) + len)
    { s with circ := { s.circ with hp := TMap.put 0 s.circ.hp (hDstDev h) n } }
  else s

/-- The queue of a frame that starts to depart: its counts of the tick (R133), the next frame's time as head (R117), and its
deficit, which goes when no other frame is left (R109). -/
def State.departQueue (s : State) (qid id len sojourn : Nat) : State :=
  s.modEq qid (fun q => { q with
    bytes := min 0xFFFFFFFF (q.bytes + len)
    maxSojourn := max q.maxSojourn (min 0xFFFFFFFF sojourn)
    headT64 := s.t64
    deficit := if (q.frames.filter (· != id)).isEmpty then 0 else q.deficit })

/-- Start the departure of the frame chosen (R106), its log entry appended to `s` where it has one. -/
def State.depart (s : State) (x : Chosen) (logged : Option (Nat × Nat)) : State :=
  let qid := x.queue
  let d := qid / 12
  let c := s.copy x.copy
  let len := c.frame.bytes.length
  let s := (s.takeTokens x).departQueue qid x.copy len (s.now - c.admitNs)
  let k := if x.mark then s.markHead qid c.frame else (s, c.frame)
  let s := k.1
  let f := k.2
  let r := if d < 1024 then s.departBytes d f
    else (s, match (parseFrame f.etype f).fab with | some off => f.bytes.drop off | none => f.bytes)
  let s := r.1
  let link := decide (d < 1024) && s.isLink (d / 8)
  let vc := hVc (beAt r.2 0 32)
  let y := if link then s.chargeCredit (d / 8) vc (cellsOf r.2.length) else (s, 0)
  let s := y.1
  let s := s.heavyCount d (beAt r.2 0 32) len
  let s := if link ∧ f.uturn then (s.vcCount 4 none).holdCount (ringEntryOff (d / 8)) 32 1 else s
  let s := match logged with
    | some (dest, kind) => s.logAppend (s.logStack (d / 64)) dest kind r.2
    | none => s
  s.modEp d (fun e => { e with
    next := none
    dep := some { copy := x.copy, queue := qid, started := true, cellRead := 0, logged := logged.isNone, bytes := r.2
                  space := if link then some (vc, y.2) else none } })

/-- The choice of destination `d` is undone: the queue has back what its deficit gave. -/
def State.unchoose (s : State) (d : Nat) (x : Chosen) : State :=
  let w := qWeight (s.row O.EGR_QCFG x.queue)
  (s.modEp d (fun e => { e with next := none })).modEq x.queue (fun q =>
    { q with deficit := if w = 0 ∨ q.frames.isEmpty then q.deficit else q.deficit + x.len })

/-- Whether the queue chosen has been paused for more than 100 ns, so that no new frame of it starts (R130). -/
def State.pausedLong (s : State) (qid : Nat) : Bool :=
  s.paused qid && (match (s.eq qid).pauseSince with | some t => decide (t + 100 < s.now) | none => false)

/-- With nothing to send, a Fold link that carries frames tells its peer in a flit of its own what it has to tell: an
acknowledgement, a nak or credits (R192; that it does so at this command is a DESIGN CHOICE, log entry 130). -/
def State.tellPeer (s : State) (d : Nat) : State :=
  let b := d / 8
  let x := s.block b
  if d < 1024 ∧ d % 8 = 0 ∧ s.isLink b ∧ (s.portState d = 5 ∨ s.portState d = 6 ∨ s.portState d = 9) ∧
      (x.ackTold ≠ x.rxSeq ∨ x.nakDue ∨ !x.returns.isEmpty) then s.sendIdle b
  else s

/-- FRAME_DEPARTURE_START (R106): the frame chosen at destination `d` starts to depart, once the one before it has
ended, its credit is at hand and, for a logged frame, its log has room (R469, R471). A choice whose frame has gone, or
whose queue has meanwhile been paused too long (R130), is undone. -/
def State.departureStart (s : State) (d : Nat) : State :=
  match (s.ep d).dep, (s.ep d).next with
  | none, some x =>
    if s.headOf x.queue ≠ some x.copy ∨ s.pausedLong x.queue then s.unchoose d x
    else
      let f := (s.copy x.copy).frame
      let p := parseFrame f.etype f
      if d < 1024 ∧ (s.still ∨ !s.linkTakes d f p) then s
      else
        match s.loggedUnder d ((f.outHdr p).getD 0) with
        | some l =>
          match s.logRoom (s.logStack (d / 64)) l.1 (32 + (linkLen f p + 31) / 32 * 32) with
          | some s => s.depart x (some l)
          | none => s
        | none => s.depart x none
  | none, none => s.tellPeer d
  | _, _ => s

def execFrameDepartureStart (d : Fin 1040) (s : State) : Ans := live s <| .next (s.departureStart d.val)

/-- MUSTER_LOG_ENTRY_ACCEPTED (R94, R469): the entry of the frame departing at `d` has been accepted. -/
def execMusterLogEntryAccepted (d : Fin 1040) (s : State) : Ans := live s <|
  .next (s.modEp d.val (fun e => { e with dep := e.dep.map (fun x => { x with logged := true }) }))

/-! ### Cell reads (R57, R97, R200) -/

/-- Fence bank `k` of bank group `g` (R97); the third fenced bank degrades the group. -/
def State.fenceBank (s : State) (g k : Nat) : State :=
  let x := s.bank g
  if x.fenced.testBit k then s
  else
    let s := (s.setBank g { x with fenced := setBit x.fenced k }).setOb O.FOLD_BANKS_FENCED (s.ob O.FOLD_BANKS_FENCED + 1)
    let s := s.raise O.FOLD_ERR 6 0 4 g 0
    if popcount 12 (s.bank g).fenced = 3 then
      let s := s.setBank g { s.bank g with degraded := true }
      let o := if g < 64 then O.FOLD_GROUPS_FENCED else O.FOLD_GROUPS_FENCED_HI
      (s.setOb o (setBit (s.ob o) (g % 64))).raise O.FOLD_ERR 7 0 4 g 0
    else s

/-- An uncorrectable error of bank `k` of group `g` (R97): the bank is fenced after FOLD_ECC_FENCE_COUNT within 1 s. -/
def State.nearUe (s : State) (g k : Nat) : State :=
  let s := s.raise O.FOLD_ERR 1 3 4 g 0
  let x := s.bank g
  let ues := (x.ues.filter (fun u => decide (s.now < u.2 + 1000000000))) ++ [(k, s.now)]
  let s := s.setBank g { x with ues := ues }
  let lim := s.ob O.FOLD_ECC_FENCE_COUNT
  if lim ≠ 0 ∧ lim ≤ (ues.filter (fun u => u.1 == k)).length then s.fenceBank g k else s

/-- Check a cell read of copy `id` at place `g` (R57, R97). `ecc` is what a bank group's SRAM says: 0 clean, 1 corrected,
which is counted, 2 uncorrectable; a cell in a pool has no bank. -/
def State.checkRead (s : State) (id g bank ecc : Nat) (crcOk : Bool) : State :=
  let near := decide (g < 128)
  let s := if near && ecc = 1 then { s with fold := { s.fold with eccFixed := addTo s.fold.eccFixed g 1 } } else s
  let s := if near && ecc = 2 then s.nearUe g bank else s
  if (near && ecc = 2) || !crcOk then
    let s := if crcOk then s else s.raise O.FOLD_ERR 0 3
    (s.countPoison (s.copy id).die 1).poisonCopy id
  else s

/-- A flock block in quiesce retrains every port when no frame of it is in transmission any more (R215). -/
def State.flockQuiet (s : State) (b : Nat) : State :=
  if s.isLink b ∨ !(s.ports b).any (fun p => s.portState p == 9) ∨ (s.ports b).any (fun p => (s.ep p).dep.isSome) then s
  else (s.ports b).foldl (fun s p => s.flockDown p) s

/-- An op of 0x40 to 0x5F that R361 does not name: its frame is dropped at the sink and counted in stray. -/
def collStrayOp (op : Nat) : Bool :=
  decide (0x40 ≤ op ∧ op < 0x60) && !([0x40, 0x41, 0x42, 0x43, 0x44, 0x50, 0x51, 0x52, 0x58, 0x59, 0x5A].contains op)

/-- The last cell of a departure has been read: the frame leaves, and the copy leaves its queue. In near-end loopback a flock
port's frame comes back to the port (R215; DESIGN CHOICE, log entry 132). -/
def State.departEnd (s : State) (d : Nat) (x : Departing) : State :=
  let c := s.copy x.copy
  let bad := c.bad || c.frame.poison
  let s := if 1024 ≤ d then
      if collStrayOp (hOp (beAt x.bytes 0 32)) then (s.count O.COLL_STAT 8 1).raise O.COLL_ERR 8
      else s.emit (.sink (d - 1024) { c.frame with bytes := x.bytes, fab := true, poison := bad })
    else if s.isLink (d / 8) then
      let h := beAt x.bytes 0 32
      let l := if bad then beBytes 32 (hdrFix (setBit h 200)) ++ x.bytes.drop 32 else x.bytes
      s.sendFrameFlits (d / 8) l (x.space.map (·.2) == some 1)
    else if s.bob (d / 8) O.PORT_LOOPBACK = 1 then s
    else s.transmit (d / 8) (.eth d x.bytes bad)
  let s := if d < 1024 then (s.tally 0x0102 d).tally 0x0103 d x.bytes.length else s
  let s := (s.tally 0x0500 x.queue).tally 0x0501 x.queue x.bytes.length
  let s := s.unlink x.copy x.queue c.frame.cells
  let s := s.modEp d (fun e => { e with dep := none })
  if d < 1024 then
    (if !s.isLink (d / 8) ∧ s.bob (d / 8) O.PORT_LOOPBACK = 1 then s.ingress d x.bytes (!bad) none else s).flockQuiet (d / 8)
  else s

/-- CELL_READ (R57) for departure: the next cell of the departing frame is read near, its charge released. -/
def State.readDepart (s : State) (d bank ecc : Nat) (crcOk : Bool) : State :=
  match (s.ep d).dep with
  | none => s
  | some x =>
    if !x.started || !x.logged then s
    else
      let c := s.copy x.copy
      let i := x.cellRead
      let g := c.groups.getD i 128
      if g = 128 then s
      else
        let s := s.checkRead x.copy g bank ecc crcOk
        let s := (s.uncharge x.queue c.frame.pasture 1).cutCells x.queue (fun y => y == (x.copy, i))
        let s := s.modEp d (fun e => { e with dep := some { x with cellRead := i + 1 } })
        let s := s.freeCells x.copy
        if c.frame.cells ≤ i + 1 then s.departEnd d { x with cellRead := i + 1 } else s

/-- Whether a departure or a local sink waits to read bank group `g` (R61). -/
def State.departWaits (s : State) (g : Nat) : Bool :=
  s.fold.eports.any (fun x => match x.2.dep with
    | some d => d.started && d.logged && (s.copy d.copy).groups.getD d.cellRead 128 == g
    | none => false)

/-- The place of the landing cell that transfer `t` is to carry. -/
def State.landedAt (s : State) (t : Transfer) : Nat := (s.landing (s.copy t.copy).arr).getD t.cell 128

/-- Whether a landing transfer waits to read bank group `g` (R61). -/
def State.transferWaits (s : State) (g : Nat) : Bool := s.fold.inflight.any (fun t => s.unread t && s.landedAt t == g)

/-- A landing cell is read for transfer (R57, R67), after the departures that wait at its bank group (R61): the next cell of
copy `id` that the gate matcher has granted. The last read ends the copy's landing. -/
def State.readTransfer (s : State) (id bank ecc : Nat) (crcOk : Bool) : State :=
  match s.fold.inflight.findIdx? (fun t => t.copy == id && s.unread t) with
  | none => s
  | some i =>
    match s.fold.inflight[i]? with
    | none => s
    | some t =>
      let g := s.landedAt t
      if g < 128 ∧ s.departWaits g then s
      else
        let s := s.checkRead id g bank ecc crcOk
        let s := { s with fold := { s.fold with inflight := s.fold.inflight.set i { t with read := true } } }
        let c := s.copy id
        let s := s.setCopy id { c with left := c.left + 1, landed := if c.frame.cells ≤ c.left + 1 then none else c.landed }
        s.inputSweep c

/-- A cell is read for eviction (R57), after the departures and transfers that wait at its bank group (R61): cell `i` of the
first evicting group of queue `qid`. -/
def State.readEvict (s : State) (qid i bank ecc : Nat) (crcOk : Bool) : State :=
  match (s.eq qid).groups.find? (fun g => g.place.isEvicting) with
  | some g =>
    match g.cells[i]? with
    | some x =>
      let b := (s.copy x.1).groups.getD x.2 128
      if s.departWaits b || s.transferWaits b then s else s.checkRead x.1 b bank ecc crcOk
    | none => s
  | none => s

def execCellRead (use : CellUse) (crcOk : Bool) (ecc : Fin 3) (bank : Fin 12) (s : State) : Ans := live s <|
  match use with
  | .depart d => .next (s.readDepart d.val bank.val ecc.val crcOk)
  | .evict qid i => .next (s.readEvict qid.val i.val bank.val ecc.val crcOk)
  | .transfer id => .next (s.readTransfer id bank.val ecc.val crcOk)

/-! ### Buckets, launches and gates in time -/

/-- What a bucket of rate `rate` lacks after one cell time of 2 ns: it gains rate/4,000 bytes, without a remainder in the
unit of `short` (R121). -/
def refill (rate short : Nat) : Nat := if rate = rateOpen then 0 else short - rate * 2 ^ 24

/-- TOKEN_BUCKET_REFILL (R121): every bucket gains one cell time's worth. -/
def State.refillAll (s : State) : State :=
  let s := (s.fold.queues.map (·.1)).foldl (fun s q =>
    if (s.eq q).short = 0 then s else s.modEq q (fun x => { x with short := refill (qRate (s.row O.EGR_QCFG q)) x.short })) s
  (s.fold.eports.map (·.1)).foldl (fun s d =>
    if (s.ep d).short = 0 then s else s.modEp d (fun x => { x with short := refill (pRate (s.row O.EGR_PORTCFG d)) x.short })) s

def execTokenBucketRefill (s : State) : Ans := live s <| .next s.refillAll

/-- LAUNCH_TIME_DUE (R115): the launch time of the head of queue `qid` comes; the head may then be selected. -/
def execLaunchTimeDue (qid : Fin 12480) (s : State) : Ans := live s <|
  match s.headOf qid.val with
  | some id =>
    match (s.copy id).frame.launch with
    | some t =>
      if 8 ≤ qid.val % 12 ∧ !s.reached t then
        .next (s.advanceDev ((s.devNs + (t64Ns t + t64Span - t64Ns s.t64) % t64Span) * devUnit))
      else .next s
    | none => .next s
  | none => .next s

/-- BELL_SLOT_OPEN (R111): the next slot of the tick begins; gates of ports with gate_en follow their rows. -/
def execBellSlotOpen (s : State) : Ans := live s <|
  .next (s.advanceDev (s.time.dev - s.tickPos + (s.slot + 1) * (s.period / 64) * devUnit))

/-! ### Configuration writes (R110, R114, R119, R120, R122, R129, R132) -/

/-- The longest frame of a port's block (R189). -/
def State.maxFrame (s : State) (b : Nat) : Nat := if s.isLink b then 16896 else s.bob b O.PORT_MAX_FRAME

/-- A rate that R119 knows. -/
def rateOk (r : Nat) : Bool := decide (r ≤ 2048000) || r == rateOpen

/-- A bucket's burst suffices for the port's longest frame and its overhead (R120). -/
def burstOk (rate burst need : Nat) : Bool := rate == 0 || rate == rateOpen || decide (need ≤ burst)

/-- End the pause of queue `qid` (R130, R131). -/
def State.pauseEnd (s : State) (qid : Nat) : State :=
  s.modEq qid (fun q => { q with pauseUntil := none, pauseSince := none, wdFired := false })

/-- The number of queues with rec_sel set. -/
def State.recSelected (s : State) : Nat := ((s.rowsOf O.EGR_QCFG).filter (fun x => qRecSel x.2)).length

/-- Write row `qid` of EGR_QCFG (R110, R119, R120, R122, R132): the row is written whole, so its bucket is filled. A burst is
1 to 67,108,864 bytes where it matters. -/
def State.writeQcfg (s : State) (qid v : Nat) : State × Nat :=
  let d := qid / 12
  let rate := qRate v
  let shaped := rate != 0 && rate != rateOpen
  let old := s.row O.EGR_QCFG qid
  if !rateOk rate then (s, 0x0A)
  else if shaped && decide (qBurst v = 0 ∨ 67108864 < qBurst v) then (s, 0x0A)
  else if d < 1024 ∧ !burstOk rate (qBurst v) (s.maxFrame (d / 8) + pOverhead (s.row O.EGR_PORTCFG d)) then (s, 0x0A)
  else if qRecSel v && !qRecSel old && decide (1024 ≤ s.recSelected) then (s, 0x0A)
  else
    let v := v &&& (0x1FFF7 + 0xFFFFFFFF <<< 32 + 0x3FFFFF <<< 64 + 0x7FFFFFF <<< 96)
    let t := s.setRow O.EGR_QCFG qid v
    -- a queue that no longer obeys PFC, or obeys another priority, is paused no more
    let freed := qPauseEn old && (!qPauseEn v || qPausePrio old != qPausePrio v)
    let t := t.modEq qid (fun q => { q with deficit := 0, short := 0 })
    (if freed then t.pauseEnd qid else t, 0)

def execQueueConfigWrite (who : Path) (qid : Fin 12480) (v : BitVec 128) (s : State) : Ans :=
  .next (s.access who O.EGR_QCFG (fun s => s.writeQcfg qid.val v.toNat))

/-- Write row `d` of EGR_PORTCFG (R119, R120, R122). -/
def State.writePortCfg (s : State) (d v : Nat) : State × Nat :=
  let rate := pRate v
  let shaped := rate != 0 && rate != rateOpen
  if !rateOk rate then (s, 0x0A)
  else if shaped && decide (pBurst v = 0 ∨ 67108864 < pBurst v) then (s, 0x0A)
  else if d < 1024 ∧ !burstOk rate (pBurst v) (s.maxFrame (d / 8) + pOverhead v) then (s, 0x0A)
  else
    let v := v &&& (0x3FFFFF + 0x7FFFFFF <<< 32 + 0x7F <<< 64 + 0xFFFFFFFFFFFFFF <<< 72)
    ((s.setRow O.EGR_PORTCFG d v).modEp d (fun e => { e with short := 0 }), 0)

/-- Write row `d` of EGR_GATE: the row in effect stays until the next tick boundary (R114). -/
def State.writeGate (s : State) (d v : Nat) : State × Nat :=
  let old := s.gateRow d
  ((s.modEp d (fun e => { e with gateRow := some old })).setRow O.EGR_GATE d v, 0)

/-- Write row `r` = 8·port + priority of PFC_CFG (R129); on a block that is not in the flock role it is accepted and has no
effect. -/
def State.writePfc (s : State) (r v : Nat) : State × Nat :=
  let b := r / 64
  let port := r / 8
  let v := v &&& (0x7FFFFFFF + 0x1FFFF <<< 32)
  if s.role b ≠ 1 then (s.setRow O.PFC_CFG r v, 0)
  else
    let sum := (List.range 64).foldl (fun a i =>
      let x := if 64 * b + i = r then v else s.row O.PFC_CFG (64 * b + i)
      if pfcEnabled x && decide (i / 8 < s.bob b O.PORT_SPLIT) then a + pfcXoff x + pfcHeadroom x else a) 0
    if pfcXoff v ≤ pfcXon v ∨ pfcXoff v < cellsOf (s.bob b O.PORT_MAX_FRAME) ∨ 896 < sum then (s, 0x0A)
    else ((s.setRow O.PFC_CFG r v).pfcUpdate port (r % 8), 0)

/-- QREC_RING_WRITE_FAULT (R137): the ring is turned off, EGR_QREC_SIZE reads 0. -/
def execQrecRingWriteFault (s : State) : Ans := live s <|
  if s.ob O.EGR_QREC_SIZE = 0 then .next s
  else .next ((s.setOb O.EGR_QREC_SIZE 0).raise O.EGR_ERR 6)

/-! ### PFC (R125 to R131) -/

/-- PFC_XOFF_REPEAT (R127): XOFF of a priority still in XOFF is sent again when half its quanta have passed. -/
def execPfcXoffRepeat (port : Fin 1024) (prio : Fin 8) (s : State) : Ans := live s <|
  let t := TMap.get 0 (s.ep port.val).xoffAt prio.val
  if (s.ep port.val).xoff.testBit prio.val then
    let s := s.advanceTo t
    .next ((s.modEp port.val (fun e => { e with
      xoffAt := TMap.put 0 e.xoffAt prio.val (t + s.quantaNs port.val 0xFFFF / 2) })).transmit (port.val / 8) (.pfc port.val (2 ^ prio.val) 0xFFFF) |>.tally 0x0106 port.val)
  else .next s

/-- PFC_FRAME_RECEIVE (R130): `enable` is the class-enable vector, `quanta` eight 16-bit times, priority 0 lowest. -/
def State.pfcReceive (s : State) (port enable quanta : Nat) : State :=
  if s.isLink (port / 8) then s.count O.PFC_PAUSE_IGNORED 0 1
  else if !s.isFlockPort port then s
  else (List.range 12).foldl (fun s q =>
    let qid := 12 * port + q
    let r := s.row O.EGR_QCFG qid
    if qPauseEn r && enable.testBit (qPausePrio r) then
      let n := bits quanta (16 * qPausePrio r) 16
      if n = 0 then s.pauseEnd qid
      else s.modEq qid (fun x => { x with
        pauseUntil := some (s.now + s.quantaNs port n)
        pauseSince := some (match x.pauseSince with | some t => t | none => s.now) })
    else s) s

def execPfcFrameReceive (port : Fin 1024) (enable : BitVec 8) (quanta : BitVec 128) (s : State) : Ans := live s <|
  .next (s.pfcReceive port.val enable.toNat quanta.toNat)

/-- PFC_PAUSE_EXPIRE (R130) of queue `qid`. -/
def execPfcPauseExpire (qid : Fin 12480) (s : State) : Ans := live s <|
  match (s.eq qid.val).pauseUntil with
  | some t => .next ((s.advanceTo t).pauseEnd qid.val)
  | none => .next s

/-- PFC_WATCHDOG_EXPIRE (R131) of queue `qid`: paused without a break for wd_ms. -/
def execPfcWatchdogExpire (qid : Fin 12480) (s : State) : Ans := live s <|
  let q := s.eq qid.val
  let wd := bits (s.row O.PFC_CFG (8 * (qid.val / 12) + qPausePrio (s.row O.EGR_QCFG qid.val))) 32 16 * 1000000
  match q.pauseSince, q.pauseUntil with
  | some t, some u =>
    if wd = 0 ∨ q.wdFired ∨ u < t + wd then .next s
    else
      let s := s.advanceTo (t + wd)
      .next (((s.modEq qid.val (fun x => { x with wdFired := true })).count O.PFC_WD_EVENTS 0 1).raise O.EGR_ERR 1)
  | _, _ => .next s

/-! ### Queue records at a tick (R132 to R134) -/

/-- The record of queue `qid` for tick `bell` (R133), its overrun flag clear. -/
def State.qrec (s : State) (qid bell : Nat) : Nat :=
  let q := s.eq qid
  let sj := match s.headOf qid with | some id => min 0xFFFFFFFF (s.now - (s.copy id).admitNs) | none => 0
  bell % 2 ^ 48 + (qid / 12) <<< 48 + (qid % 12) <<< 59 + q.used <<< 64 + q.depthMax <<< 96 +
  sj <<< 128 + q.maxSojourn <<< 160 + q.bytes <<< 192 + q.drops <<< 224 + q.marks <<< 240

/-- Append a record to the history ring (R134). -/
def State.qrecAppend (s : State) (r : Nat) : State :=
  let size := s.ob O.EGR_QREC_SIZE
  if size = 0 then s
  else
    let h := s.ob O.EGR_QREC_HEAD
    let s := s.hbmWrite (s.ob O.EGR_QREC_BASE + 32 * h) (leBytes 32 r)
    let s := s.setOb O.EGR_QREC_HEAD ((h + 1) % size)
    if h + 1 = size then s.count O.EGR_QREC_WRAPS 0 1 else s

/-- Every queue writes its record for the tick `bell` that has ended, and those with rec set append it to the history ring;
its counts of the tick start again (R132). The rows of EGR_QREC_CUR keep what a record holds above bit 64; the rest is the
same for every queue (`State.qrecRow`). -/
def State.qrecAll (s : State) (bell : Nat) : State :=
  let s := (s.rowsOf O.EGR_QREC_CUR).foldl (fun (s : State) x => s.setRow O.EGR_QREC_CUR x.1 0) s
  let s := s.fold.queues.foldl (fun (s : State) x => s.setRow O.EGR_QREC_CUR x.1 (s.qrec x.1 bell / 2 ^ 64 * 2 ^ 64)) s
  let rec_ := (s.rowsOf O.EGR_QCFG).filter (fun x => qRecSel x.2)
  let s := { s with fold := { s.fold with qrecBell := some (bell, false)
                                          qrecRing := if s.ob O.EGR_QREC_SIZE = 0 then 0 else rec_.length } }
  let s := rec_.foldl (fun (s : State) x => s.qrecAppend (s.qrec x.1 bell)) s
  s.fold.queues.foldl (fun (s : State) x =>
    s.modEq x.1 (fun q => { q with depthMax := q.used, maxSojourn := 0, bytes := 0, drops := 0, marks := 0 })) s

/-- The records of the last tick were taken after its budget: they carry overrun, in EGR_QREC_CUR and in the history ring
(R133; that all of them do is a DESIGN CHOICE, log entry 128). -/
def State.qrecLate (s : State) : State :=
  let size := s.ob O.EGR_QREC_SIZE
  let s := { s with fold := { s.fold with qrecBell := s.fold.qrecBell.map (fun x => (x.1, true)) } }
  if size = 0 then s
  else (List.range s.fold.qrecRing).foldl (fun (s : State) i =>
    let a := s.ob O.EGR_QREC_BASE + 32 * ((s.ob O.EGR_QREC_HEAD + size - 1 - i) % size) + 7
    s.hbmWrite a [BitVec.ofNat 8 (setBit ((s.hbmRead a 1).headD 0).toNat 7)]) s

/-- A row of EGR_QREC_CUR as it reads. -/
def State.qrecRow (s : State) (qid : Nat) : Nat :=
  match s.fold.qrecBell with
  | none => 0
  | some x => x.1 % 2 ^ 48 + (qid / 12) <<< 48 + (qid % 12) <<< 59 + b2n x.2 <<< 63 + s.row O.EGR_QREC_CUR qid

end Sys2Proof.Machine
end

