-- ==== Sys2Proof/Machine/Links.lean ====
section
/-!
DEFINITION. Meanings of the link and module commands (R190 to R216) and of the circuit commands (R244 to R264):
bring-up, hello, flits, credits, replay, hold, flock links, modules, presets, arms and heavy pairs.
-/

namespace Sys2Proof.Machine

/-! ### Signal, training and lock (R194, R210, R252) -/

/-- LANE_SIGNAL_DETECT (R194): lane `lane` of block `b` shows signal; on all eight, light is there (R253) and a Fold link in
wait goes to train. -/
def execLaneSignalDetect (b : Fin 128) (lane : Fin 8) (s : State) : Ans := live s <|
  .next ((s.modBlock b.val (fun x =>
    { x with signal := setBit x.signal lane.val
             lightAt := if x.signal ≠ 255 ∧ setBit x.signal lane.val = 255 then s.now else x.lightAt })).tryTrain b.val)

/-- The train step is complete: the block looks for codeword lock (R194). -/
def State.toLock (s : State) (b : Nat) : State :=
  let s := if s.portState (8 * b) = 7 then s else s.setPortState (8 * b) 3
  s.modBlock b (fun x => { x with inner := 3, presetAt := none, stepAt := some (s.now + 20000) })

/-- LANE_TRAIN_COMPLETE (R194): the equalisers of a lane have adapted, with the lane state reached and its SNR. A
stored lane state carries its SNR in its low 16 bits (log entry 15). -/
def execLaneTrainComplete (b : Fin 128) (lane : Fin 8) (snr : BitVec 16) (lanes : BitVec 224) (s : State) : Ans := live s <|
  let x := s.block b.val
  if x.inner ≠ 2 ∨ x.presetAt.isSome then .next s
  else
    let s := s.setRow (blockOid O.PORT_LANE_SNR b.val) lane.val snr.toNat
    let s := s.modBlock b.val (fun x => { x with trained := setBit x.trained lane.val
                                                 laneState := TMap.put 0 x.laneState lane.val (setBits lanes.toNat 0 16 snr.toNat) })
    if (s.block b.val).trained = 255 then .next (s.toLock b.val) else .next s

/-- PRESET_ADAPT_DONE (R249, R252): the 20 µs of bounded adaptation end with the lane state reached and its SNR on each lane
(lane 0 lowest), judged by the preset as it was loaded. -/
def execPresetAdaptDone (b : Fin 128) (reached : BitVec 128 × BitVec 1792) (s : State) : Ans := live s <|
  let x := s.block b.val
  match x.presetSlot, x.presetAt with
  | some _, some t =>
    let s := s.advanceTo t
    let r := x.preset
    let s := (List.range 8).foldl (fun s l => s.setRow (blockOid O.PORT_LANE_SNR b.val) l (bits reached.1.toNat (16 * l) 16)) s
    if (List.range 8).all (fun l => decide (bits r (256 + 224 * l) 16 ≤ bits reached.1.toNat (16 * l) 16 + 384)) then
      let s := s.modBlock b.val (fun x => { x with trained := 255, lastUsed := true
                                                   laneState := (List.range 8).foldl (fun m l =>
                                                     TMap.put 0 m l (setBits (bits reached.2.toNat (224 * l) 224) 0 16
                                                       (bits reached.1.toNat (16 * l) 16))) [] })
      .next (s.toLock b.val)
    else
      let s := (s.count O.CIRC_STAT 2 1).raise O.CIRC_ERR 4
      .next (s.modBlock b.val (fun x => { x with presetSlot := none, presetAt := none, trained := 0, stepAt := some (s.now + 50000000) }))
  | _, _ => .next s

/-- The receive space of block `b` in cells (R198). -/
def State.space (s : State) (b : Nat) : Nat := if s.role b = 3 then s.bob b O.PORT_POOL_MIB * 2048 else 1024

/-- The reserves and the receive space that the hellos of a bring-up offer are those in effect from then on (R198, R199); a
block that asks to resume offers what is in effect. -/
def State.advertise (s : State) (b : Nat) : State :=
  if (s.block b).askResume then s
  else
    let mine := (List.range 8).foldl (fun (m : TMap Nat) v => TMap.put 66 m v (s.row (blockOid O.PORT_VC_RSV b) v)) []
    s.modBlock b (fun x => { x with rsvInUse := mine, spaceInUse := s.space b })

/-- CODEWORD_LOCK (R194, R196): a lane holds lock; with lock on all eight and skew within 500 ns a Fold link in lock
enters hello, under a new link_epoch unless it asks to resume. -/
def execCodewordLock (b : Fin 128) (lane : Fin 8) (skewOk : Bool) (s : State) : Ans := live s <|
  let s := s.modBlock b.val (fun x => { x with locked := setBit x.locked lane.val })
  let x := s.block b.val
  if s.isLink b.val && x.inner == 3 && x.locked == 255 && skewOk then
    let s := if s.portState (8 * b.val) = 7 then s else s.setPortState (8 * b.val) 4
    .next ((s.modBlock b.val (fun x => { x with inner := 4, stepAt := some (s.now + 10000000)
                                                epochInc := if x.askResume then x.epochInc else x.epochInc + 1 })).advertise b.val)
  else .next s

/-! ### The hello (R195 to R199) -/

/-- The reserve of VC `v` that block `b` offers (R199), after `State.advertise`. -/
def State.rsvOffered (s : State) (b v : Nat) : Nat := TMap.get 66 (s.block b).rsvInUse v

/-- The hello record of block `b` (R195). The link timer is the model's ns clock (log entry 16). -/
def State.helloRecord (s : State) (b : Nat) : Nat :=
  let x := s.block b
  let space := x.spaceInUse
  1 <<< 1016 + b2n s.placed <<< 1007 + (s.ob O.FAB_SPARE % 2) <<< 1006 + b2n x.askResume <<< 1005 +
  (s.own % 65536) <<< 984 + (s.ob O.FAB_SITE % 256) <<< 976 + (s.dim 0) <<< 968 + (s.dim 1) <<< 960 + (s.dim 2) <<< 952 +
  (s.ob O.FAB_WRAP % 8) <<< 944 + (s.bob b O.PORT_ROLE % 256) <<< 936 + b <<< 928 + Config.serial.toNat <<< 864 +
  s.linkEpoch b <<< 832 + x.rxSeq <<< 808 + space <<< 768 +
  (List.range 8).foldl (fun a v => a + s.rsvOffered b v <<< (752 - 16 * v)) 0 <<< 0 +
  (s.ob O.FEAT_ACCEPT % 2 ^ 256) <<< 384 + (s.now % 2 ^ 64) <<< 320 +
  (if x.helloSeen then (x.lastTSend % 2 ^ 64) <<< 256 + ((s.now - x.lastAt) % 2 ^ 32) <<< 224 else 0)

/-- HELLO_SEND (R195): a block in the hello step sends its hello flit. -/
def State.helloSend (s : State) (b : Nat) : State :=
  let x := s.block b
  if x.inner ≠ 4 then s
  else
    let s := s.advertise b
    let payload := beBytes 128 (s.helloRecord b) ++ List.replicate 512 0
    let h := flitHeader 2 0 x.ack 0 0 0 0 0 payload
    (s.modBlock b (fun x => { x with helloSent := x.helloSent + 1 })).transmit b (.flit b none (beBytes 20 h) payload)

def execHelloSend (b : Fin 128) (s : State) : Ans := live s <| .next (s.helloSend b.val)

/-- The coordinates check of bit 1 of R41: the peer is the neighbour in this block's direction, and its block faces
back. A spare that is not standing in has no neighbour and is none (R29). -/
def State.wrongNeighbour (s : State) (b rec : Nat) : Bool :=
  let dev := bits rec 984 16
  let pdir := bits rec 940 3
  s.neighbour s.own (s.dir b) != some dev || pdir != (if s.dir b % 2 = 0 then s.dir b + 1 else s.dir b - 1)

/-- Whether the peer's dimensions or wrap bits differ. -/
def State.shapeDiffers (s : State) (rec : Nat) : Bool :=
  bits rec 968 8 != s.dim 0 || bits rec 960 8 != s.dim 1 || bits rec 952 8 != s.dim 2 || bits rec 944 3 != s.ob O.FAB_WRAP % 8

/-- Bits of FAB_WIRING_FAULT that a ring or reach link fails (R41). -/
def State.wiringFaults (s : State) (b rec : Nat) : List Nat :=
  (if bits rec 984 16 = s.own then [0] else []) ++
  (if s.wrongNeighbour b rec then [1] else []) ++
  (if s.role b = 2 ∧ bits rec 976 8 ≠ s.ob O.FAB_SITE then [2] else []) ++
  (if s.role b = 3 ∧ bits rec 976 8 = s.ob O.FAB_SITE then [3] else []) ++
  (if s.shapeDiffers rec then [4] else []) ++
  (if rec.testBit 1007 then [] else [5])

/-- The expected-peer check of R258 fails. -/
def State.unexpected (s : State) (b rec : Nat) : Bool :=
  let r := s.row O.CIRC_EXPECT b
  exValid r && (exSerial r != bits rec 864 64 || exBlock r != bits rec 928 8 || (exCheck r && exDev r != bits rec 984 16))

/-- The first failing check of a circuit block (R258): a wiring-fault bit, or 8 plus a CIRC_ERR bit. -/
def State.circuitFault (s : State) (b rec : Nat) : Option Nat :=
  if bits rec 984 16 = s.own then some 0
  else if s.shapeDiffers rec then some 4
  else if !rec.testBit 1007 then some 5
  else if bits rec 936 3 ≠ 4 then some 10
  else if s.unexpected b rec then some 9
  else none

/-- The check step (R33, R41, R258): sets the bits of what fails, and answers whether every check passed. An unplaced
device has no place to check its peer against: its links carry VC0 only. -/
def State.linkCheck (s : State) (b rec : Nat) : State × Bool :=
  if !s.placed then (s, false)
  else if s.role b = 4 then
    match s.circuitFault b rec with
    | some 9 => ((s.count O.CIRC_STAT 4 1).raise O.CIRC_ERR 1 0 2 b 0, false)
    | some 10 => (s.raise O.CIRC_ERR 2 0 2 b 0, false)
    | some i => (s.raise O.FAB_WIRING_FAULT i 0 2 b 0, false)
    | none => (s, true)
  else
    let l := s.wiringFaults b rec
    let t := l.foldl (fun s i => s.raise O.FAB_WIRING_FAULT i 0 2 b 0) s
    if s.role b = 2 ∧ s.unexpected b rec then ((t.count O.CIRC_STAT 4 1).raise O.CIRC_ERR 1 0 2 b 0, false)
    else (t, l.isEmpty)

/-- How long ago the preset in slot `i` of block `b` was last used, by the 32 bits it keeps of the Bell number. -/
def State.presetAge (s : State) (b i : Nat) : Nat :=
  (s.bell % 2 ^ 32 + 2 ^ 32 - bits (s.row O.CIRC_PRESET (64 * b + i)) 96 32) % 2 ^ 32

/-- The slot into which a bring-up stores its lane state (R249). -/
def State.presetSlot (s : State) (b serial block : Nat) : Option Nat :=
  match s.presetFor b serial block with
  | some i => some i
  | none =>
    match (List.range 64).find? (fun i => !(s.row O.CIRC_PRESET (64 * b + i)).testBit 71) with
    | some i => some i
    | none =>
      ((List.range 64).filter (fun i => !(s.row O.CIRC_PRESET (64 * b + i)).testBit 72)).foldl (fun a i =>
        match a with
        | none => some i
        | some j => if s.presetAge b j < s.presetAge b i then some i else some j) none

/-- Store the lane state reached (R249). -/
def State.presetStore (s : State) (b rec : Nat) : State :=
  if !s.keepsPresets b || !s.lFeature b 7 then s
  else
    let serial := bits rec 864 64
    let pb := bits rec 928 8
    match s.presetSlot b serial pb with
    | none => (s.count O.CIRC_STAT 7 1).raise O.CIRC_ERR 5
    | some i =>
      let k := 64 * b + i
      let old := s.row O.CIRC_PRESET k
      let same := old.testBit 71 && bits old 0 64 == serial && bits old 64 7 == pb
      let lanes := (List.range 8).foldl (fun a l => a + (TMap.get 0 (s.block b).laneState l % 2 ^ 224) <<< (256 + 224 * l)) 0
      let v := serial + (pb % 128) <<< 64 + 1 <<< 71 + b2n (old.testBit 72) <<< 72 + 1 <<< 73 + (s.bell % 2 ^ 32) <<< 96 +
        (if same then bits old 128 32 else 0) <<< 128 + lanes
      (s.setRow O.CIRC_PRESET k v).count O.CIRC_STAT 6 1

/-- Whether the link of block `b` resumes on the peer's hello (R205); an armed one never does (R255). -/
def State.resumes (s : State) (b rec : Nat) : Bool :=
  let x := s.block b
  let next := bits rec 808 24
  x.askResume && x.armAt.isNone && rec.testBit 1005 && bits rec 864 64 == x.peerSerial && bits rec 832 32 == x.peerEpoch &&
  (x.replay.any (fun f => f.seq == next) || next == x.txSeq) &&
  (match x.holdAt with | some t => decide (s.now ≤ t) | none => false)

/-- Send flits of the replay buffer again in order (R203, R205). -/
def State.resend (s : State) (b : Nat) : State :=
  let x := s.block b
  x.replay.foldl (fun s f =>
    let h := flitHeader 1 f.seq x.ack 0 f.start f.shared (f.crets.getD 0 0) (f.crets.getD 1 0) f.payload
    (s.transmit b (.flit b (laneOf f.seq) (beBytes 20 h) f.payload)).tally 0x0201 b) s

/-- Flits up to and including number `ack` leave the replay buffer (R202). -/
def dropAcked (l : List Flit) (ack : Nat) : List Flit :=
  match l.findIdx? (fun f => f.seq == ack) with
  | some i => l.drop (i + 1)
  | none => l

/-- Load credits afresh from the peer's hello (R198), and the feature vector of the link (R197). -/
def State.loadCredits (s : State) (b rec : Nat) : State :=
  let rsv := fun v => bits rec (752 - 16 * v) 16
  let total := (List.range 8).foldl (fun a v => a + rsv v) 0
  let cr := (List.range 9).foldl (fun (m : TMap Nat) v =>
    TMap.put 0 m v (if v = 8 then bits rec 768 32 - total else rsv v)) []
  (s.modBlock b (fun x => { x with credits := cr, granted := cr, charged := [] })).setOb
    (blockOid O.PORT_FEAT b) (s.ob O.FEAT_ACCEPT &&& bits rec 384 256)

/-- An arm of block `b` ends (R256). -/
def State.disarm (s : State) (b : Nat) : State := s.modBlock b (fun x => { x with armAt := none })

/-- A resume has failed (R196, R206): the link is reset, keeps the values of that exchange, and loads its credits from the
peer's next hello. -/
def State.resumeFails (s : State) (b rec : Nat) : State :=
  ((s.linkClear b).modBlock b (fun y => { y with peerSerial := bits rec 864 64, peerEpoch := bits rec 832 32 })).setPortState (8 * b) 4

/-- The hello step is complete (R194 to R197, R205, R206, R209, R249, R256): the link resumes or loads its credits, the
checks run, and it goes up or to ctrl. -/
def State.helloUp (s : State) (b rec : Nat) : State :=
  let s := if s.resumes b rec then
      let next := bits rec 808 24
      let s := s.modBlock b (fun x => { x with replay := dropAcked x.replay ((next + 2 ^ 24 - 1) % 2 ^ 24), replays := 0
                                               nakSent := false, ackAt := s.now, holdAt := none })
      (s.portCount b 5 1).resend b
    else s.loadCredits b rec
  let r := s.linkCheck b rec
  let s := r.1
  let feats := s.bob b O.PORT_FEAT
  let up := r.2 && feats.testBit 8 && feats.testBit 9
  let s := s.modBlock b (fun y => { y with
    peerSerial := bits rec 864 64, peerEpoch := bits rec 832 32, inner := 0, stepAt := none, askResume := false, recheck := false
    relinkUs := min 0xFFFFFF ((s.now - y.lightAt) / 1000)
    lastOut := if !up then 3 else if y.lastUsed then 1 else 2 })
  let s := if (s.block b).lastUsed then s.count O.CIRC_STAT 1 1 else s
  let s := s.setPortState (8 * b) (if up then 6 else 5)
  let s := { s with muster := { s.muster with h := TMap.put 0 s.muster.h b s.bell } }
  let s := if s.role b = 3 ∧ s.bob b O.PORT_POOL_MIB * 1048576 < 256 * s.bob b O.PORT_RTT_NS then s.portErr b 6 else s
  (s.presetStore b rec).disarm b

/-- Sixteen echoes have been timed (R194, R195): the round-trip time stands, and a link in hold that may not resume is reset. -/
def State.helloDone (s : State) (b rec : Nat) : State :=
  let s := s.setOb (blockOid O.PORT_RTT_NS b) ((s.block b).rttMin % 2 ^ 32)
  if s.portState (8 * b) == 7 && !s.resumes b rec then s.resumeFails b rec else s.helloUp b rec

/-- HELLO_RECEIVE (R195, R204): a peer hello reaches block `b`. On a link that is up it starts a hold (an armed link is
reset: its hellos are never resumed, R255); in the hello step it is recorded and its echo timed. -/
def State.helloReceive (s : State) (b rec : Nat) : State :=
  let x := s.block b
  let st := s.portState (8 * b)
  if !s.isLink b || s.blockFenced b then s
  else if st = 5 ∨ st = 6 ∨ st = 9 then
    let s := s.setOb (blockOid O.PORT_PEER b) (leNum (beBytes 128 rec))
    if x.armAt.isSome then s.linkReset b else s.linkHold b
  else if x.inner ≠ 4 then s
  else
    let s := s.setOb (blockOid O.PORT_PEER b) (leNum (beBytes 128 rec))
    let echo := bits rec 256 64
    let sample := s.now - echo - bits rec 224 32
    let s := s.modBlock b (fun x => { x with
      helloSeen := true, lastTSend := bits rec 320 64, lastAt := s.now
      echoes := if echo = 0 then x.echoes else x.echoes + 1
      rttMin := if echo = 0 then x.rttMin else if x.echoes = 0 then sample else min x.rttMin sample })
    if 16 ≤ (s.block b).echoes then s.helloDone b rec else s

def execHelloReceive (b : Fin 128) (rec : BitVec 1024) (s : State) : Ans := live s <| .next (s.helloReceive b.val rec.toNat)

/-- BRINGUP_TIMEOUT (R194): the step under way has exceeded its time; counted in retrains, and back to wait. -/
def execBringupTimeout (b : Fin 128) (s : State) : Ans := live s <|
  match (s.block b.val).stepAt with
  | some t =>
    let s := (s.advanceTo t).portCount b.val 4 1 |>.portErr b.val 5
    let held := s.portState (8 * b.val) == 7
    let s := if held then s else s.setPortState (8 * b.val) 1
    .next (s.restartWait b.val (s.block b.val).askResume)
  | none => .next s

/-! ### Flits (R190 to R203) -/

/-- Whether a state carries flits: ctrl, up or quiesce. -/
def carries (st : Nat) : Bool := st == 5 || st == 6 || st == 9

/-- A credit error (R198, R201). -/
def State.creditError (s : State) (b : Nat) : State := ((s.portCount b 9 1).portErr b 4).linkReset b

/-- The sender of block `b` takes a credit return (R200, R201); none where the count would pass what was advertised. -/
def State.takeCredit (s : State) (b field : Nat) : Option State :=
  let r := cretOf field
  if r.2 = 0 then some s
  else
    let k := if r.1 / 16 = 1 then 8 else r.1
    let x := s.block b
    let n := TMap.get 0 x.credits k + r.2
    if TMap.get 0 x.granted k < n then none
    else some (s.setBlock b { x with credits := TMap.put 0 x.credits k n })

/-- A frame is complete on block `b` (R192, R198): it is charged to the space its sender named, or a credit error. -/
def State.frameArrives (s : State) (b : Nat) (bytes : List Byte) (shared : Bool) : State :=
  let x := s.block b
  let vc := hVc (beAt bytes 0 32)
  let n := cellsOf bytes.length
  let k := if shared then 8 else vc
  let total := if shared then x.spaceInUse - (List.range 8).foldl (fun a v => a + TMap.get 66 x.rsvInUse v) 0
    else TMap.get 66 x.rsvInUse vc
  if total < TMap.get 0 x.charged k + n then s.creditError b
  else
    (s.setBlock b { x with charged := addTo x.charged k n }).ingress (8 * b) bytes true (some (b, vc + 16 * b2n shared))

/-- One chunk of a flit (R192). -/
def State.chunk (s : State) (b : Nat) (c : List Byte) (start shared : Bool) : State :=
  let x := s.block b
  let l := if start then c else if x.partialRx.isEmpty then [] else x.partialRx ++ c
  let sh := if start then shared else x.partialSh
  let need := 32 + hLen (beAt l 0 32)
  if l.isEmpty then s
  else if need ≤ l.length then (s.setBlock b { x with partialRx := [], partialSh := false }).frameArrives b (l.take need) sh
  else s.setBlock b { x with partialRx := l, partialSh := sh }

/-- The chunks of a flit in order; a link reset on the way discards the rest. -/
def State.chunks (s : State) (b start shared : Nat) (payload : List Byte) : State :=
  (List.range 20).foldl (fun s i =>
    if carries (s.portState (8 * b)) then
      s.chunk b ((payload.drop (32 * i)).take 32) (start.testBit (19 - i)) (shared.testBit (19 - i))
    else s) s

/-- A flit is discarded (R203): nak once, until the next number in order arrives, with the first flit that the replay buffer
has room for (R202). -/
def State.flitNak (s : State) (b : Nat) : State :=
  if (s.block b).nakSent then s
  else (s.modBlock b (fun x => { x with nakSent := true, nakDue := true, skewed := [] })).sendIdle b

/-- Replay from ack + 1 (R203): counted, and after eight in a row without progress the link goes to hold. -/
def State.replayLink (s : State) (b : Nat) : State :=
  let x := s.block b
  if 8 ≤ x.replays then (s.portErr b 2).linkHold b
  else
    ((s.portCount b 3 1).setBlock b { x with replays := x.replays + 1, ackAt := s.now }).resend b

/-- The acknowledgement of a flit received (R202, R203). -/
def State.takeAck (s : State) (b ack : Nat) (nak : Bool) : State :=
  let x := s.block b
  let l := dropAcked x.replay ack
  let moved := l.length != x.replay.length
  let s := s.setBlock b { x with replay := l, replays := if moved then 0 else x.replays, ackAt := if moved then s.now else x.ackAt }
  -- a nak that waited for room goes out
  let s := if moved ∧ x.nakDue then s.sendIdle b else s
  if nak && !l.isEmpty then s.replayLink b else s

/-- A quiesce that has nothing left to wait for brings the link up anew (R215). -/
def State.quiesceDone (s : State) (b : Nat) : State :=
  let x := s.block b
  if s.portState (8 * b) = 9 ∧ s.isLink b ∧ x.replay.isEmpty ∧ x.credits = x.granted then
    let s := s.modBlock b (fun x => { x with quiesceAt := none, txSeq := 0, rxSeq := 0, ackTold := 0, nakSent := false
                                             partialRx := [], charged := [], returns := [], credits := [], granted := [] })
    (s.setPortState (8 * b) 1).restartWait b false
  else s

/-- The register PORT_FEC_b (R216). -/
def fecOff (b : Nat) : Nat := 0x130400 + 8 * b

/-- The symbol errors that the code of block `b` corrects in a codeword: 8 of RS(544,528) on a Fold link (R190), 15 of
RS(544,514) on a flock block (R187; DEDUCED, log entry 131). -/
def State.fecLimit (s : State) (b : Nat) : Nat := if s.isLink b then 8 else 15

/-- A codeword with `errs` symbol errors reaches block `b`: corrected or not, it is counted (R216). -/
def State.countFec (s : State) (b errs : Nat) : State :=
  if errs = 0 then s
  else if errs ≤ s.fecLimit b then ((s.portCount b 0 1).holdCount (fecOff b) 0 1).tally 0x0202 b
  else (s.portCount b 1 1).holdCount (fecOff b) 32 1

/-- The data flit that is next in order (R192, R193): its credit returns, its frames and its acknowledgement are taken. -/
def State.flitDeliver (s : State) (b h : Nat) (payload : List Byte) : State :=
  let s := s.modBlock b (fun x => { x with rxSeq := (x.rxSeq + 1) % 2 ^ 24, nakSent := false, nakDue := false })
  match s.takeCredit b (bits h 40 16) with
  | none => s.creditError b
  | some s =>
    match s.takeCredit b (bits h 24 16) with
    | none => s.creditError b
    | some s => ((s.chunks b (bits h 76 20) (bits h 56 20) payload).takeAck b (bits h 104 24) (h.testBit 103)).quiesceDone b

/-- Flits that came ahead of order on faster lanes follow as far as they are in order now (R191); fuel is their number. -/
def State.skewRun (s : State) (b : Nat) : Nat → State
  | 0 => s
  | fuel + 1 =>
    let x := s.block b
    match x.skewed.find? (fun f => bits f.2.1 128 24 == x.rxSeq) with
    | some f =>
      let s := s.setBlock b { x with skewed := x.skewed.filter (fun g => g != f) }
      if carries (s.portState (8 * b)) then State.skewRun (s.flitDeliver b f.2.1 f.2.2) b fuel else s
    | none => s

/-- A data flit `d` numbers ahead of order (R191, R203). It is kept while the missing one may still come on a slower lane: for
500 ns, in which the lanes bring 200 flits, and until the missing one's own lane, d mod 8 = 0, has passed it by. Then there
is a sequence gap (DEDUCED, log entry 131). -/
def State.flitAhead (s : State) (b h : Nat) (payload : List Byte) (d : Nat) : State :=
  let x := s.block b
  if x.nakSent then s
  else if d % 8 = 0 ∨ 200 < d ∨ x.skewed.any (fun f => decide (f.1 + 500 < s.now)) then s.flitNak b
  else if x.skewed.any (fun f => bits f.2.1 128 24 == bits h 128 24) then s
  else s.setBlock b { x with skewed := x.skewed ++ [(s.now, h, payload)] }

/-- FLIT_RECEIVE (R190, R193) on block `b`: its 160-bit header and 640-byte payload, in a codeword with `errs` symbol errors.
A flock block receives codewords of its Ethernet ports, of which nothing but the correction stands here (R187); a block in
far-end loopback sends a Fold link's flit back (R215; DESIGN CHOICE, log entry 132). -/
def State.flitReceive (s : State) (b h : Nat) (payload : List Byte) (errs : Nat) : State :=
  if s.role b = 0 ∨ s.blockFenced b then s
  else if s.isLink b ∧ s.bob b O.PORT_LOOPBACK = 2 then s.transmit b (.flit b (laneOf (bits h 128 24)) (beBytes 20 h) payload)
  else
    let s := s.countFec b errs
    if !s.isLink b || !carries (s.portState (8 * b)) then s
    else
      let type := bits h 152 8
      if s.fecLimit b < errs then (s.portErr b 1).flitNak b
      else if bits h 0 24 ≠ crc24 h payload then ((s.portCount b 2 1).portErr b 1).flitNak b
      else if type = 0 then s
      else if type = 2 then s.helloReceive b (beAt payload 0 128)
      else if type ≠ 1 then s.portCount b 2 1
      else
        let d := (bits h 128 24 + 2 ^ 24 - (s.block b).rxSeq) % 2 ^ 24
        if d = 0 then
          let s := s.flitDeliver b h payload
          s.skewRun b (s.block b).skewed.length
        else if d < 2 ^ 23 then s.flitAhead b h payload d
        else s

def execFlitReceive (b : Fin 128) (header : BitVec 160) (payload : List Byte) (errs : BitVec 10) (s : State) : Ans := live s <|
  .next (s.flitReceive b.val header.toNat payload errs.toNat)

/-- ACK_TIMEOUT_REPLAY (R203): ack has not advanced for 2 × PORT_RTT_NS + 1 µs with flits outstanding. -/
def execAckTimeoutReplay (b : Fin 128) (s : State) : Ans := live s <|
  let x := s.block b.val
  if x.replay.isEmpty || !carries (s.portState (8 * b.val)) then .next s
  else .next ((s.advanceTo (x.ackAt + 2 * s.bob b.val O.PORT_RTT_NS + 1000)).replayLink b.val)

/-! ### Loss, hold and flock links (R204 to R207, R210, R255) -/

/-- LOSS_OF_SIGNAL (R210, R255) on lane `lane`: a Fold link that carries flits goes to hold, an armed one is reset; one in
bring-up starts again from wait. -/
def execLossOfSignal (b : Fin 128) (lane : Fin 8) (s : State) : Ans := live s <|
  let st := s.portState (8 * b.val)
  let was := (s.block b.val).signal.testBit lane.val
  let s := s.modBlock b.val (fun x => { x with signal := clearBit x.signal lane.val, locked := clearBit x.locked lane.val
                                               darkAt := some s.now })
  if !was || s.role b.val = 0 || s.blockFenced b.val then .next s
  else
    let s := s.portErr b.val 0
    if !s.isLink b.val then .next s
    else if carries st then
      if (s.block b.val).armAt.isSome then .next (s.linkReset b.val) else .next (s.linkHold b.val)
    else if st = 7 ∧ (s.block b.val).armAt.isSome then .next (s.linkReset b.val)
    else
      let s := if st = 7 then s else s.setPortState (8 * b.val) 1
      .next (s.restartWait b.val (s.block b.val).askResume)

/-- CODEWORD_LOCK_LOSS (R204): a lane loses codeword lock. -/
def execCodewordLockLoss (b : Fin 128) (lane : Fin 8) (s : State) : Ans := live s <|
  let st := s.portState (8 * b.val)
  let s := s.modBlock b.val (fun x => { x with locked := clearBit x.locked lane.val })
  if !s.isLink b.val then .next s
  else if carries st then .next (s.linkHold b.val)
  else if (s.block b.val).inner = 4 then
    let s := if st = 7 then s else s.setPortState (8 * b.val) 1
    .next (s.restartWait b.val (s.block b.val).askResume)
  else .next s

/-- HOLD_EXPIRE (R205, R206): the hold has outlasted PORT_HOLD_MS; the link is reset and its bring-up goes on afresh. -/
def execHoldExpire (b : Fin 128) (s : State) : Ans := live s <|
  match (s.block b.val).holdAt with
  | some t =>
    let s := ((s.advanceTo t).portErr b.val 3).linkClear b.val
    .next (s.setPortState (8 * b.val) ((s.block b.val).inner))
  | none => .next s

/-- FLOCK_LINK_DOWN (R207, R162). -/
def execFlockLinkDown (port : Fin 1024) (s : State) : Ans := live s <|
  if s.isFlockPort port.val && (s.portState port.val == 6 || s.portState port.val == 9) then .next (s.flockDown port.val)
  else .next s

/-- FLOCK_HOLD_EXPIRE (R207). -/
def execFlockHoldExpire (port : Fin 1024) (s : State) : Ans := live s <|
  let b := port.val / 8
  let t := TMap.get 0 (s.block b).portDownAt (port.val % 8)
  if t = 0 then .next s
  else
    let s := (s.advanceTo t).modBlock b (fun x => { x with portDownAt := TMap.put 0 x.portDownAt (port.val % 8) 0 })
    let r := s.dropPort port.val
    .next (r.1.portCount b 6 r.2)

/-- FLOCK_LINK_UP (R187): auto-negotiation and training on KR or CR media, or the forced mode of C2M (PORT_MEDIA), has brought
the port's PCS up. -/
def execFlockLinkUp (port : Fin 1024) (s : State) : Ans := live s <|
  let b := port.val / 8
  if s.isFlockPort port.val && !s.blockFenced b && !s.unclocked b then
    .next ((s.setPortState port.val 6).modBlock b (fun x => { x with portDownAt := TMap.put 0 x.portDownAt (port.val % 8) 0 }))
  else .next s

/-- Retrain a flock port at once (R215): a frame in transmission is cut short and counted in link_drops. -/
def State.flockRetrain (s : State) (p : Nat) : State :=
  let c := s.cutDeparture p
  (c.1.portCount (p / 8) 6 c.2).flockDown p

/-- PORT_RETRAIN (R215): `v` 1 quiesces, 2 retrains at once. A flock block in quiesce starts no frame, and all its ports
retrain when the last frame in transmission has ended. -/
def State.retrain (s : State) (b v : Nat) : State × Nat :=
  if (v ≠ 1 ∧ v ≠ 2) ∨ s.role b = 0 ∨ s.blockFenced b then (s, 0x0A)
  else if s.isLink b then
    let st := s.portState (8 * b)
    if v = 1 ∧ (st = 5 ∨ st = 6) then
      (((s.setPortState (8 * b) 9).modBlock b (fun x => { x with
        quiesceAt := some (s.now + s.bob b O.PORT_HOLD_MS * 1000000) })).quiesceDone b, 0)
    else (s.linkReset b, 0)
  else if v = 1 then (((s.ports b).foldl (fun s p => s.setPortState p 9) s).flockQuiet b, 0)
  else ((s.ports b).foldl (fun s p => s.flockRetrain p) s, 0)

def execPortRetrainQuiesce (who : Path) (b : Fin 128) (s : State) : Ans :=
  .next (s.access who (blockOid O.PORT_RETRAIN b.val) (fun s => s.retrain b.val 1))

def execPortRetrainNow (who : Path) (b : Fin 128) (s : State) : Ans :=
  .next (s.access who (blockOid O.PORT_RETRAIN b.val) (fun s => s.retrain b.val 2))

/-- QUIESCE_TIMEOUT (R215). -/
def execQuiesceTimeout (b : Fin 128) (s : State) : Ans := live s <|
  match (s.block b.val).quiesceAt with
  | some t => .next ((s.advanceTo t).linkReset b.val)
  | none => .next s

/-! ### Optical modules (R211 to R213) -/

def State.modl (s : State) (b i : Nat) : Module := TMap.get {} (s.block b).modules i
def State.setModl (s : State) (b i : Nat) (x : Module) : State :=
  s.modBlock b (fun y => { y with modules := TMap.put {} y.modules i x })

/-- PORT_MOD_STATE of module `i`. -/
def modStateOid (b i : Nat) : Nat := blockOid O.PORT_MOD_STATE b + i

/-- The multiplexers that lead to a module, in order: (address, 1 << channel) (R211). -/
def muxWrites (path : Nat) : List (Nat × Nat) :=
  (bits path 1 7, 2 ^ bits path 8 3) :: (if path.testBit 21 then [(bits path 11 7, 2 ^ bits path 18 3)] else [])

/-- The first access on a bus that a reset cut short sends nine clocks and a STOP before it (R585). -/
def State.busFree (s : State) (bus : Nat) : State :=
  if s.power.busCut.testBit bus then
    ({ s with power := { s.power with busCut := clearBit s.power.busCut bus } }).emit (.busClear bus)
  else s

/-- The manager's access of step `k` to module `i` of block `b` (R211, R212). -/
def State.modAccess (s : State) (b i k : Nat) : State :=
  let path := s.ob (blockOid O.PORT_MOD_PATH b + i)
  (s.busFree (bits path 0 1)).emit (.module b i k (bits path 0 1) (muxWrites path) 0x50)

/-- A module is marked absent (R213): its link goes to hold, and its sequence is retried every 1 s. -/
def State.moduleAbsent (s : State) (b i : Nat) : State :=
  let s := s.setOb (modStateOid b i) (setBit (s.ob (modStateOid b i)) 11)
  let s := (s.portErr b 9).setModl b i { step := 0, fails := 3, deadline := some (s.now + 1000000000) }
  if s.isLink b && carries (s.portState (8 * b)) then s.linkHold b else s

/-- The module does not advertise the application wanted (R212). -/
def State.moduleNoApp (s : State) (b i : Nat) : State :=
  (((s.modAccess b i 1).modAccess b i 2).portErr b 8).setModl b i { step := 8 }

/-- The sequence of R212 on module `i` up to its wait. -/
def State.moduleRun (s : State) (b i : Nat) : State :=
  let s := [1, 2, 3, 4, 5].foldl (fun s k => s.modAccess b i k) s
  let s := s.setOb (modStateOid b i) (clearBit (s.ob (modStateOid b i)) 11)
  s.setModl b i { step := 6, deadline := some (s.now + 60000000000) }

/-- The sequence of R212 on module `i`, as far as its answers let it go. On a reach block an application whose host lanes are
not at 136 GBd PAM4 is none that serves (R212; DEDUCED, log entry 133). -/
def State.moduleStart (s : State) (b i : Nat) (a : ModuleAnswer) : State :=
  match a with
  | .silent => (s.modAccess b i 1).moduleAbsent b i
  | .noApp => s.moduleNoApp b i
  | .slow => if s.role b = 3 then s.moduleNoApp b i else s.moduleRun b i
  | .fine => s.moduleRun b i

/-- MODULE_PATH_WRITE (R211, R212): the path of module `i`; with present set, the sequence starts. -/
def execModulePathWrite (who : Path) (b : Fin 128) (i : Fin 2) (v : BitVec 32) (a : ModuleAnswer) (s : State) : Ans :=
  .next (s.access who (blockOid O.PORT_MOD_PATH b.val + i.val) (okay (fun s =>
    let s := s.setOb (blockOid O.PORT_MOD_PATH b.val + i.val) (v.toNat % 2 ^ 23)
    if v.getLsbD 22 then s.moduleStart b.val i.val a else s.setModl b.val i.val {})))

/-- MODULE_DATA_PATH_ACTIVATED (R212): the wait of step 6 ends, and polling begins. -/
def execModuleDataPathActivated (b : Fin 128) (i : Fin 2) (state : BitVec 11) (s : State) : Ans := live s <|
  if (s.modl b.val i.val).step = 6 then
    let p := s.bob b.val O.PORT_MOD_POLL_MS
    let s := s.setOb (modStateOid b.val i.val) state.toNat
    .next (s.setModl b.val i.val { step := 7, deadline := if p = 0 then none else some (s.now + p * 1000000) })
  else .next s

/-- PORT_MOD_POLL_MS (R212): polling goes on at the new interval, and starts again where it had stopped. -/
def State.writePollMs (s : State) (b v : Nat) : State × Nat :=
  if 10000 < v then (s, 0x0A)
  else
    let s := s.setOb (blockOid O.PORT_MOD_POLL_MS b) v
    ([0, 1].foldl (fun (s : State) i =>
      if (s.modl b i).step = 7 then
        s.setModl b i { s.modl b i with deadline := if v = 0 then none else some (s.now + v * 1000000) }
      else s) s, 0)

/-- MODULE_READY_TIMEOUT (R212): 60 s have passed in step 6, and the sequence ends. -/
def execModuleReadyTimeout (b : Fin 128) (i : Fin 2) (s : State) : Ans := live s <|
  let m := s.modl b.val i.val
  match m.deadline with
  | some t => if m.step = 6 then .next ((s.advanceTo t).setModl b.val i.val { step := 8 }) else .next s
  | none => .next s

/-- MODULE_POLL (R212, R213): the module answers its state and flags, or nothing; three silences mark it absent. -/
def execModulePoll (b : Fin 128) (i : Fin 2) (answer : Option (BitVec 13)) (s : State) : Ans := live s <|
  let m := s.modl b.val i.val
  match m.deadline with
  | none => .next s
  | some t =>
    if m.step ≠ 7 then .next s
    else
      let s := (s.advanceTo t).modAccess b.val i.val 7
      let p := s.bob b.val O.PORT_MOD_POLL_MS
      let next := if p = 0 then none else some (s.now + p * 1000000)
      match answer with
      | some v => .next ((s.setOb (modStateOid b.val i.val) (clearBit v.toNat 11)).setModl b.val i.val
          { step := 7, fails := 0, deadline := next })
      | none =>
        if 2 ≤ m.fails then .next (s.moduleAbsent b.val i.val)
        else .next (s.setModl b.val i.val { m with fails := m.fails + 1, deadline := next })

/-- MODULE_RETRY (R213): the sequence of an absent module is tried again. -/
def execModuleRetry (b : Fin 128) (i : Fin 2) (a : ModuleAnswer) (s : State) : Ans := live s <|
  let m := s.modl b.val i.val
  match m.deadline with
  | some t => if m.step = 0 ∧ m.fails = 3 then .next ((s.advanceTo t).moduleStart b.val i.val a) else .next s
  | none => .next s

/-! ### Heavy pairs (R245 to R247) -/

/-- The distance of two coordinates on an axis (R246). -/
def State.axisHops (s : State) (ax a b : Nat) : Nat :=
  let d := (a - b) + (b - a)
  if s.wrapped ax then min d (s.dim ax - d) else d

/-- hops(d) of R246; 0 for a device without coordinates. -/
def State.hops (s : State) (d : Nat) : Nat :=
  if s.torusSize ≤ d ∨ s.torusSize ≤ s.own then 0
  else (List.range 3).foldl (fun a ax => a + s.axisHops ax (s.coord s.own ax) (s.coord d ax)) 0

/-- The report row of destination `d` with `n` bytes. -/
def State.heavyRow (s : State) (d n : Nat) : Nat :=
  let w := min (2 ^ 64 - 1) (n * (s.hops d - 1))
  d + s.hops d <<< 9 + 1 <<< 14 + b2n (n = 2 ^ 64 - 1) <<< 15 + (n % 2 ^ 48) <<< 16 + w <<< 64

/-- The open heavy-pair window closes (R246, R452). -/
def State.heavyReport (s : State) : State :=
  let l := s.circ.hp.filter (fun x => decide (1 < s.hops x.1 ∧ s.ob O.CIRC_HP_THRESH ≤ x.2))
  let key := fun (x : Nat × Nat) => x.2 * (s.hops x.1 - 1)
  let top := (l.mergeSort (fun x y => decide (key y ≤ key x))).take 16
  let s := (List.range 16).foldl (fun s i =>
    s.setRow O.CIRC_HP_REPORT i (match top[i]? with | some x => s.heavyRow x.1 x.2 | none => 0)) s
  let s := { s with circ := { hp := [], closed := s.bell + 1 } }
  let s := s.count O.CIRC_HP_SEQ 0 1
  s.event [0] 0x04 0 (s.ob O.CIRC_HP_SEQ)

/-- HEAVY_PAIR_WINDOW_CLOSE (R246): at a tick whose number is a multiple of CIRC_HP_WINDOW, once. -/
def State.heavyClose (s : State) : State :=
  let w := s.ob O.CIRC_HP_WINDOW
  if w = 0 ∨ s.bell % w ≠ 0 ∨ s.circ.closed = s.bell + 1 then s else s.heavyReport

def execHeavyPairWindowClose (s : State) : Ans := live s <| .next s.heavyClose

/-- CIRC_HP_WINDOW_WRITE (R247). -/
def State.writeHpWindow (s : State) (v : Nat) : State × Nat :=
  if 1048576 < v then (s, 0x0A)
  else
    let s := s.setOb O.CIRC_HP_WINDOW v
    (if v = 0 then { s with circ := { s.circ with hp := [] } } else s, 0)

def execCircHpWindowWrite (who : Path) (v : BitVec 32) (s : State) : Ans :=
  .next (s.access who O.CIRC_HP_WINDOW (fun s => s.writeHpWindow v.toNat))

/-! ### Arms and presets (R254 to R256, R263) -/

/-- Whether a ROUTE_MEMBER row names a port of block `b`. A row at its default 0 names port 0.0 only where a group covers it
(DESIGN CHOICE, log entry 134). -/
def State.isMember (s : State) (b : Nat) : Bool :=
  (s.rowsOf O.ROUTE_MEMBER).any (fun x => x.2 % 1024 / 8 == b) ||
  (s.rowsOf O.ROUTE_GROUP).any (fun g => (List.range (bits g.2 16 7)).any (fun i =>
    s.row O.ROUTE_MEMBER (bits g.2 0 16 + i) % 1024 / 8 == b))

/-- Whether block `b` is drained (R231). -/
def State.drained (s : State) (b : Nat) : Bool :=
  !s.isMember b &&
  (s.ports b).all (fun p => (List.range 12).all (fun q => (s.eq (12 * p + q)).frames.isEmpty)) &&
  (!s.isLink b || (s.block b).replay.isEmpty)

/-- CIRC_ARM with bit 7 set (R254 to R256). -/
def State.arm (s : State) (b : Nat) : State × Nat :=
  let st := s.portState (8 * b)
  if !s.lFeature b 7 then (s, 0x09)
  else if !s.keepsPresets b || s.blockFenced b || !exValid (s.row O.CIRC_EXPECT b) || ((st == 5 || st == 6) && !s.drained b) then
    (s.raise O.CIRC_ERR 0 0x0A 2 b 0, 0x0A)
  else
    let s := if st = 7 then s.linkReset b else s
    ((s.modBlock b (fun x => { x with armAt := some (s.now + s.ob O.CIRC_ARM_TIMEOUT_MS * 1000000) })).count O.CIRC_STAT 0 1, 0)

def execCircArm (who : Path) (b : Fin 128) (s : State) : Ans := .next (s.access who O.CIRC_ARM (fun s => s.arm b.val))

/-- CIRC_DISARM (R256). -/
def execCircDisarm (who : Path) (b : Fin 128) (s : State) : Ans :=
  .next (s.access who O.CIRC_ARM (okay (fun s => s.disarm b.val)))

/-- CIRC_ARM_TIMEOUT (R256). -/
def execCircArmTimeout (b : Fin 128) (s : State) : Ans := live s <|
  match (s.block b.val).armAt with
  | some t =>
    let s := ((s.advanceTo t).disarm b.val).modBlock b.val (fun x => { x with lastOut := 4 })
    .next ((s.count O.CIRC_STAT 5 1).raise O.CIRC_ERR 3 0 2 b.val 0)
  | none => .next s

/-- CIRC_PRESET_OP (R263): op 1 pin, 2 unpin, 3 delete; a slot not in use completes with 0x01. -/
def State.presetOp (s : State) (op b slot : Nat) : State × Nat :=
  let k := 64 * b + slot
  let r := s.row O.CIRC_PRESET k
  if op = 0 ∨ 3 < op ∨ 128 ≤ b ∨ 64 ≤ slot then (s, 0x0A)
  else if !r.testBit 71 then (s.setOb O.CIRC_PRESET_OP_STATUS 1, 0x01)
  else
    let s := s.setOb O.CIRC_PRESET_OP_STATUS 0
    (s.setRow O.CIRC_PRESET k (if op = 1 then setBit r 72 else if op = 2 then clearBit r 72 else 0), 0)

def execCircPresetPin (who : Path) (b : Fin 128) (slot : Fin 64) (s : State) : Ans :=
  .next (s.access who O.CIRC_PRESET_OP (fun s => s.presetOp 1 b.val slot.val))
def execCircPresetUnpin (who : Path) (b : Fin 128) (slot : Fin 64) (s : State) : Ans :=
  .next (s.access who O.CIRC_PRESET_OP (fun s => s.presetOp 2 b.val slot.val))
def execCircPresetDelete (who : Path) (b : Fin 128) (slot : Fin 64) (s : State) : Ans :=
  .next (s.access who O.CIRC_PRESET_OP (fun s => s.presetOp 3 b.val slot.val))

end Sys2Proof.Machine
end

