-- ==== Sys2Proof/Machine/Ports.lean ====
section
/-!
DEFINITION. Placement, roles, splits and sizes (R28 to R41, R81, R86, R95, R186 to R189, R199, R208, R227, R391): the
writes that shape the fabric and the ports.
-/

namespace Sys2Proof.Machine

/-! ### Placement (R28 to R33) -/

/-- Whether the dimensions are valid together (R28). -/
def State.shapeOk (s : State) : Bool :=
  [0, 1, 2].all (fun ax => decide (1 ≤ s.dim ax ∧ s.dim ax ≤ 16)) && decide (s.torusSize ≤ 512) &&
  decide (2 ≤ ([0, 1, 2].filter (fun ax => decide (2 ≤ s.dim ax))).length)

/-- Whether the device is placed under R32. -/
def State.isPlaced (s : State) : Bool :=
  s.shapeOk && decide (s.own < 512) && decide (s.ob O.FAB_SITE ≤ 3) && (s.ob O.FAB_SPARE == 1 || decide (s.own < s.torusSize))

/-- Whether element `e` of o2800 takes value `v`. -/
def placementOk (e v : Nat) : Bool :=
  if e ≤ 3 then decide (v ≤ 16)
  else if e = 5 then decide (v ≤ 511) || v == 0xFFFF
  else if e = 6 then decide (v ≤ 3)
  else if e = 7 then decide (v ≤ 1)
  else true

/-- Write element `e` (1 to 7) of o2800 (R32, R33): the placement is judged anew, and when it stands every Fold link
that is up or ctrl repeats its hello out of hold; so does one in quiesce (DESIGN CHOICE, log entry 135). -/
def State.writePlacement (s : State) (e v : Nat) : State × Nat :=
  if !placementOk e v then (s, 0x0A)
  else
    let s := s.setOb (O.FAB_DIM_X - 1 + e) (if e = 4 then v % 8 else v)
    let s := s.setOb O.FAB_PLACED (b2n s.isPlaced)
    let links := (List.range 128).filter (fun b => s.isLink b)
    let s := links.foldl (fun s b => s.modBlock b (fun x => { x with recheck := true })) s
    if s.placed then
      (links.foldl (fun s b =>
        if s.portState (8 * b) = 5 ∨ s.portState (8 * b) = 6 ∨ s.portState (8 * b) = 9 then s.linkHold b else s) s, 0)
    else (s, 0)

def execPlacementWrite (who : Path) (e : Fin 8) (v : BitVec 32) (s : State) : Ans :=
  if e.val = 0 then .next (s.access who (O.FAB_DIM_X - 1) (fun s => (s, 0x02)))
  else .next (s.access who (O.FAB_DIM_X - 1 + e.val) (fun s => s.writePlacement e.val v.toNat))

/-! ### Roles (R34 to R37, R95, R188, R208, R227) -/

/-- The far fold that checks of reach pools see: the smaller of the size in effect and the size pending (R391). -/
def State.farForChecks (s : State) : Nat := min (s.ob O.FOLD_FAR_SIZE_EFF) (s.ob O.FOLD_FAR_SIZE_GIB)

/-- MiB of each die's far fold at `gib` GiB in all (R86). -/
def farMib (gib : Nat) : Nat := gib * 1024 / 4

/-- The sum of the PORT_VC_RSV entries of block `b`. -/
def State.rsvSum (s : State) (b : Nat) : Nat :=
  (List.range 8).foldl (fun a v => a + s.row (blockOid O.PORT_VC_RSV b) v) 0

/-- The reserves that a Fold-link role adds to block `b`'s die (R227). -/
def State.raiseNeed (s : State) (b : Nat) : Nat :=
  (List.range 12).foldl (fun a q => a + (66 - thrReserve (s.row O.FOLD_THR_QUEUE (96 * b + q)))) 0

/-- The number of reach blocks of a die, block `b` apart. -/
def State.reachBlocks (s : State) (die b : Nat) : Nat :=
  ((List.range 32).filter (fun i => s.role (32 * die + i) == 3 && 32 * die + i != b)).length

/-- Whether block `b` may take the reach role (R95, R199, R208, R391). -/
def State.reachOk (s : State) (b : Nat) : Bool :=
  let die := b / 32
  let pool := s.bob b O.PORT_POOL_MIB
  pool != 0 && decide (s.reachMib die + 2 * pool ≤ farMib s.farForChecks ∨ s.role b = 3) &&
  decide ((s.reachBlocks die b + 1) * 536 ≤ s.fold.share * 820) && decide (s.rsvSum b ≤ 2048 * pool)

/-- The bursts of port `p` and its queues hold a frame of `n` bytes and the port's overhead (R120). -/
def State.burstsHold (s : State) (p n : Nat) : Bool :=
  let pr := s.row O.EGR_PORTCFG p
  burstOk (pRate pr) (pBurst pr) (n + pOverhead pr) && (List.range 12).all (fun q =>
    let r := s.row O.EGR_QCFG (12 * p + q)
    burstOk (qRate r) (qBurst r) (n + pOverhead pr))

/-- Whether block `b` may take role field `v` (R34, R81, R120, R188, R199, R208, R227). -/
def State.roleOk (s : State) (b v : Nat) : Bool :=
  let r := bits v 0 3
  let dir := bits v 4 3
  decide (r ≤ 4) && (!(r == 2 || r == 3) || decide (dir ≤ 5)) &&
  (!decide (2 ≤ r) || (s.bob b O.PORT_SPLIT == 1 && decide (s.reservesTotal (b / 32) + s.raiseNeed b ≤ 49152) &&
    s.burstsHold (8 * b) 16896)) &&
  (if r = 3 then s.reachOk b else decide (s.rsvSum b ≤ 1024))

/-- PFC rows of a block go to their default at a change of split or role. -/
def State.pfcDefault (s : State) (b : Nat) : State :=
  (List.range 64).foldl (fun s i => s.setRow O.PFC_CFG (64 * b + i) (objDefault O.PFC_CFG (64 * b + i))) s

/-- Raise the reserves of a block's twelve queue rows to 66 (R227). -/
def State.raiseReserves (s : State) (b : Nat) : State :=
  (List.range 12).foldl (fun s q =>
    let r := s.row O.FOLD_THR_QUEUE (96 * b + q)
    if thrReserve r < 66 then s.setRow O.FOLD_THR_QUEUE (96 * b + q) (setBits r 34 30 66) else s) s

/-- Write PORT_ROLE of block `b` (R37): any write ends an arm (R256); a change takes the block down and retrains it in its new
role. Outside the Fold link roles RING_ENTRY_b stays at zero (R243). -/
def State.writeRole (s : State) (b v : Nat) : State × Nat :=
  let v := v % 256 &&& 0x77
  if !s.roleOk b v then (s, 0x0A)
  else if v = s.bob b O.PORT_ROLE then (s.disarm b, 0)
  else
    let s := (s.blockDown b).disarm b
    let s := (s.setOb (blockOid O.PORT_ROLE b) v).pfcDefault b
    let s := if 2 ≤ bits v 0 3 then s.raiseReserves b else s.setReg (ringEntryOff b) 0
    (s.blockStart b, 0)

def execPortRoleWrite (who : Path) (b : Fin 128) (v : BitVec 8) (s : State) : Ans :=
  .next (s.access who (blockOid O.PORT_ROLE b.val) (fun s => s.writeRole b.val v.toNat))

/-! ### Splits and lane rates (R186, R188) -/

/-- A combination of split and lane rate that R186 lists. -/
def splitOk (split rate : Nat) : Bool :=
  (split == 1 || split == 2 || split == 4 || split == 8) && decide (rate ≤ 1) && !(split == 8 && rate == 1)

/-- Write PORT_SPLIT (`rate` false) or PORT_LANE_RATE (`rate` true) of block `b`. -/
def State.writeSplit (s : State) (b : Nat) (rate : Bool) (v : Nat) : State × Nat :=
  let oid := blockOid (if rate then O.PORT_LANE_RATE else O.PORT_SPLIT) b
  let sp := if rate then s.bob b O.PORT_SPLIT else v
  let lr := if rate then v else s.bob b O.PORT_LANE_RATE
  if !splitOk sp lr || (s.isLink b && sp != 1) then (s, 0x0A)
  else if v = s.ob oid then (if rate then s else s.disarm b, 0)
  else
    let s := (s.blockDown b).disarm b
    let s := (s.setOb oid v).pfcDefault b
    (s.blockStart b, 0)

def execPortSplitWrite (who : Path) (b : Fin 128) (rate : Bool) (v : BitVec 8) (s : State) : Ans :=
  .next (s.access who (blockOid (if rate then O.PORT_LANE_RATE else O.PORT_SPLIT) b.val)
    (fun s => s.writeSplit b.val rate v.toNat))

/-! ### Pools and the far fold (R86, R208, R391) -/

/-- Write PORT_POOL_MIB of block `b` (R86, R208, R391): 16 to 512, or 0 for not set; not while the role is reach. -/
def State.writePool (s : State) (b v : Nat) : State × Nat :=
  if s.role b = 3 ∨ (v ≠ 0 ∧ (v < 16 ∨ 512 < v)) ∨ farMib s.farForChecks < s.reachMib (b / 32) + 2 * v then (s, 0x0A)
  else (s.setOb (blockOid O.PORT_POOL_MIB b) v, 0)

def execPortPoolMibWrite (who : Path) (b : Fin 128) (v : BitVec 16) (s : State) : Ans :=
  .next (s.access who (blockOid O.PORT_POOL_MIB b.val) (fun s => s.writePool b.val v.toNat))

/-- The layout check of R391: 1 GiB + reservation + far fold share × 35/32 + log within 79 GiB, in 1/1,024 GiB of 1/32. -/
def layoutFits (far resv log : Nat) : Bool :=
  decide ((1 + resv) * 1024 * 32 + far * 1024 * 35 / 16 + log * 32 ≤ 79 * 1024 * 32)

/-- Write FOLD_FAR_SIZE_GIB (R86, R391): it waits for the next warm reset. -/
def State.writeFarSize (s : State) (v : Nat) : State × Nat :=
  if v % 16 ≠ 0 ∨ v = 0 ∨ 1024 < v then (s, 0x0A)
  else if !layoutFits v (s.ob O.CRIOTTE_RESV_GIB) (s.ob O.MUSTER_LOG_MIB) then (s, 0x0A)
  else if [0, 1, 2, 3].any (fun d => decide (farMib v < s.reachMib d)) then (s, 0x0A)
  else (s.setOb O.FOLD_FAR_SIZE_GIB v, 0)

def execFoldFarSizeWrite (who : Path) (v : BitVec 16) (s : State) : Ans :=
  .next (s.access who O.FOLD_FAR_SIZE_GIB (fun s => s.writeFarSize v.toNat))

/-! ### Receive reserves and thresholds (R80, R81, R199, R227) -/

/-- Write row `v` of PORT_VC_RSV of block `b` (R199). -/
def State.writeVcRsv (s : State) (b v n : Nat) : State × Nat :=
  if n < 66 ∨ s.space b < s.rsvSum b - s.row (blockOid O.PORT_VC_RSV b) v + n then (s, 0x0A)
  else (s.setRow (blockOid O.PORT_VC_RSV b) v n, 0)

/-- Write a threshold row: of a pasture or port (R80), or of a queue (R81, R227). -/
def State.writeThr (s : State) (oid row v : Nat) : State × Nat :=
  if oid = O.FOLD_THR_QUEUE then
    let b := row / 96
    let die := dieOf (row / 12)
    let rest := s.reservesTotal die - thrReserve (s.row O.FOLD_THR_QUEUE row)
    if 49152 < rest + thrReserve v then (s, 0x0A)
    else if row / 12 < 1024 ∧ row / 12 % 8 = 0 ∧ s.isLink b ∧ thrReserve v < 66 then (s, 0x0A)
    else (s.setRow oid row v, 0)
  else (s.setRow oid row (v % 2 ^ 34), 0)

end Sys2Proof.Machine
end

