-- ==== Sys2Proof/Machine/Coll.lean ====
section
/-!
DEFINITION. The commands of collectives (R352 to R385), and what the Drover does at the start of a tick (R373, R375).
-/

namespace Sys2Proof.Machine

/-! ### Communicators (R354, R384) -/

/-- The first check of R354 that a record fails, counted from 1; none when it may be created. -/
def State.commFails (s : State) (r : Nat) : Option Nat :=
  let axes := [0, 1, 2]
  let fields := cmId r != 0 && decide (cmChunk r ≤ 4) && decide (1 ≤ cmM r ∧ cmM r ≤ 64) && decide (2 ≤ cmBufs r) &&
    cmLag r != 0 && cmCapKib r != 0 && cmWorkOff r % 4096 == 0 && cmSaveOff r != 0 && cmSaveOff r % 4096 == 0 &&
    axes.all (fun ax => decide (cmBase r ax < s.dim ax) && decide (cmExt r ax ≤ s.dim ax) &&
      (s.wrapped ax || decide (cmBase r ax + cmExt r ax ≤ s.dim ax)))
  let ports := (List.range (cmM r)).map (cmPort r)
  if !fields then some 1
  else if !(s.placed && s.inBox r s.own && s.inBox r (cmLead r)) then some 2
  else if ports.any (fun p => !s.isFlockPort p || bits (s.row O.FWD_PORTCFG p) 0 12 != cmPasture r) then some 3
  else if (s.commRow (cmId r)).isSome || decide (4096 ≤ (s.rowsOf O.COLL_COMM_TABLE).length) then some 4
  else if cmSaveKib r < 384 ∨ cmSaveOff r < s.poolBase ∨ stackBytes < cmSaveOff r + 1024 * cmSaveKib r then
    some 5
  else if ports.any (fun p => decide (s.bob (p / 8) O.PORT_MAX_FRAME < 8282)) then some 6
  else none

/-- The lowest row of COLL_COMM_TABLE that holds no communicator. -/
def State.freeCommRow (s : State) : Nat :=
  ((List.range 4096).find? (fun i => s.comm i == 0)).getD 0

/-- COLL_COMM_OP 1 (R354, R384). -/
def State.commCreate (s : State) (r : Nat) : State × Nat :=
  let needs := if r.testBit 39 then 1 else 0
  if !s.pFeature (cmPasture r) needs then (s, 9)
  else match s.commFails r with
    | some k => ((s.setOb O.COLL_COMM_STATUS k).raise O.COLL_ERR 0, 0x0A)
    | none =>
      let keep := setBits (setBits (setBits r 81 15 0) 112 16 0) 320 192 0
      let keep := setBits keep 44 4 0
      let keep := keep % 2 ^ 512 + ((List.range (cmM r)).foldl (fun a j => a + cmPort r j <<< (16 * j)) 0) <<< 512
      ((s.setRow O.COLL_COMM_TABLE s.freeCommRow keep).setOb O.COLL_COMM_STATUS 0, 0)

/-- Whether a communicator has a collective that has been started and has not completed. -/
def State.commBusy (s : State) (row : Nat) : Bool := s.coll.insts.any (fun x => x.2.row == row)

/-- COLL_COMM_OP 2 (R354, R384). A delete that is refused leaves 7 in COLL_COMM_STATUS (log entry 34). -/
def State.commDelete (s : State) (id : Nat) : State × Nat :=
  match s.commRow id with
  | none => (s.setOb O.COLL_COMM_STATUS 7, 0x0A)
  | some row =>
    if s.commBusy row then (s.setOb O.COLL_COMM_STATUS 7, 0x0A)
    else
      let s := (s.setRow O.COLL_COMM_TABLE row 0).setOb O.COLL_COMM_STATUS 0
      ({ s with coll := { s.coll with posts := s.coll.posts.filter (fun p => p.comm != id)
                                      leads := s.coll.leads.filter (fun p => p.comm != id)
                                      ended := s.coll.ended.filter (fun p => p.1 != id)
                                      notes := s.coll.notes.filter (fun p => p.1 != row) } }, 0)

/-- A COLL_COMM_OP command of 256 bytes. -/
def State.commOp (s : State) (data : List Byte) : State × Nat :=
  let r := leAt data 64 192
  if data.length ≠ 256 then (s, 0x0A)
  else match leAt data 0 1 with
    | 1 => s.commCreate r
    | 2 => s.commDelete (cmId r)
    | _ => (s, 0x0A)

/-- COLL_COMM_CREATE (R354): the record of COLL_COMM_OP 1. -/
def execCollCommCreate (who : Path) (r : BitVec 1536) (s : State) : Ans :=
  .next (s.access who O.COLL_COMM_OP (fun s => s.commCreate r.toNat))

/-- COLL_COMM_DELETE (R384). -/
def execCollCommDelete (who : Path) (id : BitVec 16) (s : State) : Ans :=
  .next (s.access who O.COLL_COMM_OP (fun s => s.commDelete id.toNat))

/-! ### PORT_MAX_FRAME (R189, R354) -/

/-- The bursts of port `p` and its queues hold the longest frame of its block (R120). -/
def State.burstsFit (s : State) (p : Nat) : Bool := s.burstsHold p (s.maxFrame (p / 8))

/-- A write of PORT_MAX_FRAME of block `b`: rejected outside 1,518 to 9,216, below 8,282 while a communicator names a
port of the block, and where a bucket's burst would no longer suffice (R120). -/
def State.writeMaxFrame (s : State) (b v : Nat) : State × Nat :=
  let named := (s.rowsOf O.COLL_COMM_TABLE).any (fun x =>
    (List.range (cmM x.2)).any (fun j => cmPort x.2 j / 8 == b))
  if v < 1518 ∨ 9216 < v ∨ (named ∧ v < 8282) then (s, 0x0A)
  else
    let t := s.setOb (blockOid O.PORT_MAX_FRAME b) v
    let ok := (List.range 8).all (fun i => t.burstsFit (8 * b + i))
    if ok then (t, 0) else (s, 0x0A)

/-- PORT_MAX_FRAME_WRITE (R189). -/
def execPortMaxFrameWrite (who : Path) (b : Fin 128) (v : BitVec 16) (s : State) : Ans :=
  .next (s.access who (blockOid O.PORT_MAX_FRAME b.val) (fun s => s.writeMaxFrame b.val v.toNat))

/-! ### Completion (R370, R381) -/

/-- A completion record. -/
def State.collRecord (s : State) (c : CInst) (status aux : Nat) (aborted : Bool) : Nat :=
  let r := s.comm c.row
  c.start % 2 ^ 48 + cmId r <<< 48 + c.seq <<< 64 + status <<< 80 + pKind c.post <<< 88 + b2n aborted <<< 91 +
  c.rflags <<< 96 + (aux % 2 ^ 32) <<< 112 + (c.overflow % 2 ^ 32) <<< 144 + c.padded.length <<< 176 +
  (s.inChunks c % 2 ^ 32) <<< 192 + (min 0xFFFFFFFF (s.bell - c.start)) <<< 224

/-- Elements delivered to local member `j`, or M for a BARRIER (R381). -/
def State.collAux (s : State) (c : CInst) (j : Nat) : Nat :=
  let r := s.comm c.row
  match pKind c.post with
  | 2 => cmMembers r * c.len
  | 4 => if pRoot c.post = s.boxIndex r s.own * cmM r + j then c.len else 0
  | 5 => cmMembers r
  | _ => c.len

/-- The functions the collective event is routed to: the PF, and each VF of the communicator's pasture (R537). -/
def State.pastureFns (s : State) (p : Nat) : List Nat :=
  0 :: ((List.range (if s.pcie.vfEnable then s.pcie.numVfs else 0)).map (· + 1)).filter (fun v => bits (s.reg (0x1E0100 + 8 * (v - 1))) 0 12 == p)

/-- Give back a collective's reservation and slot. -/
def State.collFree (s : State) (id : Nat) : State :=
  let c := s.inst id
  let p := s.homePaddock c
  ((s.unprealloc (s.sinkQueue p 5) c.cells.1).unprealloc (s.sinkQueue p 6) c.cells.2).dropInst id

/-- Write DONE to every local member, COLL_RECENT and the event, and forget the seq's POSTs (R370). -/
def State.collFinish (s : State) (id status : Nat) (aborted : Bool) : State :=
  let c := s.inst id
  let r := s.comm c.row
  let s := (List.range (cmM r)).foldl (fun s j =>
    s.collToMember (s.homePaddock c) r 0x52 j (collHdr (cmId r) c.seq 0 0 1 7 0 0 0 0 0 0 0 c.rflags 0)
      (pclean (leBytes 32 (s.collRecord c status (if aborted then 0 else s.collAux c j) aborted)))) s
  let s := match c.slot with
    | some k => s.setRow O.COLL_RECENT k (s.collRecord c status (if aborted then 0 else s.collAux c 0) aborted)
    | none => s
  let s := s.event (s.pastureFns (cmPasture r)) 0x05 (cmId r) c.seq
  let s := s.collFree id
  { s with coll := { s.coll with
      posts := s.coll.posts.filter (fun p => !(p.comm == cmId r && p.seq == c.seq))
      notes := s.coll.notes.filter (fun p => !(p.1 == c.row && p.2.1 == c.seq))
      ended := ((cmId r, c.seq) :: s.coll.ended.filter (fun e => e != (cmId r, c.seq))).take 65536 } }

/-! ### START and ABORT (R374, R376) -/

/-- L after the capacity cut of R356, and the elements it drops of each contribution. -/
def State.cutLen (s : State) (row post : Nat) : Nat × Nat :=
  let r := s.comm row
  let n := pN post
  let cap := fitElems (pInFmt post) (1024 * cmCapKib r)
  match pKind post with
  | 5 => (1, 0)
  | 1 => let m := cmMembers r; let l := min n (cap / max 1 m); (l, m * (n - l))
  | _ => (min n cap, n - min n cap)

/-- A START reaches this device (R374 to R376). `replayed` starts of a log are admitted without the late rule (R475). -/
def State.takeStart (s : State) (row seq start post : Nat) (replayed : Bool) : State :=
  let r := s.comm row
  let s := { s with coll := { s.coll with notes := s.coll.notes.filter (fun p => !(p.1 == row && p.2.1 == seq)) } }
  if (s.findInst (cmId r) seq).isSome || s.coll.ended.contains (cmId r, seq) then s.collStale
  else
    let mismatch := s.coll.posts.any (fun p => p.comm == cmId r && p.seq == seq && p.post != post)
    let s := if mismatch then (s.raise O.COLL_ERR 4).collNote row seq 5 else s
    let cut := s.cutLen row post
    let id := s.coll.next
    let c : CInst := { row := row, seq := seq, start := start, post := post, len := cut.1 }
    let c := { c with overflow := cut.2 * (s.senders c).length }
    let enter := fun (s : State) => ({ s with coll := { s.coll with next := id + 1 } }).setInst id c
    if pN post = 0 ∧ pKind post ≠ kBarrier then ((enter s).count O.COLL_STAT 1 1).collFinish id 0 false
    else if !replayed && decide (start ≤ s.bell) then
      (((s.count O.COLL_STAT 3 1).tally 0x0903 0).raise O.COLL_ERR 1).collNote row seq 1
    else enter (if cut.2 = 0 then s else (s.count O.COLL_STAT 6 c.overflow).raise O.COLL_ERR 5)

/-- The lead floods a START and takes it itself (R374). -/
def State.floodStart (s : State) (e : LeadEntry) (start : Nat) : State :=
  match s.commRow e.comm with
  | none => s
  | some row =>
    let r := s.comm row
    let p := e.comm % 16
    let s := s.collSpread r 0x58 3 0 p p (fun st => collHdr e.comm e.seq 0 0 1 st 0 0 0 0 0 0 0 0 start)
      (pclean (beBytes 16 e.post))
    s.takeStart row e.seq start e.post false

/-- Start the collectives whose turn has come at the lead: seq − 4 of the communicator is complete here (R374). -/
def State.leadAdvance (s : State) (comm : Nat) : State :=
  match s.commRow comm with
  | none => s
  | some row =>
    (s.coll.leads.filter (fun e => e.comm == comm && !e.started)).foldl (fun s e =>
      let before := (e.seq + 65532) % 65536
      if s.coll.leads.any (fun x => x.comm == comm && x.seq == before) || (s.findInst comm before).isSome then s
      else
        let start := s.bell + cmLag (s.comm row)
        let s := { s with coll := { s.coll with leads := s.coll.leads.map (fun x =>
          if x = e then { x with started := true, start := start } else x) } }
        s.floodStart e start) s

/-- End of an ABORT at this device (R376): the collective of start Bell `start` ends, its slot and reservation are freed;
without reissue every local member gets DONE with the abort's status. -/
def State.takeAbort (s : State) (row seq start status : Nat) (reissue : Bool) : State :=
  let r := s.comm row
  let s := { s with coll := { s.coll with notes := s.coll.notes.filter (fun p => !(p.1 == row && p.2.1 == seq)) } }
  match s.findInst (cmId r) seq with
  | some id =>
    if reissue then s.collFree id else (s.count O.COLL_STAT 2 1).collFinish id status true
  | none =>
    if reissue then s
    else if s.coll.posts.any (fun p => p.comm == cmId r && p.seq == seq) then
      let id := s.coll.next
      let post := ((s.coll.posts.find? (fun p => p.comm == cmId r && p.seq == seq)).map (·.post)).getD 0
      let s := { s with coll := { s.coll with next := id + 1 } }
      ((s.setInst id { row := row, seq := seq, start := start, post := post }).count O.COLL_STAT 2 1).collFinish id status true
    else s.collStale

/-- The lead floods an ABORT and takes it itself. -/
def State.floodAbort (s : State) (row seq start status : Nat) (reissue : Bool) : State :=
  let r := s.comm row
  let p := cmId r % 16
  let s := s.collSpread r 0x5A 3 0 p p (fun st => collHdr (cmId r) seq 0 0 1 st 0 0 0 0 0 0 0 0 start)
    (pclean (beBytes 2 (status + 256 * b2n reissue)))
  s.takeAbort row seq start status reissue

/-! ### Frames at the sink -/

/-- The communicator row of a collective frame's header and pasture; none for a stray. -/
def State.collRow (s : State) (bytes : List Byte) : Option Nat :=
  match s.commRow (chComm (collOf bytes)) with
  | some row => if cmPasture (s.comm row) = hPasture (beAt bytes 0 32) ∧ s.inBox (s.comm row) s.own then some row else none
  | none => none

/-- The local member a frame came from, by the port flock ingress wrote (R48). -/
def State.collMember (s : State) (row : Nat) (bytes : List Byte) : Option Nat :=
  let h := beAt bytes 0 32
  if hSrcDev h ≠ s.own then none
  else (List.range (cmM (s.comm row))).find? (fun j => cmPort (s.comm row) j == hSrcPort h)

/-- COLL_POST_RECEIVE (R355, R374): a POST from a local member. -/
def execCollPostReceive (bytes : List Byte) (s : State) : Ans := live s <|
  let h := collOf bytes
  let post := beAt bytes 64 16
  match s.collRow bytes with
  | none => .next s.collStray
  | some row =>
    let r := s.comm row
    match s.collMember row bytes with
    | none => .next s.collStray
    | some j =>
      let p := cmId r % 16
      if !postOk post ||
          ((fmtMx (pInFmt post) || (hasUp (pKind post) && fmtMx (pOutFmt post))) && !s.pFeature (cmPasture r) 2) then
        let c : CInst := { row := row, seq := chSeq h, start := s.bell, post := post }
        .next (s.collToMember p r 0x52 j (collHdr (cmId r) (chSeq h) 0 0 1 7 0 0 0 0 0 0 0 0 0)
          (pclean (leBytes 32 (s.collRecord c 9 0 true))))
      else if s.coll.posts.any (fun x => x.comm == cmId r && x.seq == chSeq h && x.member == j) then .next s
      else
        let first := !s.coll.posts.any (fun x => x.comm == cmId r && x.seq == chSeq h)
        let s := { s with coll := { s.coll with posts := s.coll.posts ++ [({ comm := cmId r, seq := chSeq h, member := j, post := post } : PostRec)] } }
        match s.findInst (cmId r) (chSeq h) with
        | some id =>
          if (s.inst id).post ≠ post then .next ((s.raise O.COLL_ERR 4).collNote row (chSeq h) 5)
          else .next (if (s.inst id).slot.isSome then s.collGrant id false else s)
        | none =>
          if first ∧ !s.coll.ended.contains (cmId r, chSeq h) then
            .next (s.collSend p r 0x41 (s.leadOf r) p (collHdr (cmId r) (chSeq h) 0 0 1 0 0 0 0 0 0 0 0 0 0)
              (pclean (beBytes 16 post)))
          else .next s

/-- COLL_POST_FWD_RECEIVE (R374): the lead acts on the first POST_FWD of a seq. -/
def execCollPostFwdReceive (bytes : List Byte) (s : State) : Ans := live s <|
  let h := collOf bytes
  match s.collRow bytes with
  | none => .next s.collStray
  | some row =>
    let r := s.comm row
    if s.leadOf r ≠ s.own then .next s.collStray
    else if s.coll.leads.any (fun e => e.comm == cmId r && e.seq == chSeq h) || s.coll.ended.contains (cmId r, chSeq h) then
      .next s
    else
      let e : LeadEntry := { comm := cmId r, seq := chSeq h, post := beAt bytes 64 16 }
      .next (({ s with coll := { s.coll with leads := s.coll.leads ++ [e] } }).leadAdvance (cmId r))

/-- The lead drops its entry for a seq. -/
def State.leadDrop (s : State) (comm seq : Nat) : State :=
  { s with coll := { s.coll with leads := s.coll.leads.filter (fun e => !(e.comm == comm && e.seq == seq)) } }

/-- The lead's answer to a NOTE (R376, R378). -/
def State.leadNote (s : State) (row seq code : Nat) : State :=
  let r := s.comm row
  match s.coll.leads.find? (fun e => e.comm == cmId r && e.seq == seq) with
  | none => s.collStale
  | some e =>
    if code = 1 then
      if !e.started || decide (s.bell < e.start) then s
      else if 3 ≤ e.reissues then ((s.leadDrop (cmId r) seq).floodAbort row seq e.start 8 false).leadAdvance (cmId r)
      else
        let start := s.bell + 2 * cmLag r
        let s := (s.floodAbort row seq e.start 8 true).count O.COLL_STAT 4 1
        let s := { s with coll := { s.coll with leads := s.coll.leads.map (fun x =>
          if x = e then { x with start := start, reissues := x.reissues + 1 } else x) } }
        s.floodStart e start
    else
      let st := match code with
        | 2 => some 8
        | 3 => some 7
        | 4 => some 4
        | 5 => some 9
        | _ => none
      match st with
      | some st => ((s.leadDrop (cmId r) seq).floodAbort row seq e.start st false).leadAdvance (cmId r)
      | none => s.collStray

/-- COLL_NOTE_RECEIVE (R376). -/
def execCollNoteReceive (bytes : List Byte) (s : State) : Ans := live s <|
  match s.collRow bytes with
  | none => .next s.collStray
  | some row =>
    if s.leadOf (s.comm row) ≠ s.own then .next s.collStray
    else .next (s.leadNote row (chSeq (collOf bytes)) (beAt bytes 64 1))

/-- A START run reaches this device, from the fabric or from a log that is replayed to it (R374, R376, R474); it goes on
along the lower axes (R229). -/
def State.startReceive (s : State) (bytes : List Byte) (replayed : Bool) : State :=
  let h := collOf bytes
  match s.collRow bytes with
  | none => s.collStray
  | some row =>
    let r := s.comm row
    let p := cmId r % 16
    let s := s.collSpread r 0x58 (chStage h) 0 p p
      (fun st => setBits h 173 3 st) ((bytes.drop 64).map (fun b => (b, false)))
    s.takeStart row (chSeq h) (s.bellOf48 (chArg h)) (beAt bytes 64 16) replayed

/-- COLL_START_RECEIVE (R374, R376). -/
def execCollStartReceive (bytes : List Byte) (s : State) : Ans := live s <| .next (s.startReceive bytes false)

/-- COLL_ABORT_RECEIVE (R376): an ABORT run reaches this device. -/
def execCollAbortReceive (bytes : List Byte) (s : State) : Ans := live s <|
  let h := collOf bytes
  match s.collRow bytes with
  | none => .next s.collStray
  | some row =>
    let r := s.comm row
    let p := cmId r % 16
    let s := s.collSpread r 0x5A (chStage h) 0 p p
      (fun st => setBits h 173 3 st) ((bytes.drop 64).map (fun b => (b, false)))
    let v := beAt bytes 64 2
    .next ((s.takeAbort row (chSeq h) (s.bellOf48 (chArg h)) (v % 256) (v.testBit 8)).leadAdvance (cmId r))

/-- A check of a segment failed (R378). -/
def State.collMismatch (s : State) (row seq : Nat) : State :=
  ((s.count O.COLL_STAT 7 1).raise O.COLL_ERR 2 7).collNote row seq 3

/-- The collective of a data frame, or why there is none. -/
def State.collFor (s : State) (bytes : List Byte) : Except State (Nat × Nat) :=
  let h := collOf bytes
  match s.collRow bytes with
  | none => .error s.collStray
  | some row => match s.findInst (chComm h) (chSeq h) with
    | none => .error s.collStale
    | some id => .ok (row, id)

/-- Cut a segment to the `n` elements of its chunk: what it holds beyond, and the segment that is left (R356). -/
def Seg.trim (g : Seg) (f n : Nat) : Nat × Seg :=
  if g.spill then (0, g)
  else
    let keep := min g.cnt (n - g.off)
    (g.cnt - keep, { g with cnt := keep, data := g.data.take (fmtBytes f keep) })

/-- COLL_IN_RECEIVE (R356, R365): a contribution segment is checked and placed. -/
def execCollInReceive (bytes : List Byte) (s : State) : Ans := live s <|
  match s.collFor bytes with
  | .error s => .next s
  | .ok (row, id) =>
    let h := collOf bytes
    let c := s.inst id
    match s.collMember row bytes with
    | none => .next s.collStray
    | some j =>
      if !(s.senders c).contains j then .next s.collStray
      else
        let g := segOf bytes
        let sum := if hasUp (pKind c.post) then g.clean.residue c.inFmt c.inScale else g.crc
        if sum ≠ chCheck h then .next (s.collMismatch row c.seq)
        else if s.inChunks c ≤ chChunk h then
          .next (((s.setInst id { c with overflow := c.overflow + g.cnt }).count O.COLL_STAT 6 g.cnt).raise O.COLL_ERR 5)
        else
          let k := s.inKey c j (chChunk h)
          let n := (s.chunkSpan c k).2
          let t := g.trim c.inFmt n
          let x := c.chunk k
          if x.ins.any (fun y => y.1 == j && y.2.idx == g.idx) || x.stage != 0 then .next s
          else
            let ins := x.ins ++ [(j, t.2)]
            let mine := (ins.filter (fun y => y.1 == j)).map (·.2)
            let short := segsDone mine && decide ((mine.map (·.cnt)).sum < n)
            let c := { c.setChunk k { x with ins := ins, rflags := x.rflags ||| g.rflags } with
              overflow := c.overflow + t.1, padded := if short then c.padded.add j else c.padded }
            let s := s.setInst id c
            let s := if t.1 = 0 then s else s.count O.COLL_STAT 6 t.1
            .next (if t.1 = 0 ∧ !short then s else s.raise O.COLL_ERR 5)

/-- COLL_STEP_RECEIVE (R367): a partial-sum segment is checked and placed by chunk and seg. -/
def execCollStepReceive (bytes : List Byte) (s : State) : Ans := live s <|
  match s.collFor bytes with
  | .error s => .next s
  | .ok (row, id) =>
    let h := collOf bytes
    let c := s.inst id
    let g := segOf bytes
    if g.clean.residue (cmStepFmt (s.comm row)) 0 ≠ chCheck h then .next (s.collMismatch row c.seq)
    else if s.inChunks c ≤ chChunk h ∨ chStage h = 0 ∨ 3 < chStage h then .next s.collStray
    else
      let x := c.chunk (chChunk h)
      if x.steps.any (fun y => y.1 == chStage h && y.2.idx == g.idx) then .next s
      else .next (s.setInst id (c.setChunk (chChunk h)
        { x with steps := x.steps ++ [(chStage h, g)], rflags := x.rflags ||| g.rflags }))

/-- COLL_RESULT_RECEIVE (R368): a RESULT segment is checked and placed; a whole chunk goes on at the next tick. -/
def execCollResultReceive (bytes : List Byte) (s : State) : Ans := live s <|
  match s.collFor bytes with
  | .error s => .next s
  | .ok (row, id) =>
    let h := collOf bytes
    let c := s.inst id
    let g := segOf bytes
    if g.crc ≠ chCheck h then .next (s.collMismatch row c.seq)
    else if s.allChunks c ≤ chChunk h ∨ chStage h < 4 ∨ 6 < chStage h then .next s.collStray
    else
      let k := chChunk h
      let x := c.chunk k
      if x.runs.any (fun y => y.2.idx == g.idx) || x.stage == 5 then .next s
      else
        let x := { x with runs := x.runs ++ [(chStage h, g)], rflags := x.rflags ||| g.rflags }
        let segs := x.runs.map (·.2)
        let x := if segsDone segs then
            { x with stage := 5, via := chStage h, result := chunkBytes c.outFmt (s.chunkSpan c k).2 segs, runs := [] }
          else x
        .next (s.setInst id (c.setChunk k x))

/-! ### Completion and timeout -/

/-- Whether every chunk this device owes has been delivered and its part has ended (R370). -/
def State.collComplete (s : State) (c : CInst) : Bool :=
  if hasDown (pKind c.post) then c.out == s.allChunks c
  else (List.range (s.inChunks c)).all (fun k => (c.chunk k).stage == 7)

/-- The collective of a slot. -/
def State.slotInst (s : State) (slot : Nat) : Option Nat :=
  (s.coll.insts.find? (fun x => x.2.slot == some slot)).map (·.1)

/-- COLL_DONE_SEND (R370, R381). -/
def execCollDoneSend (slot : Fin 64) (s : State) : Ans := live s <|
  match s.slotInst slot.val with
  | none => .next s
  | some id =>
    let c := s.inst id
    if !s.collComplete c then .next s
    else
      let comm := cmId (s.comm c.row)
      let st := if c.poisoned then 3 else if c.overflow ≠ 0 then 6 else 0
      .next ((((s.count O.COLL_STAT 1 1).collFinish id st false).leadDrop comm c.seq).leadAdvance comm)

/-- Device time at the start of Bell number `n`, in ns (R447). -/
def State.bellStart (s : State) (n : Nat) : Nat := s.time.t0 + (n - s.time.n0) * s.period

/-- COLL_TIMEOUT (R378): a collective has committed no step for `timeout` ticks while admitted. A held collective's
timeout does not count (R468). -/
def execCollTimeout (slot : Fin 64) (s : State) : Ans := live s <|
  match s.slotInst slot.val with
  | none => .next s
  | some id =>
    let c := s.inst id
    let t := cmTimeout (s.comm c.row)
    if t = 0 ∨ !c.held.isEmpty ∨ s.coll.notes.contains (c.row, c.seq, 2) then .next s
    else
      let s := s.advanceDev (s.bellStart (c.last + t) * devUnit)
      .next ((s.raise O.COLL_ERR 3 8).collNote c.row c.seq 2)

/-! ### The start of a tick (R373, R375) -/

/-- Cells of the two reservations of a collective: flock and step streams, and down-run streams (R371). -/
def State.collCells (s : State) (c : CInst) : Nat × Nat :=
  let r := s.comm c.row
  let P := cmPayload r
  let C := s.chunkElems c
  let cin := 17 * ((P + 8191) / 8192)
  let step := if hasUp (pKind c.post) then
      (if cmStepFmt r = fmtXp64 then 18 * ((C + 1023) / 1024) + 33 else 25 * ((C + 255) / 256)) else 0
  (cmBufs r * (cmM r * cin + 6 * step), cmBufs r * 6 * 33 * ((P + 16383) / 16384))

/-- Whether the work area holds the collective's partials (R380). -/
def State.workFits (s : State) (c : CInst) : Bool :=
  let r := s.comm c.row
  let C := s.chunkElems c
  let per := if cmStepFmt r = fmtXp64 then (C + 31) / 32 * 280 + 16384 else 48 * C
  decide (s.inChunks c * per ≤ 16 * cmWorkMib r * 2 ^ 20)

/-- Key order (R374). -/
def State.keyLt (s : State) (a b : CInst) : Bool :=
  let ka := cmId (s.comm a.row)
  let kb := cmId (s.comm b.row)
  decide (a.start < b.start) || (a.start == b.start && (decide (ka < kb) ||
    (ka == kb && decide (a.seq ≠ b.seq ∧ (b.seq + 65536 - a.seq) % 65536 < 32768))))

/-- The waiting START of earliest key. -/
def State.collHead (s : State) : Option (Nat × CInst) :=
  match s.coll.insts.filter (fun x => x.2.slot.isNone) with
  | [] => none
  | x :: l => some (l.foldl (fun a b => if s.keyLt b.2 a.2 then b else a) x)

/-- Admit STARTs in key order until one cannot be admitted (R375). -/
def State.collAdmit (s : State) : Nat → State
  | 0 => s
  | fuel + 1 =>
    match s.collHead with
    | none => { s with coll := { s.coll with blocked := false } }
    | some (id, c) =>
      if s.bell < c.start then { s with coll := { s.coll with blocked := false } }
      else if !s.workFits c then
        let s := { s with coll := { s.coll with blocked := false } }
        if s.coll.notes.contains (c.row, c.seq, 5) then s else (s.raise O.COLL_ERR 4 9).collNote c.row c.seq 5
      else
        match (List.range 64).find? (fun k => (s.slotInst k).isNone) with
        | none => { s with coll := { s.coll with blocked := false } }
        | some k =>
          let cells := s.collCells c
          let t := match s.prealloc (s.sinkQueue (k % 16) 5) cells.1 with
            | none => none
            | some s => s.prealloc (s.sinkQueue (k % 16) 6) cells.2
          match t with
          | none => ({ s with coll := { s.coll with blocked := true } }.count O.COLL_STAT 5 1).raise O.COLL_ERR 6
          | some s =>
            let s := (s.setInst id { c with slot := some k, cells := cells, last := s.bell }).count O.COLL_STAT 0 1
            (s.collGrant id true).collAdmit fuel

/-- Issue what the tick boundary finds complete, for every running collective that is not held (R373, R468). -/
def State.collIssue (s : State) : State :=
  (s.coll.insts.filter (fun x => x.2.slot.isSome && x.2.held.isEmpty)).foldl (fun s x =>
    let s := (List.range (s.allChunks x.2)).foldl (fun s k =>
      if TMap.has s.coll.insts x.1 then s.collIssueChunk x.1 k else s) s
    if hasUp (pKind x.2.post) then s else s.collGrant x.1 false) s

/-- What the Drover does at the start of a Bell tick. -/
def State.collTick (s : State) : State := (s.collAdmit 65).collIssue

/-! ### Fences and failed devices (R378, R466, R468) -/

/-- Report the collectives whose home paddock or work stack a fence has taken (R378). -/
def State.collFenced (s : State) (p : CInst → Bool) : State :=
  (s.coll.insts.filter (fun x => x.2.slot.isSome && p x.2)).foldl (fun s x =>
    (s.raise O.COLL_ERR 7 4).collNote x.2.row x.2.seq 4) s

/-- Hold every admitted collective whose box contains `f`, and send unanswered POST_FWDs and NOTEs again (R466). -/
def State.collHold (s : State) (f : Nat) : State :=
  let s := s.coll.insts.foldl (fun s x =>
    if s.inBox (s.comm x.2.row) f ∧ x.2.slot.isSome then s.setInst x.1 { x.2 with held := x.2.held.add f } else s) s
  let firsts := s.coll.posts.filter (fun p => (s.findInst p.comm p.seq).isNone &&
    !(s.coll.posts.takeWhile (fun q => q != p)).any (fun q => q.comm == p.comm && q.seq == p.seq))
  let s := firsts.foldl (fun s p => match s.commRow p.comm with
    | some row =>
      let r := s.comm row
      s.collSend (p.comm % 16) r 0x41 (s.leadOf r) (p.comm % 16) (collHdr p.comm p.seq 0 0 1 0 0 0 0 0 0 0 0 0 0)
        (pclean (beBytes 16 p.post))
    | none => s) s
  s.coll.notes.foldl (fun s n => s.collNote n.1 n.2.1 n.2.2) s

/-- Release what was held for `f`. -/
def State.collUnhold (s : State) (f : Nat) : State :=
  s.coll.insts.foldl (fun s x => s.setInst x.1 { x.2 with held := x.2.held.remove f, last := s.bell }) s

/-- End every collective held for `f` with DONE of status 0x04 (R478). -/
def State.collUnrecov (s : State) (f : Nat) : State :=
  (s.coll.insts.filter (fun x => x.2.held.contains f)).foldl (fun s x => (s.count O.COLL_STAT 2 1).collFinish x.1 4 true) s

end Sys2Proof.Machine
end

