-- ==== Sys2Proof/Machine/Common.lean ====
section
/-!
DEFINITION. The commands of the Common and of DMA (R386 to R423).
-/

namespace Sys2Proof.Machine

/-! ### Requests at the home unit (R399 to R405) -/

/-- The request a frame on REQ carries (R402). -/
def parseReq (sink : Nat) (bytes : List Byte) : CReq :=
  let h := beAt bytes 0 32
  let r := beAt bytes 32 32
  { sink := sink, src := hSrcDev h, srcPort := hSrcPort h, pasture := hPasture h, op := hOp h
    addr := bits r 192 64, reqId := bits r 160 32, count := bits r 128 32, d := bits r 112 16, fmt := bits r 107 5
    rmode := bits r 104 3, payload := bytes.drop 64
    status := if r.testBit 96 || (hFlags h).testBit 0 then 3 else 0 }

/-- Take a Common request from the sink of paddock `sink` (R388, R399). -/
def State.takeReq (s : State) (sink : Nat) (bytes : List Byte) : State :=
  let q := parseReq sink bytes
  let unit := if q.op = 0x15 then sink else homeOf q.off
  let q := { q with unit := unit }
  let s := (s.count O.COMMON_STAT 0 1).tally 0x0A00 unit
  let s := if unit = sink then s else s.count O.COMMON_STAT 3 1
  let id := s.common.nextReq
  let s := { s with common := { s.common with nextReq := id + 1 } }
  let s := s.setCreq id q
  if s.sinkAhead sink id then s else s.admitReq id

/-- COMMON_REQUEST_RECEIVE (R399): a Common request arrives at the local sink of a paddock. -/
def execCommonRequestReceive (paddock : Fin 16) (bytes : List Byte) (s : State) : Ans := live s <|
  .next (s.takeReq paddock.val bytes)

/-- End the oldest walk of unit `u` (R396): the leaf enters the TLB and the requests that waited for it are checked. -/
def State.walkDone (s : State) (u : Nat) : State :=
  match s.common.walks.find? (fun w => w.1 == u) with
  | none => s
  | some w =>
    let s := { s with common := { s.common with walks := s.common.walks.erase w } }
    let waiting := (s.unitReqs u (fun x => x == .walk))
    let mine := waiting.filter (fun x => tlbTag x.2.mirror x.2.pasture x.2.off false == w.2)
    let off := bits w.2 0 22 * 2 ^ 21
    let pasture := bits w.2 22 12
    let mirror := w.2.testBit 34
    let s : State := match s.walk mirror pasture off with
      | .ok l => mine.foldl (fun (s : State) x => s.checkReq x.1)
          (s.tlbUse u mirror pasture off l.entry l.giant)
      | .error f => mine.foldl (fun (s : State) x => s.failReq x.1 f 0 x.2.off) s
    -- a request that waited for a walk to end may start its own
    match ((s.unitReqs u (fun x => x == .walk)).filter (fun x =>
        !s.common.walks.contains (u, tlbTag x.2.mirror x.2.pasture x.2.off false))).head? with
    | some x => { s with common := { s.common with
        walks := s.common.walks ++ [(u, tlbTag x.2.mirror x.2.pasture x.2.off false)] } }
    | none => s

/-- COMMON_WALK_COMPLETE (R396): a page-table walk of a unit ends. -/
def execCommonWalkComplete (unit : Fin 16) (s : State) : Ans := live s <| .next (s.walkDone unit.val)

/-- The HBM access of request `id` ends (R405, R407, R416); `ue` says that a read met an uncorrectable error. -/
def State.accessDone (s : State) (id : Nat) (ue : Bool) : State :=
  let q := s.creq id
  if q.op = 0x10 ∨ q.op = 0x18 then
    if s.stackShut (hpaStack q.hpa) then ((s.answer q 4 0 0 q.off [] false false).dropCreq id).wakeReqs
    else
      let bad := ue || s.hbmPoisoned q.hpa q.count
      ((s.answer q (if bad then 3 else 0) 0 q.count 0 (s.hbmRead q.hpa q.count) bad false).dropCreq id).wakeReqs
  else
    let s := s.hbmWrite q.hpa (q.payload.take q.count)
    let r := if q.op = 0x11 then
        match s.mirrorDue q.pasture (setBits q.leaf 8 1 (b2n (pteLost (s.leafEntry q.pasture q.off)))) with
        | 0 => (s, false, 0)
        | 1 => s.mirrorWrite (.request id) q.pasture q.off q.hpa q.count
        | _ => (s, true, 0)
      else (s, false, 0)
    let s := r.1.setCreq id { q with stage := .mirror, mlost := r.2.1 }
    s.requestMirrored id

/-- COMMON_HBM_ACCESS_COMPLETE (R405): the access of the `nth` request of a unit that has one under way finishes. -/
def execCommonHbmAccessComplete (unit : Fin 16) (nth : Fin 4096) (ue : Bool) (s : State) : Ans := live s <|
  match (s.unitReqs unit.val (fun x => x == .access))[nth.val]? with
  | some x => .next (s.accessDone x.1 ue)
  | none => .next s

/-! ### Mirror acknowledgements (R407, R408) -/

/-- Bytes of a page that hold `off`, as its leaf maps it. -/
def State.pageSize (s : State) (pasture off : Nat) : Nat :=
  match s.walk false pasture off with
  | .ok l => if l.giant then 2 ^ 30 else 2 ^ 21
  | .error _ => 2 ^ 21

/-- Whether the page at offset `o` of pasture `p` can be copied to the buddy: a buddy is named, and the page is there. -/
def State.canCopy (s : State) (p o : Nat) : Bool :=
  s.ob O.COMMON_BUDDY != 0xFFFF &&
  (match s.walk false p o with
    | .ok l => !s.stackShut (hpaStack (pteFrame l.entry))
    | .error _ => false)

/-- Pass over the pages at the front of a resync that cannot be copied: they keep their bit and are counted in
resync_fail (R408). -/
def State.resyncSkip (s : State) : List (Nat × List Nat) → State
  | [] => { s with common := { s.common with resync := [] } }
  | (p, os) :: rest =>
    let left := os.dropWhile (fun o => !s.canCopy p o)
    let s := s.count O.COMMON_STAT 8 (os.length - left.length)
    if left.isEmpty then s.resyncSkip rest else { s with common := { s.common with resync := (p, left) :: rest } }

/-- Send the next piece of the page being copied to the buddy (R408), or take the next page, or end the command. -/
def State.resyncPump (s : State) : State :=
  let s := if s.common.copying.isSome then s else s.resyncSkip s.common.resync
  match s.common.resync with
  | (p, o :: _) :: _ =>
    let at_ := match s.common.copying with | some c => c.2 | none => 0
    match s.walk false p o with
    | .error _ => s
    | .ok l =>
      let s := { s with common := { s.common with copying := some (o, at_) } }
      s.sendMirror (.resync p) p (o + at_) (pteFrame l.entry + at_) 16384
  | _ => s.setOb O.COMMON_RESYNC_STATUS 0

/-- The page being copied has ended: its bit is cleared, or kept and counted; its requests are released (R408). -/
def State.resyncPage (s : State) (good : Bool) : State :=
  match s.common.resync with
  | (p, o :: os) :: rest =>
    let s := if good then s.setLost p o false else s.count O.COMMON_STAT 8 1
    let size := s.pageSize p o
    let s := { s with common := { s.common with resync := (p, os) :: rest, copying := none } }
    let s := s.recheckHeld (fun mirror q off => !mirror && q == p && off / size == o / size)
    s.resyncPump
  | _ => s

/-- A mirror write for resync ended. -/
def State.resyncAck (s : State) (good : Bool) : State :=
  match s.common.resync, s.common.copying with
  | (p, o :: _) :: _, some (_, n) =>
    if !good then s.resyncPage false
    else if s.pageSize p o ≤ n + 16384 then s.resyncPage true
    else ({ s with common := { s.common with copying := some (o, n + 16384) } }).resyncPump
  | _, _ => s

/-- A DMA job's mirror writes have all ended: its done prefix moves up (R415). -/
def State.jobAcked (s : State) (r : Nat) : State :=
  let j := TMap.get ({} : DmaJob) s.common.jobs r
  if s.mirrorsFor (.dma r) then s
  else { s with common := { s.common with jobs := TMap.put ({} : DmaJob) s.common.jobs r { j with done := j.pos } } }

/-- Mirror write `id` ends, well or not (R407). -/
def State.mirrorEnd (s : State) (id : Nat) (good : Bool) : State :=
  match s.common.mirrors.find? (fun m => m.1 == id) with
  | none => s.count O.COMMON_STAT 9 1
  | some (_, m) =>
    let s := { s with common := { s.common with mirrors := TMap.erase s.common.mirrors id } }
    let isResync := match m.owner with | .resync _ => true | _ => false
    let s := if good || isResync then s else s.mirrorLost m.pasture m.offset
    match m.owner with
    | .request q => (s.setCreq q { s.creq q with mlost := (s.creq q).mlost || !good }).requestMirrored q
    | .drove c k =>
      let x := TMap.get ({} : OpCtx) s.drove.ctxs c
      let ops := x.ops.modify k (fun o => { o with mirrors := o.mirrors - 1, mlost := o.mlost || !good })
      { s with drove := { s.drove with ctxs := TMap.put ({} : OpCtx) s.drove.ctxs c { x with ops := ops } } }
    | .dma r =>
      let j := TMap.get ({} : DmaJob) s.common.jobs r
      ({ s with common := { s.common with jobs := TMap.put ({} : DmaJob) s.common.jobs r { j with mlost := j.mlost || !good } } }).jobAcked r
    | .resync _ => s.resyncAck good

/-- MIRROR_ACK_RECEIVE (R407): an acknowledgement from the buddy, in a response of op 0x23. -/
def execMirrorAckReceive (bytes : List Byte) (s : State) : Ans := live s <|
  let r := beAt bytes 32 32
  .next (s.mirrorEnd (bits r 224 32) (bits r 216 8 == 0))

/-- MIRROR_TIMEOUT (R407): mirror write `id` has had no acknowledgement within COMMON_MIRROR_TO_US. -/
def execMirrorTimeout (id : Nat) (s : State) : Ans := live s <|
  match s.common.mirrors.find? (fun m => m.1 == id) with
  | some (_, m) => .next ((s.advanceTo m.deadline).mirrorEnd id false)
  | none => .next s

/-- Every mirror write fails because a muster notice names the buddy (R407). -/
def State.mirrorsFail (s : State) : State := (s.common.mirrors.map (·.1)).foldl (fun s id => s.mirrorEnd id false) s

/-! ### DMA (R412 to R415) -/

def dmaOp (d : Nat) : Nat := bits d 0 8
def dmaSrcSpace (d : Nat) : Nat := bits d 10 2
def dmaDstSpace (d : Nat) : Nat := bits d 12 2
def dmaLen (d : Nat) : Nat := bits d 32 32
def dmaTag (d : Nat) : Nat := bits d 64 64
def dmaSrc (d : Nat) : Nat := bits d 128 64
def dmaDst (d : Nat) : Nat := bits d 192 64

def State.job (s : State) (r : Nat) : DmaJob := TMap.get {} s.common.jobs r
def State.setJob (s : State) (r : Nat) (j : DmaJob) : State :=
  { s with common := { s.common with jobs := TMap.put ({} : DmaJob) s.common.jobs r j } }

/-- The checks of R412 to R414 on a descriptor: its status, 0 when it may run. -/
def State.dmaCheck (s : State) (r d : Nat) : Nat :=
  let vf := s.ringOwner true r != 0
  let fill := dmaOp d == 2
  if dmaOp d ≠ 1 ∧ dmaOp d ≠ 2 then 9
  else if dmaDstSpace d = 3 then 9
  else if vf && ((!fill && (dmaSrcSpace d == 1 || dmaSrcSpace d == 3)) || dmaDstSpace d == 1) then 2
  else if !fill && dmaSrcSpace d == dmaDstSpace d &&
      (dmaSrcSpace d == 1 || (dmaSrcSpace d == 2 && bits (dmaSrc d) 43 9 == s.own)) &&
      overlap (dmaSrc d) (dmaLen d) (dmaDst d) (dmaLen d) then 9
  else 0

/-- Bytes to the next 2 MiB boundary of a Common address. -/
def toBoundary (space a : Nat) : Nat := if space = 2 ∨ space = 3 then 2 ^ 21 - a % 2 ^ 21 else 2 ^ 21

/-- The size of the piece at the job's position (R413). -/
def DmaJob.piece (j : DmaJob) : Nat :=
  let d := j.desc
  let src := if dmaOp d = 2 then 2 ^ 21 else toBoundary (dmaSrcSpace d) (dmaSrc d + j.pos)
  min (dmaLen d - j.pos) (min 16384 (min src (toBoundary (dmaDstSpace d) (dmaDst d + j.pos))))

/-- A free slot of paddock `p`'s requester (R410). -/
def State.freeSlot (s : State) (p : Nat) : Option Nat :=
  ((List.range 1024).map (fun i => 1024 * p + i)).find? (fun k =>
    (TMap.get ({} : Slot) s.common.slots k).holder.isNone)

/-- Send a Common request for DMA ring `r`, its response space reserved first (R230, R410); none while no slot or no
space is free. -/
def State.dmaRequest (s : State) (r op dev addr n : Nat) (data : PBytes) : Option State :=
  let p := r % 16
  match (if s.slotsUsed p < 1024 then s.freeSlot p else none) with
  | none => none
  | some k =>
    let cells := cellsOf (64 + (if op = 0x11 then 0 else n))
    match s.prealloc (s.sinkQueue p 2) cells with
    | none => none
    | some s =>
      let x := TMap.get ({} : Slot) s.common.slots k
      let uses := (x.uses + 1) % 2 ^ 22
      let id := k % 1024 + uses <<< 10
      let x : Slot := { holder := some r, uses := uses, dev := dev, cells := cells
                        deadline := s.now + 1000 * s.ob O.COMMON_REQ_TO_US }
      let s := { s with common := { s.common with slots := TMap.put {} s.common.slots k x } }
      let h := addr <<< 192 + id <<< 160 + n <<< 128 + b2n (data.any (·.2)) <<< 96
      let s := s.setJob r { s.job r with slot := some k, held := none }
      some (s.send p (s.ringPasture true r) op dev (homeOf (addr % 2 ^ 43)) (beBytes 32 h ++ data.map (·.1)))

/-- Free a requester slot and the space it reserved. -/
def State.slotFreed (s : State) (k : Nat) : State :=
  let x := TMap.get ({} : Slot) s.common.slots k
  let s := s.unprealloc (s.sinkQueue (k / 1024) 2) x.cells
  { s with common := { s.common with slots := TMap.put {} s.common.slots k { uses := x.uses } } }

/-- A DMA job meets a fault (R415). -/
def State.dmaFault (s : State) (r status addr : Nat) : State :=
  let j := s.job r
  s.setJob r { j with status := status, fault := addr, buf := none, held := none }

/-- A local Common access of a DMA job: the HPA of the piece, a request in flight on its units or a held page to wait
for, or a fault (R405, R413, R416). -/
inductive DmaReach where
  | at_ (hpa : Nat)
  | busy
  | hold
  | fail (f : TFault)

/-- Translate a Common address of this device for DMA ring `r`. -/
def State.dmaReach (s : State) (r addr n right : Nat) : DmaReach :=
  let p := s.ringPasture true r
  let off := bits addr 0 43
  if bits addr 52 12 ≠ p then .fail ⟨2, 2⟩
  else match s.leafFor false p off with
    | .error f => .fail f
    | .ok e => match s.checkLeaf e.1 e.2 off n right with
      | .error f => .fail f
      | .ok a =>
        if pteHold e.1 || s.resyncHolds p off false then .hold
        else if s.common.reqs.any (fun x => x.2.stage.inFlight && unitsMeet [(a, n)] x.2.spans) then .busy
        else .at_ a

/-- The outcome of a local Common access that cannot be made: wait for the held page, or end with a fault record. -/
def State.dmaBlocked (s : State) (r addr : Nat) (x : DmaReach) : State :=
  match x with
  | .hold => s.setJob r { s.job r with held := some ((s.job r).held.getD s.now) }
  | .fail f => (((s.commonFaultBits f).faultRecord (homeOf (addr % 2 ^ 43)) addr s.own 0 f.kind false)).dmaFault r f.status addr
  | .at_ _ => s
  | .busy => s

/-- Read the piece at the job's position into its buffer, or ask for it, or wait, or fault. -/
def State.dmaRead (s : State) (r : Nat) : State :=
  let j := s.job r
  let d := j.desc
  let n := j.piece
  let a := dmaSrc d + j.pos
  let got := fun (s : State) (l : PBytes) =>
    s.setJob r { s.job r with buf := some l, held := none, poison := j.poison || l.any (·.2) }
  if dmaOp d = 2 then
    got s (pclean ((List.range n).map (fun i => (leBytes 8 (dmaSrc d)).getD ((j.pos + i) % 8) 0)))
  else match dmaSrcSpace d with
    | 0 => got s (pclean (s.hostRead a n))
    | 1 => match s.findHpa a n with
      | .ok _ => got s (s.hbmReadP [] a n)
      | .error f => s.dmaFault r f.status f.off
    | 2 =>
      if bits a 43 9 = s.own then
        let s := s.tlbTouch false (s.ringPasture true r) (bits a 0 43)
        match s.dmaReach r a n 0 with
        | .at_ h => got s (s.hbmReadP [] h n)
        | x => s.dmaBlocked r a x
      else (s.dmaRequest r 0x10 (bits a 43 9) a n []).getD s
    | _ =>
      if s.ob O.COMMON_BUDDY = 0xFFFF then s.dmaFault r 1 a
      else (s.dmaRequest r 0x18 (s.ob O.COMMON_BUDDY) a n []).getD s

/-- The piece has been written: the job moves on (R415). -/
def State.dmaWrote (s : State) (r n : Nat) : State :=
  let j := s.job r
  (s.setJob r { j with pos := j.pos + n, buf := none, retried := false, held := none }).jobAcked r |>.tally 0x0A04 (r % 16) n

/-- Write the piece in the buffer, or ask for it, or wait, or fault. -/
def State.dmaWriteOut (s : State) (r : Nat) (l : PBytes) : State :=
  let d := (s.job r).desc
  let n := l.length
  let a := dmaDst d + (s.job r).pos
  match dmaDstSpace d with
  | 0 => (s.hostWrite a (l.map (·.1))).dmaWrote r n
  | 1 => match s.findHpa a n with
    | .ok _ => (s.hbmWriteP a l).dmaWrote r n
    | .error f => s.dmaFault r f.status f.off
  | _ =>
    if bits a 43 9 = s.own then
      let s := s.tlbTouch false (s.ringPasture true r) (bits a 0 43)
      match s.dmaReach r a n 1 with
      | .at_ h =>
        let x := (s.hbmWriteP h l).mirrorOf (.dma r) (s.ringPasture true r) (bits a 0 43) h n
        (x.1.setJob r { x.1.job r with mlost := (x.1.job r).mlost || x.2.1 }).dmaWrote r n
      | x => s.dmaBlocked r a x
    else (s.dmaRequest r 0x11 (bits a 43 9) a n l).getD s

/-- Move a job on until it waits for a response or a held page, faults, or has moved every byte. -/
def State.dmaPump (s : State) (r : Nat) : Nat → State
  | 0 => s
  | fuel + 1 =>
    let j := s.job r
    if !j.live || j.slot.isSome || j.status != 0 || dmaLen j.desc == j.pos then s
    else
      let s := match j.buf with
        | none => s.dmaRead r
        | some l => s.dmaWriteOut r l
      let k := s.job r
      if k.held.isSome || (k.pos == j.pos && k.buf == j.buf) then s else s.dmaPump r fuel

/-- Steps enough to move a job on as far as it goes. -/
def DmaJob.fuel (j : DmaJob) : Nat := 4 * (dmaLen j.desc / 16384) + 64

/-- The record of a DMA descriptor (R415). -/
def dmaRecord (d status done fault : Nat) (poison mlost stopped : Bool) : Nat :=
  dmaTag d + status <<< 64 + dmaOp d <<< 72 + b2n poison <<< 80 + b2n mlost <<< 81 + b2n stopped <<< 82 +
  done <<< 96 + fault <<< 128

/-- End DMA ring `r`'s descriptor: its record, counts, and the stop of the ring on a fault (R415). -/
def State.dmaEnd (s : State) (r : Nat) : State :=
  let j := s.job r
  let stop := j.live && j.status != 0
  let r32 := dmaRecord j.desc j.status j.done j.fault j.poison j.mlost stop
  let s := (s.setJob r {}).putRecord true r r32 (j.desc.testBit 8)
  let s := (s.countIn O.DMA_STAT (r % 16) 0 1).countIn O.DMA_STAT (r % 16) 1 j.done
  if stop then s.stopDmaRing r j.status else s

/-- DMA_DESCRIPTOR_START (R413): ring `r`'s oldest fetched descriptor is checked and its transfer begins. Descriptors of
a ring run one after another, so the fence bit asks nothing more. -/
def execDmaDescriptorStart (r : Fin 64) (s : State) : Ans := live s <|
  let x := s.ring true r.val
  match x.fetched with
  | [] => .next s
  | d :: rest =>
    if (s.job r.val).live || x.stopped then .next s
    else
      let s := s.setRing true r.val { x with fetched := rest }
      let st := s.dmaCheck r.val d
      if st ≠ 0 then .next ((s.setJob r.val { desc := d, status := st }).dmaEnd r.val)
      else if dmaLen d = 0 then .next ((s.setJob r.val { desc := d }).dmaEnd r.val)
      else
        let j : DmaJob := { desc := d, live := true }
        .next ((s.setJob r.val j).dmaPump r.val j.fuel)

/-- DMA_TRANSFER_COMPLETE (R415): the transfer under way has moved every byte or met a fault, and everything issued has
been acknowledged; else it is moved on as far as it goes. -/
def execDmaTransferComplete (r : Fin 64) (s : State) : Ans := live s <|
  let j := s.job r.val
  if !j.live then .next s
  else if j.slot.isNone && !s.mirrorsFor (.dma r.val) && (j.status != 0 || j.pos == dmaLen j.desc) then
    .next (s.dmaEnd r.val)
  else .next (s.dmaPump r.val j.fuel)

/-- Jobs that wait for a held page are moved on. -/
def State.dmaWake (s : State) : State :=
  (s.common.jobs.filter (fun j => j.2.held.isSome)).foldl (fun s j => s.dmaPump j.1 j.2.fuel) s

/-- DMA_RING_CMD (R422): 1 restarts a stopped ring, 2 disables a ring and discards its unfetched descriptors. -/
def State.dmaCmd (s : State) (r cmd : Nat) : State × Nat :=
  let x := s.ring true r
  if cmd = 1 then
    if x.stopped then (s.setRing true r { x with stopped := false }, 0) else (s, 0x0A)
  else if cmd = 2 then
    (s.setRing true r { x with sqCfg := clearBit x.sqCfg 5, sqHead := x.sqTail, stopped := false }, 0)
  else (s, 0x0A)

/-- DMA_RING_RESTART (R422). -/
def execDmaRingRestart (who : Path) (r : Fin 64) (s : State) : Ans :=
  .next (s.access who O.DMA_RING_CMD (fun s => s.dmaCmd r.val 1))

/-- DMA_RING_DISABLE (R422). -/
def execDmaRingDisable (who : Path) (r : Fin 64) (s : State) : Ans :=
  .next (s.access who O.DMA_RING_CMD (fun s => s.dmaCmd r.val 2))

/-! ### The requester (R410, R411) -/

/-- A response reaches the requester slot of a DMA job (R413, R416). -/
def State.slotAnswered (s : State) (k status : Nat) (poison mlost : Bool) (data : List Byte) (off : Nat) : State :=
  let x := TMap.get ({} : Slot) s.common.slots k
  let s := s.slotFreed k
  match x.holder with
  | none => s
  | some r =>
    let j := s.job r
    if j.gone then s.setJob r {} else
    let s := s.setJob r { j with slot := none, mlost := j.mlost || mlost }
    let j := s.job r
    let reading := j.buf.isNone
    let a := (if reading then dmaSrc j.desc else dmaDst j.desc) + j.pos
    if status ≠ 0 ∧ status ≠ 3 then s.dmaFault r status (a / 2 ^ 43 * 2 ^ 43 + off % 2 ^ 43)
    else
      let bad := poison || status == 3
      let s := if reading then
          s.setJob r { j with buf := some (data.map (fun b => (b, bad))), poison := j.poison || bad, retried := false }
        else (s.setJob r { j with poison := j.poison || bad }).dmaWrote r ((j.buf.getD []).length)
      s.dmaPump r j.fuel

/-- COMMON_RESPONSE_RECEIVE (R401, R410): a response arrives at a paddock's sink. -/
def execCommonResponseReceive (paddock : Fin 16) (bytes : List Byte) (s : State) : Ans := live s <|
  let op := hOp (beAt bytes 0 32)
  let r := beAt bytes 32 32
  let id := bits r 224 32
  let k := 1024 * paddock.val + id % 1024
  let x := TMap.get ({} : Slot) s.common.slots k
  if 0x24 ≤ op ∧ op ≤ 0x2E then .next (s.count O.COMMON_STAT 11 1)
  else if x.holder.isSome ∧ x.uses = id / 1024 then
    .next (s.slotAnswered k (bits r 216 8) (r.testBit 199) (r.testBit 198) (bytes.drop 64) (bits r 96 48))
  else .next (s.count O.COMMON_STAT 9 1)

/-- A slot's request ends without a response (R411, R416): a DMA request is sent once more, then its job faults. -/
def State.slotTimeout (s : State) (k : Nat) : State :=
  let x := TMap.get ({} : Slot) s.common.slots k
  match x.holder with
  | none => s
  | some r =>
    let s := (s.slotFreed k).raise O.COMMON_ERR 5 8
    let j := s.job r
    if j.gone then s.setJob r {}
    else if j.retried then
      let s := s.setJob r { j with slot := none }
      s.dmaFault r 8 ((if j.buf.isNone then dmaSrc j.desc else dmaDst j.desc) + j.pos)
    else (s.setJob r { j with slot := none, retried := true }).dmaPump r j.fuel

/-- COMMON_REQUEST_TIMEOUT (R411): slot `slot` of a paddock has had no response within COMMON_REQ_TO_US. -/
def execCommonRequestTimeout (paddock : Fin 16) (slot : Fin 1024) (s : State) : Ans := live s <|
  let k := 1024 * paddock.val + slot.val
  let x := TMap.get ({} : Slot) s.common.slots k
  if x.holder.isSome then .next ((s.advanceTo x.deadline).slotTimeout k) else .next s

/-- Every outstanding request to device `dev` ends at once with 0x04 (R411). -/
def State.requestsFail (s : State) (dev : Nat) : State :=
  (s.common.slots.filter (fun x => x.2.holder.isSome && x.2.dev == dev)).foldl
    (fun s x => s.slotAnswered x.1 4 false false [] 0) s

/-! ### Holds, invalidation and resync (R398, R400, R408) -/

/-- COMMON_HOLD_EXPIRE (R400): a waiter has waited COMMON_HOLD_US for a held page. -/
def execCommonHoldExpire (w : HoldWaiter) (s : State) : Ans := live s <|
  let span := 1000 * s.ob O.COMMON_HOLD_US
  match w with
  | .request id =>
    let q := s.creq id
    if q.stage = .held then
      let s := (s.advanceTo (q.since.getD s.now + span)).count O.COMMON_STAT 5 1
      .next ((s.answer q 1 0 0 (s.heldAt q) [] false false).dropCreq id).wakeReqs
    else .next s
  | .dma r => match (s.job r.val).held with
    | some t =>
      let j := s.job r.val
      .next ((s.advanceTo (t + span)).dmaFault r.val 1 ((if j.buf.isNone then dmaSrc j.desc else dmaDst j.desc) + j.pos))
    | none => .next s

/-- The invalidation of a 24-byte command (R398). -/
def parseInval (l : List Byte) : Inval :=
  let lo := leAt l 8 8 / 2 ^ 21 * 2 ^ 21
  let n := leAt l 16 8
  { pasture := leAt l 0 2 % 4096, all := (leAt l 2 1).testBit 0, mirror := (leAt l 2 1).testBit 1, lo := lo
    hi := if n = 0 then 2 ^ 43 else leAt l 8 8 + (n + 2 ^ 21 - 1) / 2 ^ 21 * 2 ^ 21 }

/-- Queue an invalidation: the units drop the entries at once; what was translated through them must still finish. -/
def State.inval (s : State) (l : List Byte) : State × Nat :=
  if l.length ≠ 24 ∨ 16 ≤ s.common.invals.length then (s, 0x0A)
  else
    let v := parseInval l
    let mine := s.common.reqs.filter (fun x => (x.2.stage.inFlight || x.2.stage == .blocked) &&
      x.2.parts.any (fun y => s.invalHits v x.2.mirror x.2.pasture y.1))
    let mirrs := s.common.mirrors.filter (fun m => s.invalHits v false m.2.pasture m.2.offset)
    let v := { v with reqs := mine.map (·.1), mirrs := mirrs.map (·.1), beat := s.drove.beatAt, at_ := s.now }
    let s := s.tlbDrop v
    (({ s with common := { s.common with invals := s.common.invals ++ [v] } }).setOb O.COMMON_INVAL_STATUS 0xFF, 0)

/-- COMMON_INVAL (R398). -/
def execCommonInval (who : Path) (data : List Byte) (s : State) : Ans :=
  .next (s.access who O.COMMON_INVAL (fun s => s.inval data))

/-- Whether the Drove's accesses of the beat that ran when an invalidation was written have ended: its beat, and the
write-out of what that beat or an earlier one committed to a page it covers (R299). -/
def State.invalBeat (s : State) (v : Inval) : Bool :=
  let runs := match s.drove.holder with
    | .op c => s.drove.beatAt == v.beat &&
      (TMap.get ({} : OpCtx) s.drove.ctxs c).ops.any (fun o => !o.gone && (v.all || o.pasture == v.pasture))
    | _ => false
  let waits := s.drove.halves.any (fun h => h.2.any (fun w =>
    match w.common with | some (p, off) => s.invalHits v false p off | none => false))
  v.mirror || decide (v.beat + 2 ≤ s.drove.beatAt) || (!runs && !waits)

/-- Whether everything an invalidation waits for has ended. -/
def State.invalReady (s : State) (v : Inval) : Bool :=
  !v.reqs.any (fun id => TMap.has s.common.reqs id) && !v.mirrs.any (fun id => TMap.has s.common.mirrors id) && s.invalBeat v

/-- COMMON_INVAL_COMPLETE (R398, R400): the oldest invalidation completes once what it waits for has ended; held
requests it covers are checked again. One still pending 100 µs after its write sets the invalidation timeout (R419, R421;
log entry 145). -/
def execCommonInvalComplete (s : State) : Ans := live s <|
  match s.common.invals with
  | [] => .next s
  | v :: rest =>
    let s := if s.now ≤ v.at_ + 100000 then s else s.raise O.COMMON_ERR 8
    if !s.invalReady v then .next s
    else
      let s := { s with common := { s.common with invals := rest } }
      let s := if rest.isEmpty then s.setOb O.COMMON_INVAL_STATUS 0 else s
      .next (s.recheckHeld (fun mirror p off => s.invalHits v mirror p off)).dmaWake

/-- Whether a valid leaf is present: its kind is not 0b11, and its frame is aligned to its size (R393, R394). -/
def leafPresent (e : Nat) (giant : Bool) : Bool :=
  pteValid e && pteLeaf e && pteKind e != 3 && pteFrame e % (if giant then 2 ^ 30 else 2 ^ 21) == 0

/-- Pages of a pasture's own or mirror table, as (offset, entry, whether 1 GiB). -/
def State.leaves (s : State) (mirror : Bool) (pasture : Nat) : List (Nat × Nat × Bool) :=
  let root := s.row (if mirror then O.COMMON_MIRROR_ROOT else O.COMMON_ROOT) pasture
  if !root.testBit 0 then []
  else (List.range 8192).flatMap (fun i =>
    match s.readPte (bits root 16 25 * 65536 + 8 * i) with
    | .error _ => []
    | .ok e1 =>
      if !pteValid e1 then []
      else if pteLeaf e1 then if leafPresent e1 true then [(i * 2 ^ 30, e1, true)] else []
      else (List.range 512).flatMap (fun k => match s.readPte (pteFrame e1 + 8 * k) with
        | .error _ => []
        | .ok e2 => if leafPresent e2 false then [(i * 2 ^ 30 + k * 2 ^ 21, e2, false)] else []))

/-- A notice names the buddy (R407, R466): what waits for it fails, and every mirrored page, whose copy is gone, is marked
(log entry 146). -/
def State.buddyLost (s : State) : State :=
  (s.rowsOf O.COMMON_ROOT).foldl (fun s r => (s.leaves false r.1).foldl (fun s x =>
    if pteKind x.2.1 = 2 ∧ !pteLost x.2.1 then s.mirrorLost r.1 x.1 else s) s) s.mirrorsFail

/-- Begin a resync of pasture `p` (R408). -/
def State.resync (s : State) (p : Nat) : State :=
  let pages := ((s.leaves false p).filter (fun x => pteLost x.2.1)).map (·.1)
  let busy := !s.common.resync.isEmpty
  let s := { s with common := { s.common with resync := s.common.resync ++ [(p, pages)] } }
  let s := s.setOb O.COMMON_RESYNC_STATUS 0xFF
  if busy then s else s.resyncPump

/-- A write of COMMON_RESYNC: busy while another runs (R499). -/
def State.resyncCmd (s : State) (p : Nat) : State × Nat := if s.common.resync.isEmpty then (s.resync p, 0) else (s, 0x0D)

/-- COMMON_RESYNC (R408). -/
def execCommonResync (who : Path) (pasture : Fin 4096) (s : State) : Ans :=
  .next (s.access who O.COMMON_RESYNC (fun s => s.resyncCmd pasture.val))

/-! ### Fault and lost records (R417, R418, R423, R467) -/

/-- COMMON_FAULT_HI as it reads: the head record and how many stand behind it. -/
def State.faultHi (s : State) : Nat :=
  match s.common.faults with
  | [] => 0
  | f :: rest => f.2 + (min 1023 rest.length) <<< 20

/-- COMMON_FAULT_POP (R423): a read of COMMON_FAULT_HI returns and removes the head record. -/
def execCommonFaultPop (s : State) : Ans := readable s <|
  let v := s.faultHi
  .next (({ s with common := { s.common with faults := s.common.faults.tail } }).emit (.value v))

/-- Write one lost record (R418) into the lost ring; its wraps are counted. -/
def State.lostRecord (s : State) (rec : Nat) : State :=
  let size := s.ob O.COMMON_LOST_SIZE
  if size = 0 then s
  else
    let h := s.ob O.COMMON_LOST_HEAD
    let s := if h % size + 1 = size then { s with common := { s.common with lostWraps := s.common.lostWraps + 1 } } else s
    (s.hbmWrite (s.ob O.COMMON_LOST_BASE + 16 * (h % size)) (leBytes 16 rec)).setOb O.COMMON_LOST_HEAD ((h % size + 1) % size)

/-- A lost record. -/
def lostOf (pasture dev off entry : Nat) (giant mirror : Bool) (stack : Nat) : Nat :=
  (pasture <<< 52 + dev <<< 43 + off) + b2n giant <<< 64 + pteKind entry <<< 65 + b2n mirror <<< 67 +
  b2n (pteLost entry) <<< 68 + stack <<< 69

/-- The walk after a fence of stack `st`, or, for 16, after a notice for the mirror origin. -/
def State.lostWalk (s : State) (st : Nat) : State :=
  (List.range 4096).foldl (fun s p =>
    let go := fun (s : State) (mirror : Bool) => (s.leaves mirror p).foldl (fun s x =>
      if st = 16 then s.lostRecord (lostOf p (s.ob O.COMMON_MIRROR_OF) x.1 x.2.1 x.2.2 true 0)
      else if hpaStack (pteFrame x.2.1) = st then s.lostRecord (lostOf p s.own x.1 x.2.1 x.2.2 mirror st)
      else s) s
    if st = 16 then go s true else go (go s false) true) s

/-- LOST_WALK (R418, R467): the walk that a stack fence or a mirror-origin notice has called for. -/
def execLostWalk (s : State) : Ans := live s <|
  match s.common.lost with
  | [] => .next s
  | st :: rest =>
    let s := { s with common := { s.common with lost := rest, walked := s.common.walked ++ [st] } }
    .next (s.lostWalk st)

/-- LOST_WALK_DONE (R418): the walk ends, COMMON_LOST_DONE counts up and the event of kind 0x0B is raised. -/
def execLostWalkDone (s : State) : Ans := live s <|
  match s.common.walked with
  | [] => .next s
  | st :: rest =>
    let n := (s.ob O.COMMON_LOST_DONE + 1) % 2 ^ 32
    let s := { s with common := { s.common with walked := rest } }
    .next ((s.setOb O.COMMON_LOST_DONE n).event [0] 0x0B st n)

end Sys2Proof.Machine
end

