-- ==== Sys2Proof/Machine/DroveOps.lean ====
section
/-!
DEFINITION. What the Drove's operations compute (R324 to R333, R625): one beat of an operation takes it from the units
done to a later prefix (R339), reading its operands through the state and answering the writes it commits.
-/

namespace Sys2Proof.Machine

/-- Why a beat cannot commit what it set out to do. -/
inductive Stop where
  | fault (f : AFault)        -- an operand cannot be reached (R346)
  | bounds (pos : Nat)        -- an index is out of bounds (R346)
  | poison (pos : Nat)        -- a poisoned word that steers the operation (R625)
  | stall                     -- a unit read waits for a write-out (R340)
  deriving DecidableEq, Repr

/-- What a beat reads through: the state, units read in error in this beat, and the committed writes not yet written
out, if reads wait for them. -/
structure Reader where
  s    : State
  ue   : List Nat
  late : List OutWrite

/-- Whether a piece touches a 64-byte unit that waits for its write-out (R340). -/
def pieceLate (late : List OutWrite) (p : Piece) : Bool :=
  late.any (fun w => decide (w.hpa / 64 * 64 < p.hpa + p.len ∧ p.hpa / 64 * 64 < w.hpa + w.bytes.length))

/-- The pieces of `n` bytes at address `a` of an operand space (R322). -/
def State.opPieces (s : State) (pasture space a n right : Nat) : Except AFault (List Piece) :=
  if space = 0 then s.findHpa a n else s.findAddr pasture a n right

/-- Read `n` bytes at address `a` of an operand in memory or in a request's payload (R344). A payload that is too short
holds no such bytes: they are not present (log entry 32). -/
def Reader.bytes (r : Reader) (op : Op) (space a n right : Nat) : Except Stop PBytes :=
  if space = 3 then
    if a + n ≤ op.payload.length then .ok ((op.payload.drop a).take n) else .error (.fault ⟨1, 1, a⟩)
  else match r.s.opPieces op.pasture space a n right with
    | .error f => .error (.fault f)
    | .ok l =>
      if l.any (pieceLate r.late) then .error .stall
      else .ok (l.flatMap (fun p => r.s.hbmReadP r.ue p.hpa p.len))

/-- A write that a beat commits: the operand space and address, and the bytes. -/
structure BeatWrite where
  space : Nat
  addr  : Nat
  bytes : PBytes
  right : Nat
  deriving DecidableEq, Repr

/-- What a beat gives: the operation as it stands after it, and its writes in order. -/
structure Beat where
  op     : Op
  writes : List BeatWrite := []
  deriving DecidableEq, Repr

/-- Fold over a list that may stop. -/
def foldE {α β : Type} (f : β → α → Except Stop β) : β → List α → Except Stop β
  | b, [] => .ok b
  | b, x :: l => match f b x with
    | .ok b => foldE f b l
    | .error e => .error e

/-- Map over a list that may stop. -/
def mapE {α β : Type} (f : α → Except Stop β) : List α → Except Stop (List β)
  | [] => .ok []
  | x :: l => match f x with
    | .ok y => match mapE f l with
      | .ok ys => .ok (y :: ys)
      | .error e => .error e
    | .error e => .error e

/-! ### Operands and outputs -/

/-- Elements [from, to) of an array at address `a` of a slot's space, as accumulators; `right` as in checkLeaf. -/
def Reader.elems (r : Reader) (op : Op) (space f : Nat) (sc : Int) (a lo hi right : Nat) : Except Stop (List Acc) :=
  let first := if fmtBlocked f then lo / 32 * 32 else lo
  match r.bytes op space (a + fmtOff f first) (fmtBytes f (hi - first)) right with
  | .error e => .error e
  | .ok l => .ok ((List.range (hi - lo)).map (fun i => accAt f sc l 0 (lo - first + i)))

/-- Elements [lo, hi) of input `j` of a Drover list (R364). Elements a list does not hold are no terms (R356). -/
def feedElems (op : Op) (j lo hi : Nat) : List Acc :=
  (List.range (hi - lo)).map (fun i => (op.feeds.getD j []).getD (lo + i) Acc.zero)

/-- Put bytes into an output: into memory, or into the inline return or chunk at an offset. -/
def Beat.put (b : Beat) (space a off right : Nat) (l : PBytes) : Beat :=
  if space = 2 ∨ space = 3 then
    let need := off + l.length
    let base := b.op.inline ++ List.replicate (need - b.op.inline.length) (0, false)
    { b with op := { b.op with inline := base.take off ++ l ++ base.drop need } }
  else { b with writes := b.writes ++ [⟨space, a + off, l, right⟩] }

/-- Write accumulators as elements `lo`, `lo + 1`, … of operand D, with flags, spill list and status (R285 to R289,
R332, R333). `idx` is the element number of the first in the spill list. -/
def Beat.out (b : Beat) (lo : Nat) (l : List Acc) (right : Nat := 1) : Beat :=
  let d := b.op.desc
  let D := dSlot d 3
  let room := if oSpace D = 2 then 256 - b.op.spillOut.length else dSpillCap d - b.op.spills  -- R364, R333
  let e := encode (oFormat D) (oScale D) (dRmode d) lo room l
  let spilt := l.filter (fun x => decide (x.kind = .poison))
  let op := { b.op with
    flags := b.op.flags ||| e.flags
    poisoned := b.op.poisoned || !spilt.isEmpty
    truncated := b.op.truncated || e.noRoom || e.flags.testBit 7
    opflags := if e.noRoom then setBit b.op.opflags 1 else b.op.opflags }
  let b := ({ b with op := op } : Beat).put (oSpace D) (oAddr D) (fmtOff (oFormat D) lo) right e.bytes
  if oSpace D = 2 then { b with op := { b.op with spillOut := b.op.spillOut ++ e.spill } }
  else
    let recs := e.spill.flatMap (fun x => pclean (leBytes 8 x.1 ++ x.2.wide ++ List.replicate 8 0))
    let b := if recs.isEmpty then b else b.put (oSpace D) (dSpillAddr d) (64 * b.op.spills) 1 recs
    let n := b.op.spills + e.spill.length
    -- the spill list's count takes the place of the opcode's own aux (R333)
    { b with op := { b.op with spills := n, aux := if n = 0 then b.op.aux else n } }

/-- Set flags for copied bytes: poison that a copy carries (R332). -/
def Beat.copied (b : Beat) (l : PBytes) : Beat :=
  if l.any (·.2) then { b with op := { b.op with flags := b.op.flags ||| fPoison, poisoned := true } } else b

/-- Whether an add's target is rounded (R325, R327). -/
def Beat.roundedTarget (b : Beat) : Beat :=
  if oFormat (dSlot b.op.desc 3) = fmtWide then b else { b with op := { b.op with opflags := setBit b.op.opflags 5 } }

/-! ### REDUCE and WREDUCE (R324) -/

/-- Elements [lo, hi) of input `j` of a REDUCE operand. -/
def Reader.input (r : Reader) (op : Op) (slot j lo hi : Nat) : Except Stop (List Acc) :=
  let o := dSlot op.desc slot
  if oSpace o = 2 then .ok (feedElems op j lo hi)
  else r.elems op (oSpace o) (oFormat o) (oScale o) (oAddr o + j * dP1 op.desc) lo hi 0

/-- The sums of a REDUCE over elements [lo, hi). -/
def Reader.reduce (r : Reader) (op : Op) (lo hi : Nat) : Except Stop (List Acc) :=
  foldE (fun (sums : List Acc) j => match r.input op 0 j lo hi with
    | .ok l => .ok ((sums.zip l).map (fun x => x.1.add x.2))
    | .error e => .error e) (List.replicate (hi - lo) Acc.zero) (List.range (dK op.desc))

/-- Elements [lo, hi) of input `j` of an operand of WREDUCE, as multiplicands. -/
def Reader.factors (r : Reader) (op : Op) (slot j lo hi : Nat) : Except Stop (List Elem) :=
  let o := dSlot op.desc slot
  let f := oFormat o
  let first := if fmtBlocked f then lo / 32 * 32 else lo
  let take := fun (l : PBytes) => (List.range (hi - lo)).map (fun i => elemAt f (oScale o) l 0 (lo - first + i))
  match r.bytes op (oSpace o) (oAddr o + j * dP1 op.desc + fmtOff f first) (fmtBytes f (hi - first)) 0 with
    | .ok l => .ok (take l)
    | .error e => .error e

/-- An exact weighted sum over elements [lo, hi) (R284). -/
def Reader.wreduce (r : Reader) (op : Op) (lo hi : Nat) : Except Stop (List Acc) :=
  foldE (fun (sums : List Acc) j => match r.factors op 0 j lo hi with
    | .ok a => match r.factors op 1 j lo hi with
      | .ok b => .ok ((sums.zip (a.zip b)).map (fun x => x.1.add (x.2.1.prod x.2.2)))
      | .error e => .error e
    | .error e => .error e) (List.replicate (hi - lo) Acc.zero) (List.range (dK op.desc))

/-- FP32. -/
def fp32 : FloatFmt := ⟨8, 23, 127, 1⟩

/-- One fused multiply-add acc + x × y: the exact value rounded once to FP32 with ties to even, specials and signed zeros
as IEEE 754-2019 has them (R290). -/
def fma (acc x y : Elem) : Elem :=
  let neg := xor x.neg y.neg
  let zero := fun (e : Elem) => decide (e.kind = .fin ∧ e.mag = 0)
  let infProd := decide (x.kind = .inf ∨ y.kind = .inf)
  if acc.kind = .poison ∨ x.kind = .poison ∨ y.kind = .poison then { kind := .poison }
  else if acc.kind = .nan ∨ x.kind = .nan ∨ y.kind = .nan ∨ (infProd && (zero x || zero y)) then { kind := .nan }
  else if infProd then (if acc.kind = .inf ∧ acc.neg ≠ neg then { kind := .nan } else { neg := neg, kind := .inf })
  else if acc.kind = .inf then acc
  else
    let p : Nat := x.mag * y.mag
    let a : Nat := acc.mag * 2 ^ 151
    let sum : Int := (if acc.neg then -(a : Int) else (a : Int)) + (if neg then -(p : Int) else (p : Int))
    if sum = 0 then { neg := acc.neg && neg && decide (a = 0 ∧ p = 0) }
    else
      let sg := decide (sum < 0)
      let r := encodeMag fp32 0 sg sum.natAbs (-302)
      if r.2.2 then { neg := sg, kind := .inf } else { decodeFloat fp32 r.1 0 with neg := sg }

/-- An FP32 addition, rounded the same way (R290): a fused multiply-add by one. -/
def fadd (x y : Elem) : Elem := fma x y { mag := 2 ^ 151 }

/-- The result of an order-dependent sum (R290): terms `l` are taken in an order, and into partial sums `ps` that each
start from +0, as the choices `pick` have it; then partial sums are added two at a time. -/
def ordSum (pick : Nat → Nat) : Nat → List (Elem × Elem) → List Elem → Elem
  | 0, _, ps => ps.getD 0 {}
  | fuel + 1, [], ps =>
    match ps with
    | [] => {}
    | [x] => x
    | _ =>
      let i := pick (2 * fuel) % ps.length
      let rest := ps.eraseIdx i
      let j := pick (2 * fuel + 1) % rest.length
      ordSum pick fuel [] (rest.set j (fadd (rest.getD j {}) (ps.getD i {})))
  | fuel + 1, t :: l, ps =>
    let i := pick (2 * fuel) % (l.length + 1)
    let x := (t :: l).getD i t
    let j := pick (2 * fuel + 1) % (ps.length + 1)
    ordSum pick fuel ((t :: l).eraseIdx i) (if j = ps.length then ps ++ [fma {} x.1 x.2] else ps.modify j (fun p => fma p x.1 x.2))

/-- An output of an order-dependent mode (R290). Nothing fixes the order of its terms or their split into partial sums:
the choices are free values (log entry 7), and the result is the one that this order and split give. -/
def ordOut (draw i : Nat) (l : List (Elem × Elem)) : Acc :=
  if l.isEmpty then Acc.zero
  else
    let a := (ordSum (Config.freeOrder draw i) (2 * l.length) l []).term
    { a with range := a.range || l.any (fun x => x.1.range || x.2.range) }

/-- Whether a WREDUCE runs in an order-dependent mode: integer operands accumulate exactly (R290). -/
def ordRuns (d : Nat) : Bool :=
  let ints := fun f => f == 0x0A || f == 0x0B || f == 0x0C
  dOpcode d == 2 && dOrd d && !(ints (oFormat (dSlot d 0)) && ints (oFormat (dSlot d 1)))

/-- The outputs of an order-dependent WREDUCE over elements [lo, hi). -/
def Reader.ordReduce (r : Reader) (op : Op) (lo hi : Nat) : Except Stop (List Acc) :=
  let cols := foldE (fun (c : List (List (Elem × Elem))) j => match r.factors op 0 j lo hi with
    | .ok a => match r.factors op 1 j lo hi with
      | .ok b => .ok ((c.zip (a.zip b)).map (fun x => x.1 ++ [x.2]))
      | .error e => .error e
    | .error e => .error e) (List.replicate (hi - lo) []) (List.range (dK op.desc))
  match cols with
  | .ok c => .ok (c.zipIdx.map (fun x => ordOut r.s.free (lo + x.2) x.1))
  | .error e => .error e

/-! ### Adds, CAS, moves (R325, R326, R331) -/

/-- EXACT_ADD and FETCH_ADD over elements [lo, hi) (R325). -/
def Reader.exactAdd (r : Reader) (op : Op) (lo hi : Nat) : Except Stop Beat :=
  let d := op.desc
  let A := dSlot d 0
  let D := dSlot d 3
  let f := oFormat D
  let first := if fmtBlocked f then lo / 32 * 32 else lo
  match r.elems op (oSpace A) (oFormat A) (oScale A) (oAddr A) lo hi 0 with
  | .error e => .error e
  | .ok a => match r.bytes op (oSpace D) (oAddr D + fmtOff f first) (fmtBytes f (hi - first)) 2 with
    | .error e => .error e
    | .ok old =>
      let ds := (List.range (hi - lo)).map (fun i => accAt f (oScale D) old 0 (lo - first + i))
      let b := ({ op := op } : Beat).out lo ((ds.zip a).map (fun x => x.1.add x.2)) 2
      let b := b.roundedTarget
      if dOpcode d = 4 then .ok ((b.copied old).put (oSpace (dSlot d 2)) (oAddr (dSlot d 2)) (fmtOff f lo) 1 old)
      else .ok b

/-- CAS over words [lo, hi) (R325). A translation unit's CAS has its pairs of words in the payload (R401). -/
def Reader.cas (r : Reader) (op : Op) (lo hi : Nat) : Except Stop Beat :=
  let d := op.desc
  let A := dSlot d 0
  let B := dSlot d 1
  let C := dSlot d 2
  let D := dSlot d 3
  let n := hi - lo
  let pairs := op.source == 0xFD
  match r.bytes op (oSpace D) (oAddr D + 8 * lo) (8 * n) 2 with
  | .error e => .error e
  | .ok old =>
    match (if pairs then r.bytes op 3 (16 * lo) (16 * n) 0 else r.bytes op (oSpace A) (oAddr A + 8 * lo) (8 * n) 0) with
    | .error e => .error e
    | .ok a => match (if pairs then .ok a else r.bytes op (oSpace B) (oAddr B + 8 * lo) (8 * n) 0) with
      | .error e => .error e
      | .ok bs =>
        let word := fun (l : PBytes) i => (l.drop (8 * i)).take 8
        let res := (List.range n).map (fun i =>
          let o := word old i
          let e := if pairs then word bs (2 * i) else word bs i
          let v := if pairs then word a (2 * i + 1) else word a i
          let bad := o.any (·.2) || e.any (·.2)
          let hit := !bad && o.map (·.1) == e.map (·.1)
          (if hit then v else o, hit, bad || (hit && v.any (·.2))))
        let hits := (res.zipIdx.filter (fun x => x.1.2.1))
        let b := ({ op := op } : Beat)
        let b := hits.foldl (fun (b : Beat) x => b.put (oSpace D) (oAddr D) (8 * (lo + x.2)) 2 x.1.1) b
        let b := b.put (oSpace C) (oAddr C) (8 * lo) 1 old
        let bad := res.any (fun x => x.2.2)
        .ok { b with op := { b.op with aux := b.op.aux + hits.length, flags := b.op.flags ||| (if bad then fPoison else 0)
                                       poisoned := b.op.poisoned || bad } }

/-- COPY of bytes [lo, hi) (R331). -/
def Reader.copyBytes (r : Reader) (op : Op) (lo hi : Nat) : Except Stop Beat :=
  let A := dSlot op.desc 0
  let D := dSlot op.desc 3
  match r.bytes op (oSpace A) (oAddr A + lo) (hi - lo) 0 with
  | .error e => .error e
  | .ok l => .ok ((({ op := op } : Beat).copied l).put (oSpace D) (oAddr D) lo 1 l)

/-- A little-endian index of `w` bytes at entry `i` of an operand: its value and whether it is poisoned. -/
def Reader.index (r : Reader) (op : Op) (slot i w : Nat) : Except Stop (Nat × Bool) :=
  let o := dSlot op.desc slot
  match r.bytes op (oSpace o) (oAddr o + i * w) w 0 with
  | .error e => .error e
  | .ok l => .ok (l.num 0 w, l.bad 0 w)

/-- GATHER of a translation unit: entry `i` of the payload is an offset of an element of d bytes (R402). -/
def Reader.gatherCommon (r : Reader) (op : Op) (lo hi : Nat) : Except Stop Beat :=
  let size := dRow op.desc
  foldE (fun (b : Beat) i => match r.bytes op 3 (8 * i) 8 0 with
    | .error e => .error e
    | .ok x => match r.bytes op 1 (r.s.commonAddr op.pasture (x.num 0 8)) size 0 with
      | .error (.fault f) => .error (.fault { f with off := i })
      | .error e => .error e
      | .ok l => .ok ((b.copied l).put 3 0 (size * i) 1 l)) { op := op } ((List.range (hi - lo)).map (· + lo))

/-- GATHER over index entries [lo, hi) (R326, R625). A poisoned element of a bitwise copy is stored as R332 has it. -/
def Reader.gather (r : Reader) (op : Op) (lo hi : Nat) : Except Stop Beat :=
  let d := op.desc
  let A := dSlot d 0
  let D := dSlot d 3
  let f := oFormat A
  let same := f == oFormat D && !fmtMx f
  let entry := fun i => match r.index op 1 i 4 with
    | .error e => .error e
    | .ok (x, bad) =>
      if bad then .ok (([], { poison := true, terms := 1 }) : PBytes × Acc)
      else if oCount A ≤ x then .error (.bounds i)
      else if same then
        match r.bytes op (oSpace A) (oAddr A + fmtOff f x) (fmtBytes f 1) 0 with
        | .error e => .error e
        | .ok l => if l.any (·.2) then .ok ([], accAt f 0 l 0 0) else .ok (l, Acc.zero)
      else match r.elems op (oSpace A) f (oScale A) (oAddr A) x (x + 1) 0 with
        | .error e => .error e
        | .ok l => .ok ([], l.getD 0 Acc.zero)
  match mapE entry ((List.range (hi - lo)).map (· + lo)) with
  | .error e => .error e
  | .ok l =>
    if same then
      .ok (l.zipIdx.foldl (fun (b : Beat) x =>
        if x.1.1.isEmpty then b.out (lo + x.2) [x.1.2]
        else b.put (oSpace D) (oAddr D) (fmtOff f (lo + x.2)) 1 x.1.1) { op := op })
    else .ok (({ op := op } : Beat).out lo (l.map (·.2)))

/-- CONVERT of elements [lo, hi) (R331). -/
def Reader.convert (r : Reader) (op : Op) (lo hi : Nat) : Except Stop Beat :=
  let A := dSlot op.desc 0
  match r.elems op (oSpace A) (oFormat A) (oScale A) (oAddr A) lo hi 0 with
  | .error e => .error e
  | .ok l => .ok (({ op := op } : Beat).out lo l)

/-! ### GATHER_REDUCE, SCATTER_ADD, HISTOGRAM (R326 to R328) -/

/-- A list that poisons every element of a row. -/
def poisonRow (n : Nat) : List Acc := List.replicate n { poison := true, terms := 1 }

/-- A row of A times its weight, as terms (R284, R326). -/
def Reader.weighted (r : Reader) (op : Op) (row d : Nat) (w : Option (Elem)) : Except Stop (List Acc) :=
  let A := dSlot op.desc 0
  let f := oFormat A
  match w with
  | none => r.elems op (oSpace A) f (oScale A) (oAddr A + fmtBytes f d * row) 0 d 0
  | some w =>
    if f = fmtWide ∨ f = fmtXp64 then
      match r.elems op (oSpace A) f (oScale A) (oAddr A + fmtBytes f d * row) 0 d 0 with
      | .error e => .error e
      | .ok l => .ok (l.map (fun x =>
          let v := x.value
          ({ neg := if x.kind = .inf then x.ninf else v.1 || (v.2 == 0 && x.negzero && x.terms != 0), mag := v.2, kind := x.kind }
            : Elem).prod w))
    else match r.bytes op (oSpace A) (oAddr A + fmtBytes f d * row) (fmtBytes f d) 0 with
      | .error e => .error e
      | .ok l => .ok ((List.range d).map (fun i => (elemAt f (oScale A) l 0 i).prod w))

/-- The sum of one bag, index entries [c, e) (R326, R625), and the entries it consumed. -/
def Reader.bag (r : Reader) (op : Op) (c e d : Nat) : Except Stop (List Acc) :=
  let weighted := (dP0 op.desc).testBit 32
  let w := if weighted then 8 else 4
  foldE (fun (sums : List Acc) j =>
    if oCount (dSlot op.desc 1) ≤ j then .error (.bounds (oCount (dSlot op.desc 1)))
    else match r.bytes op (oSpace (dSlot op.desc 1)) (oAddr (dSlot op.desc 1) + j * w) w 0 with
      | .error e => .error e
      | .ok l =>
        if l.bad 0 4 then .ok (poisonRow d)
        else
          let x := l.num 0 4
          if oCount (dSlot op.desc 0) ≤ x then .error (.bounds j)
          else
            let wt : Option Elem := if weighted then
                some (if l.bad 4 4 then { kind := .poison } else decodeFloat fp32 (l.num 4 4) 0) else none
            match r.weighted op x d wt with
            | .error e => .error e
            | .ok t => .ok ((sums.zip t).map (fun y => y.1.add y.2)))
    (List.replicate d Acc.zero) ((List.range (e - c)).map (· + c))

/-- GATHER_REDUCE over bags [lo, hi) (R326). -/
def Reader.gatherReduce (r : Reader) (op : Op) (lo hi : Nat) : Except Stop Beat :=
  let desc := op.desc
  let d := dRow desc
  let m := dN desc
  foldE (fun (b : Beat) i => match r.index op 2 i 4 with
    | .error e => .error e
    | .ok (c, cbad) => match (if i + 1 < m then r.index op 2 (i + 1) 4 else .ok (oCount (dSlot desc 1), false)) with
      | .error e => .error e
      | .ok (e, ebad) =>
        if cbad || ebad then .ok (b.out (i * d) (poisonRow d))
        else match r.bag op c e d with
          | .error x => .error x
          | .ok l =>
            let b := if b.op.spills = 0 then { b with op := { b.op with aux := b.op.aux + (e - c) } } else b
            .ok (b.out (i * d) l)) { op := op } ((List.range (hi - lo)).map (· + lo))

/-- SCATTER_ADD over index entries [lo, hi) (R327): rows are summed until the last beat, which adds the target's old
rows and writes them, rounded once per operation. -/
def Reader.scatterAdd (r : Reader) (op : Op) (lo hi : Nat) : Except Stop Beat :=
  let desc := op.desc
  let A := dSlot desc 0
  let D := dSlot desc 3
  let d := dRow desc
  let common := op.source == 0xFD
  let bslot := if common then (3, 0) else (oSpace (dSlot desc 1), oAddr (dSlot desc 1))
  let step := fun (m : TMap Acc) j => match r.bytes op bslot.1 (bslot.2 + 4 * j) 4 0 with
    | .error e => .error e
    | .ok l =>
      let x := l.num 0 4
      if l.bad 0 4 then .error (.poison j)
      else if !common && decide (oCount D ≤ x) then .error (.bounds j)
      else match r.elems op (oSpace A) (oFormat A) (oScale A) (oAddr A + fmtBytes (oFormat A) d * j) 0 d 0 with
        | .error e => .error e
        | .ok t => .ok (t.zipIdx.foldl (fun m y => TMap.update Acc.zero m (x * d + y.2) (Acc.add y.1)) m)
  match foldE step op.sums ((List.range (hi - lo)).map (· + lo)) with
  | .error e => .error e
  | .ok m =>
    if hi < dN desc then .ok { op := op.sumsTo m }
    else
      let rows := (m.map (fun e => e.1 / max d 1)).eraseDups
      let write := fun (b : Beat) row => match r.elems op (oSpace D) (oFormat D) (oScale D) (oAddr D + fmtBytes (oFormat D) d * row) 0 d 2 with
        | .error e => .error e
        | .ok old => .ok ((b.out (row * d)
            (old.zipIdx.map (fun y => y.1.add (TMap.get Acc.zero m (row * d + y.2)))) 2))
      match foldE write { op := { op with acc := [] } } rows with
      | .error e => .error e
      | .ok b => .ok (if rows.isEmpty then b else b.roundedTarget)

/-- The bin of a HISTOGRAM input (R328). -/
def histBin (nb lo width : Nat) (x : Acc) : Nat :=
  let L := decodeFloat fp32 lo 0
  let W := (decodeFloat fp32 width 0).mag
  let l : Int := if L.neg then -(L.mag : Int) else L.mag
  match x.kind with
  | .poison => nb + 1
  | .nan => nb + 1
  | .inf => if x.pinf then nb + 1 else 0
  | .fin =>
    let v := sint 320 x.a
    if v < l then 0 else min (1 + ((v - l) / (W : Int)).toNat) (nb + 1)

/-- HISTOGRAM over input elements [lo, hi) (R328, R625). Counts are terms of value 1; the last beat writes the bins. -/
def Reader.histogram (r : Reader) (op : Op) (lo hi : Nat) : Except Stop Beat :=
  let d := op.desc
  let A := dSlot d 0
  let C := dSlot d 2
  let nb := bits (dP0 d) 0 16
  match r.elems op (oSpace A) (oFormat A) (oScale A) (oAddr A) lo hi 0 with
  | .error e => .error e
  | .ok xs =>
    match (if oUsed C then r.elems op (oSpace C) (oFormat C) (oScale C) (oAddr C) lo hi 0
           else .ok (List.replicate (hi - lo) ({ a := 2 ^ 151, terms := 1, negzero := false } : Acc))) with
    | .error e => .error e
    | .ok ws =>
      let m := (xs.zip ws).foldl (fun m x =>
        let w := if x.1.kind = .poison then ({ poison := true, terms := 1 } : Acc) else x.2
        let w := { w with range := w.range || (fmtMx (oFormat A) && x.1.range) }  -- R281 took the input as an infinity
        TMap.update Acc.zero m (histBin nb (bits (dP1 d) 0 32) (bits (dP1 d) 32 32) x.1) (Acc.add w)) op.sums
      if hi < dN d then .ok { op := op.sumsTo m }
      else .ok (({ op := { op with acc := [] } } : Beat).out 0
        ((List.range (nb + 2)).map (fun i => TMap.get Acc.zero m i)))

/-! ### Set operations and FRONTIER (R329, R330) -/

/-- Key `i` of operand `slot`. -/
def Reader.key (r : Reader) (op : Op) (slot i : Nat) : Except Stop Nat :=
  let w := dKey op.desc
  match r.index op slot i w with
  | .error e => .error e
  | .ok (v, bad) => if bad then .error (.poison i) else .ok v

/-- Mark an input out of order (R329). -/
def sorted1 (last : Option Nat) (x : Nat) : Bool := match last with
  | some y => decide (y ≤ x)
  | none => true

/-- Emit a key (R329): at capacity the operation ends truncated, with the cursors as they stood. -/
def Beat.emitKey (b : Beat) (x : Nat) (fwd : Op → Op) : Beat :=
  let d := b.op.desc
  let D := dSlot d 3
  if oCount D ≤ b.op.emitted then
    { b with op := { b.op with finished := true, truncated := true, opflags := setBit b.op.opflags 1 } }
  else
    let b := b.put (oSpace D) (oAddr D) (b.op.emitted * dKey d) 1 (pclean (leBytes (dKey d) x))
    { b with op := fwd { b.op with emitted := b.op.emitted + 1, last := some x } }

/-- Move a cursor past its key. -/
def Op.passA (op : Op) (x : Nat) : Op :=
  { op with i := op.i + 1, lastA := some x, opflags := if sorted1 op.lastA x then op.opflags else setBit op.opflags 0 }
def Op.passB (op : Op) (x : Nat) : Op :=
  { op with j := op.j + 1, lastB := some x, opflags := if sorted1 op.lastB x then op.opflags else setBit op.opflags 0 }

/-- One turn of the loop of INTERSECT, UNION or DEDUP. -/
def Reader.setTurn (r : Reader) (b : Beat) : Except Stop Beat :=
  let op := b.op
  let d := op.desc
  let na := oCount (dSlot d 0)
  let nb := if dOpcode d = 0x0B then 0 else oCount (dSlot d 1)
  if dOpcode d = 9 then
    if na ≤ op.i ∨ nb ≤ op.j then .ok { b with op := { op with finished := true } }
    else match r.key op 0 op.i with
      | .error e => .error e
      | .ok x => match r.key op 1 op.j with
        | .error e => .error e
        | .ok y =>
          if x < y then .ok { b with op := op.passA x }
          else if y < x then .ok { b with op := op.passB y }
          else if op.last = some x then .ok { b with op := (op.passA x).passB y }
          else .ok (b.emitKey x (fun o => (o.passA x).passB y))
  else if na ≤ op.i ∧ nb ≤ op.j then .ok { b with op := { op with finished := true } }
  else match (if op.i < na then (r.key op 0 op.i).map some else .ok none) with
    | .error e => .error e
    | .ok x => match (if op.j < nb then (r.key op 1 op.j).map some else .ok none) with
      | .error e => .error e
      | .ok y =>
        let useA := match x, y with
          | some a, some c => decide (a ≤ c)
          | some _, none => true
          | _, _ => false
        let v := if useA then x.getD 0 else y.getD 0
        let pass := fun (o : Op) => if useA then o.passA v else o.passB v
        if op.last = some v then .ok { b with op := pass op } else .ok (b.emitKey v pass)

/-- Up to `fuel` turns of a set operation. -/
def Reader.setOp (r : Reader) : Nat → Beat → Except Stop Beat
  | 0, b => .ok b
  | fuel + 1, b =>
    if b.op.finished then .ok b
    else match r.setTurn b with
      | .error e => .error e
      | .ok b => r.setOp fuel b

/-- The visited byte of vertex `u` as this beat has it: bits marked by earlier emissions of the beat count. -/
def Reader.visited (r : Reader) (op : Op) (marks : TMap Nat) (u : Nat) : Except Stop (Nat × Bool) :=
  if TMap.has marks (u / 8) then .ok (TMap.get 0 marks (u / 8), false)
  else match r.bytes op (oSpace (dSlot op.desc 3)) (dP1 op.desc + u / 8) 1 0 with
    | .error e => .error e
    | .ok l => .ok (l.num 0 1, l.bad 0 1)

/-- Examine neighbour entry `k` for frontier entry `e`; the marks are bytes of the bitmap written by the beat. -/
def Reader.neighbour (r : Reader) (e k : Nat) (bm : Beat × TMap Nat) : Except Stop (Beat × TMap Nat) :=
  let op := bm.1.op
  let d := op.desc
  if op.finished then .ok bm
  else if oCount (dSlot d 2) ≤ k then .error (.bounds k)
  else match r.index op 2 k 4 with
    | .error x => .error x
    | .ok (u, bad) =>
      if bad then .error (.poison k)
      else if bits (dP0 d) 0 32 ≤ u then .error (.bounds k)
      else match r.visited op bm.2 u with
        | .error x => .error x
        | .ok (v, vbad) =>
          if vbad then .error (.poison k)
          else if v.testBit (u % 8) then .ok bm
          else if oCount (dSlot d 3) ≤ op.emitted then
            .ok ({ bm.1 with op := { op with finished := true, truncated := true, done := e, opflags := setBit op.opflags 1 } }, bm.2)
          else
            let b := bm.1.put (oSpace (dSlot d 3)) (oAddr (dSlot d 3)) (4 * op.emitted) 1 (pclean (leBytes 4 u))
            .ok ({ b with op := { b.op with emitted := op.emitted + 1, aux := op.emitted + 1 } },
                 TMap.insert bm.2 (u / 8) (setBit v (u % 8)))

/-- FRONTIER over entries [lo, hi) (R330, R625). -/
def Reader.frontier (r : Reader) (op : Op) (lo hi : Nat) : Except Stop Beat :=
  let d := op.desc
  let entry := fun (bm : Beat × TMap Nat) e =>
    if bm.1.op.finished then .ok bm
    else match r.index op 0 e 4 with
      | .error x => .error x
      | .ok (v, bad) =>
        if bad then .error (.poison e)
        else if bits (dP0 d) 0 32 ≤ v then .error (.bounds e)
        else match r.index op 1 v 8 with
          | .error x => .error x
          | .ok (a, abad) => match r.index op 1 (v + 1) 8 with
            | .error x => .error x
            | .ok (z, zbad) =>
              if abad then .error (.poison v)
              else if zbad then .error (.poison (v + 1))
              else foldE (fun bm k => r.neighbour e k bm) bm ((List.range (min (z - a) (oCount (dSlot d 2) + 1 - a))).map (· + a))
  match foldE entry ({ op := op }, []) ((List.range (hi - lo)).map (· + lo)) with
  | .error e => .error e
  | .ok (b, marks) =>
    .ok (marks.foldl (fun (b : Beat) m => b.put (oSpace (dSlot d 3)) (dP1 d) m.1 1 (pclean (leBytes 1 m.2))) b)

/-! ### One beat of one operation -/

/-- Whether an operation's units are elements, so that a beat's prefix ends at a group of 256 (R273). -/
def byGroups (d : Nat) : Bool := [1, 2, 3, 4, 8, 0x0E, 0x0F].contains (dOpcode d)

/-- The prefix a beat reaches when it has work for `units` more units (R339). -/
def Op.reach (op : Op) (units : Nat) : Nat :=
  let n := dN op.desc
  if n ≤ op.done + units then n
  else if byGroups op.desc then max op.done ((op.done + units) / 256 * 256)
  else op.done + units

/-- Whether the opcode is a set operation, whose n is ignored (R323). -/
def isSet (d : Nat) : Bool := [9, 0x0A, 0x0B].contains (dOpcode d)

/-- An operation that has nothing to do once it is checked (R334). -/
def emptyOp (d : Nat) : Bool :=
  !isSet d && (dN d == 0 || ((dOpcode d == 6 || dOpcode d == 7) && dRow d == 0))

/-- One beat of an operation: what it commits when the beat has work for `units` units. -/
def Reader.beat (r : Reader) (op : Op) (units : Nat) : Except Stop Beat :=
  let lo := op.done
  let hi := op.reach units
  let d := op.desc
  let op := if ordRuns d then { op with flags := op.flags ||| fNondet } else op
  let fin := fun (x : Except Stop Beat) => match x with
    | .error e => .error e
    | .ok b => .ok { b with op := { b.op with done := hi, finished := decide (dN d ≤ hi) } }
  let sum := fun (x : Except Stop (List Acc)) => match x with
    | .error e => fin (.error e)
    | .ok l => fin (.ok (({ op := op } : Beat).out lo l))
  match dOpcode d with
  | 0x01 => sum (r.reduce op lo hi)
  | 0x02 =>
    if ordRuns d then sum (r.ordReduce op lo hi) else sum (r.wreduce op lo hi)
  | 0x03 => fin (r.exactAdd op lo hi)
  | 0x04 => fin (r.exactAdd op lo hi)
  | 0x05 => fin (r.cas op lo hi)
  | 0x06 => fin (r.gatherReduce op lo hi)
  | 0x07 => fin (r.scatterAdd op lo hi)
  | 0x08 => fin (r.histogram op lo hi)
  | 0x0C => match r.frontier op lo hi with
    | .error e => .error e
    | .ok b => if b.op.finished then .ok b
      else .ok { b with op := { b.op with done := hi, finished := decide (dN d ≤ hi) } }
  | 0x0D => fin (r.copyBytes op lo hi)
  | 0x0E => fin (r.convert op lo hi)
  | 0x0F => fin (if op.source = 0xFD then r.gatherCommon op lo hi else r.gather op lo hi)
  | _ => match r.setOp units { op := op } with
    | .error e => .error e
    | .ok b => .ok { b with op := { b.op with aux := b.op.i, faultOff := if b.op.truncated then b.op.j else 0 } }

end Sys2Proof.Machine
end

