-- ==== Sys2Proof/Machine/DroveRun.lean ====
section
/-!
DEFINITION. How the Drove runs: live tiles, fences and spares (R265 to R269, R304 to R308), records of failures (R310,
R311), contexts, completion, suspension (R336 to R347), and the write-out of committed staging halves (R299).
-/

namespace Sys2Proof.Machine

/-- Set every row of an object back to its default. -/
def State.clearRows (s : State) (oid lo n : Nat) : State :=
  { s with objs := s.objs.filter (fun e => !(e.1 / 2 ^ 23 == oid && decide (lo ≤ e.1 % 2 ^ 23 ∧ e.1 % 2 ^ 23 < lo + n))) }

/-! ### Contexts -/

def State.octx (s : State) (c : Nat) : OpCtx := TMap.get ({} : OpCtx) s.drove.ctxs c
def State.setOctx (s : State) (c : Nat) (x : OpCtx) : State :=
  { s with drove := { s.drove with ctxs := TMap.put ({} : OpCtx) s.drove.ctxs c x } }
def State.modOctx (s : State) (c : Nat) (f : OpCtx → OpCtx) : State := s.setOctx c (f (s.octx c))

/-- Whether a member of a context has work left. -/
def Op.live (o : Op) : Bool := !o.gone && !o.finished && o.ended.isNone

/-- Whether a context may be given a beat. -/
def OpCtx.runnable (x : OpCtx) : Bool := !x.susp && x.dying.isNone && x.ops.any Op.live

/-- Forget context `c`: its window and region are free (R336). -/
def State.freeOctx (s : State) (c : Nat) : State :=
  { s with drove := { s.drove with
      ctxs := TMap.erase s.drove.ctxs c
      own := s.drove.own.filter (fun e => e.2 != c + 1)
      saves := s.drove.saves.filter (fun e => e.1 != c)
      run := s.drove.run.filter (fun e => e.2 != c + 1)
      act := if s.drove.act = c + 1 then 0 else s.drove.act } }

/-- Whether the device is fenced (R307). -/
def State.deviceFenced (s : State) : Bool := s.ob O.FENCE_DEVICE != 0

/-! ### Completion (R341 to R345) -/

/-- The status of a record (R343). -/
def Op.status (o : Op) : Nat :=
  match o.ended with
  | some st => st
  | none => if o.poisoned then 3 else if o.truncated then 6 else 0

/-- The completion record without its phase (R343). -/
def Op.record (o : Op) : Nat :=
  dTag o.desc + o.status <<< 64 + (dOpcode o.desc) <<< 72 + (o.flags % 65536) <<< 80 + (o.done % 2 ^ 32) <<< 96 +
  (o.aux % 2 ^ 32) <<< 128 + (o.opflags % 256) <<< 160 + o.source <<< 168 + (o.faultOff % 2 ^ 48) <<< 176 +
  (min 0x7FFFFFFF o.beats) <<< 224

/-- Counts of a completion in DROVE_OPSTAT: column 0 completed, 1 rejected, 2 faulted. -/
def State.opCount (s : State) (o : Op) (rejected : Bool) : State :=
  let col := if rejected then 1 else if o.ended.isSome then 2 else 0
  let s := if dOpcode o.desc < 16 then s.countIn O.DROVE_OPSTAT (dOpcode o.desc) col 1 else s
  let s := if rejected then s.raise O.DROVE_OP_ERR 0 o.status else s
  if o.opflags.testBit 1 then s.raise O.DROVE_OP_ERR 4 6 else s

/-- Tell the source of an operation that it has ended (R341, R343, R344). `lost` leaves a ring's record unwritten
(R534). -/
def State.opEnd (s : State) (o : Op) (rejected : Bool := false) (lost : Bool := false) : State :=
  let s := s.opCount o rejected
  match o.origin with
  | .ring r => if lost then s.setRing false r { s.ring false r with busy := (s.ring false r).busy - 1 }
    else s.putRecord false r o.record (dIrq o.desc)
  | .remote dev port sink pasture =>
    s.send sink pasture 0x2F dev port (leBytes 32 o.record ++ o.inline.map (·.1))
  | .common id =>
    if TMap.has s.common.reqs id then
      let q := s.creq id
      let st := o.status
      let data := if st = 0 ∨ st = 3 ∨ st = 6 then o.inline.map (·.1) else []
      ((s.answer q st o.flags o.done o.faultOff data (decide (st = 3)) o.mlost).dropCreq id).wakeReqs
    else s
  | .drover id code =>
    match o.ended with
    | none => (s.tally 0x0901 0).collStepDone id code o
    | some st =>
      let c := s.inst id
      if TMap.has s.coll.insts id then s.collNote c.row c.seq (if st = 7 then 3 else 4) else s

/-! ### Write-out of a staging half (R299, R332, R407) -/

/-- Write one committed output to its destination and mirror it; a unit in `ue` meets an HBM error, which poisons the
words and sets poison for the operation. -/
def State.putOut (s : State) (ue : List Nat) (w : OutWrite) : State :=
  let hurt := (List.range w.bytes.length).any (fun i => ue.contains ((w.hpa + i) / 64))
  let l := if hurt then w.bytes.zipIdx.map (fun b => (b.1.1, b.1.2 || ue.contains ((w.hpa + b.2) / 64))) else w.bytes
  let s := s.hbmWriteP w.hpa l
  let mark := fun (s : State) (f : Op → Op) => s.modOctx w.ctx (fun x => { x with ops := x.ops.modify w.member f })
  let s := if hurt then mark s (fun o => { o with poisoned := true, flags := o.flags ||| fPoison }) else s
  match w.common with
  | none => s
  | some (p, off) =>
    let r := s.mirrorOf (.drove w.ctx w.member) p off w.hpa w.bytes.length
    mark r.1 (fun o => { o with mirrors := o.mirrors + r.2.2, mlost := o.mlost || r.2.1 })

/-- Write out half `h`. -/
def State.writeOut (s : State) (h : Nat) (ue : List Nat) : State :=
  let l := TMap.get [] s.drove.halves h
  let s := { s with drove := { s.drove with halves := TMap.erase s.drove.halves h } }
  l.foldl (fun s w => s.putOut ue w) s

/-- The writes that wait in both halves, those committed first in front. -/
def State.staged (s : State) : List OutWrite :=
  let now := s.drove.beatAt % 2
  TMap.get [] s.drove.halves ((now + 1) % 2) ++ TMap.get [] s.drove.halves now

/-- Write out both halves: the one committed earlier first. -/
def State.writeOutAll (s : State) : State :=
  let now := s.drove.beatAt % 2
  (s.writeOut ((now + 1) % 2) []).writeOut now []

/-- Whether context `c` has outputs that wait for write-out or for mirror acknowledgements (R341, R407). -/
def State.outputsWait (s : State) (c : Nat) : Bool :=
  s.staged.any (fun w => w.ctx == c) || (s.octx c).ops.any (fun o => !o.gone && decide (0 < o.mirrors))

/-! ### Tiles (R265, R269, R304 to R308) -/

/-- States of DROVE_TILE_STATE. -/
abbrev tActive : Nat := 0
abbrev tSpare : Nat := 1
abbrev tStanding : Nat := 2
abbrev tFenced : Nat := 3
abbrev tGated : Nat := 4
abbrev tSwitching : Nat := 5

def State.tile (s : State) (t : Nat) : Nat := s.row O.DROVE_TILE_STATE t
def State.setTile (s : State) (t v : Nat) : State := s.setRow O.DROVE_TILE_STATE t v

/-- DROVE_TILE_MAP as a list: the physical tile of each logical tile, 0xFF where it is absent. -/
def State.tileMap (s : State) : List Nat := (List.range 128).map (fun l => s.row O.DROVE_TILE_MAP l)

/-- Write DROVE_TILE_MAP, padded with absent tiles, and N. -/
def State.setTileMap (s : State) (m : List Nat) : State :=
  let rows : List (Nat × Nat) := ((m ++ List.replicate (128 - m.length) 0xFF).take 128).zipIdx
  let s := rows.foldl (fun (s : State) x => s.setRow O.DROVE_TILE_MAP x.2 x.1) s
  s.setOb O.DROVE_LIVE ((m.filter (fun t => t != 0xFF)).length)

/-- The live tiles (R269). -/
def State.liveTiles (s : State) : List Nat := s.tileMap.filter (fun t => t != 0xFF)

/-- The idle and healthy spare of paddock `p` that no switch has taken (R305). -/
def State.spareOf (s : State) (p : Nat) : Option Nat :=
  ((List.range 9).map (fun i => 9 * p + 8 - i)).find? (fun t => s.tile t == tSpare && !s.drove.fencing.contains t &&
    !(s.drove.switches.any (fun x => x / 9 == p)) && !(s.drove.awaiting.any (fun x => x.1 / 9 == p)))

/-- Write the fence record of R482 and raise the fence event. -/
def State.fenceLog (s : State) (kind unitKind unit : Nat) : State :=
  (s.errLog 0x4200 kind 0 unitKind unit 0).event [0] 0x07 unit kind

/-- The beats that moving `n` bytes per stack takes (R301). -/
def moveBeats (n : Nat) : Nat := (n + 1679359) / 1679360

/-- Every operation that holds a window or a resident region is saved, and restored before its next beat (R306). -/
def State.resaveAll (s : State) : State :=
  let full := fun (x : OpCtx) => contextBytes x.window x.resident
  let l := s.drove.ctxs.filter (fun c => c.2.started && decide (full c.2 ≠ c.2.saved))
  { s with drove := { s.drove with
      own := []
      saves := s.drove.saves ++ l.map (fun c => (c.1, false, moveBeats (full c.2 - c.2.saved)))
      ctxs := s.drove.ctxs.map (fun (c : Nat × OpCtx) => if c.2.started then (c.1, { c.2 with saved := full c.2 }) else c) } }

/-- The logical tiles in order: a physical tile, or 256 + t for the number that waits for tile `t`'s switch (R305). -/
def State.slots (s : State) : List Nat :=
  s.tileMap.zipIdx.filterMap (fun x =>
    if x.1 ≠ 0xFF then some x.1 else (s.drove.awaiting.find? (fun w => w.2 == x.2)).map (fun w => 256 + w.1))

/-- Number the logical tiles anew in the order given (R269). -/
def State.setSlots (s : State) (l : List Nat) : State :=
  let s := s.setTileMap (l.map (fun x => if 256 ≤ x then 0xFF else x))
  { s with drove := { s.drove with
      awaiting := l.zipIdx.filterMap (fun x => if 256 ≤ x.1 then some (x.1 - 256, x.2) else none) } }

/-- Take tile `t` out of the map: N falls by one and the numbers above move down by one (R306). -/
def State.unmapTile (s : State) (t : Nat) : State := s.setSlots (s.slots.filter (· != t))

/-- Tile `t` is fenced and no spare can stand in (R306). -/
def State.dropTile (s : State) (t : Nat) : State := ((s.unmapTile t).raise O.DROVE_ERR 3).resaveAll

/-- Fence tile `t` at a beat boundary (R304 to R306). -/
def State.fenceTile (s : State) (t : Nat) : State :=
  if s.tile t = tFenced then s
  else
    let live := s.liveTiles.contains t
    let s := ((s.setTile t tFenced).raise O.DROVE_ERR 2).fenceLog 0 3 t
    if !live then s
    else match s.spareOf (t / 9) with
      | none => s.dropTile t
      | some _ =>
        if s.ob O.DROVE_SPARE_AUTO = 1 then { s with drove := { s.drove with switches := s.drove.switches ++ [t] } }
        else s.setSlots (s.slots.map (fun x => if x = t then 256 + t else x))

/-- Fences that were due at this boundary. -/
def State.fencesDue (s : State) : State :=
  let l := s.drove.fencing
  l.foldl (fun s t => s.fenceTile t) { s with drove := { s.drove with fencing := [] } }

/-- A spare switch is complete (R305): the spare takes the logical number of tile `t`. -/
def State.switchDone (s : State) (t : Nat) : State :=
  match ((List.range 9).map (fun i => 9 * (t / 9) + i)).find? (fun x => s.tile x == tSwitching) with
  | none => s
  | some sp => ((s.setTile sp tStanding).setTileMap (s.tileMap.map (fun x => if x = t then sp else x))).count O.DROVE_STAT 9 1

/-- An unfenced tile that passed its sentinel (R308): it becomes the paddock's spare, or rejoins. -/
def State.rejoin (s : State) (t : Nat) : State :=
  let p := t / 9
  let standing := (List.range 9).any (fun i => s.tile (9 * p + i) == tStanding && 9 * p + i != t)
  if s.drove.awaiting.any (fun x => x.1 == t) then
    (s.setTile t tActive).setSlots (s.slots.map (fun x => if x = 256 + t then t else x))
  else if standing then s.setTile t tSpare
  else if (s.liveTiles.filter (fun x => x / 9 == p)).length < 8 then
    ((s.setTile t (if t % 9 = 8 then tStanding else tActive)).setSlots
      (s.slots.filter (fun x => decide (x % 256 < t)) ++ [t] ++ s.slots.filter (fun x => decide (t < x % 256)))).resaveAll
  else s.setTile t tSpare

/-! ### Records of failures (R304, R310, R311, R314) -/

/-- The temperature of tile `t`'s paddock at the start of the beat, in 1/16 °C. -/
def State.tileTemp (s : State) (t : Nat) : Int := sint 16 (s.drove.temps.getD (t / 9) 0)

/-- The temperature bin of a tile (R310): a temperature equal to a boundary falls in the bin above. -/
def State.tempBin (s : State) (t : Nat) : Nat :=
  ((List.range 7).filter (fun i => decide (((16 * s.row O.DROVE_TEMP_BINS i : Nat) : Int) ≤ s.tileTemp t))).length

/-- Add 1 to field `f` of tile `t`'s histogram cell for group `g` (R560): 0 mismatch, 1 sentinel, 2 corrected,
3 uncorrectable, which hold at their top, 4 beats. -/
def State.histCount (s : State) (t g f : Nat) : State :=
  let row := (8 * t + s.tempBin t) * 16 + g
  let v := s.row O.TALLY_HIST row
  if f = 4 then s.setRow O.TALLY_HIST row (setBits v 128 64 (bits v 128 64 + 1))
  else s.setRow O.TALLY_HIST row (setBits v (32 * f) 32 (min 0xFFFFFFFF (bits v (32 * f) 32 + 1)))

/-- Add 1 to a 16-bit field of DROVE_TILE_STAT of tile `t`'s paddock that holds at 0xFFFF: condemned at bit 32,
corrected at bit 48. -/
def State.tileStat (s : State) (p lo : Nat) : State :=
  let off := 0x180010 + 8 * p
  s.setReg off (setBits (s.reg off) lo 16 (min 0xFFFF (bits (s.reg off) lo 16 + 1)))

/-- The operation that a failure is reported for: its group, the format of its first operand and its tag. -/
def OpCtx.names (x : OpCtx) : Nat × Nat × Nat :=
  match x.ops.find? Op.live with
  | some o => (opGroup (dOpcode o.desc) (dOrd o.desc), oFormat (dSlot o.desc 0), dTag o.desc)
  | none => (0, 0, 0)

/-- Write DROVE_LAST_ERR (R311); a failure that names no tile has neither tile nor temperature. -/
def State.lastErr (s : State) (kind : Nat) (e : TileEvent) (names : Nat × Nat × Nat) (tiled : Bool := true) : State :=
  let n := s.bellAt (2048 * s.drove.beatAt)
  let beat := (2048 * s.drove.beatAt - s.time.t0) % s.period / 2048
  let temp := if tiled then (s.tileTemp e.tile.val / 16).toNat else 0
  s.setBlob O.DROVE_LAST_ERR (leBytes 32 (n + beat <<< 64 + kind <<< 69 + e.tile.val <<< 72 + names.1 <<< 80 +
    names.2.1 <<< 84 + (min temp 255) <<< 96 + e.load.toNat <<< 104 + e.lanes.toNat <<< 112 +
    names.2.2 <<< 128 + (if kind ≤ 2 then e.delta.toNat % resP else 0) <<< 192))

/-- Count a condemnation of tile `t` in the window of DROVE_RES_FENCE_WINDOW_MS, and fence it at the next boundary when
the count is reached, or at once with `twice` (R304). -/
def State.condemnTile (s : State) (t : Nat) (twice : Bool) : State :=
  let win := 1000000 * s.ob O.DROVE_RES_FENCE_WINDOW_MS
  let l := (TMap.get [] s.drove.bad t).filter (fun x => decide (s.now < x + win)) ++ [s.now]
  let n := s.ob O.DROVE_RES_FENCE_COUNT
  let fence := twice || (n != 0 && decide (n ≤ l.length))
  { s with drove := { s.drove with bad := TMap.put [] s.drove.bad t l
                                   fencing := if fence then (s.drove.fencing ++ [t]).eraseDups else s.drove.fencing } }

/-- Record one failure of a tile in a beat; `kind` is that of an uncorrectable SECDED event (R310, R311). -/
def State.tileEvent (s : State) (names : Nat × Nat × Nat) (e : TileEvent) (kind : Nat := 4) : State :=
  match e.fault with
  | .corrected => (((s.histCount e.tile.val names.1 2).count O.DROVE_STAT 10 1).tileStat (e.tile.val / 9) 48).lastErr 3 e names
  | .uncorrectable => (s.histCount e.tile.val names.1 3).lastErr kind e names
  | .mismatch => ((s.histCount e.tile.val names.1 0).raise O.DROVE_ERR 0).lastErr 1 e names

/-- A tile fails a sentinel beat (R309): an idle spare is fenced at once, any other tile counts a condemnation. -/
def State.sentinelFail (s : State) (e : TileEvent) : State :=
  let t := e.tile.val
  let s := (((s.histCount t 15 1).count O.DROVE_STAT 8 1).raise O.DROVE_ERR 4).lastErr 2 e (15, 0, 0)
  if s.tile t = tSpare then s.fenceTile t
  else if s.tile t = tFenced then s
  else s.condemnTile t false

/-! ### Members that leave their batch, suspension (R342, R346, R347) -/

/-- The lowest free context outside the Drover's (R319). -/
def State.freeContext (s : State) : Option Nat :=
  ((List.range 192).map (· + 64)).find? (fun c => !TMap.has s.drove.ctxs c)

/-- Move member `k` of context `c` into a context of its own, with its outputs; none when no context is free. A context
that holds it alone stays. -/
def State.splitMember (s : State) (c k : Nat) : Option (State × Nat) :=
  let x := s.octx c
  if (x.ops.filter (fun o => !o.gone)).length ≤ 1 then some (s, c)
  else match s.freeContext with
    | none => none
    | some n =>
      let o := (x.ops[k]?).getD {}
      let y : OpCtx := { x with ops := List.replicate k { gone := true } ++ [o], started := false, saved := 0, condemned := 0, lastBad := []
                                order := s.drove.nextOrder }
      let ren := fun (w : OutWrite) => if w.ctx = c ∧ w.member = k then { w with ctx := n } else w
      let s := { s with drove := { s.drove with
        nextOrder := s.drove.nextOrder + 1
        halves := s.drove.halves.map (fun (h : Nat × List OutWrite) => (h.1, h.2.map ren)) }
                        common := { s.common with mirrors := s.common.mirrors.map (fun (m : Nat × Mirror) =>
                          if m.2.owner = MirrorFor.drove c k then (m.1, { m.2 with owner := MirrorFor.drove n k }) else m) } }
      some ((s.setOctx c { x with ops := x.ops.modify k (fun o => { o with gone := true }) }).setOctx n
        y, n)

/-- The device and the op of a fault record: a Common request's own, and for every other Drove operand this device and 0
(R423). -/
def Op.faultFrom (s : State) (o : Op) : Nat × Nat :=
  match o.origin with
  | .common id => ((s.creq id).src, (s.creq id).op)
  | _ => (s.own, 0)

/-- A fault of member `k` of context `c` (R346): a ring's or the Drover's operation is suspended for a page that is not
present, everything else ends. `kind` is the fault kind of R417, 0 for none. -/
def State.opFault (s : State) (c k status kind off : Nat) (space : Nat) : State :=
  match s.splitMember c k with
  | none => s
  | some (s, c) =>
    let x := s.octx c
    let o := (x.ops[k]?).getD {}
    let unit := homeOf off
    let s := if kind ≠ 0 ∧ space = 1 then
        (s.commonFaultBits ⟨status, kind⟩).faultRecord unit (s.commonAddr o.pasture off) (o.faultFrom s).1 (o.faultFrom s).2 kind false
      else s
    let s := if status = 2 then s.raise O.DROVE_OP_ERR 3 2 else s
    let suspend := status == 1 && (match o.origin with
      | .ring _ => true
      | .drover _ _ => true
      | _ => false)
    if suspend then
      let o := { o with faultOff := off, opflags := setBit o.opflags 3 }
      let s := s.setOctx c { x with susp := true, ops := x.ops.set k o }
      let s := s.setRow O.DROVE_SUSP c (dTag o.desc + status <<< 64 + (dOpcode o.desc) <<< 72 + o.source <<< 80 + 1 <<< 88 +
        (off % 2 ^ 48) <<< 96 + (o.done % 2 ^ 32) <<< 144)
      let s := s.raise O.DROVE_OP_ERR 2 status
      match o.origin with
      | .ring r => (s.setRing false r { s.ring false r with susp := some c }).event (s.ringFns false r) 0x01 r c
      | _ => s
    else s.setOctx c { x with ops := x.ops.set k { o with ended := some status, faultOff := off } }

/-- An out-of-bounds index ends an operation (R346); a poisoned word that steers it does too, with 0x03 (R625). -/
def State.opStop (s : State) (c k : Nat) (bounds : Bool) (pos : Nat) : State :=
  match s.splitMember c k with
  | none => s
  | some (s, c) =>
    let x := s.octx c
    let o := (x.ops[k]?).getD {}
    if bounds then
      (s.setOctx c { x with ops := x.ops.set k { o with ended := some 1, faultOff := pos, opflags := setBit o.opflags 4 } }).raise
        O.DROVE_OP_ERR 1 1
    else (s.setOctx c { x with ops := x.ops.set k { o with ended := some 3, faultOff := pos, flags := o.flags ||| fPoison } }).raise
      O.DROVE_ERR 5 3

/-- End every unfinished member of context `c` with a status (R303, R307). -/
def State.endOctx (s : State) (c status : Nat) : State :=
  s.modOctx c (fun x => { x with susp := false, dying := none, ops := x.ops.map (fun o =>
    if o.live then { o with ended := some status } else o) })

/-- End what a suspended operation's row and ring hold of context `c`. -/
def State.unsuspend (s : State) (c : Nat) : State :=
  let s := (s.setRow O.DROVE_SUSP c 0).modOctx c (fun x => { x with susp := false })
  match ((s.octx c).ops.find? (fun o => !o.gone)).map (fun (o : Op) => o.origin) with
  | some (OpOrigin.ring r) => s.setRing false r { s.ring false r with susp := none }
  | _ => s

/-! ### One beat of a context -/

/-- What the members of a context commit in one beat. -/
structure CtxBeat where
  s      : State                 -- the state with earlier members' outputs in place, for the reads of later ones
  ops    : List Op
  writes : List OutWrite
  left   : Nat                   -- units of work the beat has left
  bad    : Option (Nat × Stop × Nat)   -- the first member that cannot go on, why, and the operand space

/-- The HBM writes of one committed output (R298, R389, R399). -/
def State.outWrites (s : State) (c k pasture : Nat) (w : BeatWrite) : Except AFault (List OutWrite) :=
  match s.opPieces pasture w.space w.addr w.bytes.length w.right with
  | .error f => .error f
  | .ok ps => .ok (ps.foldl (fun (a : List OutWrite × PBytes) (p : Piece) =>
      (a.1 ++ [({ ctx := c, member := k, hpa := p.hpa, common := p.common, bytes := a.2.take p.len } : OutWrite)],
       a.2.drop p.len)) ([], w.bytes)).1

/-- All of a member's writes. -/
def State.allWrites (s : State) (c k pasture : Nat) : List BeatWrite → Except (AFault × Nat) (List OutWrite)
  | [] => .ok []
  | w :: l => match s.outWrites c k pasture w with
    | .error f => .error (f, w.space)
    | .ok a => match s.allWrites c k pasture l with
      | .error f => .error f
      | .ok b => .ok (a ++ b)

/-- The space a fault of an operation is reported in: Common when any operand is there. -/
def dAnySpace (d : Nat) : Nat := if [0, 1, 2, 3].any (fun i => opUse d i != 0 && oSpace (dSlot d i) == 1) then 1 else 0

/-- Run member `k` for what the beat has left. -/
def CtxBeat.member (b : CtxBeat) (c k : Nat) (ue : List Nat) (late : List OutWrite) (o : Op) : CtxBeat :=
  if b.bad.isSome || !o.live then { b with ops := b.ops ++ [o] }
  else
    let r : Reader := { s := b.s, ue := ue, late := late }
    match r.beat o b.left with
    | .error e => { b with ops := b.ops ++ [o], bad := some (k, e, dAnySpace o.desc) }
    | .ok x =>
      match b.s.allWrites c k o.pasture x.writes with
      | .error (f, sp) => { b with ops := b.ops ++ [o], bad := some (k, .fault f, sp) }
      | .ok ws =>
        let used := x.op.done - o.done
        { b with s := ws.foldl (fun s w => s.hbmWriteP w.hpa w.bytes) b.s
                 ops := b.ops ++ [{ x.op with beats := o.beats + 1 }]
                 writes := b.writes ++ ws
                 left := b.left - used }

/-- Every member of context `c` in batch order. -/
def State.runCtx (s : State) (c units : Nat) (ue : List Nat) (late : List OutWrite) : CtxBeat :=
  (s.octx c).ops.zipIdx.foldl (fun (b : CtxBeat) x => b.member c x.2 ue late x.1)
    { s := s, ops := [], writes := [], left := units, bad := none }

/-- A committed accumulator in error, or one lost in a copy or save, leaves poison in its element (R300, R305, R306); the
error is an uncorrectable SECDED event of its tile, of the kind given (R310, R311). -/
def State.accBad (s : State) (kind : Nat) (e : AccError) : State :=
  let s := s.tileEvent (s.octx e.ctx.val).names { tile := e.tile, fault := .uncorrectable } kind
  s.modOctx e.ctx.val (fun x => { x with ops := x.ops.modify e.member (fun o =>
    if TMap.has o.acc e.elem then { o with acc := TMap.update ({} : AccCell) o.acc e.elem AccCell.spoil } else o) })

/-- Committed outputs that lie in units `ue` are poisoned in the staging half copied to the spare (R305). -/
def State.stagedBad (s : State) (ue : List Nat) : State :=
  let hurt := fun (w : OutWrite) (i : Nat) => ue.contains ((w.hpa + i) / 64)
  let hit := s.staged.filter (fun w => (List.range w.bytes.length).any (hurt w))
  let s := { s with drove := { s.drove with halves := s.drove.halves.map (fun (h : Nat × List OutWrite) =>
    (h.1, h.2.map (fun w => { w with bytes := w.bytes.zipIdx.map (fun b => (b.1.1, b.1.2 || hurt w b.2)) }))) } }
  hit.foldl (fun (s : State) w => s.modOctx w.ctx (fun x => { x with ops := x.ops.modify w.member (fun o =>
    { o with poisoned := true, flags := o.flags ||| fPoison }) })) s

/-- The logical tiles whose groups of output elements [lo, hi) an operation works on: group g runs on logical tile
g mod N (R273). Operations whose output positions do not follow from their units work on every live tile. -/
def groupTiles (d lo hi : Nat) (live : List Nat) : List Nat :=
  let per := if dOpcode d = 6 then dRow d else 1
  if live.isEmpty || !([1, 2, 3, 4, 5, 6, 0x0E, 0x0F].contains (dOpcode d)) then live
  else
    let a := lo * per / 256
    let z := (hi * per + 255) / 256
    if live.length ≤ z - a then live else (List.range (z - a)).map (fun i => live.getD ((a + i) % live.length) 0)

/-- The tiles that run groups in a beat: `ops` are the members before it and `b` what the beat does. -/
def workTiles (ops : List Op) (b : CtxBeat) (live : List Nat) : List Nat :=
  if b.bad.isSome then live
  else ((ops.zip b.ops).filter (fun x => x.1.beats != x.2.beats)).flatMap (fun x =>
    groupTiles x.1.desc x.1.done x.2.done live)

/-- Whether the checker covers the arithmetic of an operation (R297): not rounding, nor the order-dependent modes. -/
def checkerCovers (d : Nat) : Bool := !ordRuns d && dOpcode d != 0x0E

/-- Whether an event condemns the beat of an operation of descriptor `d` whose groups run on `tiles` (R296, R297, R300):
residues that differ where the checker covers the arithmetic, or an uncorrectable error in what the beat stages. -/
def TileEvent.condemns (e : TileEvent) (d : Nat) (tiles : List Nat) : Bool :=
  tiles.contains e.tile.val && (match e.fault with
    | .mismatch => checkerCovers d && e.delta.toNat % resP != 0
    | .uncorrectable => true
    | .corrected => false)

end Sys2Proof.Machine
end

