-- ==== Sys2Proof/Machine/DroveBeat.lean ====
section
/-!
DEFINITION. Beats of the Drove (R270 to R275, R299 to R309, R338 to R340): who gets the next beat, and what becomes of
it at its end.
-/

namespace Sys2Proof.Machine

/-! ### The choice within a class (R338) -/

/-- The contexts of a class that may run. -/
def State.ready (s : State) (cls : Nat) : List (Nat × OpCtx) :=
  s.drove.ctxs.filter (fun c => c.2.cls == cls && c.2.runnable)

/-- The first of the contexts in order of admission. -/
def firstOf (l : List (Nat × OpCtx)) : Option Nat :=
  (l.foldl (fun (b : Option (Nat × OpCtx)) c => match b with
    | none => some c
    | some x => if c.2.order < x.2.order then some c else b) none).map (·.1)

/-- The deadline of a context as a Bell number (R275). -/
def State.dueBell (s : State) (x : OpCtx) : Nat := s.bellOf48 (dDeadline ((x.ops[0]?).getD ({} : Op)).desc)

/-- The deadline class: the earliest deadline, ties to the Drover's issue order. -/
def State.pickDeadline (s : State) : Option Nat :=
  let l := s.ready 1
  let best := l.foldl (fun m c => min m (s.dueBell c.2)) (2 ^ 64)
  firstOf (l.filter (fun c => s.dueBell c.2 == best))

/-- The first queue number after `last`, in a circle of `n`, that has a ready context. -/
def nextQueue (l : List (Nat × OpCtx)) (n last : Nat) : Option Nat :=
  ((List.range n).map (fun i => (last + 1 + i) % n)).find? (fun q => l.any (fun c => c.2.queue == q))

/-- The context that holds the turn of a class, while it may run (R338). -/
def State.holds (s : State) (cls : Nat) : Option Nat :=
  let c := TMap.get 0 s.drove.run cls
  if c ≠ 0 ∧ (s.ready cls).any (fun x => x.1 == c - 1) then some (c - 1) else none

/-- The context that a class would run. -/
def State.pick (s : State) (cls : Nat) : Option Nat :=
  match s.holds cls with
  | some c => some c
  | none =>
    let l := s.ready cls
    match cls with
    | 1 => s.pickDeadline
    | 2 => match nextQueue l 512 s.drove.rrSrc with
      | some q => firstOf (l.filter (fun c => c.2.queue == q))
      | none => none
    | _ =>
      let from_ := if s.drove.rrLeft = 0 then s.drove.rrRing else (s.drove.rrRing + 64) % 65
      match nextQueue l 65 from_ with
      | some q => firstOf (l.filter (fun c => c.2.queue == q))
      | none => none

/-- The weight of a queue of the host and core class. -/
def State.queueWeight (s : State) (q : Nat) : Nat := if q < 64 then max 1 (bits (s.ring false q).sqCfg 8 8) else 1

/-- Give context `c` the turn of its class. -/
def State.takeTurn (s : State) (c : Nat) : State :=
  let x := s.octx c
  if x.cls = 1 ∨ s.holds x.cls = some c then s
  else
    let d := { s.drove with run := TMap.put 0 s.drove.run x.cls (c + 1) }
    if x.cls = 2 then { s with drove := { d with rrSrc := x.queue } }
    else
      let same := s.drove.rrRing == x.queue && s.drove.rrLeft != 0
      { s with drove := { d with rrRing := x.queue, rrLeft := (if same then s.drove.rrLeft else s.queueWeight x.queue) - 1 } }

/-- The operation that gets the next beat if nothing before it in R274 does, with the floor of the 5th and 6th
classes: they take turns to receive at least DROVE_FLOOR_BEATS of every 256 beats. Their share comes first in each run of
256 beats, so that no beat that goes to something else takes it away (log entry 141). -/
def State.nextOp (s : State) : Option Nat :=
  let f := s.ob O.DROVE_FLOOR_BEATS
  let got := if s.drove.floorBeat = s.drove.beatAt / 256 then s.drove.floorGot else 0
  let due := decide (got < f)
  let turn := if (s.pick s.drove.floorTurn).isSome then s.pick s.drove.floorTurn else s.pick (5 - s.drove.floorTurn)
  if due && turn.isSome then turn
  else match s.pick 1 with
    | some c => some c
    | none => match s.pick 2 with
      | some c => some c
      | none => s.pick 3

/-- Count a beat given to class 2 or 3 towards the floor. -/
def State.floorCount (s : State) (cls : Nat) : State :=
  if cls = 1 then s
  else
    let w := s.drove.beatAt / 256
    let got := if s.drove.floorBeat = w then s.drove.floorGot else 0
    let hit := cls == s.drove.floorTurn || (s.pick s.drove.floorTurn).isNone
    { s with drove := { s.drove with floorBeat := w, floorGot := if hit then got + 1 else got
                                     floorTurn := if hit then 5 - cls else s.drove.floorTurn } }

/-! ### Switching between operations (R301, R302) -/

/-- The operation that ran last is pre-empted when another takes the beat while it has work left. -/
def State.preempt (s : State) (c : Nat) : State :=
  let a := s.drove.act
  let s := if a ≠ 0 ∧ a ≠ c + 1 ∧ (s.octx (a - 1)).started ∧ (s.octx (a - 1)).runnable then
      (s.modOctx (a - 1) (fun x => { x with ops := x.ops.map (fun o =>
        if o.live then { o with flags := o.flags ||| fPreempted } else o) })).count O.DROVE_STAT 4 1
    else s
  { s with drove := { s.drove with act := c + 1 } }

/-- Context `c` takes its window: what other operations hold there is to be saved first, and what it has in its own save
area restored. -/
def State.prepare (s : State) (c : Nat) : State :=
  let s := s.preempt c
  let x := s.octx c
  let accs := (List.range x.window).map (· + x.wbase)
  let others := (accs.map (fun a => TMap.get 0 s.drove.own a)).filter (fun o => o != 0 && o != c + 1)
  let saves := others.eraseDups.map (fun o => (o - 1, false, moveBeats (8 * 12288 * others.count o)))
  let s := others.foldl (fun (s : State) o => s.modOctx (o - 1) (fun y => { y with saved := y.saved + 8 * 12288 })) s
  let restore := if x.saved = 0 then [] else [(c, true, moveBeats x.saved)]
  { s with drove := { s.drove with
      own := accs.foldl (fun m a => TMap.put 0 m a (c + 1)) s.drove.own
      saves := s.drove.saves ++ saves ++ restore } }

/-! ### The start of a beat (R270, R274) -/

/-- Give the beat to `h`. -/
def State.give (s : State) (h : Holder) : State := { s with drove := { s.drove with holder := h } }

/-- The spare that takes a switch in paddock `p`. -/
def State.idleSpare (s : State) (p : Nat) : Option Nat :=
  ((List.range 9).map (fun i => 9 * p + 8 - i)).find? (fun t => s.tile t == tSpare)

/-- A sentinel beat on every live tile and every idle spare (R309). -/
def State.sentinelBeat (s : State) : State :=
  let tiles := s.liveTiles ++ (List.range 144).filter (fun t => s.tile t == tSpare)
  { s with drove := { s.drove with holder := .sentinel tiles, sentinel := none } }

/-- Context `c` gets the beat: a staging half that is still being written out is waited for, and the stall counted
(R299). -/
def State.opBeat (s : State) (c : Nat) : State :=
  let h := s.drove.beatAt % 2
  let s := if (TMap.get [] s.drove.halves h).isEmpty then s else (s.writeOut h []).count O.DROVE_STAT 11 1
  ((s.floorCount (s.octx c).cls).modOctx c (fun x => { x with started := true })).give (.op c)

/-- The beat goes to the first waiting item of R274. -/
def State.giveBeat (s : State) : State :=
  match s.drove.switches with
  | t :: l =>
    let s := { s with drove := { s.drove with switches := l } }
    match s.idleSpare (t / 9) with
    | some sp => (s.setTile sp tSwitching).give (.switch t)
    | none => (s.dropTile t).count O.DROVE_STAT 1 1
  | [] =>
    let next := if s.drove.saves.isEmpty && !s.drove.stopping then s.nextOp else none
    let s := match next with
      | some c => (s.takeTurn c).prepare c
      | none => s
    match s.drove.saves with
    | (c, restore, _) :: _ => s.give (if restore then .restore c else .save c)
    | [] => match s.drove.tests with
      | (t, u) :: l => { s with drove := { s.drove with tests := l, holder := .test t u } }
      | [] =>
        let waited := match s.drove.sentinel with
          | some b => decide (b + 64 ≤ s.drove.beatAt)
          | none => false
        if waited then s.sentinelBeat
        else match next with
          | some c => if s.ob O.DROVE_LIVE = 0 then s.count O.DROVE_STAT 1 1 else s.opBeat c
          | none => if s.drove.sentinel.isSome then s.sentinelBeat else s.count O.DROVE_STAT 1 1

/-- The number of the beat that starts next: the present one if nothing has started it yet. -/
def State.nextBeat (s : State) : Nat :=
  let unit := 2048 * devUnit
  if s.time.dev % unit = 0 ∧ s.time.dev / unit ≠ s.drove.beatAt then s.time.dev / unit else s.time.dev / unit + 1

/-- Contexts that end at this boundary (R302, R303, R307). -/
def State.dyingEnd (s : State) : State :=
  (s.drove.ctxs.filter (fun c => c.2.dying.isSome)).foldl (fun s c => s.endOctx c.1 (c.2.dying.getD 4)) s

/-- Remote requests that wait are answered 0x04 (R276, R307). -/
def State.remoteRefuse (s : State) : State :=
  let l := s.drove.remote
  l.foldl (fun (s : State) o => s.opEnd { o with ended := some 4 }) { s with drove := { s.drove with remote := [] } }

/-- The Drove's clock stops (R276). -/
def State.droveStop (s : State) : State :=
  ({ s with drove := { s.drove with gated := true, stopping := false } }).remoteRefuse

/-- BEAT_START (R270, R274): the next beat boundary comes and the beat is given away. While a beat runs, or the clock is
stopped, there is no boundary to act on. Once the saves of R276 are done the clock stops. -/
def execBeatStart (s : State) : Ans := live s <|
  if s.drove.holder ≠ .idle ∨ s.drove.gated then .next s
  else
    let k := s.nextBeat
    let s := s.advanceDev (k * 2048 * devUnit)
    let s := { s with drove := { s.drove with beatAt := k, roll := false
                                              temps := (List.range 16).map (fun p => s.row O.THERM_PADDOCK p) } }
    let s := s.dyingEnd.fencesDue
    .next (if s.drove.stopping && s.drove.saves.isEmpty && s.drove.switches.isEmpty then s.droveStop else s.giveBeat)

/-! ### The end of a beat (R299 to R304) -/

/-- A save or restore beat of context `c` ends; an HBM error or a stack out of reach ends the operation (R302, R307). -/
def State.moveEnd (s : State) (c : Nat) (hbmError : Bool) : State :=
  match s.drove.saves with
  | [] => s
  | (c', restore, n) :: l =>
    if c' ≠ c then s
    else if (List.range 16).any (fun st => s.stackShut st) then
      { s with drove := { s.drove with saves := l } }.modOctx c (fun x => { x with dying := some 4 })
    else if hbmError then
      (({ s with drove := { s.drove with saves := l } }.modOctx c (fun x => { x with dying := some 3 })).raise O.DROVE_ERR 6 3).lastErr
        5 { tile := 0, fault := .uncorrectable } (s.octx c).names false
    else if 1 < n then { s with drove := { s.drove with saves := (c, restore, n - 1) :: l } }
    else
      let s := { s with drove := { s.drove with saves := l } }
      if restore then (s.modOctx c (fun x => { x with saved := 0 })).count O.DROVE_STAT 6 1
      else s.count O.DROVE_STAT 5 1

/-- Commit what the members of context `c` did in this beat (R299, R339). -/
def State.commitOps (s : State) (c : Nat) (b : CtxBeat) : State :=
  let old := (s.octx c).ops
  let s := s.modOctx c (fun x => { x with ops := b.ops.map Op.commit, condemned := 0, lastBad := [] })
  let h := s.drove.beatAt % 2
  let s := { s with drove := { s.drove with halves := TMap.put [] s.drove.halves h (TMap.get [] s.drove.halves h ++ b.writes) } }
  let s := (s.count O.DROVE_STAT 0 1).tally 0x0004 0
  let s := s.liveTiles.foldl (fun (s : State) t => s.tally 0x0800 t) s
  let worked := (old.zip b.ops).filter (fun x => x.1.beats != x.2.beats)
  let s := worked.foldl (fun (s : State) x =>
    if dOpcode x.2.desc < 16 then s.countIn O.DROVE_OPSTAT (dOpcode x.2.desc) 3 1 else s) s
  let s := if b.ops.any (fun o => o.flags.testBit 4) then s.raise O.DROVE_ERR 5 3 else s
  let s := if b.ops.any (fun o => o.flags.testBit 7) then s.raise O.DROVE_ERR 8 6 else s
  if b.ops.any (fun o => ordRuns o.desc) then s.draw else s

/-- Tiles condemn the beat of context `c`, which did `b` (R300, R303, R304): it is rolled back and run again, and ends its
operation the fourth time. `retry` is false when a fault suspends the operation as well, whose next attempt is not a
retry. -/
def State.condemn (s : State) (c : Nat) (b : CtxBeat) (tiles : List Nat) (retry : Bool) : State :=
  let x := s.octx c
  let s := s.count O.DROVE_STAT 2 1
  let s := tiles.foldl (fun (s : State) t => ((s.tileStat (t / 9) 32).condemnTile t (x.lastBad.contains t)).tally 0x0801 t) s
  let n := x.condemned + 1
  let s := s.modOctx c (fun x => { x with
    condemned := n, lastBad := if retry then tiles else []
    ops := x.ops.zipIdx.map (fun (o : Op × Nat) =>
      if o.1.live then { o.1.rollback (b.ops.getD o.2 o.1) with flags := o.1.flags ||| fCondemned } else o.1) })
  if n < 4 then s else (s.endOctx c 7).raise O.DROVE_ERR 1 7

/-- What stops member `k` of context `c` in this beat: the faulting beat rolls back (R346). -/
def State.stopMember (s : State) (c k : Nat) (e : Stop) (space : Nat) : State :=
  match e with
  | .fault f => (s.opFault c k f.status f.kind f.off space).count O.DROVE_STAT 3 1
  | .bounds pos => (s.opStop c k true pos).count O.DROVE_STAT 3 1
  | .poison pos => (s.opStop c k false pos).count O.DROVE_STAT 3 1
  | .stall => s

/-- Every member of context `c` runs for the beat: a read of a unit that waits for its write-out waits until that ends, and
the wait is counted (R340). -/
def State.runBeat (s : State) (c units : Nat) (ue : List Nat) : State × CtxBeat :=
  let first := s.runCtx c units ue s.staged
  match first.bad with
  | some (_, .stall, _) =>
    let s := s.writeOutAll.count O.DROVE_OPCNT 3 1
    (s, s.runCtx c units ue [])
  | _ => (s, first)

/-- The end of an operation's beat: it had work for `units` units, `events` came from its tiles, `ue` are the 64-byte units
that an input read in error and `bad` committed accumulators found in error. -/
def State.opBeatEnd (s : State) (c units : Nat) (events : List TileEvent) (ue : List Nat) (bad : List AccError) : State :=
  let live := s.liveTiles
  let x := s.octx c
  let s := live.foldl (fun (s : State) t => s.histCount t x.names.1 4) s
  let s := bad.foldl (fun (s : State) e => s.accBad 4 e) s
  let s := if bad.isEmpty then s else s.raise O.DROVE_ERR 5 3
  let r := s.runBeat c units ue
  let desc := ((x.ops.find? Op.live).map (fun (o : Op) => o.desc)).getD 0
  let cond := events.filter (fun e => e.condemns desc (workTiles x.ops r.2 live))
  let seen := events.filter (fun e => live.contains e.tile.val && (cond.contains e || e.fault == .corrected))
  let tiles := (cond.map (fun e => e.tile.val)).eraseDups
  let note := fun (s : State) => seen.foldl (fun (s : State) e => s.tileEvent x.names e) s
  if s.drove.roll ∨ !(s.octx c).runnable then note s
  else
    let s := note r.1
    let b := { r.2 with s := s }
    match b.bad with
    | some (k, e, space) =>
      let s := if tiles.isEmpty then s else s.condemn c b tiles false
      if (s.octx c).runnable then s.stopMember c k e space else s
    | none => if tiles.isEmpty then s.commitOps c b else s.condemn c b tiles true

/-- The SECDED events of a beat that is no operation's, under group `names.1`: an uncorrectable one is a copy or save error
(R310 to R312). -/
def State.moveEvents (s : State) (names : Nat × Nat × Nat) (events : List TileEvent) : State :=
  let l := events.filter (fun e => e.fault != .mismatch)
  let s := l.foldl (fun (s : State) e => s.tileEvent names e 5) s
  if l.any (fun e => e.fault == .uncorrectable) then s.raise O.DROVE_ERR 6 3 else s

/-- Words lost in a copy or save poison their elements (R305, R306). -/
def State.lostWords (s : State) (bad : List AccError) : State :=
  bad.foldl (fun (s : State) e => (s.accBad 5 e).raise O.DROVE_ERR 6 3) s

/-- BEAT_COMMIT (R299): the beat that runs ends. -/
def execBeatCommit (units : Nat) (events : List TileEvent) (ue : List Nat) (bad : List AccError) (s : State) : Ans := live s <|
  let t := s.give .idle
  match s.drove.holder with
  | .idle => .next s
  | .op c => .next (t.opBeatEnd c units events ue bad)
  | .save c => .next (((t.moveEvents (s.octx c).names events).lostWords (bad.filter (fun e => e.ctx.val == c))).moveEnd c (!ue.isEmpty))
  | .restore c => .next ((t.moveEvents (s.octx c).names events).moveEnd c (!ue.isEmpty))
  | .sentinel tiles =>
    let t := tiles.foldl (fun (s : State) x => s.histCount x 15 4) t
    .next ((events.filter (fun e => tiles.contains e.tile.val)).foldl (fun (s : State) e =>
      if e.fault = .corrected then s.tileEvent (15, 0, 0) e else s.sentinelFail e) t)
  | .test x unfence =>
    let t := t.histCount x 15 4
    let t := (events.filter (fun e => e.tile.val == x && e.fault == .corrected)).foldl (fun (s : State) e => s.tileEvent (15, 0, 0) e) t
    let mine := events.filter (fun e => e.tile.val == x && e.fault != .corrected)
    match mine with
    | e :: _ => .next (t.sentinelFail e)
    | [] => .next (if !unfence then t
        else if t.power.tiles.testBit x then t.setTile x tGated
        else if t.tile x = tFenced ∨ t.tile x = tGated then t.rejoin x else t)
  | .switch x =>
    .next ((((t.moveEvents (0, 0, 0) events).lostWords bad).stagedBad ue).switchDone x)

/-- WRITE_OUT_COMPLETE (R299): half `half` has been written out; units of `ue` met an HBM error. -/
def execWriteOutComplete (half : Fin 2) (ue : List Nat) (s : State) : Ans := live s <| .next (s.writeOut half.val ue)

/-- SENTINEL_DUE (R309): DROVE_SENTINEL_TICKS ticks have passed since the last sentinel fell due. Where the Bell number has
gone past that, one sentinel falls due now, and the ticks are counted from here. -/
def execSentinelDue (s : State) : Ans := live s <|
  let n := s.ob O.DROVE_SENTINEL_TICKS
  if n = 0 then .next s
  else
    let b := max s.bell (min s.drove.sentBell s.bell + n)
    let s := s.advanceDev (s.bellStart b * devUnit)
    .next { s with drove := { s.drove with
      sentBell := b, sentinel := match s.drove.sentinel with
        | some x => some x
        | none => some (s.devNs / 2048) } }

/-! ### DROVE_TILE_CMD (R313) -/

/-- A fence of tile `t` by command: the running beat rolls back, and the fence takes effect at the next boundary. -/
def State.tileFence (s : State) (t : Nat) : State :=
  let hit := match s.drove.holder with
    | .op _ => s.liveTiles.contains t
    | _ => false
  { s with drove := { s.drove with roll := s.drove.roll || hit, fencing := (s.drove.fencing ++ [t]).eraseDups } }

/-- The spare switch that waits for the command (R305). -/
def State.tileSwitch (s : State) (t : Nat) : State :=
  match s.drove.awaiting.find? (fun x => x.1 == t) with
  | none => s
  | some _ =>
    let s := s.setSlots (s.slots.map (fun y => if y = 256 + t then t else y))
    { s with drove := { s.drove with switches := s.drove.switches ++ [t] } }

/-- The operation of DROVE_TILE_CMD. -/
def State.tileCmd (s : State) (t cmd : Nat) : State × Nat :=
  if 144 ≤ t then (s, 0x0A)
  else match cmd with
    | 1 => (s.tileFence t, 0)
    | 2 => (if s.tile t = tFenced then { s with drove := { s.drove with tests := s.drove.tests ++ [(t, true)] } } else s, 0)
    | 3 => (s.tileSwitch t, 0)
    | 4 => ({ s with drove := { s.drove with tests := s.drove.tests ++ [(t, false)] } }, 0)
    | _ => (s, 0x0A)

/-- DROVE_TILE_FENCE (R313). -/
def execDroveTileFence (who : Path) (t : BitVec 8) (s : State) : Ans :=
  .next (s.access who O.DROVE_TILE_CMD (fun s => s.tileCmd t.toNat 1))

/-- DROVE_TILE_UNFENCE (R308). -/
def execDroveTileUnfence (who : Path) (t : BitVec 8) (s : State) : Ans :=
  .next (s.access who O.DROVE_TILE_CMD (fun s => s.tileCmd t.toNat 2))

/-- DROVE_TILE_SWITCH (R305, R313). -/
def execDroveTileSwitch (who : Path) (t : BitVec 8) (s : State) : Ans :=
  .next (s.access who O.DROVE_TILE_CMD (fun s => s.tileCmd t.toNat 3))

/-- DROVE_TILE_SENTINEL (R313). -/
def execDroveTileSentinel (who : Path) (t : BitVec 8) (s : State) : Ans :=
  .next (s.access who O.DROVE_TILE_CMD (fun s => s.tileCmd t.toNat 4))

/-- Write the seven boundaries of DROVE_TEMP_BINS: every histogram row is cleared (R561). -/
def State.writeTempBins (s : State) (v : Nat) : State × Nat :=
  if (List.range 6).all (fun i => decide (bits v (8 * i) 8 < bits v (8 * i + 8) 8)) then
    ((List.range 7).foldl (fun (s : State) i => s.setRow O.DROVE_TEMP_BINS i (bits v (8 * i) 8))
      (s.clearRows O.TALLY_HIST 0 18432), 0)
  else (s, 0x0A)

/-- DROVE_TEMP_BINS_WRITE (R313, R561): the seven boundaries, lowest in the low byte. -/
def execDroveTempBinsWrite (who : Path) (v : BitVec 56) (s : State) : Ans :=
  .next (s.access who O.DROVE_TEMP_BINS (fun s => s.writeTempBins v.toNat))

/-! ### Overruns and wider fences (R275, R276, R307) -/

/-- Whether an operation is late for the tick that begins now. -/
def State.opLate (s : State) (o : Op) : Bool :=
  o.live && dDeadline o.desc != 0 && o.source == 0xFF && decide (s.bellOf48 (dDeadline o.desc) < s.bell) && !o.late

/-- Deadline work that its tick left uncommitted is counted once (R275); whether there was any. -/
def State.droveOverruns (s : State) : State × Bool :=
  let n := ((s.drove.ctxs.flatMap (fun c => c.2.ops)) ++ s.drove.drover).countP (fun o => s.opLate o)
  let mark := fun (o : Op) => if s.opLate o then { o with late := true } else o
  if n = 0 then (s, false)
  else
    let t := { s with drove := { s.drove with
      ctxs := s.drove.ctxs.map (fun (c : Nat × OpCtx) => (c.1, { c.2 with ops := c.2.ops.map mark })), drover := s.drove.drover.map mark } }
    ((t.count O.DROVE_STAT 7 n).raise O.DROVE_ERR 7, true)

/-- The running beat of an operation rolls back for a wider fence (R300). -/
def State.droveRoll (s : State) : State :=
  match s.drove.holder with
  | .op _ => { s with drove := { s.drove with roll := true } }
  | _ => s

/-- Paddock `p` is fenced (R307): its tiles leave the live set, their state is lost, and operations that held windows or
regions end with 0x04. -/
def State.droveFencePaddock (s : State) (p : Nat) : State :=
  let s := s.droveRoll
  let tiles := (List.range 9).map (· + 9 * p)
  let s := tiles.foldl (fun (s : State) t => s.setTile t tFenced) s
  let s := { s with drove := { s.drove with
    switches := s.drove.switches.filter (fun t => t / 9 != p)
    tests := s.drove.tests.filter (fun t => t.1 / 9 != p) } }
  let s := s.setSlots (s.slots.filter (fun t => t % 256 / 9 != p))
  let hurt := s.drove.ctxs.filter (fun c => decide (c.2.window ≠ 0 ∨ c.2.resident ≠ 0) && c.2.ops.any Op.live)
  let s := hurt.foldl (fun (s : State) c => (if c.2.susp then s.unsuspend c.1 else s).endOctx c.1 4) s
  if hurt.isEmpty then s else s.raise O.DROVE_ERR 9 4

/-- The device is fenced (R307): every operation ends with 0x04. -/
def State.droveFenceDevice (s : State) : State :=
  let s := s.droveRoll
  let s := s.drove.ctxs.foldl (fun (s : State) c => (if c.2.susp then s.unsuspend c.1 else s).endOctx c.1 4) s
  let d := s.drove.drover
  let s := d.foldl (fun (s : State) o => s.opEnd { o with ended := some 4 }) { s with drove := { s.drove with drover := [] } }
  let s := (List.range 64).foldl (fun (s : State) r =>
    let x := s.ring false r
    x.fetched.foldl (fun (s : State) (d : Nat) => s.opEnd { desc := d, source := r, origin := .ring r, ended := some 4 })
      (s.setRing false r { x with fetched := [] })) s
  (s.remoteRefuse).raise O.DROVE_ERR 9 4

/-- The Drove is to stop (R276): the running beat ends, then every operation that holds a window or a region is saved, in
beats of their own, and then the clock stops. With nothing to save it stops at once. -/
def State.droveGate (s : State) : State :=
  let s := s.resaveAll
  let s := { s with drove := { s.drove with stopping := true } }
  if s.drove.holder = .idle ∧ s.drove.saves.isEmpty then s.droveStop else s

/-- The clock runs again. -/
def State.droveUngate (s : State) : State := { s with drove := { s.drove with gated := false, stopping := false } }

end Sys2Proof.Machine
end

