-- ==== Sys2Proof/Machine/DroveCmds.lean ====
section
/-!
DEFINITION. Rings, admission, completion and remote requests of the Drove (R315 to R319, R334 to R351, R532 to R534).
-/

namespace Sys2Proof.Machine

/-! ### Ring registers (R351, R423, R532, R533) -/

/-- Whether a writer reaches ring `r`'s registers: host rings by the function that owns their page, core rings by the
cores; the physical function's BAR0 reaches the pasture field of every ring. -/
def State.ringReach (s : State) (dma : Bool) (r : Nat) : RingWriter → Bool
  | .bar0 => decide (r < 48) && s.ringOwner dma r == 0
  | .page f => decide (r < 48) && s.ringOwner dma r == f.val
  | .cores => decide (48 ≤ r)

/-- A write of register `i` of ring `r`. Through BAR0 the physical function writes its own rings, and of any other ring
the pasture and, for a VF's ring, the weight (R351, R533). -/
def State.ringReg (s : State) (who : RingWriter) (dma : Bool) (r i v : Nat) : State :=
  if s.ringReach dma r who then s.ringWrite dma r i v (decide (who = .bar0))
  else if who = .bar0 ∧ i = 1 then
    let x := s.ring dma r
    let cfg := setBits x.sqCfg 16 12 (bits v 16 12)
    s.setRing dma r { x with sqCfg := if r < 48 then setBits cfg 8 8 (bits v 8 8) else cfg }
  else s

/-- DROVE_SQ_DOORBELL (R317, R532): a write of SQ_TAIL. -/
def execDroveSqDoorbell (who : RingWriter) (dma : Bool) (r : Fin 64) (tail : BitVec 16) (s : State) : Ans := live s <|
  let s := if r.val < 48 then s.tally 0x0E00 (r.val + if dma then 48 else 0) else s
  .next (s.ringReg who dma r.val 2 tail.toNat)

/-- DROVE_RING_CONFIG_WRITE (R351): a write of another register of a ring, 0 SQ_BASE to 7 CQ_HEAD. -/
def execDroveRingConfigWrite (who : RingWriter) (dma : Bool) (r : Fin 64) (i : Fin 8) (v : BitVec 64) (s : State) : Ans := live s <|
  .next (s.ringReg who dma r.val i.val v.toNat)

/-- DESCRIPTOR_FETCH (R317): nothing is fetched over a link that is in reset. -/
def execDescriptorFetch (dma : Bool) (r : Fin 64) (s : State) : Ans := live s <|
  if s.mayFetch dma r.val && !(s.ringInHost dma r.val (s.ring dma r.val).sqBase && s.pcie.perst) then
    .next (s.fetch dma r.val)
  else .next s

/-! ### Admission (R319, R334 to R337, R342) -/

/-- Whether an operation may join a batch (R342). -/
def batchOk (d : Nat) : Bool :=
  dBatchable d && [3, 4, 5, 6, 0x0F].contains (dOpcode d) && decide (dWindow d ≤ 1) &&
  decide (dResident d = 0) && decide (dN d ≤ 4096)

/-- Why an operation never starts: its status and aux, or none. An operation with nothing to do ends with 0x00. -/
def State.stillborn (s : State) (o : Op) (owner : Nat) : Option Op :=
  match s.rejects o.desc o.source owner with
  | some (st, aux) => some { o with ended := some st, aux := aux }
  | none =>
    if s.deviceFenced then some { o with ended := some 4 }
    else if emptyOp o.desc then some { o with finished := true }
    else none

/-- The operations of a queue that form a batch with its head (R342): the head's opcode, no rejected member, and at most
`room` members and `units` units in all. -/
def State.batch (s : State) (opcode owner : Nat) : Nat → Nat → List Op → List Op
  | _, _, [] => []
  | 0, _, _ => []
  | room + 1, units, o :: l =>
    if batchOk o.desc && dOpcode o.desc == opcode && decide (dN o.desc ≤ units) && (s.stillborn o owner).isNone then
      o :: s.batch opcode owner room (units - dN o.desc) l
    else []

/-- The head of a queue, or the batch that begins with it. -/
def State.group (s : State) (owner : Nat) : List Op → List Op
  | [] => []
  | o :: l =>
    if batchOk o.desc && (s.ob O.FEAT_ACCEPT).testBit 14 then
      o :: s.batch (dOpcode o.desc) owner (s.ob O.DROVE_BATCH_MAX - 1) (32768 - dN o.desc) l
    else [o]

/-- Resident KiB per tile in use. -/
def State.residentUsed (s : State) : Nat := (s.drove.ctxs.map (fun c => c.2.resident)).sum

/-- The lowest base at which a window of `w` overlaps no other, or 0 (R268). -/
def State.windowBase (s : State) (w : Nat) : Nat :=
  ((List.range (65 - w)).find? (fun b =>
    s.drove.ctxs.all (fun c => decide (c.2.wbase + c.2.window ≤ b ∨ b + w ≤ c.2.wbase)))).getD 0

/-- Admit operations `ops` into context `c`. -/
def State.enterCtx (s : State) (c : Nat) (ops : List Op) (cls queue : Nat) : State :=
  let w := (ops.map (fun o => dWindow o.desc)).foldl max 0
  let r := (ops.map (fun o => residentOf o.desc)).foldl max 0
  let ops := if 1 < ops.length then ops.map (fun o => { o with opflags := setBit o.opflags 2 }) else ops
  let x : OpCtx := { ops := ops, cls := cls, queue := queue, order := s.drove.nextOrder, wbase := s.windowBase w
                     window := w, resident := r }
  let s := if 1 < ops.length then s.count O.DROVE_OPCNT 2 1 else s
  { s with drove := { s.drove with nextOrder := s.drove.nextOrder + 1, ctxs := TMap.put ({} : OpCtx) s.drove.ctxs c x } }

/-- Whether a group fits beside what is admitted (R267, R336). -/
def State.fits (s : State) (ops : List Op) : Bool :=
  decide (s.residentUsed + (ops.map (fun o => residentOf o.desc)).foldl max 0 ≤ 1024)

/-- The operation of a fetched descriptor of ring `r`. -/
def State.ringOp (s : State) (r d : Nat) : Op :=
  { desc := d, source := r, origin := .ring r, pasture := s.ringPasture false r }

/-- Send a ring descriptor with remote = 1 (R345): the space for its response is reserved first (R230), and it takes a
slot of its paddock's requester (R410). -/
def State.sendRemote (s : State) (r d : Nat) : Option State :=
  let p := r % 16
  let back := if oSpace (dSlot d 3) = 3 then inlineBytes d else 0
  match (if s.slotsUsed p < 1024 then s.prealloc (s.sinkQueue p 2) (cellsOf (64 + back)) else none) with
  | none => none
  | some s =>
    let w : RemoteWait := { ring := r, desc := d, dev := dRdev d, deadline := s.now + 1000 * s.ob O.DROVE_REMOTE_TO_US }
    some (({ s with drove := { s.drove with waits := s.drove.waits ++ [w] } }).send p (s.ringPasture false r) 0x30
      (dRdev d) (dRpaddock d) (leBytes 128 d))

/-- Take the head of ring `r`. -/
def State.admitRing (s : State) (r : Nat) : State :=
  let x := s.ring false r
  match x.fetched with
  | [] => s
  | d :: rest =>
    let owner := s.ringOwner false r
    let pop := s.setRing false r { x with fetched := rest }
    match s.stillborn (s.ringOp r d) owner with
    | some o => pop.opEnd o (o.ended == some 9 || o.ended == some 2)
    | none =>
      if dRemote d then (pop.sendRemote r d).getD s
      else
        let ops := s.group owner ((x.fetched.map (s.ringOp r)).takeWhile (fun o => !dRemote o.desc))
        match s.freeContext with
        | none => s
        | some c =>
          if s.fits ops then
            (s.setRing false r { x with fetched := x.fetched.drop ops.length }).enterCtx c ops 3 r
          else s

/-- The device a remote operation came from. -/
def Op.dev (s : State) (o : Op) : Nat :=
  match o.origin with
  | .remote dev _ _ _ => dev
  | .common id => (s.creq id).src
  | _ => s.own

/-- Take the head of the remote queue's list of device `dev`. -/
def State.admitRemote (s : State) (dev : Nat) : State :=
  let mine := s.drove.remote.filter (fun o => o.dev s == dev)
  match mine with
  | [] => s
  | o :: _ =>
    let cut := fun (l : List Op) => { s with drove := { s.drove with remote := l.foldl (fun q x => q.erase x) s.drove.remote } }
    match s.stillborn o 0 with
    | some x => (cut [o]).opEnd x (x.ended == some 9 || x.ended == some 2)
    | none =>
      let ops := s.group 0 mine
      match s.freeContext with
      | none => s
      | some c => if s.fits ops then (cut ops).enterCtx c ops 2 dev else s

/-- Take the Drover's next operation: its context is its collective's slot (R319). -/
def State.admitDrover (s : State) : State :=
  let slot := fun (o : Op) => match o.origin with
    | .drover id _ => (s.inst id).slot.getD 0
    | _ => 0
  let alive := fun (o : Op) => match o.origin with
    | .drover id _ => TMap.has s.coll.insts id
    | _ => false
  match s.drove.drover.find? (fun o => !alive o || !TMap.has s.drove.ctxs (slot o)) with
  | none => s
  | some o =>
    let t := { s with drove := { s.drove with drover := s.drove.drover.erase o } }
    if !alive o then t
    else match s.stillborn o 0 with
      | some x => t.opEnd x (x.ended == some 9 || x.ended == some 2)
      | none => t.enterCtx (slot o) [o] (if dDeadline o.desc = 0 then 3 else 1) 64

/-- DROVE_ADMIT (R336): the head of a source's queue is checked and admitted; it waits while it cannot be, and while the
Drove's clock is stopped (R276). -/
def execDroveAdmit (from_ : AdmitFrom) (s : State) : Ans := live s <|
  if s.drove.gated then .next s
  else match from_ with
    | .ring r => .next (s.admitRing r.val)
    | .remote dev => .next (s.admitRemote dev.val)
    | .drover => .next s.admitDrover

/-! ### Completion (R341) -/

/-- Whether every member of a context has ended. -/
def OpCtx.isOver (x : OpCtx) : Bool := !x.susp && !x.ops.isEmpty && x.ops.all (fun o => !o.live)

/-- End context `c`: a record for each of its members. -/
def State.ctxEnd (s : State) (c : Nat) (lost : Bool) : State :=
  ((s.octx c).ops.filter (fun o => !o.gone)).foldl (fun (s : State) o => s.opEnd o false lost) (s.freeOctx c)

/-- OPERATION_COMPLETE (R341): context `c`'s operation has ended, its last write-out has too, and its mirror writes are
acknowledged. -/
def execOperationComplete (c : Fin 256) (s : State) : Ans := live s <|
  if (s.octx c.val).isOver && !s.outputsWait c.val then .next (s.ctxEnd c.val false) else .next s

/-! ### Remote requests (R344, R345) -/

/-- REMOTE_REQUEST_RECEIVE (R318, R344): a frame of op 0x30 to 0x3F at a paddock's sink. With the remote queue full it
stays in its sink queue. -/
def execRemoteRequestReceive (paddock : Fin 16) (bytes : List Byte) (s : State) : Ans := live s <|
  let h := beAt bytes 0 32
  let l := bytes.drop 32
  let o : Op := { desc := leNum (l.take 128), source := 0xFE, pasture := hPasture h, payload := pclean (l.drop 128)
                  origin := .remote (hSrcDev h) (hSrcPort h) paddock.val (hPasture h) }
  if hOp h ≠ 0x30 then .next (s.opEnd { o with ended := some 9, aux := 1 } true)
  else if !s.pFeature (hPasture h) 13 then .next (s.opEnd { o with ended := some 9 } true)
  else if s.drove.gated || s.deviceFenced then .next (s.opEnd { o with ended := some 4 })
  else if 1024 ≤ s.drove.remote.length then .next s
  else .next { s with drove := { s.drove with remote := s.drove.remote ++ [o] } }

/-- Give back the response space of a remote descriptor. -/
def State.waitOver (s : State) (w : RemoteWait) : State :=
  let back := if oSpace (dSlot w.desc 3) = 3 then inlineBytes w.desc else 0
  ({ s with drove := { s.drove with waits := s.drove.waits.erase w } }).unprealloc (s.sinkQueue (w.ring % 16) 2) (cellsOf (64 + back))

/-- REMOTE_RESPONSE_RECEIVE (R345): a response of op 0x2F at a paddock's sink; it answers the oldest remote descriptor
sent to its device with its tag and opcode. -/
def execRemoteResponseReceive (paddock : Fin 16) (bytes : List Byte) (s : State) : Ans := live s <|
  let dev := hSrcDev (beAt bytes 0 32)
  let rec_ := leNum ((bytes.drop 32).take 32)
  match s.drove.waits.find? (fun w => w.dev == dev && w.ring % 16 == paddock.val &&
      dTag w.desc == bits rec_ 0 64 && dOpcode w.desc == bits rec_ 72 8) with
  | none => .next ((s.count O.DROVE_OPCNT 1 1).raise O.DROVE_OP_ERR 7)
  | some w =>
    let s := s.waitOver w
    let data := bytes.drop 64
    let a := oAddr (dSlot w.desc 3)
    let x := s.ring false w.ring
    let s := if oSpace (dSlot w.desc 3) ≠ 3 ∨ data.isEmpty then s
      else if s.ringInHost false w.ring x.sqBase then s.hostWrite a data
      else if hpaExists a data.length && !s.stackShut (hpaStack a) then s.hbmWrite a data else s
    .next (s.putRecord false w.ring (setBit rec_ 166) (dIrq w.desc))

/-- REMOTE_TIMEOUT (R345): the `n`th remote descriptor outstanding has had no response within DROVE_REMOTE_TO_US. -/
def execRemoteTimeout (n : Nat) (s : State) : Ans := live s <|
  match s.drove.waits[n]? with
  | none => .next s
  | some w =>
    let s := ((s.advanceTo w.deadline).waitOver w).raise O.DROVE_OP_ERR 5 8
    let o : Op := { desc := w.desc, source := w.ring, ended := some 8, opflags := 64 }
    .next (s.putRecord false w.ring o.record (dIrq w.desc))

/-- Every remote descriptor outstanding at device `dev`, which a notice names, ends with 0x04 (R411, R416). -/
def State.waitsFail (s : State) (dev : Nat) : State :=
  (s.drove.waits.filter (fun w => w.dev == dev)).foldl (fun s w =>
    let o : Op := { desc := w.desc, source := w.ring, ended := some 4, opflags := 64 }
    (s.waitOver w).putRecord false w.ring o.record (dIrq w.desc)) s

/-! ### Suspension (R347, R350) -/

/-- DROVE_SUSP_CMD: 1 resumes the operation of context `c` at its faulting beat, 2 completes it with its fault status. -/
def State.suspCmd (s : State) (c cmd : Nat) : State × Nat :=
  let row := s.row O.DROVE_SUSP c
  if !row.testBit 88 then (s, 0x0A)
  else match cmd with
    | 1 => (s.unsuspend c, 0)
    | 2 => ((s.unsuspend c).endOctx c (bits row 64 8), 0)
    | _ => (s, 0x0A)

/-- DROVE_SUSP_RESUME (R347). -/
def execDroveSuspResume (who : Path) (c : Fin 256) (s : State) : Ans :=
  .next (s.access who O.DROVE_SUSP_CMD (fun s => s.suspCmd c.val 1))

/-- DROVE_SUSP_ABORT (R347). -/
def execDroveSuspAbort (who : Path) (c : Fin 256) (s : State) : Ans :=
  .next (s.access who O.DROVE_SUSP_CMD (fun s => s.suspCmd c.val 2))

/-! ### Failed host accesses (R534) -/

/-- The row and error bit of a failure, and the status it gives. -/
def HostFault.row : HostFault → Nat
  | .timeout => 0
  | .refused => 1
  | .poisoned => 2
def HostFault.status : HostFault → Nat
  | .timeout => 8
  | .refused => 2
  | .poisoned => 3

/-- Count a failed host access and raise its error bit (R534, R544). -/
def State.hostFault (s : State) (f : HostFault) : State := ((s.count O.PCIE_STAT f.row 1).tally 0x0E03 0 (if f = .timeout then 1 else 0)).raise O.PCIE_ERR f.row f.status

/-- Stop ring `r` after a failed host access: the enable bit of a Drove ring is cleared, a DMA ring stops; the ring's fault
event is raised. -/
def State.hostStop (s : State) (dma : Bool) (r : Nat) (f : HostFault) : State :=
  if dma then s.stopDmaRing r f.status
  else
    let x := s.ring false r
    (s.setRing false r { x with sqCfg := clearBit x.sqCfg 5 }).event (s.ringFns false r) 0x01 r 0

/-- HOST_ACCESS_FAULT (R534): a host access made for ring `r` fails. A descriptor that could not be read has a tag and an
opcode that nothing states: free values. A record that cannot be written is lost. -/
def execHostAccessFault (dma : Bool) (r : Fin 64) (use : HostUse) (f : HostFault) (s : State) : Ans := live s <|
  match use with
  | .fetch =>
    if s.mayFetch dma r.val && s.ringInHost dma r.val (s.ring dma r.val).sqBase then
      let x := s.ring dma r.val
      let s := s.hostFault f
      let s := s.setRing dma r.val { x with sqHead := (x.sqHead + 1) % ringSize x.sqCfg, busy := x.busy + 1 }
      let tag := (Config.freeWord s.free).toNat
      let opc := (Config.freeWord (s.free + 1)).toNat % 256
      let s := s.draw.draw
      let s := if dma then s.putRecord true r.val (dmaRecord (opc + tag <<< 64) f.status 0 0 false false true) false
        else s.putRecord false r.val (tag + f.status <<< 64 + opc <<< 72 + r.val <<< 168) false
      .next (s.hostStop dma r.val f)
    else .next s
  | .operand =>
    if dma && (s.job r.val).live then
      let j := s.job r.val
      let a := (if j.buf.isNone then dmaSrc j.desc else dmaDst j.desc) + j.pos
      .next ((s.hostFault f).dmaFault r.val f.status a)
    else .next s
  | .record c =>
    if dma then
      if (s.job r.val).live then
        let x := s.ring true r.val
        .next ((((s.hostFault f).setJob r.val {}).setRing true r.val { x with busy := x.busy - 1 }).hostStop true r.val f)
      else .next s
    else if (s.octx c.val).isOver && !s.outputsWait c.val then
      .next (((s.hostFault f).ctxEnd c.val true).hostStop false r.val f)
    else .next s

end Sys2Proof.Machine
end

