-- ==== Sys2Proof/Machine/Muster.lean ====
section
/-!
DEFINITION. Muster (R460 to R481, R484 to R486): heartbeats, suspicion, votes and floods; the notice and what it does;
absence; replay to a stand-in and its end.
-/

namespace Sys2Proof.Machine

/-! ### CTRL frames that may not queue (R230, R464) -/

/-- Send a CTRL frame of op `op` to the peer of block `b`, and say whether it was queued. -/
def State.ctrlTry (s : State) (b op : Nat) (payload : List Byte) : State × Bool :=
  (s.sendCtrl b op payload, s.ctrlRoom b (s.ctrlFrame b op payload 0))

/-- The Muster flood payload (R464). -/
def floodPayload (dev origin hops serial bell arg : Nat) : List Byte :=
  beBytes 32 ((dev % 512) <<< 247 + (origin % 512) <<< 238 + (hops % 256) <<< 230 + (serial % 2 ^ 64) <<< 160 +
    (bell % 2 ^ 64) <<< 96 + (arg % 2 ^ 32) <<< 64)

/-- Queue a flood frame on the blocks of `to`; answers those that took it. One that did not is counted (R464, R484). -/
def State.floodTo (s : State) (dsts : List Nat) (op : Nat) (payload : List Byte) : State × List Nat :=
  dsts.foldl (fun (a : State × List Nat) b =>
    let r := a.1.ctrlTry b op payload
    if r.2 then (r.1, a.2 ++ [b]) else ((r.1.count O.MUSTER_STAT 9 1).raise O.MUSTER_ERR 7, a.2)) (s, [])

/-- Whether a flood key has been seen and is remembered (R464: 1,024 keys for 4,096 ticks). -/
def State.floodSeen (s : State) (op dev origin bell : Nat) : Option FloodSeen :=
  s.muster.floods.find? (fun k => k.op == op && k.dev == dev && k.origin == origin && k.bell == bell &&
    decide (s.bell ≤ k.seen + 4096))

/-- Remember a flood key. -/
def State.floodKeep (s : State) (k : FloodSeen) : State :=
  let rest := s.muster.floods.filter (fun x => !(x.op == k.op && x.dev == k.dev && x.origin == k.origin && x.bell == k.bell) &&
    decide (s.bell ≤ x.seen + 4096))
  { s with muster := { s.muster with floods := (k :: rest).take 1024 } }

/-- This device issues a flood frame on every Fold link port that is up or ctrl. -/
def State.floodIssue (s : State) (op dev hops serial bell arg : Nat) (tail : List Byte := []) : State :=
  let r := s.floodTo s.liveLinks op (floodPayload dev s.own hops serial bell arg ++ tail)
  r.1.floodKeep { op := op, dev := dev, origin := s.own, bell := bell, seen := s.bell, queued := r.2.foldl NSet.add [] }

/-- Issue a NOTICE, ABSENT, RESUMED or UNRECOV, which its origin repeats every 64 ticks for 1,024 ticks (R464). -/
def State.floodOwn (s : State) (op dev serial arg : Nat) : State :=
  let o : OwnFlood := { op := op, dev := dev, serial := serial, bell := s.bell, arg := arg
                        next := s.bell + 64, until_ := s.bell + 1024 }
  let s := s.floodIssue op dev 64 serial s.bell arg
  { s with muster := { s.muster with own := s.muster.own ++ [o] } }

/-! ### Neighbours and heartbeats (R460 to R463) -/

/-- State of device `f` in MUSTER_DEV_STATE. -/
def State.devState (s : State) (f : Nat) : Nat := bits (s.row O.MUSTER_DEV_STATE f) 0 3
def State.devSerial (s : State) (f : Nat) : Nat := bits (s.row O.MUSTER_DEV_STATE f) 64 64

/-- Set the state of device `f`, and with a notice its bell and serial. -/
def State.setDevState (s : State) (f st : Nat) : State :=
  s.setRow O.MUSTER_DEV_STATE f (setBits (s.row O.MUSTER_DEV_STATE f) 0 3 st)
def State.setDevNotice (s : State) (f st bell serial : Nat) : State :=
  s.setRow O.MUSTER_DEV_STATE f (setBits (setBits (setBits (s.row O.MUSTER_DEV_STATE f) 0 3 st) 16 48 bell) 64 64 serial)

/-- The torus neighbours of device `f` (R462). -/
def State.neighbours (s : State) (f : Nat) : List Nat :=
  (([0, 1, 2, 3, 4, 5].filterMap (fun d => s.neighbour f d)).filter (fun n => n != f)).eraseDups

/-- The ring and reach blocks of this device that face device `f`. -/
def State.facing (s : State) (f : Nat) : List Nat :=
  (List.range 128).filter (fun b => s.placed && (s.role b == 2 || s.role b == 3) && s.neighbour s.own (s.dir b) == some f)

/-- The miss count of the port of block `b` at the present tick (R461). -/
def State.missOf (s : State) (b : Nat) : Nat :=
  let d := s.bob b O.PORT_RTT_NS / 2
  s.bell - 1 - (d + s.period - 1) / s.period - TMap.get 0 s.muster.h b

/-- Whether the miss count of block `b` feeds suspicion: its port is up, ctrl or hold and not armed (R255, R461). -/
def State.missCounts (s : State) (b : Nat) : Bool :=
  [5, 6, 7].contains (s.portState (8 * b)) && (s.block b).armAt.isNone

/-- The smallest miss count that faces `f`; none where no port counts. -/
def State.missFacing (s : State) (f : Nat) : Option Nat :=
  (((s.facing f).filter s.missCounts).map s.missOf).min?

/-- The HEARTBEAT payload (R460). -/
def State.heartbeat (s : State) : List Byte :=
  beBytes 32 ((s.bell % 2 ^ 64) <<< 192 + Config.serial.toNat <<< 128 + (s.own % 512) <<< 119 + b2n s.muster.absent <<< 118 +
    (s.muster.notices % 2 ^ 32) <<< 64)

/-- HEARTBEAT_SEND (R460): the work of tick consumer 3; none from a fenced device, or in DS3 and DS4. -/
def State.heartbeats (s : State) : State :=
  if s.deviceFenced || decide (3 ≤ s.ob O.PWR_STATE) then s
  else s.liveLinks.foldl (fun s b => (s.ctrlTry b 0x08 s.heartbeat).1) s

/-- This device's own suspicion of `f` ends. -/
def State.unsuspect (s : State) (f : Nat) : State :=
  let s := { s with muster := { s.muster with suspects := TMap.put 0 s.muster.suspects f 0 } }
  if s.devState f = 1 then s.setDevState f 0 else s

/-- HEARTBEAT_RECEIVE (R461, R462). -/
def execHeartbeatReceive (b : Fin 128) (bytes : List Byte) (s : State) : Ans := live s <|
  let h := beAt bytes 0 32
  let p := beAt bytes 32 32
  let f := bits p 119 9
  if hOp h ≠ 0x08 ∨ !s.isLink b.val then .next s
  else
    let s := (s.count O.MUSTER_STAT 0 1).tally 0x0C00 b.val
    let s := { s with muster := { s.muster with h := TMap.put 0 s.muster.h b.val (max (TMap.get 0 s.muster.h b.val) (bits p 192 64)) } }
    .next (if (s.facing f).contains b.val then s.unsuspect f else s)

/-! ### The log and the notice (R466 to R468) -/

/-- Whether a collective is recoverable here after the loss of `f` (R468, R471, and feature 10). -/
def State.recoverable (s : State) (c : CInst) (f : Nat) : Bool :=
  s.muster.logMib != 0 && s.pFeature (cmPasture (s.comm c.row)) 10 &&
  decide (TMap.get 0 s.muster.trimmed f ≤ c.start - cmLag (s.comm c.row))

/-- Hold the collectives of `f` and report those that are not recoverable (R466, R468). -/
def State.musterHold (s : State) (f : Nat) : State :=
  let s := s.collHold f
  (s.coll.insts.filter (fun x => x.2.held.contains f && !s.recoverable x.2 f)).foldl (fun s x =>
    (s.raise O.MUSTER_ERR 2 4).collNote x.2.row x.2.seq 4) s

/-- Frames that wait for a full local source leave out destination `p`; one bound for it alone is dropped. -/
def State.flushBacklog (s : State) (p : Nat) : State :=
  { s with fold := { s.fold with backlog :=
    (s.fold.backlog.map (fun (x : Nat × List (Frame × List Nat)) =>
      (x.1, (x.2.map (fun y => (y.1, y.2.filter (· != p)))).filter (fun y => !y.2.isEmpty)))).filter (fun x => !x.2.isEmpty) } }

/-- Drop every frame bound for port `p`, in VOQs, reorder contexts and egress queues (R238, R482); answers the number.
A local producer of one is told 0x04. -/
def State.flushPort (s : State) (p : Nat) : State × Nat :=
  let mine := fun (c : Copy) => c.members.any (fun q => q / 12 == p)
  let s := s.flushBacklog p
  let early := (s.fold.copies.filter (fun x => mine x.2 && (x.2.stage == .waiting || x.2.stage == .held))).map (·.1)
  let s := early.foldl (fun (s : State) id =>
    let c := s.copy id
    let s := s.tellProducer c.frame 4
    if c.members.all (fun q => q / 12 == p) then s.purgeCopy id
    else
      let gone := c.members.filter (fun q => q / 12 == p)
      if c.stage = .waiting then (s.leaveVoqs id c gone).setCopy id { c with members := c.members.filter (fun q => q / 12 != p) }
      else gone.foldl (fun s q => s.dropFrom id q) s) s
  let told := ((s.fold.copies.filter (fun x => mine x.2)).foldl (fun (s : State) x => s.tellProducer x.2.frame 4) s)
  let r := told.dropPort p
  (r.1, r.2 + early.length)

/-- The directions in which `f` is this device's neighbour. -/
def State.dirsTo (s : State) (f : Nat) : List Nat :=
  [0, 1, 2, 3, 4, 5].filter (fun d => s.neighbour s.own d == some f)

/-- FAILOVER_FLUSH (R238) and the failover bits towards `f` (R466). -/
def State.failover (s : State) (f : Nat) : State :=
  let s := (s.facing f).foldl (fun s b =>
    let r := s.flushPort (8 * b)
    if r.2 = 0 then r.1 else r.1.vcCount 5 (some 6) r.2) s
  s.setOb O.ROUTE_FAILOVER_ACT ((s.dirsTo f).foldl setBit (s.ob O.ROUTE_FAILOVER_ACT))

/-- Steps 2 to 6 of R466, for a notice (state 2) or an absence (state 3). -/
def State.loseDevice (s : State) (f st bell serial : Nat) : State :=
  let s := (s.unsuspect f).setDevNotice f st bell serial
  let s := { s with muster := { s.muster with frozen := s.muster.frozen.add f, votes := s.muster.votes.filter (fun v => v.dev != f) } }
  let s := s.failover f
  let s := (s.requestsFail f).waitsFail f
  let s := if s.ob O.COMMON_BUDDY = f then s.buddyLost else s
  let s := if s.ob O.COMMON_MIRROR_OF = f then { s with common := { s.common with lost := s.common.lost ++ [16] } } else s
  let s := s.musterHold f
  (s.event [0] 6 f st).errLog 0x4000 0 4 8 f 0

/-- The stand-in floods UNRECOV(f, g) and, when it has recorded its own, RESUMED (R477, R478). -/
def State.endHeld (s : State) (f : Nat) : State :=
  let s := ((s.collUnrecov f).setDevState f 5).raise O.MUSTER_ERR 5 4
  let s := { s with muster := { s.muster with frozen := s.muster.frozen.remove f, gaps := s.muster.gaps.remove f } }
  (s.count O.MUSTER_STAT 5 1).event [0] 6 f 5

/-- What RESUMED(f) under `serial` does (R476). -/
def State.resumed (s : State) (f serial : Nat) : State :=
  let s := s.setRow O.MUSTER_DEV_STATE f (setBits (setBits (s.row O.MUSTER_DEV_STATE f) 0 3 0) 64 64 serial)
  let s := { s with muster := { s.muster with
    frozen := s.muster.frozen.remove f, gaps := s.muster.gaps.remove f, away := TMap.put 0 s.muster.away f 0 } }
  ((s.collUnhold f).count O.MUSTER_STAT 4 1).event [0] 6 f 0

/-- The stand-in ends its recovery with RESUMED (R474); one that is back from an absence announces it no more (log entry
147). -/
def State.floodResumed (s : State) : State :=
  let f := s.own
  let s := { s with muster := { s.muster with recov := none, absent := false } }
  (s.floodOwn 0x0C f Config.serial.toNat 0).resumed f Config.serial.toNat

/-- The stand-in ends its recovery with UNRECOV(own, g), and RESUMED at once (R477, R478). -/
def State.floodUnrecov (s : State) (g : Nat) : State :=
  let f := s.own
  let s := { s with muster := { s.muster with recov := none, ringBad := true } }
  ((s.floodOwn 0x0D f Config.serial.toNat g).endHeld f).floodResumed

/-- The devices of MUSTER_MEMBERS. -/
def State.members (s : State) : List Nat :=
  let m := s.blob O.MUSTER_MEMBERS
  (List.range 512).filter (fun d => (leAt m 0 64).testBit d)

/-- Devices whose notice was recorded here after that of `f`. -/
def State.noticedAfter (s : State) (f : Nat) : List Nat := s.muster.noticed.takeWhile (fun d => d != f)

/-- Look at a recovery after a change of what it holds: a member shown failed before its LOG_END makes it unrecoverable,
and so does an incomplete log; with every LOG_END in it is over (R474, R477). -/
def State.recovCheck (s : State) (shown : List Nat) : State :=
  match s.muster.recov with
  | none => s
  | some r =>
    let m := s.members
    match m.find? (fun g => !r.ends.contains g && (shown.contains g || (s.noticedAfter s.own).contains g)) with
    | some g => s.floodUnrecov g
    | none =>
      if r.incomplete then s.floodUnrecov s.own
      else if m.all (fun d => r.ends.contains d) then s.floodResumed
      else s

/-- NOTICE(f, serial) with its bell is recorded (R466); a device that is named fences itself, which the caller does. -/
def State.noticeRecord (s : State) (f serial bell : Nat) : State :=
  if (s.devState f = 2 ∨ s.devState f = 4) ∧ s.devSerial f = serial then s
  else
    let s := s.loseDevice f 2 bell serial
    let s := { s with muster := { s.muster with noticed := (f :: s.muster.noticed).take 1024, notices := s.muster.notices + 1
                                                away := TMap.put 0 s.muster.away f 0 } }
    ((s.count O.MUSTER_STAT 2 1).raise O.MUSTER_ERR 0 4 8 f 0).recovCheck []

end Sys2Proof.Machine
end

