-- ==== Sys2Proof/Machine/Fence.lean ====
section
/-!
DEFINITION. Fences of blocks, stacks, paddocks and the device (R97, R210, R307, R418, R482, R483, R485).
-/

namespace Sys2Proof.Machine

/-- Set or clear the bit of block `b` in FENCE_BLOCKS. -/
def State.markBlock (s : State) (b : Nat) (v : Bool) : State :=
  let oid := if b < 64 then O.FENCE_BLOCKS else O.FENCE_BLOCKS_HI
  s.setOb oid (if v then setBit (s.ob oid) (b % 64) else clearBit (s.ob oid) (b % 64))

/-- Drop the frames of the pen of input `b` that have not left it, with those a producer holds for it; answers the number. -/
def State.dropPen (s : State) (b : Nat) : State × Nat :=
  let held := (s.backlog b).length
  let s := s.setBacklog b []
  let l := (s.fold.copies.filter (fun x => x.2.input == b && decide (x.2.left < x.2.frame.cells) && !(x.2.stays && x.2.stage != .waiting))).map (·.1)
  (l.foldl (fun s id => s.purgeCopy id) s, l.length + held)

/-- A block is fenced (R482): lanes to electrical idle, link reset, members not live, pen and egress frames dropped and
counted, local producers answered 0x04; an arm ends (R256). A fence of a fenced block changes nothing (R483). -/
def State.blockFence (s : State) (b : Nat) : State :=
  let s := s.fenceLog 1 2 b
  if s.blockFenced b then s
  else
    let r := s.dropPen b
    let s := r.1.portCount b 6 r.2
    let s := (s.ports b).foldl (fun s p =>
      let r := s.flushPort p
      r.1.portCount b 6 r.2) s
    let s := (((s.markBlock b true).disarm b).blockDown b).portErr b 10 4
    (s.ports b).foldl (fun s p => s.setPortState p 8) s

/-- The log segments of stack `st` are lost (R482, R483): trimmed bells become now, and a frozen log has a gap. -/
def State.logLost (s : State) (st : Nat) : State :=
  let gone := s.muster.segs.filter (fun g => g.stack == st)
  { s with muster := { s.muster with
      segs := s.muster.segs.filter (fun g => g.stack != st)
      trimmed := gone.foldl (fun m g => TMap.put 0 m g.dest (s.bell + 1)) s.muster.trimmed
      gaps := gone.foldl (fun m g => if s.muster.frozen.contains g.dest then m.add g.dest else m) s.muster.gaps } }

/-- A queue whose groups lay on stack `st`: an eviction in flight to it is cancelled, its near cells being there still (R92),
and what lies there or is being fetched from there is lost (R97). -/
def EQueue.loseStack (q : EQueue) (st : Nat) : EQueue :=
  { q with groups := q.groups.map (fun g => match g.place with
    | .near => g
    | .evicting k => if k = st then { g with place := .near } else g
    | .far k => if k = st then { g with fenced := true } else g
    | .fetching k => if k = st then { g with fenced := true } else g) }

/-- A stack is fenced (R97, R300, R378, R418, R482): a Drove beat that runs is rolled back, its groups are poisoned, the reach blocks of its die, whose pools stripe
over the die's four stacks, are fenced, its log segments are lost, the lost walk is due, and every
collective loses the share of its work area that lies there (R380). -/
def State.stackFence (s : State) (st : Nat) : State :=
  let s := s.fenceLog 2 5 st
  if (s.ob O.FENCE_STACKS).testBit st then s
  else
    let s := (s.setOb O.FENCE_STACKS (setBit (s.ob O.FENCE_STACKS) st)).droveRoll
    let inFlight := (s.fold.queues.map (fun x => (x.2.groups.filter (fun g => g.place == .evicting st)).length)).sum
    let s := { s with fold := { s.fold with queues := s.fold.queues.map (fun (x : Nat × EQueue) => (x.1, x.2.loseStack st)) } }
    let s := s.slotFree (st / 4) inFlight
    let reach := (List.range 32).map (· + 32 * (st / 4)) |>.filter (fun b => s.role b == 3)
    let s := reach.foldl (fun s b => s.blockFence b) s
    let s := (s.logLost st).raise O.COMMON_ERR 4 4 5 st 0
    let s := { s with common := { s.common with lost := s.common.lost ++ [st] } }
    s.collFenced (fun _ => true)

/-- What paddock `p`'s sink, source and translation unit hold: frames are dropped, requests answered 0x04 (R482, R593). -/
def State.paddockShut (s : State) (p : Nat) : State :=
  let s := (s.flushPort (1024 + p)).1
  let s := (s.dropPen (128 + p)).1
  let s := (s.common.reqs.filter (fun x => x.2.unit == p)).foldl (fun s x =>
    (s.answer x.2 4 0 0 0 [] false false).dropCreq x.1) s
  { s with common := { s.common with walks := s.common.walks.filter (fun w => w.1 != p) } }

/-- A paddock is fenced (R307, R482): its blocks, tiles and stack, its bank groups as degraded ones, its sink and source,
its translation unit and its cores. -/
def State.paddockFence (s : State) (p : Nat) : State :=
  let s := s.fenceLog 3 6 p
  if (s.ob O.FENCE_PADDOCKS).testBit p then s
  else
    let s := s.setOb O.FENCE_PADDOCKS (setBit (s.ob O.FENCE_PADDOCKS) p)
    let s := (List.range 8).foldl (fun s i => s.blockFence (8 * p + i)) s
    let s := (s.droveFencePaddock p).stackFence p
    let s := (List.range 8).foldl (fun s i => s.setBank (8 * p + i) { s.bank (8 * p + i) with degraded := true }) s
    let s := s.paddockShut p
    let s := [0, 1, 2, 3].foldl (fun s i => s.setRow O.CRIOTTE_STATE (4 * p + i) 2) s
    s.collFenced (fun c => s.homePaddock c == p)

/-- The device is fenced (R466, R482): every block, every Drove operation with 0x04, heartbeats stop, FAULT_N asserted. -/
def State.deviceFence (s : State) : State :=
  let s := s.fenceLog 4 8 s.own
  if s.deviceFenced then s
  else
    let s := s.setOb O.FENCE_DEVICE 1
    let s := (List.range 128).foldl (fun s b => if s.blockFenced b then s else s.blockFence b) s
    let s := s.droveFenceDevice
    { s with power := { s.power with faultN := false } }

/-- FENCE_CMD with its operation, kind and unit; a command that names no unit, or unfences other than a block, is
rejected (R485). A block inside a wider fence stays fenced (R483). -/
def State.fenceCmd (s : State) (op kind unit : Nat) : State × Nat :=
  let inside := s.deviceFenced || (s.ob O.FENCE_PADDOCKS).testBit (unit / 8) ||
    (s.role unit == 3 && [0, 1, 2, 3].any (fun i => (s.ob O.FENCE_STACKS).testBit (4 * (unit / 32) + i)))
  let r : Option State :=
    match op, kind with
    | 1, 1 => if unit < 128 then some (s.blockFence unit) else none
    | 1, 2 => if unit < 16 then some (s.stackFence unit) else none
    | 1, 3 => if unit < 16 then some (s.paddockFence unit) else none
    | 1, 4 => some s.deviceFence
    | 2, 1 =>
      if unit < 128 then
        some (if inside || !s.blockFenced unit then s else (s.markBlock unit false).blockStart unit)
      else none
    | _, _ => none
  match r with
  | some t => (t.setOb O.FENCE_STATUS 0, 0)
  | none => (s.setOb O.FENCE_STATUS 9, 9)

/-- FENCE_BLOCK, FENCE_STACK, FENCE_PADDOCK, FENCE_DEVICE and UNFENCE_BLOCK: the five forms of FENCE_CMD. A stack is also
fenced by its own controller (`who` none). -/
def execFenceBlock (who : Path) (b : BitVec 8) (s : State) : Ans :=
  .next (s.access who O.FENCE_CMD (fun s => s.fenceCmd 1 1 b.toNat))
def execFenceStack (who : Option Path) (st : BitVec 8) (s : State) : Ans :=
  match who with
  | some w => .next (s.access w O.FENCE_CMD (fun s => s.fenceCmd 1 2 st.toNat))
  | none => .next (s.stackFence (st.toNat % 16))
def execFencePaddock (who : Path) (p : BitVec 8) (s : State) : Ans :=
  .next (s.access who O.FENCE_CMD (fun s => s.fenceCmd 1 3 p.toNat))
def execFenceDevice (who : Path) (s : State) : Ans :=
  .next (s.access who O.FENCE_CMD (fun s => s.fenceCmd 1 4 0))
def execUnfenceBlock (who : Path) (b : BitVec 8) (s : State) : Ans :=
  .next (s.access who O.FENCE_CMD (fun s => s.fenceCmd 2 1 b.toNat))

end Sys2Proof.Machine
end

