-- ==== Sys2Proof/Machine/MusterCmds.lean ====
section
/-!
DEFINITION. The Muster commands: floods received and repeated, votes, absence, the log, replay, and MUSTER_CMD.
-/

namespace Sys2Proof.Machine

/-! ### Notices and votes (R463, R466) -/

/-- A notice is taken in: it names this device, which fences itself, or it is recorded (R466). A notice of an earlier
incarnation of this number is recorded. -/
def State.noticeTake (s : State) (f serial bell : Nat) : State :=
  if f = s.own ∧ serial = Config.serial.toNat then (s.raise O.MUSTER_ERR 1).deviceFence
  else s.noticeRecord f serial bell

/-- Whether this device holds a quorum of votes for `f`, its own among them (R463). -/
def State.hasQuorum (s : State) (f : Nat) : Bool :=
  let near := s.neighbours f
  let n := (near.filter (fun d => s.devState d != 2 && s.devState d != 3)).length
  let q := min n (s.row O.MUSTER_QUORUM (n - 1))
  let origins := ((s.muster.votes.filter (fun v => v.dev == f && v.origin != s.own && near.contains v.origin &&
    decide (s.bell ≤ v.bell + s.ob O.MUSTER_VOTE_TTL))).map (·.origin)).eraseDups
  n != 0 && near.contains s.own && TMap.get 0 s.muster.suspects f != 0 && decide (q ≤ origins.length + 1)

/-- The serial of `f` that its last hello to this device gave. -/
def State.helloSerial (s : State) (f : Nat) : Nat :=
  match s.facing f with
  | b :: _ => (s.block b).peerSerial
  | [] => s.devSerial f

/-- Issue and record a notice when the votes suffice (R463). -/
def State.voteCheck (s : State) (f : Nat) : State :=
  if s.hasQuorum f then
    let serial := s.helloSerial f
    (s.floodOwn 0x0A f serial 0).noticeTake f serial s.bell
  else s

/-- Send SUSPECT(f) (R462): each is a new one with the present Bell number. -/
def State.sendSuspect (s : State) (f : Nat) : State :=
  let s := s.floodIssue 0x09 f 4 (s.helloSerial f) s.bell 0
  { s with muster := { s.muster with suspects := TMap.put 0 s.muster.suspects f (s.bell + 1) } }

/-- Whether this device may suspect `f`: a torus neighbour, not failed, and not in a running absence (R462, R480). -/
def State.maySuspect (s : State) (f : Nat) : Bool :=
  (s.neighbours s.own).contains f && TMap.get 0 s.muster.suspects f == 0 && !s.deviceFenced &&
  (s.devState f == 0 || (s.devState f == 3 && !TMap.has s.muster.away f))

/-- Suspect `f` when its smallest miss count has reached MUSTER_K (R462). Its row keeps an absence that has run out. -/
def State.suspect (s : State) (f : Nat) : State :=
  match s.missFacing f with
  | some m =>
    if s.maySuspect f ∧ s.ob O.MUSTER_K ≤ m then
      let s := if s.devState f = 0 then s.setDevState f 1 else s
      ((s.count O.MUSTER_STAT 1 1).sendSuspect f).voteCheck f
    else s
  | none => s

/-- SUSPECT (R462). -/
def execSuspect (f : Fin 512) (s : State) : Ans := live s <| .next (s.suspect f.val)

/-- Muster's work at a tick (R449, R460 to R462): heartbeats, then miss counts. -/
def State.musterTick (s : State) : State := (s.neighbours s.own).foldl (fun s f => s.suspect f) s.heartbeats

/-- SUSPECT_REPEAT (R462): every 64 ticks while the suspicion lasts. -/
def execSuspectRepeat (f : Fin 512) (s : State) : Ans := live s <|
  let t := TMap.get 0 s.muster.suspects f.val
  .next (if t ≠ 0 ∧ t + 63 ≤ s.bell then (s.sendSuspect f.val).voteCheck f.val else s)

/-- VOTE_EXPIRE (R463): votes older than MUSTER_VOTE_TTL ticks stop counting. -/
def execVoteExpire (s : State) : Ans := live s <|
  .next { s with muster := { s.muster with
    votes := s.muster.votes.filter (fun v => decide (s.bell ≤ v.bell + s.ob O.MUSTER_VOTE_TTL)) } }

/-! ### What a flood frame brings (R463, R466, R476, R478, R480, R512) -/

/-- ABSENT(f, serial, a) is recorded (R480): of a device that is failed or recovering it changes nothing. -/
def State.absentTake (s : State) (f serial bell a : Nat) : State :=
  if f = s.own ∨ s.devState f = 2 ∨ s.devState f = 4 then s
  else
    let s := (s.loseDevice f 3 bell serial).count O.MUSTER_STAT 3 1
    { s with muster := { s.muster with away := TMap.put 0 s.muster.away f (bell + a) } }

/-- FEATURES of device `dev` (R512, R513): its vector is recorded, and a pasture that runs a bit it lacks is reported. -/
def State.featuresTake (s : State) (dev v : Nat) : State :=
  let s := s.setRow O.FEAT_FABRIC dev v
  let lacking := (s.rowsOf O.FEAT_PASTURE_ACTIVE).filter (fun x =>
    (s.row O.FEAT_PASTURE_MEMBERS x.1).testBit dev && xorN (x.2 &&& v) x.2 != 0)
  lacking.foldl (fun s x => ((s.count O.CTL_STAT 3 1).raise O.CTL_ERR 6 0 0 0 x.1).event [0] 8 6 x.1) s

/-- Hand a flood frame to its consumer. `tail` is what follows the flood payload. -/
def State.floodTake (s : State) (op dev origin serial bell arg : Nat) (tail : List Byte) : State :=
  match op with
  | 0x09 =>
    let v : Vote := { dev := dev, origin := origin, bell := s.bell }
    if (s.neighbours dev).contains s.own ∧ (s.neighbours dev).contains origin then
      ({ s with muster := { s.muster with votes := v :: s.muster.votes.filter (fun w => !(w.dev == dev && w.origin == origin)) } }).voteCheck dev
    else s
  | 0x0A => s.noticeTake dev serial bell
  | 0x0B => s.absentTake dev serial bell arg
  | 0x0C => s.resumed dev serial
  | 0x0D => s.endHeld dev
  | 0x0E => s.featuresTake dev (beAt tail 0 32)
  | _ => s

/-- FLOOD_FRAME_RECEIVE (R464): a new key goes on, with one hop less, on every other Fold link port that is up or ctrl,
and to its consumer; a known key goes on only where it could not be queued. -/
def State.floodReceive (s : State) (b : Nat) (bytes : List Byte) : State :=
  let op := hOp (beAt bytes 0 32)
  if !s.isLink b ∨ op < 0x09 ∨ 0x0E < op then s
  else
    let p := beAt bytes 32 32
    let dev := bits p 247 9
    let origin := bits p 238 9
    let hops := bits p 230 8
    let tail := bytes.drop 64
    let old := s.floodSeen op dev origin (bits p 96 64)
    let done := match old with | some k => k.queued | none => []
    let dsts := s.liveLinks.filter (fun x => x != b && !done.contains x)
    let r := if hops = 0 then (s, []) else s.floodTo dsts op (beBytes 32 (setBits p 230 8 (hops - 1)) ++ tail)
    let k : FloodSeen := { op := op, dev := dev, origin := origin, bell := bits p 96 64
                           seen := (match old with | some k => k.seen | none => s.bell)
                           queued := r.2.foldl NSet.add done }
    let s := r.1.floodKeep k
    match old with
    | some _ => s
    | none => s.floodTake op dev origin (bits p 160 64) (bits p 96 64) (bits p 64 32) tail

def execFloodFrameReceive (b : Fin 128) (bytes : List Byte) (s : State) : Ans := live s <| .next (s.floodReceive b.val bytes)

/-- FLOOD_REPEAT (R464): floods of this device that are due go again, under their own key, on every Fold link port that
is up or ctrl; after 1,024 ticks they end. -/
def execFloodRepeat (s : State) : Ans := live s <|
  let live := s.muster.own.filter (fun o => decide (s.bell ≤ o.until_))
  let due := live.filter (fun o => decide (o.next ≤ s.bell))
  let s := { s with muster := { s.muster with own := live.map (fun o =>
    if o.next ≤ s.bell then { o with next := s.bell + 64 } else o) } }
  .next (due.foldl (fun s o => s.floodIssue o.op o.dev 64 o.serial o.bell o.arg) s)

/-- ABSENCE_EXPIRE (R480): the Bell number has passed the end of the absence of `f`. -/
def execAbsenceExpire (f : Fin 512) (s : State) : Ans := live s <|
  if TMap.has s.muster.away f.val ∧ TMap.get 0 s.muster.away f.val < s.bell then
    .next (({ s with muster := { s.muster with away := TMap.put 0 s.muster.away f.val 0 } }).raise O.MUSTER_ERR 6 0 8 f.val 0)
  else .next s

/-! ### The log and its replay (R470, R473, R474) -/

/-- LOG_SEGMENT_FREE (R470): the oldest segment whose newest entry is older than MUSTER_W ticks and whose destination's
log is not frozen. -/
def execLogSegmentFree (s : State) : Ans := live s <|
  match s.muster.segs.findIdx? (fun g => !s.muster.frozen.contains g.dest &&
      (match g.entries.getLast? with | some e => decide (e.bell + s.ob O.MUSTER_W < s.bell) | none => true)) with
  | some i => .next (s.freeSeg i)
  | none => .next s

/-- Insert an entry in lseq order. -/
def insertEntry (e : LogEntry) : List LogEntry → List LogEntry
  | [] => [e]
  | x :: l => if e.lseq ≤ x.lseq then e :: x :: l else x :: insertEntry e l

/-- The entries held for device `f`, in lseq order. -/
def State.entriesFor (s : State) (f : Nat) : List LogEntry :=
  ((s.muster.segs.filter (fun g => g.dest == f)).flatMap (·.entries)).foldr insertEntry []

/-- An entry as stored: header, frame, padding to a multiple of 32 (R470). -/
def LogEntry.stored (e : LogEntry) : List Byte :=
  leBytes 32 e.header ++ padTo ((e.frame.length + 31) / 32 * 32) e.frame

/-- The LOG_END payload for `f` (R473). -/
def State.logEnd (s : State) (f : Nat) (l : List LogEntry) : List Byte :=
  let last := match l.getLast? with | some e => e.lseq | none => 0
  beBytes 80 ((l.length % 2 ^ 32) <<< 608 + (last % 2 ^ 32) <<< 576 + b2n (s.muster.gaps.contains f) <<< 575 +
    (s.noticedAfter f).foldl (fun a d => setBit a d) 0)

/-- Send the frozen entries for `f` and LOG_END (R473), from paddock 0. -/
def State.sendReplay (s : State) (f : Nat) : State :=
  let l := if s.muster.frozen.contains f then s.entriesFor f else []
  let s := l.foldl (fun s e => s.send 0 0 0x60 f 0 e.stored) s
  s.send 0 0 0x61 f 0 (s.logEnd f l)

/-- REPLAY_RESTART (R473, R483): a LOG_ENTRY to `f` was dropped before it was acked. -/
def execReplayRestart (f : Fin 512) (s : State) : Ans := live s <|
  .next (if s.devState f.val = 4 ∧ f.val ≠ s.own then s.sendReplay f.val else s)

/-- A logged collective frame comes to the Drover as though it arrived from the sender (R474). -/
def State.droverTakes (s : State) (frame : List Byte) : State :=
  let h := beAt frame 0 32
  let op := hOp h
  let go := fun (a : Ans) => match a with | .next t => t | _ => s
  if op = 0x58 then s.startReceive frame true
  else if op = 0x59 then go (execCollResultReceive frame s)
  else if op = 0x5A then go (execCollAbortReceive frame s)
  else if hDstDev h ≠ s.own then s
  else match op with
    | 0x41 => go (execCollPostFwdReceive frame s)
    | 0x42 => go (execCollNoteReceive frame s)
    | 0x44 => go (execCollStepReceive frame s)
    | _ => s

/-- Write a Common-write entry into the replay ring, wrapping at its end (R474). -/
def State.replayWrite (s : State) (l : List Byte) : State :=
  let size := s.ob O.MUSTER_REPLAY_SIZE
  if size = 0 then s
  else
    let at_ := s.muster.ringAt % size
    let base := s.ob O.MUSTER_REPLAY_BASE
    let n := min l.length (size - at_)
    let s := (s.hbmWrite (base + at_) (l.take n)).hbmWrite base (l.drop n)
    { s with muster := { s.muster with ringAt := (at_ + l.length) % size } }

/-- LOG_ENTRY_RECEIVE (R474): an entry already received is discarded; a collective entry goes to the Drover, a Common
write into the replay ring. -/
def execLogEntryReceive (bytes : List Byte) (s : State) : Ans := live s <|
  match s.muster.recov with
  | none => .next s
  | some r =>
    let from_ := hSrcDev (beAt bytes 0 32)
    let e := bytes.drop 32
    let hd := leAt e 0 32
    let lseq := bits hd 96 32
    if lseq + 1 ≤ TMap.get 0 r.last from_ then .next s
    else
      let r := { r with last := TMap.put 0 r.last from_ (lseq + 1) }
      let s := ({ s with muster := { s.muster with recov := some r } }).count O.MUSTER_STAT 8 1
      let frame := (e.drop 32).take (bits hd 64 16)
      .next (if hd.testBit 57 then s.replayWrite e else s.droverTakes frame)

/-- LOG_END_RECEIVE (R474, R477). -/
def execLogEndReceive (bytes : List Byte) (s : State) : Ans := live s <|
  match s.muster.recov with
  | none => .next s
  | some r =>
    let from_ := hSrcDev (beAt bytes 0 32)
    let p := beAt bytes 32 80
    let r := { r with ends := r.ends.add from_, incomplete := r.incomplete || p.testBit 575 }
    .next (({ s with muster := { s.muster with recov := some r } }).recovCheck ((List.range 512).filter (fun d => p.testBit d)))

/-- REPLAY_TIMEOUT (R472, R484): MUSTER_REPLAY_TO_MS after MUSTER_CMD op 2, the stand-in has not resumed. -/
def execReplayTimeout (s : State) : Ans := live s <|
  match s.muster.recov with
  | none => .next s
  | some r => .next ((s.advanceTo r.deadline).raise O.MUSTER_ERR 4)

/-! ### MUSTER_CMD (R472, R473, R477, R480, R485) -/

/-- Op 1: device `f` is recorded as failed here, as a notice records it. -/
def State.declareFailed (s : State) (f : Nat) : State := s.noticeTake f (s.helloSerial f) s.bell

/-- Op 2: device `f` is recovering; its entries go to it, and at the stand-in, which bears its number, the recovery
starts. -/
def State.musterResume (s : State) (f : Nat) : State :=
  let s := s.setDevState f 4
  if f = s.own then
    let r : Recovery := { deadline := s.now + s.ob O.MUSTER_REPLAY_TO_MS * 1000000 }
    ({ s with muster := { s.muster with recov := some r } }).recovCheck []
  else s.sendReplay f

/-- Op 4 with ticks `a`: ABSENT is flooded, and heartbeats carry absent. -/
def State.announceAbsence (s : State) (a : Nat) : State :=
  let s := s.floodOwn 0x0B s.own Config.serial.toNat a
  { s with muster := { s.muster with absent := true } }

/-- MUSTER_CMD (R485): operation, device and ticks. -/
def State.musterCmd (s : State) (op f a : Nat) : State × Nat :=
  let r : Option State :=
    match op with
    | 1 => if f < 512 then some (s.declareFailed f) else none
    | 2 => if f < 512 then some (s.musterResume f) else none
    | 3 => if f = s.own ∧ s.muster.recov.isSome then some (s.floodUnrecov f) else none
    | 4 => if 1 ≤ a ∧ a ≤ 1048576 then some (s.announceAbsence a) else none
    | _ => none
  if op ≠ 4 ∧ s.serverInReset then (s, 0x0D)
  else match r with
  | some t => (t.setOb O.MUSTER_CMD_STATUS 0, 0)
  | none => (s.setOb O.MUSTER_CMD_STATUS 9, 9)

def execMusterDeclareFailed (who : Path) (f : BitVec 16) (s : State) : Ans :=
  .next (s.access who O.MUSTER_CMD (fun s => s.musterCmd 1 f.toNat 0))
def execMusterResume (who : Path) (f : BitVec 16) (s : State) : Ans :=
  .next (s.access who O.MUSTER_CMD (fun s => s.musterCmd 2 f.toNat 0))
def execMusterDeclareUnrecoverable (who : Path) (f : BitVec 16) (s : State) : Ans :=
  .next (s.access who O.MUSTER_CMD (fun s => s.musterCmd 3 f.toNat 0))
def execMusterAnnounceAbsence (who : Path) (ticks : BitVec 32) (s : State) : Ans :=
  .next (s.access who O.MUSTER_CMD (fun s => s.musterCmd 4 s.own ticks.toNat))

/-! ### What Muster shows (R485, R486) -/

/-- A row of MUSTER_DEV_STATE as it reads. -/
def State.devRow (s : State) (f : Nat) : Nat :=
  let r := setBits (s.row O.MUSTER_DEV_STATE f) 3 1 (b2n (s.muster.frozen.contains f))
  setBits (setBits r 128 48 (TMap.get 0 s.muster.trimmed f - 1)) 176 32 (s.entriesFor f).length

/-- MUSTER_LINK_b as it reads (R486). -/
def State.musterLink (s : State) (b : Nat) : Nat :=
  if !s.isLink b then 0
  else
    let faces := (s.neighbours s.own).filter (fun f => (s.facing f).contains b)
    min 0xFFFF (s.missOf b) + b2n (!faces.isEmpty && (s.block b).armAt.isNone) <<< 16 +
    b2n (faces.any (fun f => TMap.get 0 s.muster.suspects f != 0)) <<< 17 + (TMap.get 0 s.muster.h b % 2 ^ 32) <<< 32

end Sys2Proof.Machine
end

