-- ==== Sys2Proof/Machine/Observe.lean ====
section
/-!
DEFINITION. Tally configuration, snapshots and histograms, and the Fleece ring (R547 to R572).
-/

namespace Sys2Proof.Machine

/-! ### Counter rows and registers (R551 to R553, R557) -/

/-- Clear counter `n` and its overflow flag. -/
def State.ctrClear (s : State) (n : Nat) : State := s.setCtr n 0

/-- Clear counter `n`, and the other half of its pair when it belongs to one now. -/
def State.pairClear (s : State) (n : Nat) : State :=
  let s := if s.chained n then s.ctrClear (if n % 2 = 0 then n + 1 else n - 1) else s
  s.ctrClear n

/-- A write of a TALLY_CFG row (R548, R551). -/
def State.writeTallyCfg (s : State) (n v : Nat) : State × Nat :=
  let v := v % 2 ^ 32
  if !tallyRowOk n v then (s, 0x0A)
  else ((s.pairClear n).setRow O.TALLY_CFG n v |>.pairClear n, 0)

/-- TALLY_CFG_WRITE (R551). -/
def execTallyCfgWrite (who : Path) (n : Fin 8192) (v : BitVec 64) (s : State) : Ans :=
  .next (s.access who O.TALLY_CFG (fun s => s.writeTallyCfg n.val v.toNat))

/-- TALLY_CLEAR (R551, R571): first counter in [12:0], count in [29:16]. -/
def State.tallyClear (s : State) (v : Nat) : State × Nat :=
  let lo := bits v 0 13
  let n := bits v 16 14
  if n = 0 ∨ 8192 < lo + n then (s, 0x0A)
  else ({ s with obsv := { s.obsv with ctr := s.obsv.ctr.filter (fun x => decide (x.1 < lo ∨ lo + n ≤ x.1)) } }, 0)

def execTallyClear (who : Path) (v : BitVec 32) (s : State) : Ans :=
  .next (s.access who O.TALLY_CLEAR (fun s => s.tallyClear v.toNat))

/-- A TALLY_VALUE row as it reads (R557). -/
def State.tallyRow (s : State) (n : Nat) : Nat :=
  s.ctr n + b2n (s.chained n) <<< 49 + b2n (s.tallyFrozen (n / 512)) <<< 50

/-- TALLY_LOW_READ (R553): a read of TALLY_CTR_n; of the low half of a pair it also copies the high half. -/
def State.tallyRead (s : State) (n : Nat) : State :=
  let v := s.tallyRow n
  let s := if n % 2 = 0 ∧ s.chainHigh (n + 1) then s.setReg 0x200000 (s.ctr (n + 1) + (n + 1) <<< 49) else s
  s.emit (.value v)

def execTallyLowRead (n : Fin 8192) (s : State) : Ans := readable s <| .next (s.tallyRead n.val)

/-! ### Snapshots (R554 to R558) -/

/-- Take one snapshot: `why` is bit 0 at a tick, 1 periodic, 2 by command (R554 to R558). -/
def State.snapshot (s : State) (why : Nat) : State :=
  let keep := (List.range 8192).filterMap (fun n => if s.tallyRow n = 0 then none else some (n, s.tallyRow n))
  let clear := s.ob O.TALLY_SNAP_CLEAR = 1
  let frozen := (List.range 16).foldl (fun a p => a + b2n (s.tallyFrozen p) <<< p) 0
  let on := s.ob O.TALLY_RING_SIZE != 0
  let skip := on && s.obsv.ringBuf.isSome
  let head := (s.obsv.snaps + 1) % 2 ^ 64 + (s.bell % 2 ^ 64) <<< 64 + s.t96 <<< 128 + frozen <<< 224 +
    b2n clear <<< 240 + why <<< 241 + b2n (skip || !on) <<< 244
  let gone := fun (n : Nat) => decide clear && (tEnable (s.row O.TALLY_CFG n) || s.chained n)
  let s := { s with obsv := { s.obsv with
    shadow := keep, snaps := s.obsv.snaps + 1
    ctr := s.obsv.ctr.filter (fun x => !gone x.1)
    ringBuf := if on && !skip then some (head, keep) else s.obsv.ringBuf } }
  let s := s.setBlob O.TALLY_SNAP_INFO (leBytes 64 head)
  if skip then (s.count O.FLEECE_CNT 3 1).raise O.TALLY_ERR 1 else s

/-- Tally's work at tick `n`, the ticks after `old` having been skipped: the occasions that fall in this cycle take one
snapshot (R554, R555). -/
def State.tallyTick (s : State) (old n : Nat) : State :=
  let at_ := match s.obsv.snapAt with | some t => decide (t ≤ n) | none => false
  let e := s.ob O.TALLY_SNAP_EVERY
  let due := e != 0 && decide (old / e < n / e)
  let s := if at_ then { s with obsv := { s.obsv with snapAt := none } } else s
  let now := s.obsv.nowAt.contains s.now
  let s := { s with obsv := { s.obsv with nowAt := s.obsv.nowAt.filter (· != s.now) } }
  if at_ || due || now then s.snapshot (b2n at_ + 2 * b2n due + 4 * b2n now) else s

/-- TALLY_SNAP_AT (R554): rejected when its tick has begun or another is pending. -/
def State.snapAt (s : State) (n48 : Nat) : State × Nat :=
  let n := s.bellOf48 (n48 % 2 ^ 48)
  if s.obsv.snapAt.isSome ∨ n ≤ s.bell then (s, 0x0A)
  else ({ s with obsv := { s.obsv with snapAt := some n } }, 0)

def execTallySnapAt (who : Path) (bell : BitVec 48) (s : State) : Ans :=
  .next (s.access who O.TALLY_SNAP_AT (fun s => s.snapAt bell.toNat))

/-- TALLY_SNAP_NOW (R554): the cycle chosen is the first that is at least 64 cycles, 32 ns, ahead; two commands accepted in
one cycle share theirs (R555). -/
def State.snapNow (s : State) : State × Nat :=
  let c := s.now + 32
  (if s.obsv.nowAt.contains c then s else { s with obsv := { s.obsv with nowAt := s.obsv.nowAt ++ [c] } }, 0)

def execTallySnapNow (who : Path) (s : State) : Ans := .next (s.access who O.TALLY_SNAP_NOW State.snapNow)

/-- TALLY_SNAPSHOT (R554): the earliest cycle that a TALLY_SNAP_NOW announced; the snapshots of ticks are part of their
tick. -/
def execTallySnapshot (s : State) : Ans := live s <|
  match s.obsv.nowAt with
  | t :: rest => .next (({ s.advanceTo t with obsv := { (s.advanceTo t).obsv with nowAt := rest } }).snapshot 4)
  | [] => .next s

/-- Whether `n` bytes from HPA `a` may hold a ring of this chapter: in the Common pool of one stack (R558, R569). -/
def State.ringPlace (s : State) (a n : Nat) : Bool := a % 64 == 0 && (n == 0 || s.inPool a n)

/-- Write EGR_QREC_BASE (R134, R390): 32-byte aligned in the Common pool, and only while the ring is off. -/
def State.writeQrecBase (s : State) (v : Nat) : State × Nat :=
  if s.ob O.EGR_QREC_SIZE ≠ 0 ∨ v % 32 ≠ 0 ∨ !s.inPool v 32 then (s, 0x0A) else (s.setOb O.EGR_QREC_BASE v, 0)

/-- Write EGR_QREC_SIZE (R134, R390): 0 turns the ring off; another size only while it is off, and only where the whole ring
lies in the Common pool. A ring turned on starts at record 0 and keeps EGR_QREC_WRAPS (DESIGN CHOICE, log entry 128). -/
def State.writeQrecSize (s : State) (v : Nat) : State × Nat :=
  if v = 0 then (s.setOb O.EGR_QREC_SIZE 0, 0)
  else if s.ob O.EGR_QREC_SIZE ≠ 0 ∨ !isPow2 v ∨ v < 1024 ∨ 16777216 < v ∨ !s.inPool (s.ob O.EGR_QREC_BASE) (32 * v) then (s, 0x0A)
  else ((s.setOb O.EGR_QREC_SIZE v).setOb O.EGR_QREC_HEAD 0, 0)

/-- Writes of the base and size of the snapshot ring (R558). -/
def State.writeTallyRing (s : State) (size : Bool) (v : Nat) : State × Nat :=
  let on := s.ob O.TALLY_RING_SIZE != 0
  if size then
    if v = 0 then (s.setOb O.TALLY_RING_SIZE 0, 0)
    else if on || decide (65536 < v) || !s.ringPlace (s.ob O.TALLY_RING_BASE) (65600 * v) then (s, 0x0A)
    else ((s.setOb O.TALLY_RING_SIZE v).setOb O.TALLY_RING_HEAD 0, 0)
  else if on || !s.ringPlace v 64 then (s, 0x0A) else (s.setOb O.TALLY_RING_BASE v, 0)

/-- TALLY_RING_ENTRY_WRITTEN (R558, R570): the buffered entry is in HBM; with `fault`, or where its stack is fenced, the ring is
turned off. -/
def execTallyRingEntryWritten (fault : Bool) (s : State) : Ans := live s <|
  match s.obsv.ringBuf with
  | none => .next s
  | some e =>
    let s := { s with obsv := { s.obsv with ringBuf := none } }
    let size := s.ob O.TALLY_RING_SIZE
    if fault || s.stackShut (hpaStack (s.ob O.TALLY_RING_BASE)) then .next ((s.setOb O.TALLY_RING_SIZE 0).raise O.TALLY_ERR 2)
    else if size = 0 then .next s
    else
      let h := s.ob O.TALLY_RING_HEAD
      let a := s.ob O.TALLY_RING_BASE + 65600 * h
      let bytes := leBytes 64 e.1 ++ (List.range 8192).flatMap (fun n => leBytes 8 (TMap.get 0 e.2 n))
      .next ((s.hbmWrite a bytes).setOb O.TALLY_RING_HEAD ((h + 1) % size))

/-- TALLY_SNAP_STAT as it reads (R572). -/
def State.snapStat (s : State) : Nat :=
  s.obsv.snaps % 2 ^ 32 + b2n s.obsv.snapAt.isSome <<< 32 + b2n (!s.obsv.nowAt.isEmpty) <<< 33 + b2n s.obsv.ringBuf.isSome <<< 34

/-! ### Histograms (R561) -/

/-- TALLY_HIST_CLEAR (R561): the rows of a tile, or of all. -/
def State.histClear (s : State) (t : Nat) : State × Nat :=
  if t = 0xFF then (s.clearRows O.TALLY_HIST 0 18432, 0)
  else if 144 ≤ t then (s, 0x0A)
  else (s.clearRows O.TALLY_HIST (128 * t) 128, 0)

def execTallyHistClear (who : Path) (t : BitVec 8) (s : State) : Ans :=
  .next (s.access who O.TALLY_HIST_CLEAR (fun s => s.histClear t.toNat))

/-! ### The Fleece ring (R562 to R569) -/

/-- Whether sampling takes this frame: every n-th, or at random with a chance of 1 in n (R565); and the draw used. -/
def State.sampled (s : State) (port point : Nat) : State × Bool :=
  let r := s.row O.FLEECE_SAMPLE port
  let n := bits r (16 * point) 16
  if 2 ≤ point ∨ 1024 ≤ port ∨ n = 0 then (s, false)
  else if r.testBit 32 then (s.draw, decide ((Config.freeSample s.free).toNat % n = 0))
  else
    let c := TMap.get 0 s.obsv.sample (2 * port + point) + 1
    let hit := decide (n ≤ c)
    ({ s with obsv := { s.obsv with sample := TMap.put 0 s.obsv.sample (2 * port + point) (if hit then 0 else c) } }, hit)

/-- Put a record into its die's buffer, or lose it when the buffer is full or the ring has stopped (R568, R569). -/
def State.capture (s : State) (die : Nat) (c : Capture) : State :=
  let l := TMap.get [] s.obsv.buf die
  if 4096 ≤ l.length ∨ s.obsv.full then
    ({ s with obsv := { s.obsv with lost := s.obsv.lost.add die } }.count O.FLEECE_CNT 1 1).raise O.TALLY_ERR 3
  else
    let c := { c with info := c.info + b2n (s.obsv.lost.contains die) <<< 120 + (s.obsv.seq % 2 ^ 32) <<< 160 }
    { s with obsv := { s.obsv with buf := TMap.put [] s.obsv.buf die (l ++ [c])
                                   lost := s.obsv.lost.remove die, seq := s.obsv.seq + 1 } }.count O.FLEECE_CNT 0 1

/-- FLEECE_CAPTURE_POINT (R562 to R567): a frame passes a point (0 ingress, 1 egress, 2 drop) of a port, as `frame`, in
`queue` and of `pasture`; `why` lists the causes from 0x10 to 0x1E that apply to it, with their details. One record is made
of it, under the lowest cause that is enabled, else by command, burst or sample. The next frame at the place that a
FLEECE_CAPTURE named serves that command, whatever the cause of its record (DEDUCED from R566 and R567, log entry 94). -/
def State.capturePoint (s : State) (point port queue pasture : Nat) (frame : List Byte) (why : List (Nat × Nat)) : State :=
  let smp := s.sampled port point
  let s := smp.1
  if s.ob O.FLEECE_SIZE = 0 then s
  else
    let k := 4 * port + point
    let burst := TMap.get (0, 0) s.obsv.burst k
    let trig := why.filter (fun x => decide (0x10 ≤ x.1 ∧ x.1 ≤ 0x1E) && (s.ob O.FLEECE_TRIG).testBit x.1)
    let best := trig.foldl (fun (a : Option (Nat × Nat)) x => match a with
      | some b => if x.1 < b.1 then some x else a
      | none => some x) none
    let cmd := s.obsv.want == some (port, point)
    let on := fun (c : Nat) => c ≤ 2 || (s.ob O.FLEECE_TRIG).testBit c
    let cause : Option (Nat × Nat) := match best with
      | some b => some b
      | none => if cmd && on 3 then some (3, 0) else if burst.1 != 0 && on 4 then some (4, burst.2) else if smp.2 then some (1 + point, 0) else none
    let b' : Nat × Nat := match best with
      | some x => if s.ob O.FLEECE_BURST = 0 then (burst.1 - 1, burst.2) else (s.ob O.FLEECE_BURST, x.1)
      | none => (burst.1 - 1, burst.2)
    let b' := if b'.1 = 0 then (0, 0) else b'
    let s := { s with obsv := { s.obsv with burst := TMap.put (0, 0) s.obsv.burst k b' } }
    let s := if best.isSome ∧ s.ob O.FLEECE_BURST ≠ 0 then s.count O.FLEECE_CNT 2 1 else s
    match cause with
    | none => s
    | some c =>
      let mine := cmd && on 3
      let s := if mine then { s with obsv := { s.obsv with want := none } } else s
      let die := dieOf port
      let info := s.t96 + port <<< 96 + (queue % 16) <<< 107 + (c.1 % 64) <<< 111 + point <<< 117 +
        b2n (128 < frame.length) <<< 119 + (frame.length % 65536) <<< 128 + (pasture % 4096) <<< 144 + die <<< 156 +
        (s.bell % 2 ^ 32) <<< 192 + (c.2 % 2 ^ 32) <<< 224
      s.capture die { head := padTo 128 frame, info := info, byCmd := mine }

/-- The causes of a frame at a capture point: those given, but the ACL's (0x10), which is what its row said when the frame was
classified (R152, R564). -/
def State.fleeceCauses (s : State) (point port : Nat) (frame : List Byte) (why : List (Nat × Nat)) : List (Nat × Nat) :=
  let acl := if point = 0 then s.obsv.aclHits.find? (fun h => h.1 == port && h.2.2 == frame) else none
  (acl.map (fun h => (0x10, h.2.1))).toList ++ why.filter (fun x => x.1 != 0x10)

/-- The frame's ACL trigger is spent. -/
def State.aclSpent (s : State) (point port : Nat) (frame : List Byte) : State :=
  if point = 0 then
    { s with obsv := { s.obsv with aclHits := s.obsv.aclHits.eraseP (fun h => h.1 == port && h.2.2 == frame) } }
  else s

def execFleeceCapturePoint (point : Fin 3) (port : Fin 1040) (queue : Fin 16) (pasture : Fin 4096) (frame : List Byte)
    (why : List (Fin 64 × BitVec 32)) (s : State) : Ans := live s <|
  .next ((s.aclSpent point.val port.val frame).capturePoint point.val port.val queue.val pasture.val frame
    (s.fleeceCauses point.val port.val frame (why.map (fun x => (x.1.val, x.2.toNat)))))

/-- Whether a FLEECE_CAPTURE is pending: its frame has not passed, or its record is not written yet (R566). -/
def State.capturePending (s : State) : Bool :=
  s.obsv.want.isSome || s.obsv.buf.any (fun x => x.2.any (·.byCmd))

/-- FLEECE_CAPTURE (R566, R571): port in [10:0], point in [12:11]; rejected while one is pending. -/
def State.fleeceCapture (s : State) (v : Nat) : State × Nat :=
  let port := bits v 0 11
  let point := bits v 11 2
  if s.capturePending ∨ point = 3 ∨ 1040 ≤ port ∨ (1024 ≤ port ∧ point ≠ 1) then (s, 0x0A)
  else ({ s with obsv := { s.obsv with want := some (port, point) } }, 0)

def execFleeceCapture (who : Path) (v : BitVec 16) (s : State) : Ans :=
  .next (s.access who O.FLEECE_CAPTURE (fun s => s.fleeceCapture v.toNat))

/-- FLEECE_SAMPLE_WRITE (R565): a write restarts the row's counts. -/
def State.writeSample (s : State) (p v : Nat) : State × Nat :=
  let s := { s with obsv := { s.obsv with sample := TMap.put 0 (TMap.put 0 s.obsv.sample (2 * p) 0) (2 * p + 1) 0 } }
  (s.setRow O.FLEECE_SAMPLE p (v % 2 ^ 33), 0)

def execFleeceSampleWrite (who : Path) (p : Fin 1024) (v : BitVec 64) (s : State) : Ans :=
  .next (s.access who O.FLEECE_SAMPLE (fun s => s.writeSample p.val v.toNat))

/-- Writes of the base and size of the Fleece ring (R569). A size written anew lets a stopped ring run again. -/
def State.writeFleeceRing (s : State) (size : Bool) (v : Nat) : State × Nat :=
  let on := s.ob O.FLEECE_SIZE != 0
  let fresh := fun (s : State) => { s with obsv := { s.obsv with full := false } }
  if size then
    if v = 0 then (fresh (s.setOb O.FLEECE_SIZE 0), 0)
    else if v % 4096 ≠ 0 ∨ 26841088 < v ∨ !s.ringPlace (s.ob O.FLEECE_BASE) (160 * v) ∨ (on ∧ !s.obsv.full) then (s, 0x0A)
    else (fresh ((s.setOb O.FLEECE_SIZE v).setOb O.FLEECE_HEAD 0), 0)
  else if on || !s.ringPlace v 64 then (s, 0x0A) else (s.setOb O.FLEECE_BASE v, 0)

/-- FLEECE_RECORD_WRITTEN (R569, R570): the oldest record of a die's buffer is in the ring, which wraps or stops full, or
is turned off by a write fault, as a write to a fenced stack is. -/
def execFleeceRecordWritten (die : Fin 4) (fault : Bool) (s : State) : Ans := live s <|
  let size := s.ob O.FLEECE_SIZE
  match TMap.get [] s.obsv.buf die.val with
  | [] => .next s
  | c :: rest =>
    if size = 0 ∨ s.obsv.full then .next s
    else
      let s := { s with obsv := { s.obsv with buf := TMap.put [] s.obsv.buf die.val rest } }
      if fault || s.stackShut (hpaStack (s.ob O.FLEECE_BASE)) then .next ((s.setOb O.FLEECE_SIZE 0).raise O.TALLY_ERR 5)
      else
        let h := s.ob O.FLEECE_HEAD
        let s := s.hbmWrite (s.ob O.FLEECE_BASE + 160 * h) (c.head ++ leBytes 32 c.info)
        if h + 1 < size then .next (s.setOb O.FLEECE_HEAD (h + 1))
        else if s.ob O.FLEECE_MODE = 1 then
          .next (({ s.setOb O.FLEECE_HEAD 0 with obsv := { s.obsv with full := true } }).raise O.TALLY_ERR 4)
        else .next ((s.setOb O.FLEECE_HEAD 0).setOb O.FLEECE_WRAPS ((s.ob O.FLEECE_WRAPS + 1) % 2 ^ 64))

/-- FLEECE_STAT as it reads (R572). -/
def State.fleeceStat (s : State) : Nat :=
  ([0, 1, 2, 3].foldl (fun a d => a + (TMap.get [] s.obsv.buf d).length <<< (13 * d)) 0) + b2n s.obsv.full <<< 52 +
    b2n s.capturePending <<< 53

end Sys2Proof.Machine
end

