-- ==== Sys2Proof/Machine/Bell.lean ====
section
/-!
DEFINITION. The Bell (R446 to R454): the consumers of a tick in their order, overruns, the period switch, and steps.
-/

namespace Sys2Proof.Machine

/-! ### TIME_SYNC (R436) -/

/-- A time of 2^-48 ns units in the Inserted format, 12 bytes as a number (R427). -/
def insertedOf (d : Nat) : Nat :=
  let ns := d / devUnit
  (ns / 1000000000 % 2 ^ 48) <<< 48 + (ns % 1000000000) <<< 16 + d / 2 ^ 32 % 65536

/-- And back. -/
def ofInserted (v : Nat) : Nat := (bits v 48 48 * 1000000000 + bits v 16 32) * devUnit + bits v 0 16 * 2 ^ 32

/-- Domain time less device time in 2^-16 ns, for TIME_SYNC and DOM_OFFSET; 0 for a free domain. -/
def State.domOffset (s : State) (x : Nat) : Int :=
  if s.domState x = 0 then 0 else (s.domTime x - ((s.time.dev : Nat) : Int)) / 2 ^ 32

/-- The TIME_SYNC payload for block `b`; t_send and bell are written at departure. -/
def State.timeSync (s : State) (b : Nat) : List Byte :=
  let e := TMap.get (0, 0) s.time.syncPeer b
  beBytes 64 (insertedOf e.1 <<< 320 + insertedOf e.2 <<< 224 + s.domState 0 <<< 222 + s.domState 1 <<< 220 +
    (s.ob (domOid O.DOM_HOPS 0) % 256) <<< 208 + (s.ob (domOid O.DOM_HOPS 1) % 256) <<< 200 +
    sbits 64 (s.domOffset 0) <<< 136 + sbits 64 (s.domOffset 1) <<< 72)

/-- TIME_SYNC_SEND (R436): the work of tick consumer 4. -/
def State.timeSyncs (s : State) : State :=
  s.liveLinks.foldl (fun s b => (s.sendCtrl b 0x04 (s.timeSync b) 16).count O.BWTH_STAT 1 1) s

/-! ### A tick (R449, R453) -/

/-- Feature vectors applied for ticks up to `n` take effect (R512). -/
def State.featTake (s : State) (p : Nat) : State :=
  match TMap.get none s.ctl.apply p with
  | some a => if a.1 ≤ s.bell then
      { s.setRow O.FEAT_PASTURE_ACTIVE p a.2 with ctl := { s.ctl with apply := TMap.put none s.ctl.apply p none } } else s
  | none => s

/-- Consumer 0: route flips and snapshots, and feature vectors, whose tick has come. -/
def State.routeTick (s : State) : State :=
  let s := ((s.fwd.flips.filter (fun x => decide (x.2 ≤ s.bell))).map (·.1)).foldl (fun s p => s.flipApply p) s
  let s := (s.fwd.snaps.filter (fun x => decide (x.2 ≤ s.bell))).foldl (fun s x => s.snapTake x.1 x.2) s
  (s.ctl.apply.map (·.1)).foldl (fun s p => s.featTake p) s

/-- Consumer 7: the Heft sweep, the heavy-pair window, and gate rows. -/
def State.sweepTick (s : State) : State :=
  let s := if s.bell % 2 ^ s.ob O.HEFT_AGE_SHIFT = 0 then [0, 1, 2, 3].foldl (fun s d => s.heftSweep d) s else s
  let s := s.heavyClose
  ((s.fold.eports.filter (fun x => x.2.gateRow.isSome)).map (·.1)).foldl (fun s d => s.modEp d (fun e => { e with gateRow := none })) s

/-- The Fold at a tick: FOLD_HBM_SHARE takes effect (R98), and a stack whose Fold class has been at its limit with evictions
pending for the whole tick that ends sets share_exhausted (R96, R99; log entry 129). -/
def State.foldTick (s : State) : State :=
  let still := ((List.range 16).filter (fun st => s.fold.atLimit.testBit st && s.evictPending st)).foldl setBit 0
  let s := if s.fold.limitTick &&& still = 0 then s else s.raise O.FOLD_ERR 4
  { s with fold := { s.fold with share := s.ob O.FOLD_HBM_SHARE, limitTick := still } }

/-- The round trip of a Stile of classes 0 to 3, in whole ns (R455). -/
def State.stileTrip (s : State) (k : Nat) : Nat :=
  match k with
  | 1 => if s.drove.slow then 4 else 3
  | 3 => 4
  | _ => 3

/-- A single event for the Stile of class `k` (R455): taken when no transfer is in flight, the overrun flag travelling with it;
else it sets the flag and is counted. -/
def State.stileEvent (s : State) (k : Nat) : State :=
  let x := TMap.get (0, false) s.time.stile k
  if s.now < x.1 then
    ({ s with time := { s.time with stile := TMap.put (0, false) s.time.stile k (x.1, true) } }.count O.STILE_STAT k 1).holdCount
      (0x1B0100 + 8 * k) 0 1
  else { s with time := { s.time with stile := TMap.put (0, false) s.time.stile k (s.now + s.stileTrip k, false) } }

/-- A tick is the event that the Bellwether sends to the switch, the Drove, the cores and the PCIe core (R455); what a tick asks
of them they read from the Bell number, so that none of it is lost with an event (DESIGN CHOICE, log entry 140). -/
def State.stileTick (s : State) : State := [0, 1, 2, 3].foldl (fun s k => s.stileEvent k) s

/-- Tick `n` is raised (R449): every tick between it and the last one raised is skipped and counted (R453). -/
def State.raiseTick (s : State) (n : Nat) : State :=
  let old := s.time.lastBell
  let s := if n ≤ old + 1 then s else (s.count O.BELL_STAT 0 (n - old - 1)).raise O.BELL_ERR 1
  let s := { s with time := { s.time with lastBell := n, overLast := s.time.overNow, overNow := 0 } }
  let s := s.stileTick.tally 0x0002 0
  let s := (s.foldTick.routeTick.tallyTick old n).qrecAll old
  let s := s.musterTick.timeSyncs.collTick
  s.sweepTick

/-- After a step of device time, or of the Bell number: a new number raises its tick; a lower one holds (R453, R454). -/
def State.stepTicks (s : State) : State :=
  if s.time.lastBell < s.bellAt s.devNs then s.raiseTick (s.bellAt s.devNs) else s

/-- BELL_TICK (R449): the next tick boundary comes; where device time has passed boundaries already, the tick that
contains it is raised. -/
def execBellTick (s : State) : Ans := live s <|
  if s.time.lastBell < s.bellAt s.devNs then .next s.stepTicks
  else .next ((s.advanceDev (s.bellStart (s.time.lastBell + 1) * devUnit)).stepTicks)

/-- BELL_OVERRUN (R450): consumer `c` finished `late` ns after the end of its budget. The Drove overruns when its tick
left deadline work uncommitted (R275); the queue records of the tick, when theirs did, say so (R133, R137). -/
def State.overrun (s : State) (c late : Nat) : State :=
  let s := (s.count O.BELL_OVERRUNS c 1).tally 0x0003 0
  let s := (s.raise O.BELL_ERR 0).setBlob O.BELL_LAST_OVERRUN (leBytes 16 (s.bell % 2 ^ 64 + c <<< 64 + late <<< 96))
  let s := { s with time := { s.time with overNow := setBit s.time.overNow c } }
  if c = 2 then s.qrecLate.raise O.EGR_ERR 5 else s

def execBellOverrun (c : Fin 8) (late : BitVec 32) (s : State) : Ans := live s <|
  if c.val = 6 then
    let r := s.droveOverruns
    .next (if r.2 then r.1.overrun 6 late.toNat else s)
  else .next (s.overrun c.val late.toNat)

/-! ### The period (R451, R452, R454) -/

/-- BELL_SWITCH (R451). -/
def State.bellSwitch (s : State) (v : Nat) : State × Nat :=
  if v = 0 then ({ s with time := { s.time with switch := none } }, 0)
  else if v * 65536 < s.devNs + 1000000 ∨ s.ob O.BELL_PERIOD_NEXT = s.ob O.BELL_PERIOD ∨ s.time.switch.isSome then (s, 0x0A)
  else ({ s with time := { s.time with switch := some (v * 65536, s.ob O.BELL_PERIOD_NEXT) } }, 0)

def execBellSwitch (who : Path) (v : BitVec 64) (s : State) : Ans :=
  .next (s.access who O.BELL_SWITCH (fun s => s.bellSwitch v.toNat))

/-- Commands that name a Bell number are cancelled at a period switch (R452). -/
def State.cancelBell (s : State) : State :=
  let n := s.fwd.flips.length + s.fwd.snaps.length + s.ctl.apply.length + b2n s.obsv.snapAt.isSome
  let s := { s with fwd := { s.fwd with flips := [], snaps := [] }, ctl := { s.ctl with apply := [] }
                    obsv := { s.obsv with snapAt := none } }
  if n = 0 then s else (s.count O.BELL_STAT 2 n).raise O.BELL_ERR 2

/-- Every START the Drover holds is late (R376, R452). -/
def State.startsLate (s : State) : State :=
  (s.coll.insts.filter (fun x => x.2.slot.isNone)).foldl (fun (s : State) x =>
    let s := { s with coll := { s.coll with insts := TMap.put {} s.coll.insts x.1 {} } }
    (((s.count O.COLL_STAT 3 1).tally 0x0903 0).raise O.COLL_ERR 1).collNote x.2.row x.2.seq 1) s

/-- Miss counts restart from zero (R452). -/
def State.missReset (s : State) : State :=
  { s with muster := { s.muster with h := ((List.range 128).filter (fun b => s.isLink b)).foldl (fun m b => TMap.put 0 m b s.bell) s.muster.h } }

/-- PERIOD_SWITCH (R451, R452): the switch instant comes. -/
def execPeriodSwitch (s : State) : Ans := live s <|
  match s.time.switch with
  | none => .next s
  | some w =>
    let s := s.advanceDev (w.1 * devUnit)
    let n := s.bellAt w.1
    let s := { s with time := { s.time with t0 := w.1, n0 := n, switch := none } }
    let s := ((s.setOb O.BELL_PERIOD w.2).setOb O.BELL_ORIGIN w.1).setOb O.BELL_BASE n
    let s := (s.count O.BELL_STAT 3 1).cancelBell.startsLate
    let s := s.missReset.heftRestamp
    .next (if s.ob O.CIRC_HP_WINDOW = 0 then s else s.heavyReport).stepTicks

/-- A write of BELL_BASE (R454): the period code, the origin and the base take effect together. -/
def State.writeBellBase (s : State) (v : Nat) : State × Nat :=
  if s.time.switch.isSome then (s, 0x0A)
  else
    let s := ((s.setOb O.BELL_BASE v).setOb O.BELL_PERIOD (s.ob O.BELL_PERIOD_NEXT))
    let s := { s with time := { s.time with t0 := s.ob O.BELL_ORIGIN, n0 := v } }
    (s.stepTicks, 0)

/-- BELL_BASE_WRITE (R454). -/
def execBellBaseWrite (who : Path) (v : BitVec 64) (s : State) : Ans :=
  .next (s.access who O.BELL_BASE (fun s => s.writeBellBase v.toNat))

/-- Writes of BELL_PERIOD_NEXT, BELL_ORIGIN and rows of BELL_BUDGET (R451, R458). -/
def State.writePeriodNext (s : State) (v : Nat) : State × Nat :=
  if s.time.switch.isSome ∨ 5 < v then (s, 0x0A) else (s.setOb O.BELL_PERIOD_NEXT v, 0)
def State.writeBellOrigin (s : State) (v : Nat) : State × Nat :=
  if v % 65536 ≠ 0 then (s, 0x0A) else (s.setOb O.BELL_ORIGIN v, 0)
def State.writeBudget (s : State) (c v : Nat) : State × Nat :=
  if v = 0 ∨ 64 < v ∨ (c = 6 ∧ v ≠ 64) then (s, 0x0A) else (s.setRow O.BELL_BUDGET c v, 0)

/-- BELL_TICK, the register, as it reads (R459). -/
def State.bellTickReg (s : State) : Nat :=
  (s.devNs - s.bellStart s.bell) % 2 ^ 17 + s.ob O.BELL_PERIOD <<< 17 + b2n s.time.switch.isSome <<< 20 + s.time.overLast <<< 21

end Sys2Proof.Machine
end

