-- ==== Sys2Proof/Machine/Time.lean ====
section
/-!
DEFINITION. The Bellwether (R424 to R445, R455 to R459): domains and their servos, selection and steps of device time,
TIME_SYNC reception, the PPS pins, and crossings.
-/

namespace Sys2Proof.Machine

/-! ### Domain state -/

/-- Change domain `x` by `f`. -/
def State.modDomain (s : State) (x : Nat) (f : Domain → Domain) : State :=
  { s with time := { s.time with domains := TMap.put {} s.time.domains x (f (s.domain x)) } }

/-- Device time takes the rate of the selected domain; with a free one it runs at the oscillator's. -/
def State.retrim (s : State) : State :=
  let x := s.ob O.BWTH_SEL
  if s.time.frozen then s
  else { s with time := { s.time with trim := if s.domState x = 0 then 0 else rateUnits (s.domain x).rate } }

/-- TIME_PPS_OUT is held low where BWTH_PPS_OUT_EN does not let it be driven (R445). -/
def State.ppsDriven (s : State) : Bool :=
  s.time.ppsArmed && (s.ob O.BWTH_PPS_OUT_EN == 2 ||
    (s.ob O.BWTH_PPS_OUT_EN == 1 && decide (2 ≤ s.domState (s.ob O.BWTH_SEL))))
def State.ppsGate (s : State) : State :=
  if s.ppsDriven then s else { s with time := { s.time with ppsOut := false } }

/-- Set the state of domain `x` (R429). Device time has locked once the selected domain is locked (R432). -/
def State.setDomState (s : State) (x v : Nat) : State :=
  let s := s.setOb (domOid O.DOM_STATE x) v
  let s := if v = 2 ∧ s.ob O.BWTH_SEL = x then { s with time := { s.time with everLock := true } } else s
  s.retrim.ppsGate

/-- Device time follows domain `x` from now on, without a step (R431). -/
def State.domSwitch (s : State) (x : Nat) : State :=
  let s := (s.setOb O.BWTH_SEL x).count O.BWTH_STAT 3 1
  let s := if s.domState x = 2 then { s with time := { s.time with everLock := true } } else s
  s.retrim.ppsGate

/-- Domain `x` leaves the state it is in for `v`, free or holdover: the selected one may hand over to the other (R431, R457). -/
def State.domLeave (s : State) (x v : Nat) : State :=
  let was := s.domState x
  let other := 1 - x
  let s := (s.setDomState x v).modDomain x (fun d => { d with samples := 0, inLock := 0, fromFree := v == 0 })
  let s := s.setOb (domOid O.DOM_HOPS x) 0xFF
  let s := if was = 2 ∧ s.ob O.BWTH_SEL = x then
      let s := s.raise O.BWTH_ERR 0
      if s.ob O.BWTH_AUTO = 1 ∧ s.domState other = 2 then s.domSwitch other else s
    else s
  if (was = 1 ∨ was = 2) ∧ (s.domState other = 0 ∨ s.domState other = 3) then s.raise O.BWTH_ERR 1 else s

/-- The nominal sample interval of domain `x` in ns (R429). -/
def State.nominalNs (s : State) (x : Nat) : Nat :=
  match s.ob (domOid O.DOM_SRC_KIND x) with
  | 1 =>
    let l := sint 8 (s.ob (domOid O.DOM_LOG_SYNC x))
    if 0 ≤ l then 1000000000 * 2 ^ l.toNat else 1000000000 / 2 ^ (-l).toNat
  | 2 => s.period
  | _ => 1000000000

/-- The loss time of domain `x` in ns (R429). -/
def State.lossNs (s : State) (x : Nat) : Nat := max (s.ob O.BWTH_LOSS_MS * 1000000) (2 * s.nominalNs x)

/-- ω of R430 in 2^-32 rad/s: 2π times the bandwidth DOM_BW selects, at most 1/(20·T_nom). -/
def State.omega (s : State) (x : Nat) : Nat :=
  min (26986075409 * 10 ^ s.ob (domOid O.DOM_BW x) / 10) (26986075409 * 1000000000 / (20 * s.nominalNs x))

/-! ### Steps of device time (R432) -/

/-- Device time is set to `d` (in 2^-48 ns) in one cycle. -/
def State.stepTime (s : State) (d : Nat) : State :=
  let s := ({ s with time := { s.time with dev := d } }.count O.BWTH_STAT 2 1).raise O.BWTH_ERR 2
  s.stepTicks

/-- The step that may be made once during acquisition (R432). -/
def State.acquireStep (s : State) : State :=
  let lim := s.ob O.BWTH_STEP_NS
  if !s.time.everLock ∧ !s.time.stepped ∧ lim ≠ 0 ∧ lim * devUnit < s.residual.natAbs ∧ !s.time.frozen then
    ({ s with time := { s.time with stepped := true } }).stepTime (s.domTime (s.ob O.BWTH_SEL)).toNat
  else s

/-- BWTH_SET (R432). A root domain goes with device time, whose clock it is. -/
def State.bwthSet (s : State) (v : Nat) : State × Nat :=
  if 1000000000 ≤ bits v 16 32 then (s, 0x0A)
  else
    let d := devOf v
    let moved : Int := (d : Int) - ((s.time.dev : Nat) : Int)
    let s := { s with time := { s.time with everLock := false, stepped := false } }
    let s := [0, 1].foldl (fun s x => if s.ob (domOid O.DOM_SRC_KIND x) = 4 then
      s.modDomain x (fun m => { m with off := m.off + moved }) else s) s
    (s.stepTime d, 0)

def execBwthSet (who : Path) (v : BitVec 112) (s : State) : Ans :=
  .next (s.access who O.BWTH_SET (fun s => s.bwthSet v.toNat))

/-- A write of BWTH_SEL (R431). -/
def State.writeSel (s : State) (v : Nat) : State × Nat :=
  if 1 < v ∨ s.domState v ≠ 2 then (s, 0x0A)
  else if v = s.ob O.BWTH_SEL then (s, 0)
  else (s.domSwitch v, 0)

def execBwthSelWrite (who : Path) (v : BitVec 8) (s : State) : Ans :=
  .next (s.access who O.BWTH_SEL (fun s => s.writeSel v.toNat))

/-! ### Samples (R429, R430) -/

/-- The servo's update for the error `e` (2^-48 ns), `t` ns after the previous one (R430). -/
def Domain.servo (d : Domain) (w : Nat) (e : Int) (t : Nat) : Domain :=
  let f := d.integ + w * w * t * e / (2 ^ 80 * 1000000000)
  { d with integ := f, rate := f + 2 * w * e / 2 ^ 48 }

/-- One update of domain `x` for a sample whose source time differs from the domain clock by `e` (2^-48 ns). -/
def State.domSample (s : State) (x : Nat) (e : Int) : State :=
  let st := s.domState x
  let d := s.domain x
  let t := s.now - d.lastNs
  if s.time.frozen then s
  else
  let s :=
    if st = 0 ∨ st = 3 then
      (s.modDomain x (fun d => { d with off := d.off + e, rate := if st = 0 then 0 else d.rate
                                        integ := if st = 0 then 0 else d.integ, samples := 1, fromFree := st == 0, inLock := 0 })).setDomState x 1
    else if d.samples = 1 ∧ d.fromFree then
      s.modDomain x (fun d =>
        let r := e * 1000000000 / (65536 * (t : Int))
        { d with off := d.off + e, integ := r, rate := r, samples := 2 })
    else
      let inside := decide (e.natAbs ≤ s.ob O.BWTH_LOCK_NS * devUnit)
      let s := s.modDomain x (fun d => { d.servo (s.omega x) e t with
        samples := 2, inLock := if inside then min 16 (d.inLock + 1) else 0 })
      if st = 1 ∧ (s.domain x).inLock = 16 then s.setDomState x 2 else s
  let s := s.modDomain x (fun d => { d with lastNs := s.now })
  s.retrim.acquireStep

/-- DOMAIN_SAMPLE_LOSS (R429): the loss time of a domain passes without a valid sample. A root domain is always locked. -/
def execDomainSampleLoss (x : Fin 2) (s : State) : Ans := awake s <|
  let st := s.domState x.val
  if (st = 1 ∨ st = 2) ∧ s.ob (domOid O.DOM_SRC_KIND x.val) ≠ 4 then
    .next ((s.advanceTo ((s.domain x.val).lastNs + s.lossNs x.val)).domLeave x.val 3)
  else .next s

/-! ### Domain and port settings (R428, R433, R458) -/

/-- Domain `x` starts anew with the source its objects name. -/
def State.domRestart (s : State) (x : Nat) : State :=
  let s := (s.domLeave x 0).modDomain x (fun _ => {})
  let s := s.setOb (domOid O.DOM_PATH_NS x) 0
  if s.ob (domOid O.DOM_SRC_KIND x) = 4 then
    let s := s.modDomain x (fun d => { d with off := ((s.time.dev : Nat) : Int) - ((s.now * devUnit : Nat) : Int) })
    (s.setOb (domOid O.DOM_HOPS x) 0).setDomState x 2
  else s.setOb (domOid O.DOM_HOPS x) 0xFF

/-- Whether element `e` of a domain takes value `v` (R428, R433, R458). -/
def domValueOk (e v : Nat) : Bool :=
  match e with
  | 1 => decide (v ≤ 255)
  | 2 => decide (v ≤ 4)
  | 3 => decide (v ≤ 1024)
  | 4 => decide (v ≤ 1)
  | 5 => decide (v ≤ 2)
  | 6 => decide (-7 ≤ sint 8 v ∧ sint 8 v ≤ 1)
  | 7 => decide (v ≤ 3)
  | _ => false

/-- Write element `e`, 1 to 7, of domain `x`. -/
def State.writeDom (s : State) (x e v : Nat) : State × Nat :=
  let oid := domOid (O.DOM_NUMBER - 1 + e) x
  if !domValueOk e v then (s, 0x0A)
  else
    let t := s.setOb oid v
    (if (e = 2 ∨ e = 3) ∧ v ≠ s.ob oid then t.domRestart x else t, 0)

/-- Write row `p` of BWTH_PORT: role 3 is rejected. -/
def State.writeBwthPort (s : State) (p v : Nat) : State × Nat :=
  if bits v 0 2 = 3 ∨ bits v 2 2 = 3 then (s, 0x0A)
  else (s.setRow O.BWTH_PORT p (bits v 0 6 + (bits v 32 32) <<< 32), 0)

/-! ### TIME_SYNC (R436, R437) -/

/-- A frame's TIME_SYNC payload is taken in on block `b`. -/
def State.timeSyncTake (s : State) (b : Nat) (p : Nat) : State :=
  let s := s.count O.BWTH_STAT 0 1
  let arr := s.time.dev
  let tSend := ofInserted (bits p 416 96)
  let tEcho := ofInserted (bits p 320 96)
  let tRx := ofInserted (bits p 224 96)
  let asym := sint 32 (bits (s.row O.BWTH_PORT (8 * b)) 32 32) * ((devUnit : Nat) : Int) / 1000
  let rtt : Int := ((arr : Int) - tEcho) - ((tSend : Int) - tRx)
  let dIn := (rtt + asym) / 2
  let s := { s with time := { s.time with syncPeer := TMap.put (0, 0) s.time.syncPeer b (tSend, arr) } }
  let s := if tEcho ≠ 0 ∧ s.bellAt (((arr : Int) - dIn).toNat / devUnit) ≠ bits p 8 64 then
      (s.count O.BWTH_STAT 5 1).raise O.BWTH_ERR 3 else s
  [0, 1].foldl (fun s x =>
    let st := bits p (222 - 2 * x) 2
    let hops := bits p (208 - 8 * x) 8
    let off := sint 64 (bits p (136 - 64 * x) 64) * 2 ^ 32
    if s.ob (domOid O.DOM_SRC_KIND x) = 2 ∧ s.ob (domOid O.DOM_SRC_PORT x) = 8 * b ∧ s.portState (8 * b) = 6 ∧
        tEcho ≠ 0 ∧ 2 ≤ st ∧ hops < 32 then
      let s := s.domSample x ((tSend : Int) + dIn + off - s.domTime x)
      (s.setOb (domOid O.DOM_HOPS x) (hops + 1)).setOb (domOid O.DOM_PATH_NS x) (min 0xFFFFFFFF (dIn / devUnit).toNat)
    else s) s

/-- TIME_SYNC_RECEIVE (R437): a TIME_SYNC of this device's has come in on block `b`, its fabric header first. -/
def execTimeSyncReceive (b : Fin 128) (bytes : List Byte) (s : State) : Ans := live s <|
  let up := s.portState (8 * b.val) == 5 || s.portState (8 * b.val) == 6
  if s.isLink b.val ∧ up ∧ hOp (beAt bytes 0 32) = 0x04 ∧ bytes.length = 96 then
    .next (s.timeSyncTake b.val (beAt bytes 32 64))
  else .next s

/-! ### The PPS pins (R444, R445) -/

/-- The nearest whole second to a time in 2^-48 ns. -/
def nearSecond (t : Int) : Int :=
  let sec : Int := ((1000000000 * devUnit : Nat) : Int)
  (t + sec / 2) / sec * sec

/-- PPS_IN_EDGE (R444): the edge is stamped less BWTH_PPS_IN_COMP_NS; a domain that takes time from the pin takes it as the
start of the second that the other domain, when locked, or else device time tells (R428). -/
def execPpsInEdge (s : State) : Ans := awake s <|
  let comp := sint 32 (s.ob O.BWTH_PPS_IN_COMP_NS) * ((devUnit : Nat) : Int)
  let dev := (((s.time.dev : Nat) : Int) - comp)
  let t : State := { s with time := { s.time with dev := dev.toNat } }
  let s := (s.setBlob O.BWTH_PPS_IN_TS (leBytes 12 t.t96)).count O.BWTH_STAT 6 1
  let s := { s with time := { s.time with ppsInAt := some s.now } }
  .next ([0, 1].foldl (fun s x =>
    if s.ob (domOid O.DOM_SRC_KIND x) = 3 then
      let near := if s.domState (1 - x) = 2 then s.domTime (1 - x) - comp else ((s.time.dev : Nat) : Int) - comp
      (s.domSample x (nearSecond near - (s.domTime x - comp))).setOb (domOid O.DOM_HOPS x) 0
    else s) s)

/-- PPS_IN_MISSING (R444): 1.1 s pass after an edge with no other. -/
def execPpsInMissing (s : State) : Ans := awake s <|
  match s.time.ppsInAt with
  | none => .next s
  | some t =>
    let s := s.advanceTo (t + 1100000000)
    .next (({ s with time := { s.time with ppsInAt := none } }.count O.BWTH_STAT 7 1).raise O.BWTH_ERR 5)

/-- The next second whose pulse is to rise, and the instant in device ns (R445): not the second of the last pulse. -/
def State.ppsNext (s : State) : Int × Nat :=
  let off := sint 32 (s.ob O.BWTH_PPS_OUT_OFF_NS)
  let k := (((s.devNs : Nat) : Int) - off + 999999999) / 1000000000
  let k := if s.time.ppsSecond = some k.toNat then k + 1 else k
  (k, (k * 1000000000 + off).toNat)

/-- PPS_OUT_RISE (R445). -/
def execPpsOutRise (s : State) : Ans := awake s <|
  if !s.ppsDriven ∨ s.time.ppsOut then .next s
  else
    let k := s.ppsNext
    let s := s.advanceDev (k.2 * devUnit)
    .next { s with time := { s.time with ppsOut := true, ppsRoseAt := s.now, ppsSecond := some k.1.toNat } }

/-- PPS_OUT_FALL (R445): the width runs on the oscillator, so a step of device time does not shorten the pulse. -/
def execPpsOutFall (s : State) : Ans := awake s <|
  if !s.time.ppsOut then .next s
  else
    let s := s.advanceTo (s.time.ppsRoseAt + s.ob O.BWTH_PPS_OUT_WIDTH_US * 1000)
    .next { s with time := { s.time with ppsOut := false } }

/-- Write BWTH_PPS_OUT_EN (R445). -/
def State.writePpsEn (s : State) (v : Nat) : State × Nat :=
  if 2 < v then (s, 0x0A)
  else ({ s.setOb O.BWTH_PPS_OUT_EN v with time := { s.time with ppsArmed := true } }.ppsGate, 0)

/-! ### Registers and crossings (R455, R456, R459) -/

/-- BWTH_TIME_LO as it reads. -/
def State.timeLo (s : State) : Nat := s.time.dev / 2 ^ 32 % 65536 + (s.devNs % 1000000000) <<< 16

/-- BWTH_TIME_READ (R459): the read latches the seconds of the same instant. -/
def execBwthTimeRead (s : State) : Ans := awake s <|
  .next (({ s with time := { s.time with hiLatch := s.devNs / 1000000000 % 2 ^ 64 } }).emit (.value s.timeLo))

/-- BWTH_STATUS as it reads (R459). -/
def State.bwthStatus (s : State) : Nat :=
  let ns := max (-(2 ^ 31 : Int)) (min (2 ^ 31 - 1) (s.residual / devUnit))
  s.domState 0 + s.domState 1 <<< 2 + (s.ob O.BWTH_SEL) <<< 4 +
    b2n (decide (s.slewUnits < s.residual.natAbs) && !s.time.frozen) <<< 5 + b2n s.time.everLock <<< 6 + sbits 32 ns <<< 32

/-- STILE_FIFO_OVERRUN (R456): a write to a full FIFO of a class is discarded; classes 12 to 15 are reserved. -/
def execStileFifoOverrun (cls : Fin 16) (s : State) : Ans := live s <|
  if 12 ≤ cls.val then .next s
  else .next (((s.count O.STILE_STAT cls.val 1).holdCount (0x1B0100 + 8 * cls.val) 0 1).raise O.STILE_ERR cls.val)

end Sys2Proof.Machine
end

