-- ==== Sys2Proof/Machine/Ptp.lean ====
section
/-!
DEFINITION. PTP on flock ports and the management port (R428, R430, R433, R434, R442): Sync, Delay and Pdelay messages.
The message layouts are those of IEEE 1588-2019, which R433 names (PRESUMED, log entry 18).
-/

namespace Sys2Proof.Machine

/-! ### Frames this device sends -/

/-- The PTP state of `port` for domain `x`. -/
def State.ptpPort (s : State) (port x : Nat) : PtpPort := TMap.get {} s.time.ptp (2 * port + x)

/-- Change it by `f`. -/
def State.modPtp (s : State) (port x : Nat) (f : PtpPort → PtpPort) : State :=
  { s with time := { s.time with ptp := TMap.put {} s.time.ptp (2 * port + x) (f (s.ptpPort port x)) } }

/-- The role of `port` for domain `x` (R434): 0 off, 1 master, 2 listen. -/
def State.ptpRole (s : State) (port x : Nat) : Nat := bits (s.row O.BWTH_PORT port) (2 * x) 2

/-- Whether PTP runs on `port`: a flock port that is up, or the management port. -/
def State.ptpUp (s : State) (port : Nat) : Bool :=
  port == 1024 || (s.role (port / 8) == 1 && s.portState port == 6)

/-- A time in the wire format (R427). -/
def wireOf (t : Int) : List Byte :=
  let ns := t.toNat / devUnit
  beBytes 6 (ns / 1000000000 % 2 ^ 48) ++ beBytes 4 (ns % 1000000000)

/-- The time of a wire format field. -/
def ofWire (l : List Byte) (off : Nat) : Int := (((beAt l off 6 * 1000000000 + beAt l (off + 6) 4) * devUnit : Nat) : Int)

/-- A correctionField, whose unit is 2^-16 ns. -/
def correctionOf (l : List Byte) : Int := sint 64 (beAt l 8 8) * 2 ^ 32

/-- The portIdentity of `port`. -/
def ptpIdentity (port : Nat) : List Byte := beBytes 8 Config.ptpClock.toNat ++ beBytes 2 (port + 1)

/-- A PTP message of domain `x` from `port`: `kind` its messageType, `two` its twoStepFlag. -/
def State.ptpMessage (s : State) (port x kind seq : Nat) (two : Bool) (corr : Nat) (body : List Byte) : List Byte :=
  beBytes 2 (kind * 256 + 0x12) ++ beBytes 2 (34 + body.length) ++ beBytes 1 (s.ob (domOid O.DOM_NUMBER x)) ++ [0] ++
    beBytes 2 (if two then 0x0200 else 0) ++ beBytes 8 corr ++ beBytes 4 0 ++ ptpIdentity port ++ beBytes 2 seq ++
    [0] ++ beBytes 1 (s.ob (domOid O.DOM_LOG_SYNC x)) ++ body

/-- The management MAC address (R500): 0x02 and the low 40 bits of the serial. -/
def mgmtMac : Nat := 0x02 <<< 40 + Config.serial.toNat % 2 ^ 40

/-- The addresses a port's PTP messages are sent from. -/
def ptpMac (port : Nat) : Nat := if port = 1024 then mgmtMac else (Config.portMac port).toNat
def State.ptpIp4 (s : State) (port : Nat) : Nat := if port = 1024 then s.ob O.OXPIN_IPV4 else (Config.portIp4 port).toNat
def State.ptpIp6 (s : State) (port : Nat) : Nat :=
  if port = 1024 then beNum (leBytes 16 (s.ob O.OXPIN_IPV6)) else (Config.portIp6 port).toNat

/-- The frame of a message on the transport of domain `x` (R433): `event` a message that is timestamped, `peer` one of the
peer delay mechanism. -/
def State.ptpFrame (s : State) (port x : Nat) (event peer : Bool) (m : List Byte) : List Byte :=
  let mac := beBytes 6 (ptpMac port)
  let udp := if event then 319 else 320
  let len := 8 + m.length
  match s.ob (domOid O.DOM_TRANSPORT x) with
  | 1 =>
    let dip := if peer then 0xE000006B else 0xE0000181
    let ip := beBytes 2 0x4500 ++ beBytes 2 (20 + len) ++ beBytes 4 0 ++ beBytes 2 0x0111 ++ [0, 0] ++
      beBytes 4 (s.ptpIp4 port) ++ beBytes 4 dip
    beBytes 6 (0x01005E000000 + dip % 2 ^ 23) ++ mac ++ beBytes 2 0x0800 ++ patch ip 10 (beBytes 2 (ipv4Sum ip)) ++
      beBytes 2 udp ++ beBytes 2 udp ++ beBytes 2 len ++ [0, 0] ++ m
  | 2 =>
    let dip := if peer then 0xFF02 <<< 112 + 0x6B else 0xFF0E <<< 112 + 0x181
    let adr := beBytes 16 (s.ptpIp6 port) ++ beBytes 16 dip
    let u := beBytes 2 udp ++ beBytes 2 udp ++ beBytes 2 len
    let sum := adr ++ beBytes 4 len ++ beBytes 4 17 ++ u ++ [0, 0] ++ m
    let c := (65535 - onesSum sum sum.length 0) % 65535
    beBytes 6 (0x333300000000 + dip % 2 ^ 32) ++ mac ++ beBytes 2 0x86DD ++ beBytes 4 (6 <<< 28) ++ beBytes 2 len ++
      [17, 1] ++ adr ++ u ++ beBytes 2 (if c = 0 then 0xFFFF else c) ++ m
  | _ => beBytes 6 (if peer then 0x0180C200000E else 0x011B19000000) ++ mac ++ beBytes 2 0x88F7 ++ m

/-- Send a message of domain `x` from `port`. -/
def State.ptpSend (s : State) (port x kind seq : Nat) (two : Bool) (corr : Nat) (body : List Byte) : State :=
  let l := s.ptpFrame port x (decide (kind < 4)) (kind == 2 || kind == 3 || kind == 0xA) (s.ptpMessage port x kind seq two corr body)
  if port = 1024 then s.emit (.mgmt l)
  else (((s.tally 0x0102 port).tally 0x0103 port l.length).transmit (port / 8) (.eth port l false))

/-- PTP_SYNC_SEND (R434): a one-step Sync carries its departure time; a two-step one is followed by it. -/
def execPtpSyncSend (port : Fin 1025) (x : Fin 2) (s : State) : Ans := live s <|
  let p := port.val
  let x := x.val
  if s.ptpUp p ∧ s.ptpRole p x = 1 then
    let one := (s.row O.BWTH_PORT p).testBit 4
    let seq := (s.ptpPort p x).nextSeq
    let t := wireOf (s.domTime x)
    let s := (s.modPtp p x (fun q => { q with nextSeq := (seq + 1) % 65536 })).count O.BWTH_STAT 1 1
    if one then .next (s.ptpSend p x 0 seq false 0 t)
    else .next ((s.ptpSend p x 0 seq true 0 (List.replicate 10 0)).ptpSend p x 8 seq false 0 t)
  else .next s

/-- PTP_DELAY_REQ_SEND (R433, R434): Delay_Req, or Pdelay_Req under the peer-to-peer mechanism. -/
def execPtpDelayReqSend (port : Fin 1025) (x : Fin 2) (s : State) : Ans := live s <|
  let p := port.val
  let x := x.val
  if s.ptpUp p ∧ s.ptpRole p x = 2 then
    let seq := (s.ptpPort p x).nextSeq
    let peer := s.ob (domOid O.DOM_DELAY_MECH x) = 1
    let s := s.modPtp p x (fun q => { q with nextSeq := (seq + 1) % 65536, req := some (seq, s.now * devUnit), resp := none })
    .next (if peer then s.ptpSend p x 2 seq false 0 (List.replicate 20 0) else s.ptpSend p x 1 seq false 0 (wireOf (s.domTime x)))
  else .next s

/-! ### Samples (R428, R430) -/

/-- Whether `port` feeds the servo of domain `x` (R434). -/
def State.ptpFeeds (s : State) (port x : Nat) : Bool :=
  s.ptpRole port x == 2 && s.ob (domOid O.DOM_SRC_KIND x) == 1 && s.ob (domOid O.DOM_SRC_PORT x) == port

/-- A sample: at the oscillator time `at_` the source's time was `src`. This device is then the first of the fabric in the
domain. -/
def State.ptpSample (s : State) (port x : Nat) (src : Int) (at_ : Nat) : State :=
  if s.ptpFeeds port x then
    let s := s.domSample x (src - ((at_ : Int) + (s.domain x).off))
    let s := s.setOb (domOid O.DOM_HOPS x) 0
    s.setOb (domOid O.DOM_PATH_NS x) (min 0xFFFFFFFF (((s.ptpPort port x).pathDelay.getD 0) / devUnit).toNat)
  else s

/-- A Sync is complete: its corrected origin time and its arrival. It is a sample once the path delay is known. -/
def State.ptpSyncDone (s : State) (port x : Nat) (t1 : Int) (t2 : Nat) : State :=
  let s := s.modPtp port x (fun q => { q with sync := some (t1, t2), syncSeq := none })
  match (s.ptpPort port x).pathDelay with
  | some d => s.ptpSample port x (t1 + d) t2
  | none => s

/-- A Delay_Req is answered: it left at `t3` and came in at the master's time `t4`. With the last Sync it gives the path
delay, and a sample. -/
def State.ptpDelayDone (s : State) (port x : Nat) (t3 : Nat) (t4 : Int) : State :=
  match (s.ptpPort port x).sync with
  | some (t1, t2) =>
    let d := (((t2 : Int) - t3) + (t4 - t1)) / 2
    (s.modPtp port x (fun q => { q with pathDelay := some d, req := none })).ptpSample port x (t4 - d) t3
  | none => s.modPtp port x (fun q => { q with req := none })

/-- A Pdelay exchange is complete: the peer took `turn` between its two messages; they left and came at `t1` and `t4` here. -/
def State.ptpPeerDone (s : State) (port x : Nat) (t1 t4 : Nat) (turn : Int) : State :=
  s.modPtp port x (fun q => { q with pathDelay := some ((((t4 : Int) - t1) - turn) / 2), req := none, resp := none })

/-! ### Messages received -/

/-- A PTP message of domain `x` on `port`, whose role there is not off. -/
def State.ptpTake (s : State) (port x : Nat) (m : List Byte) : State :=
  let role := s.ptpRole port x
  let mech := s.ob (domOid O.DOM_DELAY_MECH x)
  let seq := beAt m 30 2
  let corr := correctionOf m
  let two := (beAt m 6 2).testBit 9
  let osc := s.now * devUnit
  let q := s.ptpPort port x
  let mine := decide ((m.drop 44).take 10 = ptpIdentity port)
  let asked := match q.req with
    | some (n, t) => if n = seq then some t else none
    | none => none
  match beAt m 0 1 % 16 with
  | 0 =>      -- Sync
    if role = 2 then
      let s := s.count O.BWTH_STAT 0 1
      if two then s.modPtp port x (fun q => { q with syncSeq := some (seq, osc, corr) })
      else s.ptpSyncDone port x (ofWire m 34 + corr) osc
    else s
  | 1 =>      -- Delay_Req
    if role = 1 ∧ mech = 0 then s.ptpSend port x 9 seq false (beAt m 8 8) (wireOf (s.domTime x) ++ (m.drop 20).take 10) else s
  | 2 =>      -- Pdelay_Req
    if mech = 1 then
      let who := (m.drop 20).take 10
      let t := wireOf (s.domTime x)
      if (s.row O.BWTH_PORT port).testBit 4 then s.ptpSend port x 3 seq false (beAt m 8 8) (List.replicate 10 0 ++ who)
      else (s.ptpSend port x 3 seq true 0 (t ++ who)).ptpSend port x 0xA seq false (beAt m 8 8) (t ++ who)
    else s
  | 3 =>      -- Pdelay_Resp
    match asked with
    | some t1 =>
      if mine ∧ mech = 1 then
        if two then s.modPtp port x (fun q => { q with resp := some (seq, ofWire m 34 - corr, osc) })
        else s.ptpPeerDone port x t1 osc corr
      else s
    | none => s
  | 8 =>      -- Follow_Up
    match q.syncSeq with
    | some (n, t2, c) => if n = seq ∧ role = 2 then s.ptpSyncDone port x (ofWire m 34 + c + corr) t2 else s
    | none => s
  | 9 =>      -- Delay_Resp
    match asked with
    | some t3 => if mine ∧ mech = 0 then s.ptpDelayDone port x t3 (ofWire m 34 - corr) else s
    | none => s
  | 0xA =>    -- Pdelay_Resp_Follow_Up
    match q.resp, asked with
    | some (n, t2, t4), some t1 => if n = seq ∧ mine ∧ mech = 1 then s.ptpPeerDone port x t1 t4 (ofWire m 34 + corr - t2) else s
    | _, _ => s
  | _ => s

/-- A PTP frame has come in on `port` (R434): of another domain, or on a port whose roles are both off, it is forwarded as an
ordinary frame; messages the hardware does not process go to the Criotte cores. -/
def State.ptpReceive (s : State) (port : Nat) (event : Bool) (bytes : List Byte) : State :=
  let p := parseEth (s.ob O.FWD_ETHERTYPE) bytes
  match p.ptp with
  | none => s
  | some o =>
    let m := bytes.drop o
    let kind := beAt m 0 1 % 16
    let doms := [0, 1].filter (fun x => s.ob (domOid O.DOM_NUMBER x) == beAt m 4 1)
    let transport := if p.ipVer = 4 then 1 else if p.ipVer = 6 then 2 else 0
    if !s.ptpUp port ∨ event ≠ decide (kind < 4) then s
    else if doms.isEmpty ∨ (s.ptpRole port 0 = 0 ∧ s.ptpRole port 1 = 0) then
      if port = 1024 then s else s.ingress port bytes true none
    else
      let s := if port = 1024 then s else (s.tally 0x0100 port).tally 0x0101 port bytes.length
      if 0xB ≤ kind then
        s.emit (.cores (port / 64 % 16) { bytes := bytes, port := port, rx := time112 s.time.dev })
      else doms.foldl (fun s x =>
        if s.ptpRole port x ≠ 0 ∧ s.ob (domOid O.DOM_TRANSPORT x) = transport then s.ptpTake port x m else s) s

/-- PTP_EVENT_RECEIVE (R434): a frame without preamble and FCS comes in on a flock port or the management port. -/
def execPtpEventReceive (port : Fin 1025) (bytes : List Byte) (s : State) : Ans := live s <| .next (s.ptpReceive port.val true bytes)

/-- PTP_GENERAL_MESSAGE_RECEIVE (R430). -/
def execPtpGeneralMessageReceive (port : Fin 1025) (bytes : List Byte) (s : State) : Ans := live s <|
  .next (s.ptpReceive port.val false bytes)

end Sys2Proof.Machine
end

