-- ==== Sys2Proof/Machine/Control.lean ====
section
/-!
DEFINITION. The Criotte cores, the firmware push, network boot and the feature vector (R487 to R492, R509 to R519).
-/

namespace Sys2Proof.Machine

/-! ### Straps (R583) -/

/-- The strap code that acts: a reserved one behaves as 15. -/
def State.strap (s : State) : Nat := if s.ob O.STRAP_CODE < 8 then 15 else s.ob O.STRAP_CODE
def State.netBoot (s : State) : Bool := decide (10 ≤ s.strap ∧ s.strap ≤ 13)
def State.pcieOn (s : State) : Bool := !(s.strap == 10 || s.strap == 11)
def State.fieldOn (s : State) : Bool := s.strap % 2 == 1

/-! ### The cores and their watchdog (R490, R491) -/

/-- Every core in state `was` goes to state `v`. -/
def State.coresFrom (s : State) (was v : Nat) : State :=
  (List.range 64).foldl (fun s c => if s.row O.CRIOTTE_STATE c = was then s.setRow O.CRIOTTE_STATE c v else s) s

/-- The watchdog period runs from now on, if there is one. -/
def State.wdtStart (s : State) : State :=
  let ms := s.ob O.CRIOTTE_WDT_MS
  { s with ctl := { s.ctl with wdtAt := if ms = 0 then none else some (s.now + ms * 1000000) } }

/-- The event of a change of FW_STATE, and the change (R514, R537). -/
def State.setFw (s : State) (v : Nat) : State := (s.setOb O.FW_STATE v).event [0] 0x0A v (s.ob O.FW_STATUS)

/-- Every core that no fence or gate holds starts at the image's entry (R517, R593). -/
def State.coresStart (s : State) : State :=
  let s := { s with power := { s.power with woken := true } }
  (((List.range 64).foldl (fun s c =>
    if s.row O.CRIOTTE_STATE c = 0 ∧ !(s.ob O.PWR_GATED_UNITS).testBit (c / 4) then s.setRow O.CRIOTTE_STATE c 1 else s) s).setFw 4).wdtStart

/-- Write CRIOTTE_WDT_MS: a period begins. -/
def State.writeWdt (s : State) (v : Nat) : State × Nat :=
  if 600000 < v then (s, 0x0A) else ((s.setOb O.CRIOTTE_WDT_MS v).wdtStart, 0)

/-- CRIOTTE_WDT_KICK (R491). -/
def execCriotteWdtKick (who : Path) (s : State) : Ans := .next (s.access who O.CRIOTTE_WDT_KICK (okay (fun s => s.wdtStart)))

/-- CRIOTTE_WDT_EXPIRE (R491): the period passes without a kick. -/
def execCriotteWdtExpire (s : State) : Ans := live s <|
  match s.ctl.wdtAt with
  | none => .next s
  | some t =>
    let s := s.advanceTo t
    let s := { s with ctl := { s.ctl with wdtAt := none } }
    let s := (s.coresFrom 1 0).count O.CTL_STAT 2 1
    let s := if (s.ob O.CTL_ERR).testBit 4 then s.errLog 0x5002 4 0 0 0 0 else s.raise O.CTL_ERR 4
    .next (s.event [0] 8 4 0)

/-! ### Images (R515, R516) -/

/-- Fields of an image header. -/
def fwLen (h : List Byte) : Nat := leAt h 8 8
def fwSvn (h : List Byte) : Nat := leAt h 16 4
def fwVersion (h : List Byte) : List Byte := ((h.drop 20).take 32).takeWhile (fun b => b != 0)
def fwLoadOff (h : List Byte) : Nat := leAt h 52 8

/-- Start of stack 0's Criotte reservation, where the staging area stands too (R390, R514). -/
abbrev stageBase : Nat := 2 ^ 30

/-- The number of the first check of R516 that fails, 0 for none. `len` is the length of the whole image. -/
def State.fwCheck (s : State) (len : Nat) (h sigs payload : List Byte) : Nat :=
  let es := leAt h 6 1
  let ls := leAt h 7 1
  let n := fwLen h
  let off := fwLoadOff h
  if leAt h 0 4 ≠ 0x44563746 ∨ leAt h 4 2 ≠ 1 then 1
  else if n = 0 ∨ 2 ^ 30 < n ∨ len ≠ 4096 + n ∨ off % 4096 ≠ 0 ∨ s.common.resvGib * 2 ^ 30 < off + n then 2
  else if Config.sha384 payload ≠ BitVec.ofNat 384 (beAt h 68 48) then 3
  else if !Config.ecdsaOk es h (sigs.take 96) then 4
  else if !Config.lmsOk ls h (sigs.drop 96) then 5
  else if 3 < es ∨ 3 < ls then 6
  else 0

/-- Verification has failed at check `n`. -/
def State.fwFail (s : State) (n : Nat) : State :=
  let s := ((s.setOb O.FW_STATUS 0x0E).setOb O.FW_REASON n).setFw 5
  let s := s.raise O.CTL_ERR 5 0x0E
  if s.netBoot then s.emit (.boot false (beBytes 2 (0x0500 + n))) else s

/-- The image is loaded: the payload is moved, the measurements taken, the Alias certificate issued (R517, R521). -/
def State.fwLoad (s : State) (h sigs payload : List Byte) : State :=
  let s := s.hbmWrite (stageBase + fwLoadOff h) payload
  let s := ((s.setOb O.FW_STATUS 0).setOb O.FW_REASON 0).setOb O.FW_SVN (fwSvn h)
  let s := (s.setBlob O.FW_VERSION (fwVersion h)).setBlob O.FW_DIGEST ((h.drop 68).take 48)
  let s := s.setBlob O.IDENT_ALIAS_CERT (Config.aliasCert (Config.sha384 h).toNat (fwSvn h) (s.ob O.STRAP_CODE))
  { s.setFw 3 with ctl := { (s.setFw 3).ctl with ready := false, fwHeader := h, fwSigs := sigs } }

/-- FW_PUSH (R517): while the strap selects the network no push is taken over the dictionary. -/
def State.fwPush (s : State) (len : Nat) : State × Nat :=
  let st := s.ob O.FW_STATE
  if 1 ≤ st ∧ st ≤ 4 then (s, 0x0D)
  else if s.netBoot then (s, 0x09)
  else ({ s.setFw 2 with ctl := { (s.setFw 2).ctl with fwVerify := some len } }, 0)

def execFwPush (who : Path) (len : BitVec 64) (s : State) : Ans :=
  .next (s.access who O.FW_PUSH (fun s => s.fwPush len.toNat))

/-- The staged image of `len` bytes is judged, and loaded and started when every check passes. -/
def State.fwJudge (s : State) (len : Nat) (h sigs payload : List Byte) : State :=
  match s.fwCheck len h sigs payload with
  | 0 => ((s.fwLoad h sigs payload).coresStart).setOb O.PWR_WAKE_FROM (s.ob O.PWR_STATE)
  | n + 1 => s.fwFail (n + 1)

/-- FW_VERIFY_DONE (R516, R517). -/
def execFwVerifyDone (s : State) : Ans := live s <|
  match s.ctl.fwVerify with
  | none => .next s
  | some len =>
    let h := s.hbmRead stageBase 256
    .next ({ s with ctl := { s.ctl with fwVerify := none } }.fwJudge len h (s.hbmRead (stageBase + 256) 2924)
      (s.hbmRead (stageBase + 4096) (min (fwLen h) 0x40000000)))

/-- FW_READY (R517). -/
def execFwReady (who : Path) (s : State) : Ans :=
  .next (s.access who O.FW_READY (okay (fun s =>
    if s.ob O.FW_STATE = 4 then { s with ctl := { s.ctl with ready := true } } else s)))

/-- The loaded image is verified again in place, and every core started when it passes (R491, R592). -/
def State.fwRestart (s : State) : State :=
  let h := s.ctl.fwHeader
  let t := (s.coresFrom 1 0).setFw 2
  match s.fwCheck (4096 + fwLen h) h s.ctl.fwSigs (s.hbmRead (stageBase + fwLoadOff h) (min (fwLen h) 0x40000000)) with
  | 0 =>
    let t := t.setFw 3
    { t with ctl := { t.ctl with ready := false } }.coresStart
  | n + 1 => t.fwFail (n + 1)

/-- CRIOTTE_CMD (R491): 1 halt, 2 restart; a restart needs a loaded image. -/
def State.criotteCmd (s : State) (v : Nat) : State × Nat :=
  match v with
  | 1 => (s.coresFrom 1 0, 0)
  | 2 => if s.ob O.FW_STATE = 3 ∨ s.ob O.FW_STATE = 4 then (s.fwRestart.setOb O.PWR_WAKE_FROM (s.ob O.PWR_STATE), 0) else (s, 0x0A)
  | _ => (s, 0x0A)

def execCriotteHalt (who : Path) (s : State) : Ans := .next (s.access who O.CRIOTTE_CMD (fun s => s.criotteCmd 1))
def execCriotteRestart (who : Path) (s : State) : Ans := .next (s.access who O.CRIOTTE_CMD (fun s => s.criotteCmd 2))

/-! ### Network boot (R518) -/

/-- The bytes held contiguously from offset `n` on. -/
def contiguous (l : List (Nat × Nat)) : Nat → Nat → Nat
  | 0, n => n
  | fuel + 1, n =>
    match l.find? (fun x => decide (x.1 ≤ n ∧ n < x.1 + x.2)) with
    | some x => contiguous l fuel (x.1 + x.2)
    | none => n

/-- BOOT_ACK. -/
def State.bootAck (s : State) : State :=
  s.emit (.boot false (beBytes 1 0x03 ++ beBytes 8 (contiguous s.ctl.netGot (s.ctl.netGot.length + 1) 0)))

/-- Network boot waits for an image. -/
def State.bootWaits (s : State) : Bool := s.netBoot && s.crookUp && s.power.width == 0 && (s.ob O.FW_STATE == 0 || s.ob O.FW_STATE == 5)

/-- BOOT_REQ_SEND (R518): every 1 s until BOOT_DATA arrives, to IPv6 all-nodes and IPv4 broadcast. -/
def execBootReqSend (s : State) : Ans :=
  if !s.bootWaits then .next s
  else
    let s := s.advanceTo (s.ctl.netReqAt.getD 0)
    let m := beBytes 1 0x01 ++ beBytes 8 Config.serial.toNat ++ beBytes 6 mgmtMac
    let s := { s with ctl := { s.ctl with netReqAt := some (s.now + 1000000000) } }
    .next ((s.emit (.boot false m)).emit (.boot true m))

/-- BOOT_DATA (R518): the payload of a datagram, its message code first. -/
def execBootData (bytes : List Byte) (s : State) : Ans :=
  let off := beAt bytes 1 8
  let data := bytes.drop 9
  if !(s.bootWaits || (s.netBoot && s.ob O.FW_STATE == 1)) ∨ beAt bytes 0 1 ≠ 0x02 ∨ data = [] ∨ 8192 < data.length ∨
      s.common.resvGib * 2 ^ 30 < off + data.length then .next s
  else
    let s := if s.ob O.FW_STATE = 1 then s else
      { s.setFw 1 with ctl := { (s.setFw 1).ctl with netGot := [], netBlocks := 0 } }
    let s := s.hbmWrite (stageBase + off) data
    let s := { s with ctl := { s.ctl with netGot := (off, data.length) :: s.ctl.netGot, netBlocks := s.ctl.netBlocks + 1
                                          netReqAt := none, netDataAt := some (s.now + 10000000000) } }
    .next (if s.ctl.netBlocks % 64 = 0 then s.bootAck else s)

/-- BOOT_END (R518): verification begins as after a push. -/
def execBootEnd (bytes : List Byte) (s : State) : Ans :=
  if s.netBoot ∧ s.crookUp ∧ s.ob O.FW_STATE = 1 ∧ beAt bytes 0 1 = 0x04 then
    let s := s.bootAck.setFw 2
    .next { s with ctl := { s.ctl with fwVerify := some (beAt bytes 1 8), netDataAt := none } }
  else .next s

/-- BOOT_DATA_SILENCE (R518): 10 s pass without BOOT_DATA. -/
def execBootDataSilence (s : State) : Ans :=
  match s.ctl.netDataAt with
  | some t =>
    if s.ob O.FW_STATE = 1 then
      let s := (s.advanceTo t).setFw 0
      .next { s with ctl := { s.ctl with netGot := [], netBlocks := 0, netDataAt := none, netReqAt := none } }
    else .next s
  | none => .next s

/-! ### Features (R509 to R513) -/

/-- Whether vector `a` is a subset of `b`. -/
def subset (a b : Nat) : Bool := (a &&& b) == a

/-- A write of FEAT_ACCEPT (R510). -/
def State.writeAccept (s : State) (v : Nat) : State × Nat :=
  if subset v (s.ob O.FEAT_DEVICE) && subset 0x300 v then
    ({ s.setOb O.FEAT_ACCEPT v with ctl := { s.ctl with featDue := s.ctl.featDue || v != s.ob O.FEAT_ACCEPT } }, 0)
  else (s, 0x0A)

def execFeatAcceptWrite (who : Path) (v : BitVec 256) (s : State) : Ans :=
  .next (s.access who O.FEAT_ACCEPT (fun s => s.writeAccept v.toNat))

/-- The AND of FEAT_FABRIC over the members of pasture `p`. -/
def State.membersAccept (s : State) (p : Nat) : Nat :=
  (setBitsOf 512 (s.row O.FEAT_PASTURE_MEMBERS p)).foldl (fun a d => a &&& s.row O.FEAT_FABRIC d) (2 ^ 256 - 1)

/-- FEAT_APPLY (R512): pasture, Bell number and vector. -/
def State.featApply (s : State) (p n v : Nat) : State × Nat :=
  if p < 4096 && subset v (s.membersAccept p) && subset v (s.ob O.FEAT_ACCEPT) && decide (s.bell + 16 ≤ n) &&
      (TMap.get none s.ctl.apply p).isNone then
    ({ s.setOb O.FEAT_APPLY_STATUS 0 with ctl := { s.ctl with apply := TMap.put none s.ctl.apply p (some (n, v)) } }, 0)
  else (s.setOb O.FEAT_APPLY_STATUS 0x0A, 0x0A)

def execFeatApply (who : Path) (p : BitVec 16) (n : BitVec 64) (v : BitVec 256) (s : State) : Ans :=
  .next (s.access who O.FEAT_APPLY (fun s => s.featApply p.toNat n.toNat v.toNat))

/-- FEAT_APPLY_TAKE (R512): the named tick has come. -/
def execFeatApplyTake (p : Fin 4096) (s : State) : Ans := live s <| .next (s.featTake p.val)

/-- FEATURES_FLOOD (R512): after a change of FEAT_ACCEPT, and every 1,024 ticks. -/
def execFeaturesFlood (s : State) : Ans := live s <|
  if s.ctl.featDue ∨ s.ctl.featSent + 1024 ≤ s.bell then
    let v := s.ob O.FEAT_ACCEPT
    let s := s.floodIssue 0x0E s.own 64 Config.serial.toNat s.bell 0 (beBytes 32 v)
    let s := s.featuresTake s.own v
    .next { s with ctl := { s.ctl with featSent := s.bell, featDue := false } }
  else .next s

end Sys2Proof.Machine
end

