-- ==== Sys2Proof/Machine/Flags.lean ====
section
/-!
DEFINITION. Flag fields: what writing ones does to a field that is cleared so, and what a read of a field that it clears leaves (R26).
How an error flag is raised stands in Ops.lean.
-/

namespace Sys2Proof.Machine

/-- The 64-bit word `w` with the bits that are set in `v` cleared. -/
def oneClears (w v : Nat) : Nat := w &&& (2 ^ 64 - 1 - v % 2 ^ 64)

end Sys2Proof.Machine
end

