-- ==== Sys2Proof/Machine/Oxpin.lean ====
section
/-!
DEFINITION. Oxpin (R500 to R508): opens, sessions, keys, SPDM, and the addresses of the management port.
-/

namespace Sys2Proof.Machine

/-! ### Messages (R501, R506) -/

/-- Fields of a message's header. -/
def oxType (m : List Byte) : Nat := beAt m 1 1
def oxFlags (m : List Byte) : Nat := beAt m 2 1
def oxSession (m : List Byte) : Nat := beAt m 4 4
def oxSeq (m : List Byte) : Nat := beAt m 8 8
def oxLen (m : List Byte) : Nat := beAt m 16 2
def oxPayload (m : List Byte) : List Byte := (m.drop 24).take (oxLen m)

/-- Whether a message is whole, of this version, and not one of the device's own (R501). -/
def oxWhole (m : List Byte) : Bool :=
  beAt m 0 1 == 1 && m.length == 40 + oxLen m && !(oxFlags m).testBit 1

/-- A header this device sends. -/
def oxHeader (type session seq len : Nat) (enc : Bool) : List Byte :=
  [1] ++ beBytes 1 type ++ [if enc then 3 else 2, 0] ++ beBytes 4 session ++ beBytes 8 seq ++ beBytes 2 len ++ List.replicate 6 0

/-- A message outside a session: its MAC field is zero (R503). -/
def State.oxPlain (s : State) (field : Bool) (type session : Nat) (payload : List Byte) : State :=
  s.emit (.oxpin field (oxHeader type session 0 payload.length false ++ payload ++ List.replicate 16 0))

/-- A GCM nonce (R506): direction and sequence number. -/
def gcmNonce (dir seq : Nat) : List Byte := beBytes 1 dir ++ [0, 0, 0] ++ beBytes 8 seq

/-- A message of session `x`, encrypted when the session is (R506). -/
def Session.seal (x : Session) (type : Nat) (payload : List Byte) : List Byte :=
  let h := oxHeader type x.ident x.txSeq (payload.length + if x.enc then 16 else 0) x.enc
  let p := if x.enc then Config.gcmSeal x.kEnc (gcmNonce 1 x.txSeq) h payload else payload
  h ++ p ++ (beBytes 48 (Config.hmac384 x.kMac (h ++ p)).toNat).take 16

/-! ### Sessions (R508) -/

/-- Set row `i`, and what OXPIN_SESSIONS shows of it. -/
def State.setSession (s : State) (i : Nat) (x : Option Session) : State :=
  let row := match x with
    | some x => x.ident + x.role <<< 32 + b2n x.enc <<< 34 + x.slot <<< 35 + 1 <<< 38
    | none => 0
  { s.setRow O.OXPIN_SESSIONS i row with ctl := { s.ctl with sessions := TMap.put none s.ctl.sessions i x } }

/-- Close row `i`. -/
def State.closeSession (s : State) (i : Nat) : State := s.setSession i none

/-- Send a message of type `type` on the session of row `i`. -/
def State.oxSend (s : State) (field : Bool) (i : Nat) (x : Session) (type : Nat) (payload : List Byte) : State × List Byte :=
  let m := x.seal type payload
  ((s.setSession i (some { x with txSeq := x.txSeq + 1 })).emit (.oxpin field m), m)

/-- The open session that a message names: its row. -/
def State.sessionRow (s : State) (ident : Nat) : Option (Nat × Session) :=
  (List.range 8).findSome? (fun i => match s.session i with
    | some x => if x.ident = ident then some (i, x) else none
    | none => none)

/-- Take in a message of an open session (R506, R507): it must carry the right MAC, be encrypted where the session asks for it,
and go on in sequence, or repeat a number for which `kept` answers. Answers the row and the payload in clear. -/
def State.oxTake (s : State) (type : Nat) (m : List Byte) (kept : Session → Bool) : State × Option (Nat × Session × List Byte) :=
  let bad := fun (s : State) (row : Nat) => ((s.count O.OXPIN_STAT row 1).raise O.CTL_ERR 1, none)
  if !s.crookUp ∨ !oxWhole m ∨ oxType m ≠ type then (s, none)
  else match s.sessionRow (oxSession m) with
    | none => (s, none)
    | some (i, x) =>
      let h := m.take 24
      let p := oxPayload m
      let enc := (oxFlags m).testBit 0
      if m.drop (24 + oxLen m) ≠ (beBytes 48 (Config.hmac384 x.kMac (h ++ p)).toNat).take 16 then bad s 2
      else if x.enc ∧ !enc then (s, none)
      else
        let plain := if enc then Config.gcmOpen x.kEnc (gcmNonce 0 (oxSeq m)) h p else some p
        match plain with
        | none => bad s 2
        | some l =>
          if oxSeq m ≤ x.rxHigh ∧ !kept x then bad s 3
          else
            let x := { x with lastNs := s.now, rxHigh := max x.rxHigh (oxSeq m) }
            (s.setSession i (some x), some (i, x, l))

/-! ### Keys (R502) -/

/-- A key slot: its key, role and valid bit. -/
def State.slotKey (s : State) (k : Nat) : List Byte := leBytes 32 (s.row O.OXPIN_KEY k)
def State.slotRole (s : State) (k : Nat) : Nat := bits (s.row O.OXPIN_KEY k) 256 2
def State.slotValid (s : State) (k : Nat) : Bool := decide (k < 8) && (s.row O.OXPIN_KEY k).testBit 264
def State.slotLocked (s : State) (k : Nat) : Bool := decide (s.now < TMap.get 0 s.ctl.locked k)

/-- A row of OXPIN_KEY_STATE as it reads. -/
def State.keyState (s : State) (k : Nat) : Nat := s.slotRole k + b2n (s.slotValid k) <<< 2 + b2n (s.slotLocked k) <<< 3

/-- Write key slot `k` (R502): sessions opened or opening under it close. -/
def State.writeKey (s : State) (k v : Nat) : State × Nat :=
  let role := bits v 256 8
  if role = 0 ∨ 3 < role then (s, 0x0A)
  else
    let s := s.setRow O.OXPIN_KEY k (bits v 0 264 + (bits v 264 1) <<< 264)
    let s := (List.range 8).foldl (fun s i => match s.session i with
      | some x => if x.slot = k then s.closeSession i else s
      | none => s) s
    ({ s with ctl := { s.ctl with opens := s.ctl.opens.filter (fun o => o.slot != k) } }, 0)

/-- OXPIN_KEY_WRITE (R502): only the physical function's mailbox may write a slot. -/
def execOxpinKeyWrite (who : Path) (k : Fin 8) (v : BitVec 320) (s : State) : Ans :=
  .next (s.access who O.OXPIN_KEY (fun s => if who = .pfMailbox then s.writeKey k.val v.toNat else (s, 0x02)))

/-! ### Opens (R503, R504) -/

/-- An open is refused with ERROR `status`. -/
def State.openRefuse (s : State) (field : Bool) (status : Nat) (full : Bool) : State :=
  let s := s.count O.OXPIN_STAT 1 1
  let s := if status = 0x0B then s.raise O.CTL_ERR 0 0x0B else s
  let s := if full then s.raise O.CTL_ERR 2 0x0C else s
  s.oxPlain field 0x20 0 (beBytes 1 status)

/-- Whether eight sessions are open. -/
def State.sessionsFull (s : State) : Bool := (List.range 8).all (fun i => (s.session i).isSome)

/-- OXPIN_OPEN_REQ (R503, R504). -/
def execOxpinOpenReq (field : Bool) (m : List Byte) (s : State) : Ans :=
  let p := oxPayload m
  let slot := beAt p 0 1
  let role := beAt p 1 1
  let enc := beAt p 2 1
  if !s.crookUp ∨ (field ∧ !s.fieldOn) ∨ !oxWhole m ∨ oxType m ≠ 0x01 ∨ p.length ≠ 35 then .next s
  else if !s.slotValid slot then .next (s.openRefuse field 0x0C false)
  else if s.slotLocked slot then .next (s.openRefuse field 0x0B false)
  else if s.sessionsFull then .next (s.openRefuse field 0x0C true)
  else if role = 0 ∨ 3 < role ∨ 1 < enc ∨ (s.ob O.OXPIN_ENC_REQUIRED = 1 ∧ enc = 0) then .next (s.openRefuse field 0x09 false)
  else
    let nonceC := p.drop 3
    let ident := 1 + (Config.freeSession s.free).toNat % (2 ^ 32 - 1)
    let nonceS := beBytes 32 (Config.freeNonce s.free).toNat
    let serial := beBytes 8 Config.serial.toNat
    let mac := Config.hmac384 (s.slotKey slot) ([0x4F, 0x58, 0x50, 0x49, 0x4E, 0x2D, 0x53] ++ nonceC ++ nonceS ++
      beBytes 4 ident ++ beBytes 1 role ++ beBytes 1 enc ++ serial)
    let o : PendingOpen := { ident := ident, slot := slot, role := role, enc := enc == 1, nonceC := nonceC, nonceS := nonceS
                             expire := s.now + 1000000000 }
    let s := { s.draw with ctl := { s.ctl with opens := s.ctl.opens ++ [o] } }
    .next (s.oxPlain field 0x02 ident (beBytes 4 ident ++ nonceS ++ serial ++ beBytes 48 mac.toNat))

/-- A failed proof under slot `k` (R504): the eighth in a row locks the slot for 10 s. -/
def State.proofFailed (s : State) (k : Nat) : State :=
  let n := TMap.get 0 s.ctl.fails k + 1
  let s := (s.count O.OXPIN_STAT 1 1).raise O.CTL_ERR 0 0x0B
  if n < 8 then { s with ctl := { s.ctl with fails := TMap.put 0 s.ctl.fails k n } }
  else
    let s := { s with ctl := { s.ctl with fails := TMap.put 0 s.ctl.fails k 0
                                          locked := TMap.put 0 s.ctl.locked k (s.now + 10000000000) } }
    (s.count O.OXPIN_STAT 4 1).errLog 0x5002 0 0x0B 0 k 0

/-- The session that a proved open gives. -/
def State.sessionOf (s : State) (o : PendingOpen) : Session :=
  let key := s.slotKey o.slot
  let tail := o.nonceC ++ o.nonceS ++ beBytes 4 o.ident
  let derive := fun (b : Byte) => (beBytes 48 (Config.hmac384 key ([0x4F, 0x58, 0x50, 0x49, 0x4E, 0x2D, b] ++ tail)).toNat).take 32
  { ident := o.ident, role := min o.role (s.slotRole o.slot), enc := o.enc, slot := o.slot, lastNs := s.now
    kMac := derive 0x4D, kEnc := derive 0x45 }

/-- OXPIN_OPEN_PROOF (R503, R504). -/
def execOxpinOpenProof (field : Bool) (m : List Byte) (s : State) : Ans :=
  if !s.crookUp ∨ (field ∧ !s.fieldOn) ∨ !oxWhole m ∨ oxType m ≠ 0x03 then .next s
  else match s.ctl.opens.find? (fun o => o.ident == oxSession m && decide (s.now ≤ o.expire)) with
    | none => .next s
    | some o =>
      let s := { s with ctl := { s.ctl with opens := s.ctl.opens.filter (fun x => x.ident != o.ident) } }
      let mac := Config.hmac384 (s.slotKey o.slot) ([0x4F, 0x58, 0x50, 0x49, 0x4E, 0x2D, 0x43] ++ o.nonceS ++ o.nonceC ++
        beBytes 4 o.ident ++ beBytes 1 o.role ++ beBytes 1 (b2n o.enc))
      let done := fun (s : State) (status : Nat) => s.oxPlain field 0x04 o.ident (beBytes 1 status)
      if s.slotLocked o.slot then .next (done ((s.count O.OXPIN_STAT 1 1).raise O.CTL_ERR 0 0x0B) 0x0B)
      else if oxPayload m ≠ beBytes 48 mac.toNat then .next (done (s.proofFailed o.slot) 0x0B)
      else match (List.range 8).find? (fun i => (s.session i).isNone) with
        | none => .next (done ((s.count O.OXPIN_STAT 1 1).raise O.CTL_ERR 2 0x0C) 0x0C)
        | some i =>
          let s := (s.setSession i (some (s.sessionOf o))).count O.OXPIN_STAT 0 1
          let s := { s with ctl := { s.ctl with fails := TMap.put 0 s.ctl.fails o.slot 0 } }
          .next (done s 0)

/-- OXPIN_OPEN_EXPIRE (R504): the oldest open that waits has waited 1 s. -/
def execOxpinOpenExpire (s : State) : Ans :=
  match s.ctl.opens with
  | [] => .next s
  | o :: rest =>
    let s := s.advanceTo o.expire
    .next ({ s with ctl := { s.ctl with opens := rest } }.count O.OXPIN_STAT 1 1)

/-- OXPIN_SLOT_UNLOCK (R504): 10 s after it was locked. -/
def execOxpinSlotUnlock (k : Fin 8) (s : State) : Ans :=
  let t := TMap.get 0 s.ctl.locked k.val
  if t = 0 then .next s
  else
    let s := s.advanceTo t
    .next { s with ctl := { s.ctl with locked := TMap.put 0 s.ctl.locked k.val 0 } }

/-! ### Closing (R508) -/

/-- OXPIN_CLOSE_MESSAGE (R508). -/
def execOxpinCloseMessage (m : List Byte) (s : State) : Ans :=
  let r := s.oxTake 0x1F m (fun _ => false)
  match r.2 with
  | some x => .next (r.1.closeSession x.1)
  | none => .next r.1

/-- OXPIN_IDLE_TIMEOUT (R508): OXPIN_IDLE_S seconds pass without a valid message from the client of row `i`. -/
def execOxpinIdleTimeout (i : Fin 8) (s : State) : Ans :=
  match s.session i.val with
  | none => .next s
  | some x =>
    .next (((s.advanceTo (x.lastNs + s.ob O.OXPIN_IDLE_S * 1000000000)).closeSession i.val).count O.OXPIN_STAT 5 1)

/-- OXPIN_CLOSE (R508): a row of 0 to 7. -/
def State.oxpinClose (s : State) (i : Nat) : State × Nat := if 7 < i then (s, 0x0A) else (s.closeSession i, 0)

def execOxpinClose (who : Path) (i : BitVec 8) (s : State) : Ans :=
  .next (s.access who O.OXPIN_CLOSE (fun s => s.oxpinClose i.toNat))

/-! ### Attestation (R520 to R522) -/

/-- Measurement block `n`, 1 to 7, padded to a row of IDENT_MEAS. -/
def State.measurement (s : State) (n : Nat) : List Byte :=
  padTo 64 (match n with
    | 1 => beBytes 48 (Config.romDigest 0).toNat
    | 2 => beBytes 48 (Config.romDigest 1).toNat
    | 3 => if s.ctl.fwHeader = [] then [] else beBytes 48 (Config.sha384 s.ctl.fwHeader).toNat
    | 4 => if s.ctl.fwHeader = [] then [] else leBytes 4 (fwSvn s.ctl.fwHeader) ++ fwVersion s.ctl.fwHeader
    | 5 => beBytes 1 (s.ob O.STRAP_CODE)
    | 6 => leBytes 32 (s.ob O.FEAT_ACCEPT)
    | _ => (List.range 8).flatMap (fun k => beBytes 1 (bits (s.keyState k) 0 3)))

/-- What the SPDM responder speaks for: the measurements and the certificate chain. -/
def State.attested (s : State) : List Byte :=
  (List.range 7).flatMap (fun i => s.measurement (i + 1)) ++ s.blob O.IDENT_DEVID_CERT ++ s.blob O.IDENT_ALIAS_CERT

/-- OXPIN_SPDM (R508): an SPDM message of a session is answered. -/
def execOxpinSpdm (field : Bool) (m : List Byte) (s : State) : Ans :=
  if field ∧ !s.fieldOn then .next s
  else
  let r := s.oxTake 0x13 m (fun _ => false)
  match r.2 with
  | some x => .next (r.1.oxSend field x.1 x.2.1 0x14 (Config.spdm r.1.attested x.2.2)).1
  | none => .next r.1

/-! ### The management port's addresses (R500) -/

/-- The Internet checksum of `l`. -/
def inetSum (l : List Byte) : Nat := (65535 - onesSum l l.length 0) % 65535

/-- An ICMPv6 message from `src` to `dst` with its checksum, in a frame to `mac`. -/
def icmp6Frame (mac : Nat) (src dst : List Byte) (m : List Byte) : List Byte :=
  let m := patch m 2 [0, 0]
  let c := inetSum (src ++ dst ++ beBytes 4 m.length ++ beBytes 4 58 ++ m)
  beBytes 6 mac ++ beBytes 6 mgmtMac ++ beBytes 2 0x86DD ++ beBytes 4 (6 <<< 28) ++ beBytes 2 m.length ++ [58, 255] ++
    src ++ dst ++ patch m 2 (beBytes 2 c)

/-- The answer to a frame of the management port, if it asks for one. -/
def State.mgmtAnswer (s : State) (l : List Byte) : Option (List Byte) :=
  let et := beAt l 12 2
  let from_ := beAt l 6 6
  let ip4 := s.ob O.OXPIN_IPV4
  let ip6 := leBytes 16 (s.ob O.OXPIN_IPV6)
  let has6 := s.ob O.OXPIN_IPV6 != 0
  if et = 0x0806 then
    if ip4 ≠ 0 ∧ beAt l 14 2 = 1 ∧ beAt l 16 2 = 0x0800 ∧ beAt l 20 2 = 1 ∧ beAt l 38 4 = ip4 then
      some (beBytes 6 from_ ++ beBytes 6 mgmtMac ++ beBytes 2 0x0806 ++ (l.drop 14).take 6 ++ beBytes 2 2 ++
        beBytes 6 mgmtMac ++ beBytes 4 ip4 ++ (l.drop 22).take 10)
    else none
  else if et = 0x0800 then
    let o := 14 + 4 * (beAt l 14 1 % 16)
    let n := beAt l 16 2 - 4 * (beAt l 14 1 % 16)
    if ip4 ≠ 0 ∧ beAt l 30 4 = ip4 ∧ beAt l 23 1 = 1 ∧ beAt l o 2 = 0x0800 ∧ beAt l 20 2 % 16384 = 0 then
      let m := patch (patch ((l.drop o).take n) 0 [0]) 2 [0, 0]
      let h := patch (patch ((l.drop 14).take (o - 14)) 12 (beBytes 4 ip4)) 16 ((l.drop 26).take 4)
      let h := patch h 10 (beBytes 2 (ipv4Sum h))
      some (beBytes 6 from_ ++ beBytes 6 mgmtMac ++ beBytes 2 0x0800 ++ h ++ patch m 2 (beBytes 2 (inetSum m)))
    else none
  else if et = 0x86DD ∧ has6 ∧ beAt l 20 1 = 58 then
    let src := (l.drop 22).take 16
    let kind := beAt l 54 1
    if kind = 135 ∧ (l.drop 62).take 16 = ip6 then
      some (icmp6Frame from_ ip6 src ([136, 0, 0, 0, 0x60, 0, 0, 0] ++ ip6 ++ [2, 1] ++ beBytes 6 mgmtMac))
    else if kind = 128 ∧ (l.drop 38).take 16 = ip6 then
      some (icmp6Frame from_ ip6 src (patch ((l.drop 54).take (beAt l 18 2)) 0 [129]))
    else none
  else none

/-- MGMT_ARP_ND_ECHO (R500): a frame of the management port, without preamble and FCS. -/
def execMgmtArpNdEcho (l : List Byte) (s : State) : Ans :=
  if !s.crookUp then .next s
  else match s.mgmtAnswer l with
    | some r => .next (s.emit (.mgmt r))
    | none => .next s

end Sys2Proof.Machine
end

