-- ==== Sys2Proof/Machine/Pcie.lean ====
section
/-!
DEFINITION. The PCI Express host interface (R526 to R546): BAR2, event queues and MSI-X, ring ownership, DOE, and the
resets of functions and of the link.
-/

namespace Sys2Proof.Machine

/-! ### Functions -/

/-- Whether function `f` is there: the PF, or a VF that is enabled (R527). -/
def State.fnUp (s : State) (f : Nat) : Bool :=
  s.pcieOn && !s.pcie.perst && (f == 0 || (s.pcie.vfEnable && decide (f ≤ s.pcie.numVfs)))

/-- PCIE_STATUS as it reads (R546). -/
def State.pcieStatus (s : State) : Nat :=
  s.pcie.rate + s.pcie.width <<< 3 + b2n s.pcie.flit <<< 8 + (if s.pcie.vfEnable then s.pcie.numVfs else 0) <<< 9 +
    b2n s.pcie.l0p <<< 15

/-! ### BAR2 (R530, R591) -/

/-- The base HPA of the window. -/
def State.bar2Base (s : State) : Nat := bits (s.reg 0x1E0008) 30 11 <<< 30

/-- Misuse of BAR2. -/
def State.bar2Bad (s : State) : State := (s.count O.PCIE_STAT 3 1).raise O.PCIE_ERR 3

/-- A write of PCIE_BAR2_BASE: ignored when misaligned to the window's size or out of range. -/
def State.writeBar2 (s : State) (v : Nat) : State :=
  let b := bits v 30 11 <<< 30
  let size := 2 ^ s.pcie.bar2Log
  if b % size ≠ 0 ∨ 2 ^ 41 < b + size then s.bar2Bad else s.setReg 0x1E0008 b

def execBar2BaseWrite (v : BitVec 64) (s : State) : Ans := awake s <| .next (s.writeBar2 v.toNat)

/-- BAR2_ACCESS (R530): a read of `n` bytes, or a write of `data`, at byte `off` of the window; `bad` says that a write came
as a poisoned TLP. A stack in self-refresh gives Completer Abort (R591). -/
def State.bar2 (s : State) (off n : Nat) (data : Option (List Byte)) (bad : Bool) : State :=
  let a := s.bar2Base + off
  match data with
  | none =>
    if !hpaExists a n then s.bar2Bad.emit (.completion 1 false [])
    else if s.power.asleep.testBit (hpaStack a) then s.bar2Bad.emit (.completion 4 false [])
    else s.emit (.completion 0 (s.hbmPoisoned a n) (s.hbmRead a n))
  | some l =>
    let s := if bad then (s.count O.PCIE_STAT 2 1).raise O.PCIE_ERR 2 3 else s
    if !hpaExists a l.length ∨ s.power.asleep.testBit (hpaStack a) then s.bar2Bad
    else s.hbmWrite a l bad

def execBar2Access (off : BitVec 36) (n : Fin 4097) (data : Option (List Byte)) (bad : Bool) (s : State) : Ans := awake s <|
  if !s.fnUp 0 ∨ 2 ^ s.pcie.bar2Log ≤ off.toNat then .next s else .next (s.bar2 off.toNat n.val data bad)

/-! ### Events and vectors (R535 to R537) -/

/-- The functions that an event of `kind` about `unit` is routed to (R537). -/
def State.routed (s : State) (kind unit f : Nat) : List Nat :=
  match kind with
  | 1 => s.ringFns false unit
  | 2 => s.ringFns true unit
  | 5 => match s.commRow unit with
    | some i => s.pastureFns (cmPasture (s.comm i))
    | none => [0]
  | 12 => [f]
  | _ => [0]

/-- EVENT_RAISE (R536): an event of a kind of R537, `f` the function of a mailbox event. -/
def execEventRaise (kind : Fin 13) (f : Fin 33) (unit : BitVec 16) (arg : BitVec 32) (s : State) : Ans := awake s <|
  if kind.val = 0 then .next s
  else .next (s.event (s.routed kind.val unit.toNat f.val) kind.val unit.toNat arg.toNat)

/-- A write of PCIE_EVQ_HEAD (R536): it acknowledges the queue's message. -/
def State.evqHead (s : State) (f v : Nat) : State :=
  s.setFn f { s.fn f with evqHead := v % 65536, unacked := false }

def execEvqHeadWrite (f : Fin 33) (v : BitVec 64) (s : State) : Ans := awake s <|
  .next (if s.fnUp f.val then s.evqHead f.val v.toNat else s)

/-- Set entry `v` of a function's MSI-X table: an entry that is not masked sends its pending message (R535). -/
def State.msixSet (s : State) (f v e : Nat) : State :=
  let x := s.fn f
  let s := s.setFn f { x with msix := TMap.put msixReset x.msix v e }
  if !e.testBit 96 && x.msixPend.contains v then
    (s.setFn f { s.fn f with msixPend := (s.fn f).msixPend.remove v }).sendVector f v
  else s

/-- MSIX_UNMASK (R535). -/
def execMsixUnmask (f : Fin 33) (v : Fin 2048) (s : State) : Ans := awake s <|
  if s.fnUp f.val ∧ v.val < vectorsOf f.val then
    .next (s.msixSet f.val v.val (clearBit (TMap.get msixReset (s.fn f.val).msix v.val) 96))
  else .next s

/-! ### Ring pages (R533) -/

/-- Whether a ring of a page is disabled and idle. -/
def Ring.resting (x : Ring) : Bool := !x.sqCfg.testBit 5 && !x.cqCfg.testBit 5 && x.busy == 0

/-- A write of PCIE_RING_OWNER of ring page `k`. -/
def State.writeOwner (s : State) (k v : Nat) : State :=
  if 32 < bits v 0 6 then s
  else if (s.ring (decide (48 ≤ k)) (k % 48)).resting then s.setReg (0x1E0200 + 8 * k) (bits v 0 6)
  else (s.count O.PCIE_STAT 7 1).raise O.PCIE_ERR 6

def execRingOwnerWrite (k : Fin 96) (v : BitVec 64) (s : State) : Ans := awake s <| .next (s.writeOwner k.val v.toNat)

/-! ### DOE (R540) -/

/-- A DOE data object of type `type` with `l` as its content, padded to whole 4-byte words. -/
def doeObject (type : Nat) (l : List Byte) : List Byte :=
  leBytes 2 1 ++ leBytes 2 type ++ leBytes 4 (2 + (l.length + 3) / 4) ++ padTo ((l.length + 3) / 4 * 4) l

/-- DOE_OBJECT_RECEIVE (R540): DOE Discovery and CMA/SPDM are served; an object that is longer or of another type is discarded. -/
def execDoeObjectReceive (m : List Byte) (s : State) : Ans := awake s <|
  let kind := leAt m 2 1
  if !s.fnUp 0 ∨ !s.crookUp ∨ m.length < 8 ∨ 8192 < m.length ∨ leAt m 0 2 ≠ 1 ∨ 1 < kind ∨ 4 * (leAt m 4 4 % 2 ^ 18) ≠ m.length then
    .next { s with pcie := { s.pcie with doe := none } }
  else
    let i := leAt m 8 1
    let r := if kind = 0 then
        doeObject 0 (if i = 0 then [1, 0, 0, 1] else if i = 1 then [1, 0, 1, 0] else [0xFF, 0xFF, 0, 0])
      else doeObject 1 (Config.spdm s.attested (m.drop 8))
    .next ({ s with pcie := { s.pcie with doe := some r } }.emit (.doe r))

/-- DOE_ABORT (R540). -/
def execDoeAbort (s : State) : Ans := awake s <| .next { s with pcie := { s.pcie with doe := none } }

/-! ### Resets (R541, R542) -/

/-- Number of a ring that is no ring: operations whose ring was reset end there without a record. -/
abbrev goneRing : Nat := 64

/-- Ring `r` of a function under FLR stops: its operations end without records, a DMA transfer once the request it has issued
is answered (R541); answers how many. -/
def State.ringAbort (s : State) (dma : Bool) (r : Nat) : State × Nat :=
  if dma then
    let j := s.job r
    let s := s.setJob r (if j.slot.isSome then { j with gone := true } else {})
    let n := b2n (j.live && !j.gone) + (s.ring true r).fetched.length
    (s.setRing true r {}, n)
  else
    let mine := fun (o : Op) => o.origin == .ring r
    let n := (s.ring false r).fetched.length + ((s.drove.ctxs.flatMap (fun c => c.2.ops)).filter (fun o => mine o && o.live)).length
    let s := (s.drove.ctxs.filter (fun c => c.2.susp && c.2.ops.any mine)).foldl (fun s c => (s.unsuspend c.1).endOctx c.1 4) s
    let s := { s with drove := { s.drove with
      waits := s.drove.waits.filter (fun w => w.ring != r)
      ctxs := s.drove.ctxs.map (fun (c : Nat × OpCtx) =>
        if c.2.ops.any mine then
          (c.1, { c.2 with dying := some 4, ops := c.2.ops.map (fun o => if mine o then { o with origin := .ring goneRing } else o) })
        else c) } }
    (s.setRing false r {}, n)

/-- FLR of function `f` (R541). The pasture of its rings is part of their registers. -/
def State.flr (s : State) (f : Nat) : State :=
  let run := fun (x : State × Nat) (y : Bool × Nat) =>
    if x.1.ringOwner y.1 y.2 = f then
      let r := x.1.ringAbort y.1 y.2
      (r.1, x.2 + r.2)
    else x
  let r := ((List.range 48).flatMap (fun r => [(false, r), (true, r)])).foldl run (s, 0)
  let s := r.1.setFn f {}
  if r.2 = 0 then s else (s.count O.PCIE_STAT 8 r.2).raise O.PCIE_ERR 7

def execFunctionLevelReset (f : Fin 33) (s : State) : Ans := awake s <| .next (if s.fnUp f.val then s.flr f.val else s)

/-- What a hot reset and PERST_N reset alike (R542). -/
def State.hostReset (s : State) : State :=
  let s := (List.range 33).foldl (fun s f => s.flr f) s
  { s with regs := s.regs.filter (fun x => decide (x.1 < 0x1E0000 ∨ 0x1E0600 ≤ x.1))
           pcie := { s.pcie with numVfs := 0, vfEnable := false, doe := none, bar2Log := 36 } }

/-- PCIE_HOT_RESET (R542): during PERST_N it changes nothing further. -/
def execPcieHotReset (s : State) : Ans := .next (if s.pcie.perst || !s.pcieOn then s else s.hostReset)

/-- PERST_ASSERT (R542): the link state goes too. With PCIe disabled by the strap the pin is ignored (R583). -/
def execPerstAssert (s : State) : Ans :=
  if s.pcie.perst ∨ !s.pcieOn then .next s
  else
    let s := s.hostReset
    let s := if s.power.width = 0 then s else s.setOb O.RST_LAST (setBit (s.ob O.RST_LAST) 68)
    .next { s with pcie := { s.pcie with perst := true, rate := 0, width := 0, flit := false, l0p := false } }

/-- The PCIe link comes up at a rate and width that the partner and the strap allow (R526, R583). -/
def State.pcieUp (s : State) (rate width : Nat) : State :=
  let rate := if s.strap = 8 ∨ s.strap = 9 then min rate 5 else rate
  if s.pcieOn && !s.pcie.perst then
    { s with pcie := { s.pcie with rate := rate, width := if rate = 0 then 0 else width, flit := decide (rate = 6) } }
  else s

/-- PERST_RELEASE (R542, R575): the link trains to `rate` (0 when no partner answers) and width 2^`width`; during a warm or
wider reset it trains when that is released. -/
def execPerstRelease (rate : Fin 7) (width : Fin 5) (s : State) : Ans :=
  if !s.pcie.perst then .next s
  else
    let s := { s with pcie := { s.pcie with perst := false } }
    .next (if s.power.width = 0 then s.pcieUp rate.val (2 ^ width.val) else s)

end Sys2Proof.Machine
end

