-- ==== Sys2Proof/Machine/Reset.lean ====
section
/-!
DEFINITION. Resets (R574 to R588): sources and their overlap, what each reach clears, the release, and block resets.
-/

namespace Sys2Proof.Machine

/-! ### What survives (R587) -/

/-- Indices of the Crook's own objects, which no warm or cold reset reaches (R492, R574). -/
def crookKeeps (idx : Nat) : Bool :=
  [0x0000, 0x0100, 0x0101, 0x0200, 0x0201, 0x0204, 0x4201, 0x4202, 0x4300, 0x4301].contains idx

/-- Whether object `oid` keeps its value in a reset of width `w`: 1 warm, 2 cold, 3 power-on. Fences and gates are lifted, and
the state of the domains goes with device time. -/
def keepsObj (w oid : Nat) : Bool :=
  if w = 3 ∨ oid = O.IDENT_ALIAS_CERT then false
  else if crookKeeps (oid / 256) then true
  else match objDef oid with
    | none => false
    | some d =>
      d.pers == .p0 || (w == 1 && d.pers == .p1) ||
        (w == 1 && (oid / 256 == 0x0301 || oid / 256 == 0x0302) && decide (8 ≤ oid % 256))

/-- Bounds of the regions of a stack (R390): system area, Criotte reservation, far fold, its sideband, log, pool. -/
def stackBounds (farGib resv logMib : Nat) : List Nat :=
  let far := farGib * 2 ^ 30 / 16
  let a := 2 ^ 30 + resv * 2 ^ 30
  [0, 2 ^ 30, a, a + far, a + far + far * 3 / 32, a + far + far * 3 / 32 + logMib * 2 ^ 20, stackBytes]

/-- Whether a byte at offset `o` of a stack lies in a region that stays where it is. -/
def regionStays (old new : List Nat) (o : Nat) : Bool :=
  (List.range 6).any (fun i =>
    decide (old.getD i 0 ≤ o ∧ o < old.getD (i + 1) 0) && old.getD i 0 == new.getD i 0 && decide (o < new.getD (i + 1) 0))

/-- HBM after a reset of width `w`: a warm one keeps what the layout does not move; else nothing is left in it. -/
def State.hbmAfter (s : State) (w : Nat) : TMap Byte × NSet :=
  if w ≠ 1 then ([], [])
  else
    let old := stackBounds (s.ob O.FOLD_FAR_SIZE_EFF) s.common.resvGib s.muster.logMib
    let new := stackBounds (s.ob O.FOLD_FAR_SIZE_GIB) (s.ob O.CRIOTTE_RESV_GIB) (s.ob O.MUSTER_LOG_MIB)
    if old = new then (s.hbm, s.poison)
    else (s.hbm.filter (fun x => regionStays old new (hpaOff x.1)), s.poison.filter (fun u => regionStays old new (hpaOff (64 * u))))

/-- The Bellwether after a reset of width `w` (R426, R445): a warm one keeps device time and the domains. -/
def TimeSt.after (t : TimeSt) (w : Nat) : TimeSt :=
  if w ≠ 1 then {}
  else { t with switch := none, hiLatch := 0, ppsOut := false, ppsArmed := false, ppsInAt := none, ppsSecond := none
                syncPeer := [], ptp := [], frozen := false, overNow := 0, overLast := 0 }

/-- The levels GPIO_OUT takes at a cold reset (R585): the safe ones; a module reset pin drives low. -/
def State.safeLevels (s : State) : Nat :=
  (List.range 32).foldl (fun a i =>
    let c := s.row O.GPIO_CFG i
    if (bits c 0 2 = 1 ∨ bits c 0 2 = 2) ∧ bits c 4 2 = 1 then setBit a i else a) 0

/-- A reset of width `w` reaches the device (R574, R587). Every block draws a new link_epoch (R196). In DS4 the copy of the
objects outside the Crook is discarded (R588). -/
def State.reachReset (s : State) (w : Nat) : State :=
  let h := s.hbmAfter w
  let ds4 := s.ob O.PWR_STATE == 4
  let keep := fun (oid : Nat) => keepsObj w oid && (!ds4 || crookSet oid)
  let t : State :=
    { objs := s.objs.filter (fun x => keep (x.1 / 2 ^ 23))
      blobs := s.blobs.filter (fun x => keep x.1)
      hbm := h.1, poison := h.2, host := s.host, now := s.now, out := s.out, pending := s.pending
      free := s.free + 1
      time := s.time.after w
      fwd := { lpm := if w = 1 ∧ !ds4 then s.fwd.lpm else [] }
      drove := { sentBell := if w = 1 then s.bell else 0 }
      blocks := (List.range 128).map (fun b => (b, { epochSeed := s.free + 1 }))
      ctl := if w = 3 then { crookAt := s.now } else
        { sessions := s.ctl.sessions, opens := s.ctl.opens, fails := s.ctl.fails, locked := s.ctl.locked
          logWrapped := s.ctl.logWrapped, crookAt := s.ctl.crookAt }
      pcie := { perst := s.pcie.perst }
      power := { s.power with
        target := none, slow := false, tiles := 0, asleep := 0, inReset := [], woken := true, busCut := if w = 3 then 0 else 3
        gating := [], tripAt := none, warned := s.power.warned && w != 3
        faultN := if w = 1 then s.power.faultN else false
        thermTrip := s.power.thermTrip && w != 3
        safeLevel := if w = 2 then true else s.power.safeLevel && w != 3 } }
  if w = 2 then t.setOb O.GPIO_OUT s.safeLevels else t

/-! ### Assertion and release (R575 to R580) -/

/-- Whether a paddock sensor reads `c` °C or more. -/
def State.anyHot (s : State) (c : Nat) : Bool :=
  (List.range 16).any (fun p => decide (((16 * c : Nat) : Int) ≤ sint 16 (s.row O.THERM_PADDOCK p)))

/-- A source asserts a reset of width `w`: it is counted in row `row` of RST_COUNT and recorded in RST_LAST, and a second
source that overlaps, PERST_N among them, sets coincident (R576). A device that is too hot is held in reset (R595). -/
def State.assertReset (s : State) (src : ResetSource) (w cause row : Nat) (announced : Bool) : State :=
  let last := s.bell % 2 ^ 64 + cause <<< 64 + b2n announced <<< 67 +
    b2n (s.pcie.perst || s.power.sources.any (· != src)) <<< 68
  let hot := s.anyHot 105
  let s := s.reachReset w
  let s := (s.count O.RST_COUNT row 1).setOb O.RST_LAST last
  let s := { s with power := { s.power with
    sources := if s.power.sources.contains src then s.power.sources else s.power.sources ++ [src]
    width := max s.power.width w, cause := cause, announced := announced } }
  if hot && !s.power.sources.contains ResetSource.heat then
    ({ s with power := { s.power with sources := s.power.sources ++ [ResetSource.heat] } }).raise O.RST_ERR 7
  else s

/-- The strap is measured at the release of the Crook's power-on reset (R582, R583): `samples` are eight samples of 6 bits. -/
def State.measureStrap (s : State) (samples : Nat) : State :=
  let l := (List.range 8).map (fun i => bits samples (6 * i) 6)
  let raw := l.sum / 8
  let spread := l.any (fun x => x != l.headD 0)
  let s := ((s.setOb O.STRAP_RAW raw).setOb O.STRAP_CODE (raw / 4)).setOb O.STRAP_FLAGS (b2n (decide (raw / 4 < 8)) + b2n spread <<< 1)
  if raw / 4 < 8 then s.raise O.RST_ERR 0 else s

/-- Ticks that no reset device raised are not made up for: the present Bell number is the last one raised. -/
def State.bellCatch (s : State) : State := { s with time := { s.time with lastBell := s.bell } }

/-- Sizes that wait for a reset take effect (R86, R390, R490), and the placement that survived is judged again (R32). -/
def State.layoutTake (s : State) : State :=
  let s := (s.setOb O.FOLD_FAR_SIZE_EFF (s.ob O.FOLD_FAR_SIZE_GIB)).setOb O.FAB_PLACED (b2n s.isPlaced)
  { s with common := { s.common with resvGib := s.ob O.CRIOTTE_RESV_GIB }
           muster := { s.muster with logMib := s.ob O.MUSTER_LOG_MIB } }

/-- The sequences of the modules whose paths survived are due at once (R212, R587). -/
def State.modulesDue (s : State) (b : Nat) : State :=
  [0, 1].foldl (fun (s : State) i =>
    if (s.ob (blockOid O.PORT_MOD_PATH b + i)).testBit 22 then s.setModl b i { step := 0, fails := 3, deadline := some s.now }
    else s) s

/-- The device comes out of the widest reset that was asserted: blocks whose role survived begin bring-up from wait, and
FW_STATE reads 0 (R56, R575, R580, R584, R585). -/
def State.comeOut (s : State) (rate width : Nat) : State :=
  let s := { s with power := { s.power with width := 0, faultN := true } }
  let s := s.layoutTake.bellCatch.foldRelease
  let s := (List.range 128).foldl (fun s b => (s.blockStart b).modulesDue b) s
  s.pcieUp rate width

/-- A source is released (R575): the last one lets the device out. `samples` is the strap as measured, `rate` and `width` the
PCIe link as trained. -/
def State.releaseReset (s : State) (src : ResetSource) (samples rate width : Nat) : State :=
  if !s.power.sources.contains src ∨ (src = .heat ∧ s.anyHot 105) then s
  else
    let up := s.crookUp
    let s := { s with power := { s.power with sources := s.power.sources.filter (fun x => x != src) } }
    let s := if !up && s.crookUp then { s with ctl := { s.ctl with crookAt := s.now } }.measureStrap samples else s
    if s.power.sources.isEmpty then s.comeOut rate width else s

/-- RESET_RELEASE (R575). -/
def execResetRelease (src : ResetSource) (samples : BitVec 48) (rate : Fin 7) (width : Fin 5) (s : State) : Ans :=
  .next (s.releaseReset src samples.toNat rate.val (2 ^ width.val))

/-- POWER_ON_RESET (R577): the AON rails go and come back, and with them the Crook. -/
def execPowerOnReset (samples : BitVec 48) (rate : Fin 7) (width : Fin 5) (s : State) : Ans :=
  .next ((s.assertReset .aonRail 3 0 0 false).releaseReset .aonRail samples.toNat rate.val (2 ^ width.val))

/-- COLD_RESET_PIN and WARM_RESET_PIN (R576): the pin has been low for eight samples. -/
def execColdResetPin (s : State) : Ans := .next (if s.crookUp then s.assertReset .coldPin 2 1 1 false else s)
def execWarmResetPin (s : State) : Ans := .next (if s.crookUp then s.assertReset .warmPin 1 3 3 false else s)

/-- REFCLK_CORE_LOSS (R578): cold reset until the clock has been detected again. -/
def execRefclkCoreLoss (s : State) : Ans :=
  .next (if s.crookUp then (s.assertReset .refclkCore 2 5 5 false).raise O.RST_ERR 1 else s)

/-- AUX_CLK_LOSS (R578): power-on reset of the whole device. -/
def execAuxClkLoss (s : State) : Ans := .next ((s.assertReset .auxClk 3 6 5 false).raise O.RST_ERR 1)

/-! ### Block resets (R581) -/

/-- Items that a unit held are discarded. -/
def State.discards (s : State) (n : Nat) : State :=
  (s.count O.RST_COUNT 8 n).raise O.RST_ERR 2 4

/-- Objects of an index range that are PV return to their defaults. -/
def State.clearPv (s : State) (lo hi : Nat) : State :=
  let pv := fun (oid : Nat) => match objDef oid with
    | some d => decide (lo ≤ oid / 256 ∧ oid / 256 < hi) && d.pers == .pv
    | none => false
  { s with objs := s.objs.filter (fun x => !pv (x.1 / 2 ^ 23)), blobs := s.blobs.filter (fun x => !pv x.1) }

/-- Kind 1: a port block. The module manager is no part of it. -/
def State.resetPort (s : State) (b : Nat) : State :=
  let rest := fun (st : Nat) => st == 0 || st == 1 || st == 7 || st == 8
  let idle := s.drained b && (s.ports b).all (fun p => rest (s.portState p))
  let fenced := s.blockFenced b
  let s := if idle then s
    else
      let r := s.dropPen b
      let n := r.2 + ((s.ports b).map (fun p => ((List.range 12).map (fun q => (s.eq (12 * p + q)).frames.length)).sum)).sum +
        (s.block b).replay.length
      ((r.1.portCount b 6 r.2).discards n)
  let s := s.disarm b |>.blockDown b
  let s := s.draw
  let s := (s.setBlock b { epochSeed := s.free, modules := (s.block b).modules }).clearPv (0x1000 + 16 * b) (0x1010 + 16 * b)
  let s := (s.setReg (fecOff b) 0).setReg (ringEntryOff b) 0
  let s := (s.ports b).foldl (fun s p =>
    let s := s.modEp p (fun e => { e with short := 0 })
    (List.range 12).foldl (fun s q => s.modEq (12 * p + q) (fun x => { x with short := 0 })) s) s
  if fenced then (s.ports b).foldl (fun s p => s.setPortState p 8) s else s.blockStart b

/-- Kind 2: a Drove tile. One that is not idle leaves the live set, its state is lost, and operations holding windows end
with 0x04; it then rejoins. -/
def State.resetTile (s : State) (t : Nat) : State :=
  let st := s.tile t
  if st = tSpare ∨ st = tFenced ∨ st = tGated then s
  else
    let s := s.droveRoll
    let hurt := s.drove.ctxs.filter (fun c => decide (c.2.window ≠ 0) && c.2.ops.any Op.live)
    let s := s.unmapTile t
    let s := hurt.foldl (fun (s : State) c => (if c.2.susp then s.unsuspend c.1 else s).endOctx c.1 4) s
    (s.discards hurt.length).rejoin t

/-- Kind 3: a Common translation unit. -/
def State.resetTu (s : State) (p : Nat) : State :=
  let l := s.common.reqs.filter (fun x => x.2.unit == p)
  let walks := s.common.walks.filter (fun w => w.1 == p)
  let s := l.foldl (fun s x => (s.answer x.2 4 0 0 0 [] false false).dropCreq x.1) s
  let s := { s with common := { s.common with
    tlb2 := TMap.put [] s.common.tlb2 p [], tlb1 := TMap.put [] s.common.tlb1 p []
    walks := s.common.walks.filter (fun w => w.1 != p) } }
  let s := s.setReg (0x1A0010 + 8 * p) 0
  if l.isEmpty && walks.isEmpty then s else s.discards (l.length + walks.length)

/-- Kind 4: a DMA engine, which serves every sixteenth ring; the registers of its rings return to their defaults (R26). -/
def State.resetDma (s : State) (p : Nat) : State :=
  let rings := (List.range 4).map (fun i => p + 16 * i)
  let busy := rings.filter (fun r => (s.ring true r).enabled || decide (0 < (s.ring true r).busy))
  let s := busy.foldl (fun s r =>
    let x := s.ring true r
    let s := (s.common.slots.filter (fun y => y.2.holder == some r)).foldl (fun s y => s.slotFreed y.1) s
    let s := if (s.job r).live then (s.setJob r { s.job r with status := 4, buf := none, held := none, slot := none }).dmaEnd r
      else s.stopDmaRing r 4
    let s := x.fetched.foldl (fun s d => s.putRecord true r (dmaRecord d 4 0 0 false false true) (d.testBit 8)) s
    s.setRing true r { s.ring true r with fetched := [] }) s
  let s := rings.foldl (fun s r => s.setRing true r {}) s
  if busy.isEmpty then s else s.discards busy.length

/-- Kind 5: an HBM stack controller. Requests in flight end with 0x04, and what they write is poisoned. -/
def State.resetStack (s : State) (st : Nat) : State :=
  if (s.ob O.FENCE_STACKS).testBit st || s.stackGated st then s
  else
    let l := s.common.reqs.filter (fun x => x.2.stage == .access && hpaStack x.2.hpa == st)
    let s := l.foldl (fun s x =>
      let s := if x.2.right = 0 then s else
        { s with poison := poisonAfter s.poison x.2.hpa (x.2.span + if x.2.span = 0 then 1 else 0) true }
      (s.answer x.2 4 0 0 0 [] false false).dropCreq x.1) s
    let moving := fun (g : CellGroup) => match g.place with
      | .evicting k => k == st
      | .fetching k => k == st
      | _ => false
    let n := ((s.fold.queues.flatMap (fun q => q.2.groups)).filter moving).length
    let s := { s with fold := { s.fold with queues := s.fold.queues.map (fun (x : Nat × EQueue) =>
      (x.1, { x.2 with groups := x.2.groups.map (fun (g : CellGroup) => if moving g then { g with fenced := true } else g) })) } }
    if l.isEmpty && n == 0 then s else s.discards (l.length + n)

/-- The number of units of a kind of the table of block resets. -/
def resetUnits (kind : Nat) : Nat :=
  match kind with
  | 1 => 128
  | 2 => 144
  | 3 => 16
  | 4 => 16
  | 5 => 16
  | _ => 0

/-- Whether a unit is in a block reset. -/
def State.unitInReset (s : State) (key : Nat) : Bool := decide (s.now < TMap.get 0 s.power.inReset key)

/-- The place of a unit in the block-reset registers (R598): register and bit. -/
def resetPlace (key : Nat) : Nat × Nat :=
  match key / 256 with
  | 1 => (key % 256 / 64, key % 64)
  | 2 => (2 + key % 256 / 64, key % 64)
  | k => (5, 16 * (k - 3) + key % 256)

/-- Block-reset register `i` as it reads (R598): 1 for each unit in reset. -/
def State.resetReg (s : State) (i : Nat) : Nat :=
  s.power.inReset.foldl (fun v x => if (resetPlace x.1).1 = i ∧ s.unitInReset x.1 then setBit v (resetPlace x.1).2 else v) 0

/-- A block reset of a unit that exists. Its bit reads 1 for 64 switch cycles, 32 ns, and one written meanwhile does nothing; what
the reset does is done when it begins (log entry 149). -/
def State.blockReset (s : State) (kind unit : Nat) : State :=
  let key := 256 * kind + unit
  if s.unitInReset key then s
  else
  let s := s.count O.RST_COUNT 6 1
  let s := { s with power := { s.power with inReset := TMap.put 0 s.power.inReset key (s.now + 32) } }
  match kind with
  | 1 => s.resetPort unit
  | 2 => s.resetTile unit
  | 3 => s.resetTu unit
  | 4 => s.resetDma unit
  | 5 => s.resetStack unit
  | _ => s

/-- BLOCK_RESET (R581, R598): a bit of RST_PORT, RST_TILE or RST_UNIT is written. -/
def execBlockReset (kind : Fin 6) (unit : Fin 144) (s : State) : Ans := live s <|
  if unit.val < resetUnits kind.val then .next (s.blockReset kind.val unit.val) else .next s

/-! ### RST_CMD (R579) -/

/-- RST_CMD with its operation, announce, unit kind, and unit or ticks. -/
def State.rstCmd (s : State) (op : Nat) (announce : Bool) (kind arg : Nat) : State × Nat :=
  let status := fun (s : State) (n : Nat) => (s.setOb O.RST_CMD_STATUS n, n)
  if s.power.width ≠ 0 then (s, 0x0D)
  else match op with
    | 3 => if arg < resetUnits kind then status (s.blockReset kind arg) 0 else status s 0x0A
    | _ =>
      if op = 0 ∨ 3 < op ∨ (announce ∧ (arg = 0 ∨ 1048576 < arg)) then status s 0x0A
      else
        let s := if announce then (s.announceAbsence arg).count O.RST_COUNT 7 1 else s
        let s := if op = 1 then s.assertReset .command 1 4 4 announce else s.assertReset .command 2 2 2 announce
        status s 0

def execRstCmdWarm (who : Path) (announce : Bool) (ticks : BitVec 32) (s : State) : Ans :=
  .next (s.access who O.RST_CMD (fun s => s.rstCmd 1 announce 0 ticks.toNat))
def execRstCmdCold (who : Path) (announce : Bool) (ticks : BitVec 32) (s : State) : Ans :=
  .next (s.access who O.RST_CMD (fun s => s.rstCmd 2 announce 0 ticks.toNat))
def execRstCmdBlock (who : Path) (kind : BitVec 8) (unit : BitVec 32) (s : State) : Ans :=
  .next (s.access who O.RST_CMD (fun s => s.rstCmd 3 false kind.toNat unit.toNat))

/-- RST_STATUS as it reads (R598). -/
def State.rstStatus (s : State) : Nat :=
  s.power.cause + b2n s.power.announced <<< 3 + (s.ob O.STRAP_CODE) <<< 4 + b2n ((s.ob O.STRAP_FLAGS).testBit 0) <<< 8 +
    b2n (s.power.sources.contains ResetSource.heat) <<< 9

end Sys2Proof.Machine
end

