-- ==== Sys2Proof/Machine/Power.lean ====
section
/-!
DEFINITION. Power states, gates, the thermal trip, and the electrical events (R588 to R595, R602, R604, R606, R609, R621).
-/

namespace Sys2Proof.Machine

/-! ### Steps of the power state (R589 to R592) -/

/-- Every block `f` for which it applies. -/
def State.eachBlock (s : State) (f : State → Nat → State) : State := (List.range 128).foldl f s

/-- The stacks that sleep in DS3: all but the pinned ones (R590). -/
def State.sleepers (s : State) : Nat := 65535 - s.ob O.PWR_PIN_STACKS % 65536

/-- The stacks that sleep because they are gated. -/
def State.gatedStacks (s : State) : Nat := bits (s.ob O.PWR_GATED_UNITS) 16 16

/-- A block in DS3 (R590, R591): its lanes are idle, a Fold link that carried flits is in hold, and no hold limit runs. -/
def State.blockIdle (s : State) (b : Nat) : State :=
  if s.role b = 0 ∨ s.blockFenced b then s
  else if s.isLink b then
    let st := s.portState (8 * b)
    let hold := carries st || st == 7
    let s := (s.setPortState (8 * b) (if hold then 7 else 1)).restartWait b hold
    s.modBlock b (fun x => { x with holdAt := none, quiesceAt := none })
  else
    let s := (s.ports b).foldl (fun s p => if s.portState p = 6 ∨ s.portState p = 9 then s.flockDown p else s) s
    s.modBlock b (fun x => { x with portDownAt := [] })

/-- A block begins bring-up when the device leaves DS3 (R590): its hold limit runs again, and a link that kept its state asks
to resume. -/
def State.blockWake (s : State) (b : Nat) : State :=
  let limit := s.now + s.bob b O.PORT_HOLD_MS * 1000000
  if s.role b = 0 ∨ s.blockFenced b then s
  else if s.isLink b then
    if s.portState (8 * b) = 7 then
      (s.modBlock b (fun x => { x with holdAt := some limit })).restartWait b true
    else (s.setPortState (8 * b) 1).restartWait b false
  else
    (s.ports b).foldl (fun s p => s.modBlock b (fun x => { x with portDownAt := TMap.put 0 x.portDownAt (p % 8) limit })) s

/-- The frames of block `b` are dropped and counted (R590). -/
def State.blockEmpty (s : State) (b : Nat) : State :=
  let r := s.dropPen b
  let s := r.1.portCount b 6 r.2
  let s := (s.ports b).foldl (fun s p =>
    let r := s.flushPort p
    r.1.portCount b 6 r.2) s
  if s.isLink b then (s.linkClear b).setPortState (8 * b) 1 else s

/-- The frames of paddock `p`'s sink and source are dropped. -/
def State.paddockEmpty (s : State) (p : Nat) : State := ((s.flushPort (1024 + p)).1.dropPen (128 + p)).1

/-- DS3 to DS4: the dies lose what they hold but the objects saved and the Drove's saved contexts (R587, R588); the servos
stop, and a domain that was locked holds over (R426). -/
def State.diesDown (s : State) : State :=
  let s := s.eachBlock State.blockEmpty
  let s := (List.range 16).foldl (fun s p => s.paddockEmpty p) s
  let s := [0, 1].foldl (fun s x => if s.domState x = 2 ∧ s.ob (domOid O.DOM_SRC_KIND x) ≠ 4 then s.domLeave x 3 else s) s
  { s with fold := { banks := s.fold.banks, ridgeFenced := s.fold.ridgeFenced, nextId := s.fold.nextId }
           fwd := { lpm := s.fwd.lpm }, circ := {}, coll := {}, obsv := {}
           common := { lost := s.common.lost, resvGib := s.common.resvGib }
           drove := { s.drove with rings := [], waits := [], halves := [] }
           time := { s.time with frozen := true }
           power := { s.power with asleep := 65535 } }

/-- Objects that report what the dies keep through DS4, and those of units that stay powered. -/
def ds4Keeps (oid : Nat) : Bool :=
  crookSet oid || [0x0300, 0x0301, 0x0302, 0x0303, 0x0304, 0x4210, 0x5001].contains (oid / 256) ||
    [O.FAB_PLACED, O.FOLD_FAR_SIZE_EFF, O.DROVE_LIVE, O.DROVE_TILE_STATE, O.DROVE_TILE_MAP].contains oid

/-- Whether object `oid` returns to its default when the device leaves DS4 (R587): the PV ones of the four dies. -/
def ds4Clears (oid : Nat) : Bool :=
  match objDef oid with
  | some d => d.pers == .pv && !ds4Keeps oid
  | none => false

/-- DS4 to DS3: the dies come up with the saved objects, PV objects and direct registers at their defaults (R56, R587, R590). -/
def State.diesUp (s : State) : State :=
  let s := { s with
    objs := s.objs.filter (fun x => !ds4Clears (x.1 / 2 ^ 23))
    blobs := s.blobs.filter (fun x => !ds4Clears x.1)
    regs := s.regs.filter (fun x => decide (0x1B0000 ≤ x.1 ∧ x.1 < 0x1C0000) || decide (0x1D0000 ≤ x.1 ∧ x.1 < 0x1F0000) ||
      decide (0x210000 ≤ x.1))
    time := { s.time with frozen := false }
    power := { s.power with asleep := s.sleepers ||| s.gatedStacks } }
  s.bellCatch.foldRelease

/-- What the device does when it reaches state `n` from the state before it (R590). -/
def State.powerDown (s : State) (n : Nat) : State :=
  match n with
  | 1 => { s with drove := { s.drove with slow := true } }
  | 2 => s.droveGate
  | 3 =>
    let s := s.eachBlock State.blockIdle
    { s with power := { s.power with asleep := s.sleepers ||| s.gatedStacks } }
  | 4 => s.diesDown
  | _ => s

/-- What the device does when it reaches state `n` from the state after it (R590, R592). -/
def State.powerUp (s : State) (n : Nat) : State :=
  match n with
  | 0 => { s with drove := { s.drove with slow := false } }
  | 1 => s.droveUngate
  | 2 =>
    let s := { s with power := { s.power with asleep := s.gatedStacks } }
    let s := if s.ob O.PWR_WAKE_FROM = 4 ∧ !s.power.woken ∧ s.ctl.fwHeader ≠ [] then s.fwRestart else s
    s.eachBlock State.blockWake
  | 3 => s.diesUp
  | _ => s

/-- One step of the power state towards `t`. PWR_WAKE_FROM holds the deepest state since the cores last started, and what it
held when they started until the next step down (R592, R597; DEDUCED, log entry 150). -/
def State.powerMove (s : State) (t : Nat) : State :=
  let c := s.ob O.PWR_STATE
  if c < t then
    let s := (s.setOb O.PWR_STATE (c + 1)).powerDown (c + 1)
    let old := if s.power.woken then 0 else s.ob O.PWR_WAKE_FROM
    ({ s with power := { s.power with woken := false } }).setOb O.PWR_WAKE_FROM (max (c + 1) old)
  else (s.setOb O.PWR_STATE (c - 1)).powerUp (c - 1)

/-- The target is reached: PWR_CMD_STATUS tells whether a step exceeded its bound (R589). -/
def State.powerReached (s : State) : State :=
  { s.setOb O.PWR_CMD_STATUS (if s.power.slow then 8 else 0) with power := { s.power with target := none, slow := false } }

/-- POWER_STEP_DONE (R590): the step under way finishes; `late` says that it took longer than its bound. -/
def State.powerStep (s : State) (late : Bool) : State :=
  match s.power.target with
  | none => s
  | some t =>
    let s := if late then ({ s with power := { s.power with slow := true } }).raise O.RST_ERR 3 8 else s
    let s := s.powerMove t
    if s.ob O.PWR_STATE = t then s.powerReached else s

def execPowerStepDone (late : Bool) (s : State) : Ans := .next (if s.power.width = 0 then s.powerStep late else s)

/-- PWR_CMD (R589): from the board host or an Oxpin session. -/
def State.pwrCmd (s : State) (who : Path) (t : Nat) : State × Nat :=
  if who = .cores then (s, 0x02)
  else if s.power.target.isSome ∨ s.power.width ≠ 0 then (s, 0x0D)
  else if 4 < t then (s, 0x0A)
  else if t = s.ob O.PWR_STATE then (s.setOb O.PWR_CMD_STATUS 0, 0)
  else ({ s.setOb O.PWR_CMD_STATUS 0xFF with power := { s.power with target := some t, slow := false } }, 0)

def execPwrCmd (who : Path) (target : BitVec 8) (s : State) : Ans :=
  .next (s.access who O.PWR_CMD (fun s => s.pwrCmd who target.toNat))

/-! ### Gates (R593) -/

/-- Set or clear the gate bit of block `b`. -/
def State.gateBlock (s : State) (b : Nat) (v : Bool) : State :=
  let oid := if b < 64 then O.PWR_GATED_BLOCKS else O.PWR_GATED_BLOCKS_HI
  s.setOb oid (if v then setBit (s.ob oid) (b % 64) else clearBit (s.ob oid) (b % 64))

/-- A tile is gated: a live one is saved and N falls as under R306, without error; a fenced one stays fenced. -/
def State.gateTile (s : State) (t : Nat) : State :=
  let live := s.liveTiles.contains t
  let s := { s with power := { s.power with tiles := setBit s.power.tiles t } }
  let s := if s.tile t = tFenced then s else s.setTile t tGated
  if live then (s.unmapTile t).resaveAll else s

/-- A tile is ungated: a sentinel beat, then as under R308. A fence stays in place. -/
def State.ungateTile (s : State) (t : Nat) : State :=
  let s := { s with power := { s.power with tiles := clearBit s.power.tiles t } }
  if s.tile t = tFenced then s else { s with drove := { s.drove with tests := s.drove.tests ++ [(t, true)] } }

/-- Whether a group of the Fold has its slot on stack `st`. -/
def State.stackHolds (s : State) (st : Nat) : Bool :=
  decide (0 < s.slotsOn st)

/-- Stack `st` is gated: it enters self-refresh. -/
def State.stackAsleep (s : State) (st : Nat) : State :=
  let s := s.setOb O.PWR_GATED_UNITS (setBit (s.ob O.PWR_GATED_UNITS) (16 + st))
  { s with power := { s.power with gating := TMap.put 0 s.power.gating st 0, asleep := setBit s.power.asleep st } }

/-- The gate of stack `st` begins, with 100 ms to complete. -/
def State.gateStack (s : State) (st : Nat) : State :=
  if s.stackHolds st then
    { s.setOb O.PWR_GATE_STATUS 0xFF with power := { s.power with gating := TMap.put 0 s.power.gating st (s.now + 100000001) } }
  else (s.stackAsleep st).setOb O.PWR_GATE_STATUS 0

/-- Stack `st` is ungated. -/
def State.ungateStack (s : State) (st : Nat) : State :=
  let s := s.setOb O.PWR_GATED_UNITS (clearBit (s.ob O.PWR_GATED_UNITS) (16 + st))
  { s with power := { s.power with gating := TMap.put 0 s.power.gating st 0, asleep := clearBit s.power.asleep st } }

/-- Everything of paddock `p` but its stack is gated; what its translation unit, sink and source hold is answered and dropped
as what comes later is. -/
def State.gatePaddock (s : State) (p : Nat) : State :=
  let s := s.paddockShut p
  let s := (List.range 8).foldl (fun s i => s.gateBlock (8 * p + i) true) s
  let s := (List.range 9).foldl (fun s i => s.gateTile (9 * p + i)) s
  s.setOb O.PWR_GATED_UNITS (setBit (s.ob O.PWR_GATED_UNITS) p)

/-- A paddock is ungated: its units with it; its cores stay halted. -/
def State.ungatePaddock (s : State) (p : Nat) : State :=
  let s := (List.range 8).foldl (fun s i => s.gateBlock (8 * p + i) false) s
  let s := (List.range 9).foldl (fun s i => s.ungateTile (9 * p + i)) s
  (s.setOb O.PWR_GATED_UNITS (clearBit (s.ob O.PWR_GATED_UNITS) p)).ungateStack p

/-- Whether unit `u` of `kind` is gated, or being gated. -/
def State.isGated (s : State) (kind u : Nat) : Bool :=
  match kind with
  | 1 => s.blockGated u
  | 2 => s.power.tiles.testBit u
  | 3 => (s.ob O.PWR_GATED_UNITS).testBit (16 + u) || TMap.has s.power.gating u
  | _ => s.paddockGated u

/-- Units of each kind of gate. -/
def gateUnits (kind : Nat) : Nat :=
  match kind with
  | 1 => 128
  | 2 => 144
  | 3 => 16
  | 4 => 16
  | _ => 0

/-- Whether a gate is accepted. -/
def State.gateOk (s : State) (kind u : Nat) : Bool :=
  match kind with
  | 1 => s.role u == 0
  | 2 => true
  | 3 => (List.range 32).all (fun i => s.role (32 * (u / 4) + i) != 3)
  | _ => (List.range 8).all (fun i => s.role (8 * u + i) == 0) &&
      (List.range 4).all (fun i => s.row O.CRIOTTE_STATE (4 * u + i) != 1)

/-- PWR_GATE with its operation, kind and unit. -/
def State.pwrGate (s : State) (op kind u : Nat) : State × Nat :=
  let status := fun (s : State) (n : Nat) => (s.setOb O.PWR_GATE_STATUS n, n)
  if s.power.target.isSome ∨ 3 ≤ s.ob O.PWR_STATE ∨ !s.power.gating.isEmpty then (s, 0x0D)
  else if gateUnits kind ≤ u ∨ (op ≠ 1 ∧ op ≠ 2) then status s 0x0A
  else if (op = 1) = (s.isGated kind u = true) then status s 0
  else if op = 1 then
    if !s.gateOk kind u then status s 0x0A
    else match kind with
      | 1 => status (s.gateBlock u true) 0
      | 2 => status (s.gateTile u) 0
      | 3 => (s.gateStack u, 0)
      | _ => ((s.gatePaddock u).gateStack u, 0)
  else match kind with
    | 1 => status ((s.gateBlock u false).blockStart u) 0
    | 2 => status (s.ungateTile u) 0
    | 3 => status (s.ungateStack u) 0
    | _ => status (s.ungatePaddock u) 0

def execPwrGate (who : Path) (kind : BitVec 8) (unit : BitVec 16) (s : State) : Ans :=
  .next (s.access who O.PWR_GATE (fun s => s.pwrGate 1 kind.toNat unit.toNat))
def execPwrUngate (who : Path) (kind : BitVec 8) (unit : BitVec 16) (s : State) : Ans :=
  .next (s.access who O.PWR_GATE (fun s => s.pwrGate 2 kind.toNat unit.toNat))

/-- STACK_GATE_COMPLETE (R593): the last evicted group has been fetched, or 100 ms have passed and the stack stays active. -/
def State.stackGateEnd (s : State) (st : Nat) : State :=
  match TMap.get 0 s.power.gating st with
  | 0 => s
  | limit + 1 =>
    if !s.stackHolds st then (s.stackAsleep st).setOb O.PWR_GATE_STATUS 0
    else
      let s := (s.advanceTo limit).setOb O.PWR_GATE_STATUS 8
      ({ s with power := { s.power with gating := TMap.put 0 s.power.gating st 0 } }).raise O.RST_ERR 4 8 5 st

def execStackGateComplete (st : Fin 16) (s : State) : Ans := live s <| .next (s.stackGateEnd st.val)

/-! ### Temperatures (R594, R595, R606, R621) -/

/-- What paddock `p`'s sensor reads, in 1/16 °C. -/
def State.junction (s : State) (p : Nat) : Int := sint 16 (s.row O.THERM_PADDOCK p)

/-- The paddock that reads hottest, the lowest number on a tie. -/
def State.hottest (s : State) : Nat :=
  (List.range 16).foldl (fun best p => if s.junction best < s.junction p then p else best) 0

/-- The warning of R621: set when a paddock reaches THERM_WARN_C, and again only after all have cooled. -/
def State.warn (s : State) : State :=
  if s.power.warned then
    if s.anyHot (s.ob O.THERM_WARN_C - s.ob O.THERM_WARN_HYST) then s
    else { s with power := { s.power with warned := false } }
  else if s.anyHot (s.ob O.THERM_WARN_C) then
    (({ s with power := { s.power with warned := true } }).count O.ELEC_STAT 1 1).raise O.ELEC_ERR 1 0 6 s.hottest
  else s

/-- Paddock `p` is fenced and gated by the trip. -/
def State.tripPaddock (s : State) (p : Nat) : State := ((s.paddockFence p).gatePaddock p).stackAsleep p

/-- The first stage of the trip (R594): a sample of 115 °C or more. Ten milliseconds after one that has cooled, a new one may
follow. -/
def State.firstStage (s : State) : State :=
  let elapsed := match s.power.tripAt with
    | some t => decide (t + 10000000 ≤ s.now)
    | none => true
  if !elapsed then s
  else if !s.anyHot 115 then { s with power := { s.power with tripAt := none } }
  else if s.power.tripAt.isSome then s
  else
    let p := s.hottest
    let s := s.tripPaddock p
    let s := s.setOb O.TRIP_STATE (s.bell % 2 ^ 64 + p <<< 64 + ((s.junction p / 16).toNat % 256) <<< 68)
    let s := s.setOb O.TRIP_COUNT ((s.ob O.TRIP_COUNT + 1) % 2 ^ 32)
    ({ s with power := { s.power with tripAt := some s.now, tripped := p } }).raise O.RST_ERR 5 4 6 p

/-- THERMAL_SAMPLE (R594, R621): every 100 µs, while the Crook runs: `temps` in 1/16 °C by paddock, `rails` in mV and
`watts` by paddock and for the device. -/
def State.thermSample (s : State) (temps rails watts : Nat) : State :=
  let s := s.advanceTo s.power.sampleAt
  let s := { s with power := { s.power with sampleAt := s.now + 100000 } }
  let s := (List.range 16).foldl (fun s i => s.setRow O.THERM_PADDOCK i (bits temps (16 * i) 16)) s
  let s := (List.range 13).foldl (fun s i => s.setRow O.PWR_RAIL_MV i (bits rails (16 * i) 16)) s
  let s := (List.range 17).foldl (fun s i => s.setRow O.PWR_EST_W i (bits watts (16 * i) 16)) s
  s.warn.firstStage

def execThermalSample (temps : BitVec 256) (rails : BitVec 208) (watts : BitVec 272) (s : State) : Ans :=
  .next (if s.crookUp then s.thermSample temps.toNat rails.toNat watts.toNat else s)

/-- Whether the second stage of the trip is due (R594). -/
def State.secondDue (s : State) : Bool :=
  s.anyHot 120 || (match s.power.tripAt with
    | none => false
    | some t =>
      if s.now < t + 10000000 then
        (List.range 16).any (fun p => p != s.power.tripped && decide (16 * 115 ≤ s.junction p))
      else s.anyHot 115)

/-- DEVICE_THERMAL_TRIP (R594): the second stage, on what was last sampled. -/
def State.secondStage (s : State) : State :=
  if s.power.thermTrip ∨ !s.crookUp ∨ !s.secondDue then s
  else
    let s := s.deviceFence
    let s := (List.range 16).foldl (fun s p => (s.gatePaddock p).stackAsleep p) s
    let s := s.setOb O.TRIP_STATE (setBit (s.ob O.TRIP_STATE) 76)
    ({ s with power := { s.power with thermTrip := true } }).raise O.RST_ERR 6 4 8 s.own

def execDeviceThermalTrip (s : State) : Ans := .next s.secondStage

/-- HBM_HOT (R606): stack `st` reads `t`, in 1/16 °C; from 95 °C on its refresh rate is doubled. -/
def execHbmHot (st : Fin 16) (t : BitVec 16) (s : State) : Ans :=
  let s := s.setRow O.THERM_HBM st.val t.toNat
  if 16 * 95 ≤ t.toInt ∧ s.power.refresh.testBit st.val then .next (s.raise O.ELEC_ERR 2 0 5 st.val)
  else if 16 * 95 ≤ t.toInt then
    .next ((({ s with power := { s.power with refresh := setBit s.power.refresh st.val } }).count O.ELEC_STAT 2 1).raise
      O.ELEC_ERR 2 0 5 st.val)
  else .next s

/-- HBM_SENSOR_BELOW_92 (R606). -/
def execHbmSensorBelow92 (st : Fin 16) (t : BitVec 16) (s : State) : Ans :=
  let s := s.setRow O.THERM_HBM st.val t.toNat
  if t.toInt < 16 * 92 then .next { s with power := { s.power with refresh := clearBit s.power.refresh st.val } }
  else .next s

/-! ### Rails and clocks (R602, R604, R609) -/

/-- An electrical event: counted, and its bit set with a record that names `unit`, which a rail writes even when the bit is
set already (R602). -/
def State.elec (s : State) (row bit unitKind unit : Nat) (each : Bool) : State :=
  let s := s.count O.ELEC_STAT row 1
  if each && (s.ob O.ELEC_ERR).testBit bit then s.errLog 0x4301 bit 0 unitKind unit 0
  else s.raise O.ELEC_ERR bit 0 unitKind unit

/-- RAIL_OUT_OF_RANGE (R602): rails in the order of the supply table, 10 and 11 the AON ones. -/
def execRailOutOfRange (rail : Fin 13) (s : State) : Ans :=
  if rail.val = 10 ∨ rail.val = 11 then .next (s.assertReset .aonRail 3 0 0 false)
  else if s.crookUp then .next ((s.assertReset .mainRail 2 0 0 false).elec 0 0 0 rail.val true)
  else .next s

/-- SEQUENCE_BREAK (R604): a rail of group 2 to 4 rose before every rail of the earlier groups was in range. -/
def execSequenceBreak (rail : Fin 13) (s : State) : Ans :=
  if rail.val = 10 ∨ rail.val = 11 ∨ !s.crookUp then .next s
  else .next ((s.assertReset .mainRail 2 0 0 false).elec 5 5 0 rail.val true)

/-- A block without its clock: a Fold link that carries flits goes to hold, one in bring-up back to wait, flock links down. -/
def State.clockGone (s : State) (b : Nat) : State :=
  if s.role b = 0 ∨ s.blockFenced b then s
  else if s.isLink b then
    let st := s.portState (8 * b)
    if carries st then s.linkHold b
    else (if st = 7 then s else s.setPortState (8 * b) 1).restartWait b (s.block b).askResume
  else (s.ports b).foldl (fun s p => if s.portState p = 6 ∨ s.portState p = 9 then s.flockDown p else s) s

/-- REFCLK_SD_LOSS (R609). -/
def execRefclkSdLoss (p : Fin 16) (s : State) : Ans :=
  if s.power.clockLost.testBit p.val then .next s
  else
    let s := { s with power := { s.power with clockLost := setBit s.power.clockLost p.val } }
    let s := (List.range 8).foldl (fun s i => s.clockGone (8 * p.val + i)) s
    .next (s.elec 3 3 6 p.val false)

/-- REFCLK_SD_RETURN (R609): bring-up restarts from wait. -/
def execRefclkSdReturn (p : Fin 16) (s : State) : Ans :=
  if !s.power.clockLost.testBit p.val then .next s
  else
    let s := { s with power := { s.power with clockLost := clearBit s.power.clockLost p.val } }
    .next ((List.range 8).foldl (fun s i =>
      let b := 8 * p.val + i
      if s.isLink b && !s.blockFenced b then s.restartWait b (s.block b).askResume else s) s)

/-- REFCLK_PCIE_LOSS (R609): the link goes down, and nothing else. -/
def execRefclkPcieLoss (s : State) : Ans :=
  .next { s with pcie := { s.pcie with rate := 0, width := 0, flit := false, l0p := false } }

/-- REFCLK_DRIFT (R609). -/
def execRefclkDrift (s : State) : Ans := .next (if s.crookUp then s.elec 4 4 0 0 false else s)

/-! ### Registers and pins (R585, R586, R597, R598) -/

/-- PWR_STATUS. -/
def State.pwrStatus (s : State) : Nat :=
  s.ob O.PWR_STATE + b2n s.power.target.isSome <<< 3 + (s.power.target.getD 0) <<< 4 +
    (s.ob O.PWR_GATED_UNITS % 2 ^ 32) <<< 8 + (s.ob O.PWR_PIN_STACKS % 65536) <<< 40

/-- The level of GPIO `i` when nothing drives it: its pull, or without one no level that the spec gives. -/
def State.gpioPull (s : State) (i : Nat) : Bool :=
  match bits (s.row O.GPIO_CFG i) 2 2 with
  | 1 => false
  | 2 => true
  | _ => (Config.freeWord s.free).toNat.testBit i

/-- The level of GPIO `i` (R585, R586). -/
def State.gpioLevel (s : State) (i : Nat) : Bool :=
  let c := s.row O.GPIO_CFG i
  let v := (s.ob O.GPIO_OUT).testBit i
  match bits c 0 2 with
  | 1 => if s.power.safeLevel && bits c 4 2 == 2 then s.gpioPull i else v
  | 2 => v && s.gpioPull i
  | 3 => v
  | _ => s.gpioPull i

/-- GPIO_IN: every pin in every mode. -/
def State.gpioIn (s : State) : Nat := (List.range 32).foldl (fun a i => if s.gpioLevel i then setBit a i else a) 0

/-- A write of a GPIO_CFG row: pull 3 and safe 3 are rejected. -/
def State.writeGpioCfg (s : State) (i v : Nat) : State × Nat :=
  if bits v 2 2 = 3 ∨ bits v 4 2 = 3 then (s, 0x0A) else (s.setRow O.GPIO_CFG i (v % 64), 0)

/-- A write of GPIO_OUT ends the safe levels of R585. -/
def State.writeGpioOut (s : State) (v : Nat) : State × Nat :=
  let s := s.setOb O.GPIO_OUT (v % 2 ^ 32)
  ({ s with power := { s.power with safeLevel := false } }, 0)

end Sys2Proof.Machine
end

