-- ==== Sys2Proof/Machine/Objects.lean ====
section
/-!
DEFINITION. The objects of the dictionary as they are read and written (R16 to R21, R22, R23, R496 to R498, R539): values that
the device works out when they are read, the rules of every written value, and the actions of the command objects.
-/

namespace Sys2Proof.Machine

/-! ### Shapes -/

/-- Bytes of a scalar or TIME112; 0 for the types of no fixed length (R17). -/
def ObjType.bytes : ObjType → Nat
  | .bool => 1
  | .u8 => 1
  | .s8 => 1
  | .u16 => 2
  | .s16 => 2
  | .u32 => 4
  | .s32 => 4
  | .bits32 => 4
  | .u64 => 8
  | .s64 => 8
  | .bits64 => 8
  | .addr64 => 8
  | .time112 => 14
  | .str => 0
  | .blob => 0
  | .table => 0

/-- Whether a value of this type is sign-extended in its slot (R23). -/
def ObjType.signed : ObjType → Bool
  | .s8 => true
  | .s16 => true
  | .s32 => true
  | .s64 => true
  | _ => false

/-- Type codes of a describe (R497). -/
def ObjType.code : ObjType → Nat
  | .bool => 1
  | .u8 => 2
  | .u16 => 3
  | .u32 => 4
  | .u64 => 5
  | .s8 => 6
  | .s16 => 7
  | .s32 => 8
  | .s64 => 9
  | .bits32 => 10
  | .bits64 => 11
  | .time112 => 12
  | .addr64 => 13
  | .str => 14
  | .blob => 15
  | .table => 16

/-- Access codes of a describe (R497). -/
def Access.code : Access → Nat
  | .ro => 1
  | .rw => 2
  | .wo => 3
  | .cmd => 4
  | .w1c => 5
  | .wor => 6

/-- Persistence codes of a describe (R497). -/
def Pers.code : Pers → Nat
  | .p0 => 0
  | .p1 => 1
  | .p2 => 2
  | .p3 => 3
  | .pv => 4

/-- Whether a read of the object gives zero (R18). -/
def ObjDef.dark (d : ObjDef) : Bool := d.acc == .wo || d.acc == .cmd

/-- Whether the object is a string of bytes. -/
def ObjDef.stringy (d : ObjDef) : Bool := d.ty == .blob || d.ty == .str

/-- The 16 bytes of a describe (R497). -/
def ObjDef.describe (d : ObjDef) : List Byte :=
  leBytes 8 (d.ty.code + d.acc.code <<< 8 + d.rd.num <<< 16 + d.wr.num <<< 24 + d.pers.code <<< 32) ++
  leBytes 4 (if d.ty = .table || d.stringy then d.size else 0) ++ leBytes 4 (if d.ty = .table then d.rows else 0)

/-- The port block whose object this is. -/
def oidBlock (oid : Nat) : Nat := (oid - 0x100000) / 4096

/-! ### Reads -/

/-- Row `i` of HEFT_TABLE: the slots of each die, then its stash (R184). -/
def State.heftRow (s : State) (i : Nat) : Nat :=
  let h := s.heft (i / 1048640)
  let k := i % 1048640
  if k < 1048576 then TMap.get 0 h.slots k else (h.stash[k - 1048576]?).getD 0

/-- Values that the device works out when they are read. -/
def readers : List (Nat × (State → Nat → Nat → Nat)) := [
  (O.PORT_STATE, fun s oid _ => (List.range 8).foldl (fun a i => a + s.portState (8 * oidBlock oid + i) <<< (8 * i)) 0),
  (O.EGR_QREC_CUR, fun s _ row => s.qrecRow row),
  (O.HEFT_ENTRIES, fun s _ row => s.heftCount row),
  (O.HEFT_TABLE, fun s _ row => s.heftRow row),
  (O.LPM_USED, fun s _ _ => s.lpmUsed),
  (O.DROVE_REMOTE_QLEN, fun s _ _ => s.drove.remote.length),
  (O.DROVE_CTX_USED, fun s _ _ => s.drove.ctxs.length),
  (O.DROVE_TILE_STATE, fun s _ row => if s.drove.gated && s.tile row != tFenced then tGated else s.tile row),
  (O.COMMON_POOL, fun s _ _ => s.poolRow),
  (O.BWTH_TIME, fun s _ _ => time112 s.time.dev),
  (O.DOM_OFFSET, fun s oid _ => sbits 64 (s.domOffset (oid / 256 - 0x0301))),
  (O.DOM_FREQ, fun s oid _ => sbits 64 ((s.domain (oid / 256 - 0x0301)).rate / 65536)),
  (O.BELL_NUMBER, fun s _ _ => s.bell),
  (O.MUSTER_LOG_USED, fun s _ _ => s.logUsed),
  (O.MUSTER_DEV_STATE, fun s _ row => s.devRow row),
  (O.IDENT_MEAS, fun s _ row => leNum (s.measurement (row + 1))),
  (O.OXPIN_KEY_STATE, fun s _ row => s.keyState row),
  (O.TALLY_VALUE, fun s _ row => s.tallyRow row),
  (O.TALLY_SHADOW, fun s _ row => TMap.get 0 s.obsv.shadow row),
  (O.GPIO_IN, fun s _ _ => s.gpioIn)]

/-- Row `row` of object `oid` as it reads. -/
def State.rowValue (s : State) (oid row : Nat) : Nat :=
  match readers.find? (fun r => r.1 == canonOid oid) with
  | some r => r.2 s oid row
  | none => s.row oid row

/-- Byte strings that `State.objs` holds as numbers, their fixed length being that of the table of objects. -/
def numberBlobs : List Nat :=
  [O.FEAT_DEVICE, O.FEAT_ACCEPT, O.OXPIN_IPV6, O.CROOK_SQUELCH, O.RST_LAST, O.TRIP_STATE, O.PORT_PEER, O.PORT_FEAT]

/-- Byte strings of a fixed length among the others. -/
def fixedBlobs : List Nat :=
  [O.DROVE_LAST_ERR, O.BWTH_PPS_IN_TS, O.BELL_LAST_OVERRUN, O.MUSTER_MEMBERS, O.FW_DIGEST, O.TALLY_SNAP_INFO]

/-- The content of a BLOB or STR object. -/
def State.stringOf (s : State) (oid : Nat) (d : ObjDef) : List Byte :=
  let c := canonOid oid
  if numberBlobs.contains c then leBytes d.size (s.ob oid)
  else if c = O.IDENT_PART then [0x44, 0x56, 0x37, 0x2D, 0x31, 0x30, 0x32, 0x34, 0x2D, 0x4C, 0x43]
  else if c = O.IDENT_DEVID_PUB then padTo 97 Config.devIdPub
  else if fixedBlobs.contains c then padTo d.size (s.blob oid)
  else s.blob oid

/-- The bytes of a number, lowest first, or highest first where the path is big-endian (R14, R496). -/
def pathBytes (be : Bool) (n v : Nat) : List Byte := if be then beBytes n v else leBytes n v

/-- The length of an object that a read offset goes into (R23, R496). -/
def State.longLength (s : State) (oid : Nat) (d : ObjDef) : Nat :=
  if d.ty = .table then d.rows * d.size
  else if d.ty = .time112 then 14
  else if d.dark then d.size
  else (s.stringOf oid d).length

/-- `n` bytes of a table from byte `off` on. `seen` tells which rows the reader may see. -/
def State.tableBytes (s : State) (be : Bool) (oid : Nat) (d : ObjDef) (seen : Nat → Bool) (off n : Nat) : List Byte :=
  let lo := off / d.size
  let k := (off + n + d.size - 1) / d.size - lo
  let all := (List.range k).flatMap (fun i =>
    pathBytes be d.size (if d.dark || !seen (lo + i) then 0 else s.rowValue oid (lo + i)))
  (all.drop (off - lo * d.size)).take n

/-- Bytes of an object, from `off` on, at most `n` for an object that has offsets. -/
def State.readBytes (s : State) (be : Bool) (oid : Nat) (d : ObjDef) (seen : Nat → Bool) (off n : Nat) : List Byte :=
  if d.ty = .table then s.tableBytes be oid d seen off (min n (d.rows * d.size - off))
  else if d.stringy then
    ((if d.dark then List.replicate d.size 0 else s.stringOf oid d).drop off).take n
  else
    let l := pathBytes be d.ty.bytes (if d.dark then 0 else s.rowValue oid 0)
    if d.ty = .time112 then (l.drop off).take n else l

/-- What a slot of the object window reads (R23). -/
def State.slotValue (s : State) (oid : Nat) (d : ObjDef) : Nat :=
  if d.dark then 0
  else if !d.ty.inSlot then s.longLength oid d % 2 ^ 32
  else if d.ty.signed then sbits 64 (sint (8 * d.ty.bytes) (s.rowValue oid 0))
  else s.rowValue oid 0 % 2 ^ 64

/-! ### Written values -/

/-- The range of every object whose rule is a range. -/
def ranges1 : List (Nat × Nat × Nat) := [
  (O.FOLD_HBM_SHARE, 1, 12), (O.FOLD_RESIDENCY_NS, 0, 10000000), (O.FOLD_EVICT_HI, 2, 95), (O.FOLD_HEAD_GUARD, 1, 4),
  (O.FOLD_PREFETCH, 1, 16), (O.FOLD_EVICT_ORDER, 0, 1), (O.RIDGE_RELAY_W, 1, 15), (O.RIDGE_LOCAL_W, 1, 15),
  (O.HEFT_AGE_LIMIT, 0, 32768), (O.FWD_REORDER_TO_DEF, 1000, 100000000), (O.PORT_MEDIA, 0, 1), (O.PORT_HOLD_MS, 0, 60000),
  (O.PORT_LOOPBACK, 0, 2), (O.CIRC_ARM_TIMEOUT_MS, 1, 60000), (O.DROVE_FLOOR_BEATS, 0, 128),
  (O.DROVE_RES_FENCE_WINDOW_MS, 1, 60000), (O.DROVE_SENTINEL_TICKS, 0, 1048576), (O.DROVE_REMOTE_TO_US, 100, 10000000),
  (O.DROVE_BATCH_MAX, 1, 64), (O.COMMON_REQ_TO_US, 100, 10000000), (O.COMMON_MIRROR_TO_US, 100, 1000000),
  (O.COMMON_HOLD_US, 10, 1000000)]
def ranges2 : List (Nat × Nat × Nat) := [
  (O.BWTH_SLEW_PPB, 1, 10000), (O.BWTH_LOCK_NS, 1, 10000), (O.BWTH_LOSS_MS, 1, 10000), (O.BWTH_PPS_OUT_WIDTH_US, 1, 900000),
  (O.MUSTER_K, 1, 1024), (O.MUSTER_VOTE_TTL, 64, 65535), (O.MUSTER_W, 16, 65536), (O.MUSTER_LOG_MODE, 0, 1),
  (O.MUSTER_REPLAY_TO_MS, 10, 60000), (O.OXPIN_UDP_PORT, 1, 65535), (O.OXPIN_ETHERTYPE, 0x600, 65535),
  (O.OXPIN_T1S_NODES, 1, 255), (O.OXPIN_IDLE_S, 10, 3600), (O.TALLY_SNAP_EVERY, 0, 16777216), (O.FLEECE_MODE, 0, 1),
  (O.THERM_WARN_C, 60, 110), (O.THERM_WARN_HYST, 1, 20)]

/-- The bits of a value that are not reserved, where some are (R15). -/
def objMasks : List (Nat × Nat) := [
  (O.HEFT_NOTIFY, 0xF), (O.FWD_PASTURE, 0xF), (O.FWD_DSCP_MAP, 7), (O.FWD_ROUTER_MAC, 2 ^ 48 - 1),
  (O.PORT_MOD_APP, 0xFFFF), (O.VC_ENC_SPRAY, 0xFF), (O.CIRC_EXPECT, 2 ^ 82 - 1), (O.COMMON_ROOT, 1 + (2 ^ 25 - 1) <<< 16),
  (O.COMMON_MIRROR_ROOT, 1 + (2 ^ 25 - 1) <<< 16), (O.PWR_PIN_STACKS, 0xFFFF),
  (O.FLEECE_TRIG, 0x7FFF001E)]

/-- Whether an object takes value `v`, where the rule is more than a range. -/
def State.valueOk (s : State) (oid v : Nat) : Bool :=
  let c := canonOid oid
  match (ranges1 ++ ranges2).find? (fun r => r.1 == c) with
  | some r => decide (r.2.1 ≤ v ∧ v ≤ r.2.2)
  | none =>
    if c = O.FOLD_HBM_CEIL then decide (s.ob O.FOLD_HBM_SHARE ≤ v ∧ v ≤ 12)
    else if c = O.FOLD_EVICT_LO then decide (1 ≤ v ∧ v < s.ob O.FOLD_EVICT_HI)
    else if c = O.FWD_ETHERTYPE then decide (0x600 ≤ v) && !([0x0800, 0x86DD, 0x8100, 0x88A8, 0x88F7].contains v)
    else if c = O.FWD_REORDER_WINDOW then isPow2 v && decide (256 ≤ v ∧ v ≤ 65536)
    else if c = O.COMMON_BUDDY ∨ c = O.COMMON_MIRROR_OF then decide (v ≤ 511 ∨ v = 0xFFFF)
    else if c = O.COMMON_LOST_BASE then v % 16 == 0 && hpaExists v 16
    else if c = O.COMMON_LOST_SIZE then v == 0 || (isPow2 v && decide (1024 ≤ v ∧ v ≤ 1048576))
    else if c = O.BWTH_PPS_OUT_OFF_NS ∨ c = O.BWTH_PPS_IN_COMP_NS then decide (-1000000 ≤ sint 32 v ∧ sint 32 v ≤ 1000000)
    else if c = O.MUSTER_REPLAY_BASE then v % 32 == 0 && hpaExists v 32
    else if c = O.MUSTER_REPLAY_SIZE then v % 1048576 == 0
    else if c = O.MUSTER_LOG_MIB then
      decide (v ≤ 16384) && layoutFits (s.ob O.FOLD_FAR_SIZE_GIB) (s.ob O.CRIOTTE_RESV_GIB) v
    else if c = O.CRIOTTE_RESV_GIB then
      decide (1 ≤ v ∧ v ≤ 16) && layoutFits (s.ob O.FOLD_FAR_SIZE_GIB) v (s.ob O.MUSTER_LOG_MIB)
    else if c = O.CRIOTTE_EVQ_BASE then v % 4096 == 0 && hpaExists v 4096
    else if c = O.CRIOTTE_EVQ_SIZE then v == 0 || (isPow2 v && decide (64 ≤ v ∧ v ≤ 65536))
    else true

/-- An object without an effect of its own takes a value. -/
def State.writePlain (s : State) (oid row v : Nat) : State × Nat :=
  if !s.valueOk oid v then (s, 0x0A)
  else match objMasks.find? (fun r => r.1 == canonOid oid) with
    | some m => (s.setRow oid row (v &&& m.2), 0)
    | none => (s.setRow oid row v, 0)

/-- A preset written through its object (R251, R263): captured is cleared, and the fields of the device's own stay. -/
def State.writePreset (s : State) (row v : Nat) : State × Nat :=
  let keep := s.row O.CIRC_PRESET row &&& ((2 ^ 64 - 1) <<< 96)
  (s.setRow O.CIRC_PRESET row ((v &&& (2 ^ 73 - 1 + (2 ^ 1792 - 1) <<< 256)) + keep), 0)

/-- FWD_PORTCFG (R46): a port that moves to another pasture drops the frames of the old one still queued at it, counted in
link_drops as those of a role change are (R37; the counter is DEDUCED, log entry 139). -/
def State.writeFwdPort (s : State) (row v : Nat) : State × Nat :=
  let old := bits (s.row O.FWD_PORTCFG row) 0 12
  let s := s.setRow O.FWD_PORTCFG row (v &&& (2 ^ 63 - 1))
  if old = bits v 0 12 then (s, 0)
  else
    let r := (List.range 12).foldl (fun (a : State × Nat) q =>
      let r := a.1.dropQueue (12 * row + q) (fun c => c.frame.pasture == old); (r.1, a.2 + r.2)) (s, 0)
    let s := r.1.portCount (row / 8) 6 r.2
    ((List.range 8).foldl (fun s i => s.pfcUpdate row i) s, 0)

/-- DROVE_SENTINEL_TICKS (R309): the ticks of the new interval count from the present one (log entry 142). -/
def State.writeSentinel (s : State) (v : Nat) : State × Nat :=
  let r := s.writePlain O.DROVE_SENTINEL_TICKS 0 v
  (if r.2 = 0 then { r.1 with drove := { r.1.drove with sentBell := s.bell } } else r.1, r.2)

/-- PORT_MOD_PATH (R211, R212): with present set, the sequence is due at once. -/
def State.writeModPath (s : State) (oid v : Nat) : State × Nat :=
  let i := oid % 256 - 1
  let m : Module := if v.testBit 22 then { step := 0, fails := 3, deadline := some s.now } else {}
  ((s.setOb oid (v % 2 ^ 23)).setModl (oidBlock oid) i m, 0)

/-- One boundary of DROVE_TEMP_BINS. -/
def State.writeTempBin (s : State) (row v : Nat) : State × Nat :=
  s.writeTempBins ((List.range 7).foldl (fun a i => a + (if i = row then v else s.row O.DROVE_TEMP_BINS i) <<< (8 * i)) 0)

/-- The rows of VC_CLASS after a write: a permutation of 0 to 7 (R219). -/
def State.writeVcClass (s : State) (l : List Nat) : State × Nat :=
  if (List.range 8).all (fun c => l.contains c) && l.length == 8 then
    (l.zipIdx.foldl (fun (s : State) x => s.setRow O.VC_CLASS x.2 x.1) s, 0)
  else (s, 0x0A)

/-- The rows of VC_CLASS with row `row` at `v`. -/
def State.vcRows (s : State) (row v : Nat) : List Nat := (List.range 8).map (fun i => if i = row then v else s.row O.VC_CLASS i)

/-- Objects whose write has an effect or a rule of its own. -/
def writers1 : List (Nat × (State → Nat → Nat → Nat → State × Nat)) := [
  (O.FAB_DIM_X, fun s _ _ v => s.writePlacement 1 v), (O.FAB_DIM_Y, fun s _ _ v => s.writePlacement 2 v),
  (O.FAB_DIM_Z, fun s _ _ v => s.writePlacement 3 v), (O.FAB_WRAP, fun s _ _ v => s.writePlacement 4 v),
  (O.FAB_DEV_NUM, fun s _ _ v => s.writePlacement 5 v), (O.FAB_SITE, fun s _ _ v => s.writePlacement 6 v),
  (O.FAB_SPARE, fun s _ _ v => s.writePlacement 7 v), (O.FOLD_FAR_SIZE_GIB, fun s _ _ v => s.writeFarSize v),
  (O.FOLD_THR_PASTURE, fun s oid row v => s.writeThr oid row v), (O.FOLD_THR_PORT, fun s oid row v => s.writeThr oid row v),
  (O.FOLD_THR_QUEUE, fun s oid row v => s.writeThr oid row v), (O.EGR_QCFG, fun s _ row v => s.writeQcfg row v),
  (O.EGR_PORTCFG, fun s _ row v => s.writePortCfg row v), (O.EGR_GATE, fun s _ row v => s.writeGate row v),
  (O.PFC_CFG, fun s _ row v => s.writePfc row v), (O.EGR_QREC_BASE, fun s _ _ v => s.writeQrecBase v),
  (O.EGR_QREC_SIZE, fun s _ _ v => s.writeQrecSize v), (O.HEFT_AGE_SHIFT, fun s _ _ v => s.writeAgeShift v),
  (O.LPM_NEXTHOP, fun s oid row v => s.fwdRowWrite oid row v), (O.ACL_TABLE, fun s oid row v => s.fwdRowWrite oid row v),
  (O.ROUTE_PASTURE, fun s oid row v => s.fwdRowWrite oid row v), (O.ROUTE_PROFILE, fun s oid row v => s.fwdRowWrite oid row v),
  (O.ROUTE_GROUP, fun s oid row v => s.fwdRowWrite oid row v), (O.ROUTE_MEMBER, fun s oid row v => s.fwdRowWrite oid row v)]
def writers2 : List (Nat × (State → Nat → Nat → Nat → State × Nat)) := [
  (O.PORT_ROLE, fun s oid _ v => s.writeRole (oidBlock oid) v), (O.PORT_SPLIT, fun s oid _ v => s.writeSplit (oidBlock oid) false v),
  (O.PORT_LANE_RATE, fun s oid _ v => s.writeSplit (oidBlock oid) true v),
  (O.PORT_MAX_FRAME, fun s oid _ v => s.writeMaxFrame (oidBlock oid) v),
  (O.PORT_VC_RSV, fun s oid row v => s.writeVcRsv (oidBlock oid) row v), (O.PORT_POOL_MIB, fun s oid _ v => s.writePool (oidBlock oid) v),
  (O.PORT_MOD_POLL_MS, fun s oid _ v => s.writePollMs (oidBlock oid) v), (O.FWD_PORTCFG, fun s _ row v => s.writeFwdPort row v),
  (O.PORT_MOD_PATH, fun s oid _ v => s.writeModPath oid v), (O.PORT_MOD_PATH + 1, fun s oid _ v => s.writeModPath oid v),
  (O.VC_CLASS, fun s _ row v => s.writeVcClass (s.vcRows row v)), (O.ROUTE_HOLD, fun s _ row v => s.holdWrite row v),
  (O.CIRC_PRESET, fun s _ row v => s.writePreset row v), (O.CIRC_HP_WINDOW, fun s _ _ v => s.writeHpWindow v),
  (O.DROVE_SENTINEL_TICKS, fun s _ _ v => s.writeSentinel v),
  (O.DROVE_TEMP_BINS, fun s _ row v => s.writeTempBin row v), (O.BWTH_SEL, fun s _ _ v => s.writeSel v),
  (O.BWTH_PPS_OUT_EN, fun s _ _ v => s.writePpsEn v), (O.DOM_NUMBER, fun s oid _ v => s.writeDom (oid / 256 - 0x0301) 1 v),
  (O.DOM_SRC_KIND, fun s oid _ v => s.writeDom (oid / 256 - 0x0301) 2 v),
  (O.DOM_SRC_PORT, fun s oid _ v => s.writeDom (oid / 256 - 0x0301) 3 v),
  (O.DOM_DELAY_MECH, fun s oid _ v => s.writeDom (oid / 256 - 0x0301) 4 v),
  (O.DOM_TRANSPORT, fun s oid _ v => s.writeDom (oid / 256 - 0x0301) 5 v),
  (O.DOM_LOG_SYNC, fun s oid _ v => s.writeDom (oid / 256 - 0x0301) 6 v),
  (O.DOM_BW, fun s oid _ v => s.writeDom (oid / 256 - 0x0301) 7 v)]
def writers3 : List (Nat × (State → Nat → Nat → Nat → State × Nat)) := [
  (O.BWTH_PORT, fun s _ row v => s.writeBwthPort row v), (O.BELL_PERIOD_NEXT, fun s _ _ v => s.writePeriodNext v),
  (O.BELL_BUDGET, fun s _ row v => s.writeBudget row v), (O.BELL_ORIGIN, fun s _ _ v => s.writeBellOrigin v),
  (O.BELL_BASE, fun s _ _ v => s.writeBellBase v), (O.CRIOTTE_WDT_MS, fun s _ _ v => s.writeWdt v),
  (O.TALLY_CFG, fun s _ row v => s.writeTallyCfg row v), (O.TALLY_RING_BASE, fun s _ _ v => s.writeTallyRing false v),
  (O.TALLY_RING_SIZE, fun s _ _ v => s.writeTallyRing true v), (O.FLEECE_BASE, fun s _ _ v => s.writeFleeceRing false v),
  (O.FLEECE_SIZE, fun s _ _ v => s.writeFleeceRing true v), (O.FLEECE_SAMPLE, fun s _ row v => s.writeSample row v),
  (O.GPIO_CFG, fun s _ row v => s.writeGpioCfg row v), (O.GPIO_OUT, fun s _ _ v => s.writeGpioOut v),
  (O.FEAT_ACCEPT, fun s _ _ v => s.writeAccept v)]

/-- Write value `v` to row `row` of a defined object that may be written: RW, WO, W1C or WOR (R18). -/
def State.writeValue (s : State) (who : Path) (oid row v : Nat) (d : ObjDef) : State × Nat :=
  if d.acc = .w1c then (s.setRow oid row (oneClears (s.row oid row) v), 0)
  else if d.acc = .wor ∧ s.row oid row ≠ objDefault oid row then (s, 0x02)
  else if d.ty = .bool ∧ 1 < v then (s, 0x0A)
  else if oid = O.OXPIN_KEY then (if who = .pfMailbox then s.writeKey row v else (s, 0x02))
  else match (writers1 ++ writers2 ++ writers3).find? (fun r => r.1 == canonOid oid) with
    | some r => r.2 s oid row v
    | none => s.writePlain oid row v

/-- Write rows of a table from row `lo` on, one after the other, until one is rejected: the status, and how many stand (R498). -/
def State.writeRows (s : State) (who : Path) (oid : Nat) (d : ObjDef) : List Nat → Nat → Nat → State × Nat × Nat
  | [], _, n => (s, 0, n)
  | v :: l, row, n =>
    if d.rows ≤ row then (s, 0x0A, n)
    else
      let r := s.writeValue who oid row v d
      if r.2 = 0 then r.1.writeRows who oid d l (row + 1) (n + 1) else (r.1, r.2, n)

/-- `l` cut into pieces of `n` bytes. -/
def pieces (n : Nat) : Nat → List Byte → List (List Byte)
  | 0, _ => []
  | fuel + 1, l => if l = [] then [] else l.take n :: pieces n fuel (l.drop n)

/-- A row as a path carries it, as a number. -/
def rowNum (be : Bool) (l : List Byte) : Nat := if be then beNum l else leNum l

/-- Write a table at byte `off` (R498): whole rows or nothing. VC_CLASS and DROVE_TEMP_BINS are judged as the write leaves
them. Answers the status and the bytes applied. -/
def State.writeTable (s : State) (who : Path) (be : Bool) (oid : Nat) (d : ObjDef) (off : Nat) (data : List Byte) :
    State × Nat × Nat :=
  if off % d.size ≠ 0 ∨ data.length % d.size ≠ 0 then (s, 0x0A, 0)
  else
    let l := (pieces d.size data.length data).map (rowNum be)
    let lo := off / d.size
    let at_ := fun (i : Nat) => if lo ≤ i then l[i - lo]? else none
    if oid = O.VC_CLASS ∧ lo + l.length ≤ 8 then
      let r := s.writeVcClass ((List.range 8).map (fun i => (at_ i).getD (s.row oid i)))
      (r.1, r.2, if r.2 = 0 then data.length else 0)
    else if oid = O.DROVE_TEMP_BINS ∧ lo + l.length ≤ 7 then
      let r := s.writeTempBins ((List.range 7).foldl (fun a i => a + ((at_ i).getD (s.row oid i)) <<< (8 * i)) 0)
      (r.1, r.2, if r.2 = 0 then data.length else 0)
    else
      let r := s.writeRows who oid d l lo 0
      (r.1, r.2.1, r.2.2 * d.size)

/-- Write a BLOB or STR whole (R498). -/
def State.writeString (s : State) (who : Path) (oid : Nat) (d : ObjDef) (data : List Byte) : State × Nat :=
  if numberBlobs.contains (canonOid oid) then
    if data.length = d.size then s.writeValue who oid 0 (leNum data) d else (s, 0x0A)
  else if fixedBlobs.contains (canonOid oid) ∧ data.length ≠ d.size then (s, 0x0A)
  else if d.size < data.length then (s, 0x0A)
  else (s.setBlob oid data, 0)

/-! ### Commands -/

/-- LPM_OP (R167). -/
def State.lpmCmd (s : State) (l : List Byte) : State × Nat :=
  let fam := leAt l 1 1
  let v6 := fam == 6
  let pfx := if v6 then beAt l 16 16 else beAt l 16 4
  if (fam ≠ 4 ∧ fam ≠ 6) ∨ 4096 ≤ leAt l 4 2 then (s, 0x0A)
  else match leAt l 0 1 with
    | 1 => s.lpmAdd v6 (leAt l 2 1) (leAt l 4 2) (leAt l 6 2) pfx
    | 2 => s.lpmDelete v6 (leAt l 2 1) (leAt l 4 2) pfx
    | _ => (s, 0x0A)

/-- The actions of the command objects, each given the bytes of its command, lowest first for a number. -/
def commands1 : List (Nat × (State → Path → List Byte → State × Nat)) := [
  (O.HEFT_OP, fun s _ l => match s.heftOp (leAt l 0 1) (leAt l 1 1) (leAt l 16 16) with
    | some t => (t, 0)
    | none => (s, 0x0A)),
  (O.LPM_OP, fun s _ l => s.lpmCmd l),
  (O.ROUTE_FLIP, fun s _ l => s.routeFlip (leNum l % 4096) (bits (leNum l) 16 48)),
  (O.ROUTE_SNAP, fun s _ l => s.routeSnap (leNum l % 4096) (bits (leNum l) 16 48)),
  (O.ROUTE_FLIP_CANCEL, fun s _ l => s.flipCancel (leNum l % 4096)),
  (O.CIRC_ARM, fun s _ l => if (leNum l).testBit 7 then s.arm (leNum l % 128) else (s.disarm (leNum l % 128), 0)),
  (O.CIRC_PRESET_OP, fun s _ l => s.presetOp (leAt l 0 1) (leAt l 1 1) (leAt l 2 1)),
  (O.COLL_COMM_OP, fun s _ l => s.commOp l),
  (O.COMMON_INVAL, fun s _ l => s.inval l),
  (O.COMMON_RESYNC, fun s _ l => s.resyncCmd (leNum l % 4096)),
  (O.DMA_RING_CMD, fun s _ l => s.dmaCmd (bits (leNum l) 0 6) (bits (leNum l) 8 8)),
  (O.DROVE_TILE_CMD, fun s _ l => s.tileCmd (bits (leNum l) 0 8) (bits (leNum l) 8 8)),
  (O.DROVE_SUSP_CMD, fun s _ l => s.suspCmd (bits (leNum l) 0 8) (bits (leNum l) 8 8)),
  (O.BWTH_SET, fun s _ l => s.bwthSet (leNum l)),
  (O.BELL_SWITCH, fun s _ l => s.bellSwitch (leNum l)),
  (O.MUSTER_CMD, fun s _ l => s.musterCmd (leAt l 0 1) (leAt l 2 2) (leAt l 4 4)),
  (O.FENCE_CMD, fun s _ l => s.fenceCmd (leAt l 0 1) (leAt l 1 1) (leAt l 2 1))]
def commands2 : List (Nat × (State → Path → List Byte → State × Nat)) := [
  (O.FEAT_APPLY, fun s _ l => s.featApply (leAt l 0 2) (leAt l 8 8) (leAt l 16 32)),
  (O.FW_PUSH, fun s _ l => s.fwPush (leAt l 0 8)),
  (O.FW_READY, fun s _ _ => (if s.ob O.FW_STATE = 4 then { s with ctl := { s.ctl with ready := true } } else s, 0)),
  (O.CRIOTTE_CMD, fun s _ l => s.criotteCmd (leNum l)),
  (O.CRIOTTE_WDT_KICK, fun s _ _ => (s.wdtStart, 0)),
  (O.OXPIN_CLOSE, fun s _ l => s.oxpinClose (leNum l)),
  (O.RST_CMD, fun s _ l => s.rstCmd (leAt l 0 1) ((leAt l 1 1).testBit 0) (leAt l 2 1) (leAt l 4 4)),
  (O.PWR_CMD, fun s who l => s.pwrCmd who (leNum l)),
  (O.PWR_GATE, fun s _ l => s.pwrGate (leAt l 0 1) (leAt l 1 1) (leAt l 2 2)),
  (O.TALLY_CLEAR, fun s _ l => s.tallyClear (leNum l)),
  (O.TALLY_SNAP_AT, fun s _ l => s.snapAt (leNum l)),
  (O.TALLY_SNAP_NOW, fun s _ _ => s.snapNow),
  (O.TALLY_HIST_CLEAR, fun s _ l => s.histClear (leNum l)),
  (O.FLEECE_CAPTURE, fun s _ l => s.fleeceCapture (leNum l))]

/-- Start the action of a command object with the bytes of its command (R18, R499). -/
def State.command (s : State) (who : Path) (oid : Nat) (l : List Byte) : State × Nat :=
  if canonOid oid = O.PORT_RETRAIN then s.retrain (oidBlock oid) (leNum l)
  else match (commands1 ++ commands2).find? (fun r => r.1 == oid) with
    | some r => r.2 s who l
    | none => (s, 0x09)

end Sys2Proof.Machine
end

