-- ==== Sys2Proof/Machine/Dictionary.lean ====
section
/-!
DEFINITION. Requests to the dictionary by every path (R22 to R24, R490, R493 to R499, R506, R507, R538, R539).
-/

namespace Sys2Proof.Machine

/-! ### Requests (R496 to R498) -/

/-- The most data bytes that one request of a path carries (R496). -/
def pathLimit (who : Path) (field : Bool) : Nat :=
  match who with
  | .oxpin _ => if field then 1024 else 8192
  | _ => 16384

/-- Whether a path carries multi-byte fields highest byte first (R496). -/
def Path.big : Path → Bool
  | .oxpin _ => true
  | _ => false

/-- The pasture of virtual function `v`. -/
def State.vfPasture (s : State) (v : Nat) : Nat := bits (s.reg (0x1E0100 + 8 * (v - 1))) 0 12

/-- Objects open to virtual functions (R539). -/
def vfOpen (oid : Nat) : Bool :=
  (decide (1 ≤ oid ∧ oid ≤ 8)) || [O.FEAT_DEVICE, O.FEAT_ACCEPT, O.FEAT_PASTURE_ACTIVE, O.BWTH_TIME, O.BELL_PERIOD, O.BELL_NUMBER,
    O.COLL_RECENT].contains oid

/-- The row of COLL_RECENT names a communicator of pasture `p`. -/
def State.recentOf (s : State) (row p : Nat) : Bool :=
  match s.commRow (bits (s.row O.COLL_RECENT row) 0 16) with
  | some i => cmPasture (s.comm i) == p && s.row O.COLL_RECENT row != 0
  | none => false

/-- Whether the reader of path `who` sees row `row` of an object. -/
def State.sees (s : State) (who : Path) (oid row : Nat) : Bool :=
  match who with
  | .vfMailbox v =>
    if oid = O.FEAT_PASTURE_ACTIVE then row == s.vfPasture v.val
    else if oid = O.COLL_RECENT then s.recentOf row (s.vfPasture v.val)
    else true
  | _ => true

/-- The outcome of a request: status, bytes done, and data. -/
structure DictReply where
  status : Nat
  done   : Nat := 0
  data   : List Byte := []
  deriving DecidableEq, Repr

/-- A read has an effect of its own on ERRLOG_WRAPS alone (R525). -/
def State.readEffect (s : State) (oid : Nat) : State :=
  if oid = O.ERRLOG_WRAPS then { s with ctl := { s.ctl with logWrapped := false } } else s

/-- Op 1. A scalar is read whole, whatever length is asked for. -/
def State.dictRead (s : State) (who : Path) (limit oid : Nat) (d : ObjDef) (off len : Nat) : State × DictReply :=
  if s.roleOf who < d.rd.num then (s, { status := 2 })
  else if !(d.ty = .table || d.stringy || d.ty = .time112) && off != 0 then (s, { status := 9 })
  else
    let n := if len = 0 then limit else len
    let l := s.readBytes who.big oid d (s.sees who oid) off n
    (s.readEffect oid, { status := 0, done := l.length, data := l })

/-- The bytes of a command object's command: of a number or TIME112 lowest first. -/
def commandBytes (be : Bool) (d : ObjDef) (data : List Byte) : List Byte :=
  if be && !d.stringy then data.reverse else data

/-- Ops 2 and 3. -/
def State.dictWrite (s : State) (who : Path) (op oid : Nat) (d : ObjDef) (off : Nat) (data : List Byte) : State × DictReply :=
  let whole := fun (r : State × Nat) => (r.1, ({ status := r.2, done := if r.2 = 0 then data.length else 0 } : DictReply))
  if op = 3 ∧ d.acc ≠ .cmd then (s, { status := 2 })
  else if d.acc = .ro ∨ s.roleOf who < d.wr.num then (s, { status := 2 })
  else if d.ty = .table then
    let r := s.writeTable who who.big oid d off data
    (r.1, { status := r.2.1, done := r.2.2 })
  else if d.stringy then
    if off ≠ 0 ∨ d.size < data.length then (s, { status := 0x0A })
    else if d.acc = .cmd then
      if data.length ≠ d.size then (s, { status := 9 }) else whole (s.command who oid data)
    else whole (s.writeString who oid d data)
  else if off ≠ 0 ∨ data.length ≠ d.ty.bytes then (s, { status := 9 })
  else
    let l := commandBytes who.big d data
    if d.acc = .cmd then whole (s.command who oid l) else whole (s.writeValue who oid 0 (leNum l) d)

/-- The Crook, or the object server, that answers for an object has done so within 100 ms. -/
def State.served (s : State) (oid : Nat) : State :=
  if crookSet oid then s else { s with ctl := { s.ctl with mainAlive := true } }

/-- A dictionary request by path `who`, `field` telling the field network from the management port. -/
def State.request (s : State) (who : Path) (field : Bool) (op oid off len : Nat) (data : List Byte) : State × DictReply :=
  let s := s.count O.CTL_STAT 0 1
  let limit := pathLimit who field
  if op = 0 ∨ 4 < op ∨ (op ≠ 4 ∧ limit < len) then (s, { status := 9 })
  else if (match who with | .vfMailbox _ => true | _ => false) && !vfOpen oid then (s, { status := 2 })
  else match objDef oid with
    | none => (s, { status := 1 })
    | some d =>
      if s.serverInReset && !crookSet oid then (s, { status := 0x0D })
      else
        let r := match op with
          | 1 => s.dictRead who limit oid d off len
          | 4 => (s, { status := 0, done := 16, data := d.describe })
          | n => s.dictWrite who n oid d off data
        (r.1.served oid, r.2)

/-- A request from its 16-byte header and its data (R496); one that does not carry the bytes it announces is malformed. -/
def State.requestBytes (s : State) (who : Path) (field : Bool) (m : List Byte) : State × DictReply :=
  let num := fun (o n : Nat) => if who.big then beAt m o n else leAt m o n
  let op := num 0 1
  let data := (m.drop 16).take (num 12 4)
  let short := (op == 2 || op == 3) && data.length != num 12 4
  if m.length < 16 ∨ short then (s.count O.CTL_STAT 0 1, { status := 9 })
  else s.request who field op (num 2 2 * 256 + num 4 1) (num 8 4) (num 12 4) data

/-- A response as its path carries it. -/
def DictReply.bytes (r : DictReply) (be : Bool) : List Byte :=
  [BitVec.ofNat 8 r.status, 0, 0, 0] ++ pathBytes be 4 r.done ++ pathBytes be 4 r.data.length ++ r.data

/-! ### The BAR0 object window (R22 to R24) -/

/-- An access to the window that R24 counts: to no object, or of a size or place that R22 turns away. -/
def State.windowBad (s : State) (write : Bool) : State :=
  (s.count O.CTL_STAT (if write then 5 else 4) 1).raise O.CTL_ERR 8

/-- A write of a slot: `half` is none for 8 bytes, else whether the upper 4 bytes are written. -/
def State.windowWrite (s : State) (oid : Nat) (half : Option Bool) (v : Nat) : State :=
  if s.serverInReset && !crookSet oid then s
  else match objDef oid with
    | none => s.windowBad true
    | some d =>
      let w := 8 * d.ty.bytes
      let value : Option Nat := match half with
        | none => some (v % 2 ^ w)
        | some up =>
          if w = 64 then
            if d.acc = .rw then some (setBits (s.rowValue oid 0) (if up then 32 else 0) 32 v)
            else if d.acc = .w1c then some (if up then (v % 2 ^ 32) <<< 32 else v % 2 ^ 32)
            else none
          else if up then none else some (v % 2 ^ w)
      if !d.ty.inSlot ∨ d.acc = .ro then s
      else match value with
        | none => s
        | some x =>
          let r := if d.acc = .cmd then s.command .window oid (leBytes d.ty.bytes x) else s.writeValue .window oid 0 x d
          r.1.served oid

/-- What an access to the slot of `oid` reads, the undefined one aside. -/
def State.windowRead (s : State) (oid : Nat) (half : Option Bool) : State :=
  if s.serverInReset && !crookSet oid then s.emit (.value 0)
  else match objDef oid with
    | none => (s.windowBad false).emit (.value 0)
    | some d =>
      let v := s.slotValue oid d
      let v := match half with
        | none => v
        | some up => if up then v / 2 ^ 32 else v % 2 ^ 32
      ((s.readEffect oid).served oid).emit (.value v)

/-- OBJECT_WINDOW_WRITE (R22): element `el` of index `idx`. -/
def execObjectWindowWrite (idx : BitVec 16) (el : BitVec 8) (half : Option Bool) (v : BitVec 64) (s : State) : Ans :=
  .next (if s.fnUp 0 && s.crookUp then s.windowWrite (idx.toNat * 256 + el.toNat) half v.toNat else s)

/-- OBJECT_WINDOW_UNDEFINED_ACCESS (R22, R24): an access of `size` bytes at byte `off` of the window, where it is not aligned,
not of 4 or 8 bytes, or at no object. -/
def execObjectWindowUndefinedAccess (off : BitVec 27) (size : BitVec 13) (write : Bool) (s : State) : Ans :=
  let oid := off.toNat / 2048 * 256 + off.toNat % 2048 / 8
  let shaped := (size.toNat == 4 || size.toNat == 8) && off.toNat % size.toNat == 0
  if !s.fnUp 0 ∨ !s.crookUp ∨ (shaped ∧ (objDef oid).isSome) then .next s
  else
    let s := s.windowBad write
    .next (if write then s else s.emit (.value 0))

/-! ### Requests by mailbox, session, window and core -/

/-- An access of `len` bytes at byte `off` of a slot: none where R22 turns it away, else which half it is of, if of one. -/
def windowShape (off len : Nat) : Option (Option Bool) :=
  if len = 8 ∧ off = 0 then some none
  else if len = 4 ∧ (off = 0 ∨ off = 4) then some (some (off == 4))
  else none

/-- A request of one path. A read or write that comes by the window is an access to the slot, counted as undefined where its
size or place is none of a slot's (R22). -/
def State.dictCommand (s : State) (who : Path) (op oid off len : Nat) (data : List Byte) : State :=
  if !s.crookUp then s
  else if who = .window then
    if op = 1 then
      match windowShape off len with
      | some half => s.windowRead oid half
      | none => (s.windowBad false).emit (.value 0)
    else if op = 2 then
      match windowShape off len with
      | some half => s.windowWrite oid half (leNum data)
      | none => s.windowBad true
    else s
  else
    let r := s.request who false op oid off len data
    r.1.reply who r.2.status r.2.done r.2.data

/-- DICTIONARY_READ (R498). -/
def execDictionaryRead (who : Path) (idx : BitVec 16) (el : BitVec 8) (off len : BitVec 32) (s : State) : Ans :=
  .next (s.dictCommand who 1 (idx.toNat * 256 + el.toNat) off.toNat len.toNat [])

/-- DICTIONARY_WRITE (R498). -/
def execDictionaryWrite (who : Path) (idx : BitVec 16) (el : BitVec 8) (off : BitVec 32) (data : List Byte) (s : State) : Ans :=
  .next (s.dictCommand who 2 (idx.toNat * 256 + el.toNat) off.toNat data.length data)

/-- DICTIONARY_COMMAND (R496, R498). -/
def execDictionaryCommand (who : Path) (idx : BitVec 16) (el : BitVec 8) (off : BitVec 32) (data : List Byte) (s : State) : Ans :=
  .next (s.dictCommand who 3 (idx.toNat * 256 + el.toNat) off.toNat data.length data)

/-- DICTIONARY_DESCRIBE (R497). -/
def execDictionaryDescribe (who : Path) (idx : BitVec 16) (el : BitVec 8) (s : State) : Ans :=
  .next (s.dictCommand who 4 (idx.toNat * 256 + el.toNat) 0 0 [])

/-- The function whose mailbox a path is. -/
def Path.function : Path → Option Nat
  | .pfMailbox => some 0
  | .vfMailbox v => some v.val
  | _ => none

/-- OBJECT_SERVER_TIMEOUT (R493): the Crook completes a forwarded access with 0x08 after 100 ms. -/
def execObjectServerTimeout (who : Path) (s : State) : Ans :=
  if !s.crookUp ∨ s.serverInReset then .next s
  else
    let s := (s.advanceTo (s.now + 100000000)).count O.CTL_STAT 1 1
    let s := { s with ctl := { s.ctl with mainAlive := false } }
    let s := if (s.ob O.CTL_ERR).testBit 3 then s.errLog 0x5002 3 8 0 0 0 else s.raise O.CTL_ERR 3 8
    match who.function with
    | some f =>
      if (s.fn f).mbxBusy then
        .next (s.setFn f { s.fn f with mbxAnswer := some (({ status := 8 } : DictReply).bytes false) })
      else .next (s.reply who 8 0 [])
    | none => .next (s.reply who 8 0 [])

/-! ### The mailbox (R538, R539) -/

/-- A go of function `f`'s mailbox. -/
def State.mailboxGo (s : State) (f : Nat) : State :=
  let x := s.fn f
  if x.mbxBusy then (s.count O.PCIE_STAT 6 1).raise O.PCIE_ERR 6
  else
    let who : Path := if f = 0 then .pfMailbox else .vfMailbox (Fin.ofNat 33 f)
    let m := padTo 16400 x.mbxReq
    let r := s.requestBytes who false (m.take (16 + leAt m 12 4))
    r.1.setFn f { r.1.fn f with mbxBusy := true, mbxAnswer := some (r.2.bytes false) }

/-- MAILBOX_GO (R538). -/
def execMailboxGo (f : Fin 33) (s : State) : Ans :=
  .next (if s.fnUp f.val && s.crookUp then s.mailboxGo f.val else s)

/-- MAILBOX_DONE (R538): the response lands, and the function hears of it by its queue or by the mailbox's vector. -/
def execMailboxDone (f : Fin 33) (s : State) : Ans :=
  let x := s.fn f.val
  if !x.mbxBusy then .next s
  else
    let a := x.mbxAnswer.getD []
    let s := s.setFn f.val { x with mbxBusy := false, mbxDone := (x.mbxDone + 1) % 2 ^ 32, mbxAnswer := none, mbxResp := a }
    let s := s.event [f.val] 0x0C 0 (leAt a 0 1)
    if x.takes 0x0C ∨ !x.mbxCfg.testBit 13 then .next s
    else
      let t := s.sendVector f.val (bits x.mbxCfg 2 11)
      .next (if t.row O.PCIE_STAT 5 = s.row O.PCIE_STAT 5 then t else t.raise O.PCIE_ERR 5)

/-! ### Oxpin requests (R507) -/

/-- OXPIN_REQUEST (R507): executed once, and its response kept; a repeat of one of the last eight gets the kept response. -/
def execOxpinRequest (field : Bool) (m : List Byte) (s : State) : Ans :=
  if field ∧ !s.fieldOn then .next s
  else
  let r := s.oxTake 0x10 m (fun x => x.kept.any (fun k => k.1 == oxSeq m))
  match r.2 with
  | none => .next r.1
  | some (i, x, p) =>
    match x.kept.find? (fun k => k.1 == oxSeq m) with
    | some k => .next (r.1.emit (.oxpin field k.2))
    | none =>
      let q := r.1.requestBytes (.oxpin (Fin.ofNat 8 i)) field p
      match q.1.session i with
      | none => .next q.1
      | some y =>
        if y.ident ≠ x.ident then .next q.1
        else
          let t := q.1.oxSend field i y 0x11 (q.2.bytes true)
          match t.1.session i with
          | none => .next t.1
          | some z => .next (t.1.setSession i (some { z with kept := ((oxSeq m, t.2) :: z.kept).take 8 }))

end Sys2Proof.Machine
end

