-- ==== Sys2Proof/Machine/Operands.lean ====
section
/-!
DEFINITION. The operand forms of a register access: eight bytes, or the named half of a register (R22, R529).
-/

namespace Sys2Proof.Machine

/-- The bits that an access reaches: `half` is none for 8 bytes, else whether it is the upper half. -/
def halfMask : Option Bool → Nat
  | none => 2 ^ 64 - 1
  | some false => 0xFFFFFFFF
  | some true => 0xFFFFFFFF <<< 32

/-- What an access of a half of `v` reads. -/
def halfOf (half : Option Bool) (v : Nat) : Nat :=
  match half with
  | none => v
  | some false => v % 2 ^ 32
  | some true => v / 2 ^ 32

/-- A register of value `cur` with the half that is written taken from `v`. -/
def halfInto (half : Option Bool) (cur v : Nat) : Nat :=
  match half with
  | none => v % 2 ^ 64
  | some false => setBits cur 0 32 v
  | some true => setBits cur 32 32 v

end Sys2Proof.Machine
end

