-- ==== Sys2Proof/Machine/Registers.lean ====
section
/-!
DEFINITION. The direct registers of BAR0 and the contents of BAR4 (R25, R26, R529, R531): what each reads as, what a write
does, and what a read clears.
-/

namespace Sys2Proof.Machine

/-! ### Words put together from the blocks -/

/-- A mask with bit `i` set for each `i` below `n` of which `p` holds. -/
def maskOf (n : Nat) (p : Nat → Bool) : Nat := (List.range n).foldl (fun a i => a + b2n (p i) <<< i) 0

/-- Whether the bucket of queue `qid` covers its head frame, or is unshaped (R136). -/
def State.tokensOk (s : State) (qid : Nat) : Bool :=
  let d := qid / 12
  let r := s.row O.EGR_QCFG qid
  match s.headOf qid with
  | none => true
  | some id => decide (1024 ≤ d) || bucketHolds (qRate r) (qBurst r) (s.eq qid).short (s.chargedLen d (s.copy id).frame)

/-- The head frame that a destination sends next: that of the queue chosen, else the shortest head. -/
def State.nextLen (s : State) (d : Nat) : Option Nat :=
  let len := fun (qid : Nat) => (s.headOf qid).map (fun id => s.chargedLen d (s.copy id).frame)
  match (s.ep d).next with
  | some x => some x.len
  | none => ((List.range 12).filterMap (fun q => len (12 * d + q))).foldl (fun a n => some (min n (a.getD n))) none

/-- PORT_EGR_STAT_d (R136). -/
def State.egrStat (s : State) (d : Nat) : Nat :=
  let pr := s.row O.EGR_PORTCFG d
  let gates := decide (d < 1024) && pGateEn pr
  let portOk := decide (1024 ≤ d) || (match s.nextLen d with
    | none => true
    | some n => bucketHolds (pRate pr) (pBurst pr) (s.ep d).short n)
  maskOf 12 (fun q => !(s.eq (12 * d + q)).frames.isEmpty) +
  maskOf 12 (fun q => decide (d < 1024) && s.paused (12 * d + q)) <<< 12 +
  maskOf 12 (fun q => !gates || slotOpen (s.gateRow d) q s.slot) <<< 24 +
  maskOf 12 (fun q => s.tokensOk (12 * d + q)) <<< 36 + b2n portOk <<< 48 +
  (if d < 1024 then (s.ep d).xoff % 256 else 0) <<< 49

/-- Whether a frame at the head of a queue of VC `v` on block `b` lacks the credit for its cells (R216). -/
def State.vcBlocked (s : State) (b v : Nat) : Bool :=
  (List.range 96).any (fun i => match s.headOf (96 * b + i) with
    | none => false
    | some id =>
      let f := (s.copy id).frame
      let p := parseFrame f.etype f
      frameVc f p == v && !s.hasCredit b v (cellsOf (linkLen f p)))

/-- PORT_LINK_b (R216). A replay is in progress from its start until ack advances. -/
def State.portLink (s : State) (b : Nat) : Nat :=
  let up := fun (i : Nat) => s.portState (8 * b + i) == 5 || s.portState (8 * b + i) == 6
  maskOf 8 up + ((s.block b).signal % 256) <<< 8 + ((s.block b).locked % 256) <<< 16 + s.portState (8 * b) <<< 24 +
  (if s.isLink b then maskOf 8 (fun v => s.vcBlocked b v) else 0) <<< 28 +
  b2n (decide (0 < (s.block b).replays) && !(s.block b).replay.isEmpty) <<< 36 + b2n (s.portState (8 * b) == 7) <<< 37 +
  b2n (s.blockFenced b) <<< 38

/-- PORT_CIRC_b (R264). -/
def State.portCirc (s : State) (b : Nat) : Nat :=
  let x := s.block b
  if s.role b = 2 ∨ s.role b = 4 then
    b2n x.armAt.isSome + b2n (exValid (s.row O.CIRC_EXPECT b)) <<< 1 + (x.lastSlot % 64) <<< 2 + b2n x.lastUsed <<< 8 +
      (min 0xFFFFFF x.relinkUs) <<< 16 + (x.lastOut % 8) <<< 40
  else 0

/-- The operation of a context that runs. -/
def OpCtx.front (x : OpCtx) : Option Op := x.ops.find? Op.live

/-- DROVE_BEAT (R314). -/
def State.droveBeatReg (s : State) : Nat :=
  let beat := (s.devNs - s.bellStart s.bell) / 2048 % 32
  let op := match s.drove.holder with
    | .op c => (s.octx c).front
    | _ => none
  let holder := match s.drove.holder with
    | .idle => 0
    | .op c => (s.octx c).cls
    | .save _ => 5
    | .restore _ => 5
    | .sentinel _ => 4
    | .test _ _ => 4
    | .switch _ => 6
  beat + holder <<< 5 + b2n ((op.map (fun o => dOrd o.desc)).getD false) <<< 8 + (s.ob O.DROVE_LIVE % 256) <<< 9 +
    ((op.map (fun o => dTag o.desc)).getD 0 % 2 ^ 32) <<< 32

/-- DROVE_TILE_STAT_p (R314). -/
def State.tileStatReg (s : State) (p : Nat) : Nat :=
  maskOf 9 (fun t => s.liveTiles.contains (9 * p + t)) + maskOf 9 (fun t => s.tile (9 * p + t) == tFenced) <<< 9 +
    bits (s.reg (0x180010 + 8 * p)) 32 32 <<< 32

/-- DROVER_SLOT_s (R385). -/
def State.slotReg (s : State) (k : Nat) : Nat :=
  match s.slotInst k with
  | none => 0
  | some id =>
    let c := s.inst id
    let top := (c.chunks.filter (fun x => x.2.stage != 7)).foldl (fun a x => max a x.2.stage) 0
    (if c.noted.isSome then 3 else 2) + (top % 8) <<< 2 + (cmId (s.comm c.row) % 65536) <<< 8 + (c.seq % 65536) <<< 24 +
      (c.out % 2 ^ 24) <<< 40

/-- DROVER_ADMIT (R385). -/
def State.admitReg (s : State) : Nat :=
  ((s.collHead.map (fun x => x.2.start)).getD 0) % 2 ^ 48 +
    (min 0xFF (s.coll.insts.filter (fun x => x.2.slot.isNone)).length) <<< 48 + b2n s.coll.blocked <<< 56

/-- COMMON_TU_STAT_p (R423). -/
def State.tuStat (s : State) (p : Nat) : Nat :=
  let n := fun (f : ReqStage → Bool) => (s.common.reqs.filter (fun x => x.2.unit == p && f x.2.stage)).length
  bits (s.reg (0x1A0010 + 8 * p)) 0 32 + n (fun g => g == .access || g == .drove || g == .mirror) <<< 32 +
    n (fun g => g == .held) <<< 45 + (s.common.walks.filter (fun w => w.1 == p)).length <<< 54

/-- CROOK_STATUS (R525). -/
def State.crookStatus (s : State) : Nat :=
  if !s.crookUp then 0 else
    (s.now - s.ctl.crookAt) / 1000000 % 2 ^ 32 + b2n s.ctl.mainAlive <<< 32 +
      (min 7 (s.ctl.sessions.filter (fun x => x.2.isSome)).length) <<< 33 +
      b2n ((List.range 16).any s.slotValid) <<< 36 + b2n s.ctl.logWrapped <<< 37

/-- CROOK_BOOT (R525). -/
def State.crookBoot (s : State) : Nat :=
  if !s.crookUp then 0 else
    s.ob O.FW_STATE % 8 + (s.ob O.FW_STATUS % 256) <<< 3 + (s.ob O.FW_REASON % 8) <<< 11 + b2n s.netBoot <<< 14 +
      b2n s.ctl.ready <<< 15 + (s.ob O.FW_SVN % 2 ^ 32) <<< 16

/-! ### The registers of BAR0 -/

/-- A run of direct registers: the offset of the first, how many stand eight bytes apart, and what the i-th reads as. -/
structure RegRun where
  base  : Nat
  count : Nat
  read  : State → Nat → Nat

/-- The registers of the Fold, the ports, forwarding and routing. -/
def runs1 : List RegRun := [
  { base := 0x100000, count := 4,
    read := fun s i => s.ob (O.FOLD_NEAR_USED + i) % 2 ^ 18 + (s.ob (O.FOLD_FAR_USED + i) % 2 ^ 26) <<< 32 },
  { base := 0x100020, count := 8, read := fun s i => bits (s.reg (ridgeStatOff i)) 0 32 + s.ridgeFree i <<< 32 },
  { base := 0x100060, count := 1, read := fun s _ => s.reg gateStatOff },
  { base := 0x100068, count := 1, read := fun s _ => s.ob O.FOLD_ERR },
  { base := 0x120000, count := 1040, read := State.egrStat },
  { base := 0x122080, count := 1, read := fun s _ => s.ob O.EGR_QREC_HEAD % 2 ^ 32 + (s.ob O.EGR_QREC_WRAPS % 2 ^ 32) <<< 32 },
  { base := 0x130000, count := 128, read := State.portLink },
  { base := 0x130400, count := 128, read := fun s i => s.reg (0x130400 + 8 * i) },
  { base := 0x140000, count := 8, read := fun s i => if i % 2 = 0 then (s.heftReq (i / 2)).1 else (s.heftReq (i / 2)).2 },
  { base := 0x150000, count := 128, read := fun s i => s.reg (ringEntryOff i) },
  { base := 0x160000, count := 128, read := State.portCirc }]

/-- The registers of the Drove, the Drover, the Common and Muster. -/
def runs2 : List RegRun := [
  { base := 0x180000, count := 1, read := fun s _ => s.droveBeatReg },
  { base := 0x180008, count := 1, read := fun s _ => s.ob O.DROVE_ERR },
  { base := 0x180010, count := 16, read := State.tileStatReg },
  { base := 0x181000, count := 512, read := fun s i => s.ringRead false (i / 8) (i % 8) },
  { base := 0x190000, count := 64, read := State.slotReg },
  { base := 0x190200, count := 1, read := fun s _ => s.admitReg },
  { base := 0x1A0000, count := 1, read := fun s _ => ((s.common.faults.head?.map (·.1)).getD 0) },
  { base := 0x1A0008, count := 1, read := fun s _ => s.faultHi },
  { base := 0x1A0010, count := 16, read := State.tuStat },
  { base := 0x1A1000, count := 512, read := fun s i => s.ringRead true (i / 8) (i % 8) },
  { base := 0x1C0000, count := 128, read := State.musterLink }]

/-- The registers of time, the Crook, the host interface, observability, reset and power. -/
def runs3 : List RegRun := [
  { base := 0x1B0000, count := 1, read := fun s _ => s.timeLo },
  { base := 0x1B0008, count := 1, read := fun s _ => s.time.hiLatch },
  { base := 0x1B0010, count := 1, read := fun s _ => s.bell },
  { base := 0x1B0018, count := 1, read := fun s _ => s.bellTickReg },
  { base := 0x1B0020, count := 1, read := fun s _ => s.bwthStatus },
  { base := 0x1B0100, count := 16, read := fun s i => s.reg (0x1B0100 + 8 * i) },
  { base := 0x1D0000, count := 1, read := fun s _ => s.crookStatus },
  { base := 0x1D0008, count := 1, read := fun s _ => s.crookBoot },
  { base := 0x1E0000, count := 1, read := fun s _ => s.pcieStatus },
  { base := 0x1E0008, count := 1, read := fun s _ => s.reg 0x1E0008 },
  { base := 0x1E0100, count := 32, read := fun s i => s.reg (0x1E0100 + 8 * i) },
  { base := 0x1E0200, count := 96, read := fun s i => s.reg (0x1E0200 + 8 * i) },
  { base := 0x1F0000, count := 8192, read := State.tallyRow },
  { base := 0x200000, count := 1, read := fun s _ => s.reg 0x200000 },
  { base := 0x200008, count := 1, read := fun s _ => s.snapStat },
  { base := 0x200010, count := 1, read := fun s _ => s.fleeceStat },
  { base := 0x210000, count := 6, read := State.resetReg },
  { base := 0x210030, count := 1, read := fun s _ => s.rstStatus },
  { base := 0x210100, count := 1, read := fun s _ => s.pwrStatus }]

/-- The run that holds the register at `off`. -/
def regRun (off : Nat) : Option RegRun :=
  (runs1 ++ runs2 ++ runs3).find? (fun r => decide (r.base ≤ off ∧ off < r.base + 8 * r.count))

/-- Whether the register at `off` belongs to the dies that lose power in DS4 (R591). -/
def dieReg (off : Nat) : Bool :=
  decide (off < 0x1B0000 ∨ (0x1C0000 ≤ off ∧ off < 0x1D0000) ∨ (0x1F0000 ≤ off ∧ off < 0x210000))

/-- Whether a register access is answered: in a reset that is asserted the Crook's two registers alone are, and in DS4 none of
the dies'. -/
def State.answers (s : State) (off : Nat) : Bool :=
  if off = 0x1D0000 ∨ off = 0x1D0008 then true
  else s.power.width == 0 && !(s.ob O.PWR_STATE == 4 && dieReg off)

/-- The value of the register at `off`, eight bytes. -/
def State.regValue (s : State) (off : Nat) : Nat :=
  match regRun off with
  | some r => if s.answers off then r.read s ((off - r.base) / 8) else 0
  | none => 0

/-- The RC bits of a register whose counters stand in `State.regs`. -/
def rcMask (off : Nat) : Nat :=
  if 0x100020 ≤ off ∧ off < 0x100060 then 0xFFFFFFFF
  else if off = 0x100060 ∨ (0x130400 ≤ off ∧ off < 0x130800) ∨ (0x150000 ≤ off ∧ off < 0x150400) then 2 ^ 64 - 1
  else if 0x180010 ≤ off ∧ off < 0x180090 then 0xFFFFFFFF <<< 32
  else if 0x1A0010 ≤ off ∧ off < 0x1A0090 then 0xFFFFFFFF
  else if 0x1B0100 ≤ off ∧ off < 0x1B0180 then 0xFFFFFFFF
  else 0

/-- What a read of the register at `off` leaves: RC fields of the half read are cleared, and the reads that remove or latch do so
(R26, R185, R423, R459, R553). -/
def State.regClear (s : State) (off : Nat) (half : Option Bool) : State :=
  let low := half != some true
  if rcMask off ≠ 0 then
    s.setReg off (oneClears (s.reg off) (rcMask off &&& halfMask half))
  else if 0x140000 ≤ off ∧ off < 0x140040 then
    if low && off / 8 % 2 == 1 then s.heftPop ((off - 0x140000) / 16) else s
  else if off = 0x1A0008 then
    if low then { s with common := { s.common with faults := s.common.faults.tail } } else s
  else if off = 0x1B0000 then { s with time := { s.time with hiLatch := s.devNs / 1000000000 % 2 ^ 64 } }
  else if 0x1F0000 ≤ off ∧ off < 0x200000 then
    let n := (off - 0x1F0000) / 8
    if n % 2 = 0 ∧ s.chainHigh (n + 1) then s.setReg 0x200000 (s.ctr (n + 1) + (n + 1) <<< 49) else s
  else s

/-- A read of the register at `off` of BAR0. -/
def State.regRead (s : State) (off : Nat) (half : Option Bool) : State :=
  let v := halfOf half (s.regValue off)
  (if s.answers off then s.regClear off half else s).emit (.value v)

/-- Reset the units whose bits are set in `v`: the bit `i` of the register is unit `first + i` of a kind of `blockReset`. -/
def State.resetBits (s : State) (kind first n v : Nat) : State :=
  (setBitsOf n v).foldl (fun s i => s.blockReset kind (first + i)) s

/-- A write of the register at `off` of BAR0, by the physical function or by the cores. A write to a field that is not writable is
ignored (R26); writing one to a W1C or W1S bit of the half written acts. -/
def State.regWrite (s : State) (who : RingWriter) (off : Nat) (half : Option Bool) (v : Nat) : State :=
  let ones := halfInto half 0 v
  let whole := halfInto half (s.regValue off) v
  let low := half != some true
  let ring := fun (dma : Bool) (i : Nat) =>
    if low || i % 8 == 0 || i % 8 == 4 then s.ringReg who dma (i / 8) (i % 8) whole else s
  if off = 0x100068 then s.setOb O.FOLD_ERR (oneClears (s.ob O.FOLD_ERR) ones)
  else if off = 0x180008 then s.setOb O.DROVE_ERR (oneClears (s.ob O.DROVE_ERR) ones)
  else if 0x181000 ≤ off ∧ off < 0x182000 then ring false ((off - 0x181000) / 8)
  else if 0x1A1000 ≤ off ∧ off < 0x1A2000 then ring true ((off - 0x1A1000) / 8)
  else if off = 0x1E0008 then s.writeBar2 whole
  else if 0x1E0100 ≤ off ∧ off < 0x1E0200 then if low then s.setReg off (whole % 4096) else s
  else if 0x1E0200 ≤ off ∧ off < 0x1E0500 then if low then s.writeOwner ((off - 0x1E0200) / 8) whole else s
  else if off = 0x210000 ∨ off = 0x210008 then s.resetBits 1 (8 * (off - 0x210000)) 64 ones
  else if 0x210010 ≤ off ∧ off < 0x210020 then s.resetBits 2 (8 * (off - 0x210010)) 64 ones
  else if off = 0x210020 then s.resetBits 2 128 16 ones
  else if off = 0x210028 then
    ((s.resetBits 3 0 16 ones).resetBits 4 0 16 (ones >>> 16)).resetBits 5 0 16 (ones >>> 32)
  else s

/-! ### BAR4 (R531, R533, R535, R536, R538, R546) -/

/-- The eight bytes at byte `off` of function `f`'s BAR4, `off` a multiple of 8. -/
def State.bar4Value (s : State) (f off : Nat) : Nat :=
  let x := s.fn f
  if off < 0x8000 then
    if off / 16 < vectorsOf f then bits (TMap.get msixReset x.msix (off / 16)) (64 * (off / 8 % 2)) 64 else 0
  else if off < 0x8100 then maskOf 64 (fun i => x.msixPend.contains (8 * (off - 0x8000) + i))
  else if off = 0x10000 then x.evqBase
  else if off = 0x10008 then x.evqCfg
  else if off = 0x10010 then x.evqHead
  else if off = 0x10018 then x.evqTail + b2n x.phase <<< 16 + x.lost <<< 32
  else if off = 0x10020 then b2n x.mbxBusy <<< 1 + x.mbxCfg + x.mbxDone <<< 32
  else if 0x11000 ≤ off ∧ off < 0x11000 + 16400 then leAt x.mbxReq (off - 0x11000) 8
  else if 0x16000 ≤ off ∧ off < 0x16000 + 16396 then leAt x.mbxResp (off - 0x16000) 8
  else if 0x20000 ≤ off ∧ off < 0x80000 then
    let k := (off - 0x20000) / 4096
    let i := off % 4096 / 8
    if i < 8 ∧ s.ringOwner (decide (48 ≤ k)) (k % 48) = f ∧ s.ob O.PWR_STATE ≠ 4 then s.ringRead (decide (48 ≤ k)) (k % 48) i else 0
  else 0

/-- A read in BAR4; PCIE_EVQ_TAIL's count of lost records is cleared by it. -/
def State.bar4Read (s : State) (f off : Nat) (half : Option Bool) : State :=
  let v := halfOf half (s.bar4Value f off)
  let s := if off = 0x10018 ∧ half ≠ some false then s.setFn f { s.fn f with lost := 0 } else s
  s.emit (.value v)

/-- A write of PCIE_EVQ_CFG: a queue that is enabled starts at record 0 with phase 1. -/
def State.writeEvqCfg (s : State) (f v : Nat) : State :=
  let x := s.fn f
  let x := if v.testBit 5 && !x.evqCfg.testBit 5 then { x with evqTail := 0, phase := true } else x
  s.setFn f { x with evqCfg := v &&& (0x3FFFF + 0xFFF <<< 32) }

/-- A write of PCIE_MBX: the vector fields, then go (R538). -/
def State.writeMbx (s : State) (f v : Nat) : State :=
  let s := s.setFn f { s.fn f with mbxCfg := v &&& 0x3FFC }
  if v.testBit 0 && s.crookUp then s.mailboxGo f else s

/-- A write in BAR4. -/
def State.bar4Write (s : State) (f off : Nat) (half : Option Bool) (v : Nat) : State :=
  let x := s.fn f
  let whole := halfInto half (s.bar4Value f off) v
  let low := half != some true
  if off < 0x8000 then
    let n := off / 16
    if n < vectorsOf f then
      s.msixSet f n (setBits (TMap.get msixReset x.msix n) (64 * (off / 8 % 2)) 64 whole % 2 ^ 97)
    else s
  else if off = 0x10000 then if x.evqCfg.testBit 5 then s else s.setFn f { x with evqBase := whole / 64 * 64 }
  else if off = 0x10008 then s.writeEvqCfg f whole
  else if off = 0x10010 then if low then s.evqHead f whole else s
  else if off = 0x10020 then if low then s.writeMbx f v else s
  else if 0x11000 ≤ off ∧ off < 0x11000 + 16400 then
    s.setFn f { x with mbxReq := patch (padTo 16400 x.mbxReq) (off - 0x11000) (leBytes 8 whole) }
  else if 0x20000 ≤ off ∧ off < 0x80000 then
    let k := (off - 0x20000) / 4096
    let i := off % 4096 / 8
    if i < 8 ∧ (low ∨ i % 4 = 0) ∧ s.ob O.PWR_STATE ≠ 4 then
      s.ringReg (.page (Fin.ofNat 33 f)) (decide (48 ≤ k)) (k % 48) i whole
    else s
  else s

/-! ### The commands -/

/-- An offset of the direct registers, rounded down to its eight bytes, that names a register. -/
def directReg (off : Nat) : Bool := decide (off < 0x4000000) && (regRun (off / 8 * 8)).isSome

/-- An access to an undefined direct register (R529). -/
def State.directBad (s : State) (write : Bool) : State := (s.count O.CTL_STAT (if write then 7 else 6) 1).raise O.CTL_ERR 8

/-- Object of the element whose slot stands at byte `off` of BAR0 (R22). -/
def windowOid (off : Nat) : Nat := (off - 0x4000000) / 2048 * 256 + off % 2048 / 8

/-- A write in BAR0 at byte `off` rounded down to eight bytes. -/
def State.bar0Write (s : State) (who : RingWriter) (off : Nat) (half : Option Bool) (v : Nat) : State :=
  if off < 0x4000000 then
    if !s.answers off then s else if directReg off then s.regWrite who off half v else s.directBad true
  else if off < 0xC000000 then if s.crookUp then s.windowWrite (windowOid off) half v else s
  else s

/-- A read in BAR0. -/
def State.bar0Read (s : State) (off : Nat) (half : Option Bool) : State :=
  if off < 0x4000000 then
    if directReg off || !s.answers off then s.regRead off half else (s.directBad false).emit (.value 0)
  else if off < 0xC000000 then if s.crookUp then s.windowRead (windowOid off) half else s.emit (.value 0)
  else s.emit (.value 0)

/-- A write of a configuration register of the physical function (R527, R528). Clearing VF Enable resets the VFs. -/
def State.writeVfEnable (s : State) (on : Bool) : State :=
  let s := if s.pcie.vfEnable && !on then (List.range s.pcie.numVfs).foldl (fun s v => s.flr (v + 1)) s else s
  { s with pcie := { s.pcie with vfEnable := on } }

/-- REGISTER_WRITE (R26, R529): `half` is none for 8 bytes, else whether the upper 4 bytes are written. -/
def execRegisterWrite (a : RegAddr) (half : Option Bool) (v : BitVec 64) (s : State) : Ans :=
  let n := v.toNat
  match a with
  | .bar0 off => .next (if s.fnUp 0 then s.bar0Write .bar0 (off.toNat / 8 * 8) half n else s)
  | .core off => .next (if off.toNat < 0x4000000 then s.bar0Write .cores (off.toNat / 8 * 8) half n else s)
  | .bar4 f off => awake s <| .next (if s.fnUp f.val then s.bar4Write f.val (off.toNat / 8 * 8) half n else s)
  | .numVfs => awake s <|
    .next (if s.fnUp 0 ∧ !s.pcie.vfEnable then { s with pcie := { s.pcie with numVfs := min 32 n } } else s)
  | .vfEnable => awake s <| .next (if s.fnUp 0 then s.writeVfEnable (n.testBit 0) else s)
  | .bar2Size => awake s <|
    .next (if s.fnUp 0 ∧ 30 ≤ n ∧ n ≤ 36 then { s with pcie := { s.pcie with bar2Log := n } } else s)

/-- READ_CLEAR_REGISTER_READ (R26, R529): the value is returned, then RC fields of the half read are cleared. -/
def execReadClearRegisterRead (a : RegAddr) (half : Option Bool) (s : State) : Ans :=
  match a with
  | .bar0 off => .next (if s.fnUp 0 then s.bar0Read (off.toNat / 8 * 8) half else s)
  | .core off => .next (if off.toNat < 0x4000000 then s.bar0Read (off.toNat / 8 * 8) half else s)
  | .bar4 f off => awake s <| .next (if s.fnUp f.val then s.bar4Read f.val (off.toNat / 8 * 8) half else s)
  | .numVfs => awake s <| .next (if s.fnUp 0 then s.emit (.value s.pcie.numVfs) else s)
  | .vfEnable => awake s <| .next (if s.fnUp 0 then s.emit (.value (b2n s.pcie.vfEnable)) else s)
  | .bar2Size => awake s <| .next (if s.fnUp 0 then s.emit (.value s.pcie.bar2Log) else s)

/-- DIRECT_REGISTER_UNDEFINED_ACCESS (R529): an access of `size` bytes at byte `off` of the direct registers, where it is not aligned,
not of 4 or 8 bytes, or at no register. -/
def execDirectRegisterUndefinedAccess (off : BitVec 26) (size : BitVec 13) (write : Bool) (s : State) : Ans := awake s <|
  let shaped := (size.toNat == 4 || size.toNat == 8) && off.toNat % size.toNat == 0
  if !s.fnUp 0 ∨ (shaped ∧ directReg off.toNat) then .next s
  else
    let s := s.directBad write
    .next (if write then s else s.emit (.value 0))

end Sys2Proof.Machine
end

