-- ==== Sys2Proof/Machine/Dispatch.lean ====
section
/-! DEFINITION. One arm for each command: its meaning on everything but the queue. -/

namespace Sys2Proof.Machine

def exec (i : Instr) (s : State) : Host.Outcome State Fault Refusal :=
  match i with
  | .registerWrite a half v => Sys2Proof.Machine.execRegisterWrite a half v s
  | .readClearRegisterRead a half => Sys2Proof.Machine.execReadClearRegisterRead a half s
  | .objectWindowWrite idx el half v => Sys2Proof.Machine.execObjectWindowWrite idx el half v s
  | .objectWindowUndefinedAccess off size write => Sys2Proof.Machine.execObjectWindowUndefinedAccess off size write s
  | .directRegisterUndefinedAccess off size write => Sys2Proof.Machine.execDirectRegisterUndefinedAccess off size write s
  | .dictionaryRead who idx el off len => Sys2Proof.Machine.execDictionaryRead who idx el off len s
  | .dictionaryWrite who idx el off data => Sys2Proof.Machine.execDictionaryWrite who idx el off data s
  | .dictionaryCommand who idx el off data => Sys2Proof.Machine.execDictionaryCommand who idx el off data s
  | .dictionaryDescribe who idx el => Sys2Proof.Machine.execDictionaryDescribe who idx el s
  | .objectServerTimeout who => Sys2Proof.Machine.execObjectServerTimeout who s
  | .placementWrite who e v => Sys2Proof.Machine.execPlacementWrite who e v s
  | .portRoleWrite who b v => Sys2Proof.Machine.execPortRoleWrite who b v s
  | .portSplitWrite who b rate v => Sys2Proof.Machine.execPortSplitWrite who b rate v s
  | .portPoolMibWrite who b v => Sys2Proof.Machine.execPortPoolMibWrite who b v s
  | .portMaxFrameWrite who b v => Sys2Proof.Machine.execPortMaxFrameWrite who b v s
  | .foldFarSizeWrite who v => Sys2Proof.Machine.execFoldFarSizeWrite who v s
  | .ingressFrame port bytes fcsOk fifo => Sys2Proof.Machine.execIngressFrame port bytes fcsOk fifo s
  | .pfcXoffRepeat port prio => Sys2Proof.Machine.execPfcXoffRepeat port prio s
  | .voqHeadAdmission input dest cls => Sys2Proof.Machine.execVoqHeadAdmission input dest cls s
  | .admissionRetry input dest cls => Sys2Proof.Machine.execAdmissionRetry input dest cls s
  | .reorderTimeout src cls => Sys2Proof.Machine.execReorderTimeout src cls s
  | .gateMatch => Sys2Proof.Machine.execGateMatch s
  | .gateTransferWrite n => Sys2Proof.Machine.execGateTransferWrite n s
  | .ridgeRelayForward n => Sys2Proof.Machine.execRidgeRelayForward n s
  | .ridgeLinkFence l => Sys2Proof.Machine.execRidgeLinkFence l s
  | .cellRead use crcOk ecc bank => Sys2Proof.Machine.execCellRead use crcOk ecc bank s
  | .evictionAge qid busy => Sys2Proof.Machine.execEvictionAge qid busy s
  | .evictionOccupancy die busy => Sys2Proof.Machine.execEvictionOccupancy die busy s
  | .evictionWriteAck qid => Sys2Proof.Machine.execEvictionWriteAck qid s
  | .groupFetch qid => Sys2Proof.Machine.execGroupFetch qid s
  | .fetchComplete qid bad => Sys2Proof.Machine.execFetchComplete qid bad s
  | .egressSelect d => Sys2Proof.Machine.execEgressSelect d s
  | .frameDepartureStart d => Sys2Proof.Machine.execFrameDepartureStart d s
  | .launchTimeDue qid => Sys2Proof.Machine.execLaunchTimeDue qid s
  | .queueConfigWrite who qid v => Sys2Proof.Machine.execQueueConfigWrite who qid v s
  | .pfcFrameReceive port enable quanta => Sys2Proof.Machine.execPfcFrameReceive port enable quanta s
  | .pfcPauseExpire qid => Sys2Proof.Machine.execPfcPauseExpire qid s
  | .pfcWatchdogExpire qid => Sys2Proof.Machine.execPfcWatchdogExpire qid s
  | .qrecRingWriteFault => Sys2Proof.Machine.execQrecRingWriteFault s
  | .heftInsert die => Sys2Proof.Machine.execHeftInsert die s
  | .heftAgeSweep die => Sys2Proof.Machine.execHeftAgeSweep die s
  | .heftAgeShiftWrite who v => Sys2Proof.Machine.execHeftAgeShiftWrite who v s
  | .heftInsertStatic who mask e => Sys2Proof.Machine.execHeftInsertStatic who mask e s
  | .heftDelete who mask e => Sys2Proof.Machine.execHeftDelete who mask e s
  | .heftFlushPasture who mask pasture => Sys2Proof.Machine.execHeftFlushPasture who mask pasture s
  | .heftFlushPort who mask dev port => Sys2Proof.Machine.execHeftFlushPort who mask dev port s
  | .heftFlushAll who mask => Sys2Proof.Machine.execHeftFlushAll who mask s
  | .heftStashRetry who mask => Sys2Proof.Machine.execHeftStashRetry who mask s
  | .heftReqPop die => Sys2Proof.Machine.execHeftReqPop die s
  | .lpmAdd who v6 plen pasture nh pfx => Sys2Proof.Machine.execLpmAdd who v6 plen pasture nh pfx s
  | .lpmDelete who v6 plen pasture pfx => Sys2Proof.Machine.execLpmDelete who v6 plen pasture pfx s
  | .forwardingTableWrite who table row v => Sys2Proof.Machine.execForwardingTableWrite who table row v s
  | .routeFlip who pasture bell => Sys2Proof.Machine.execRouteFlip who pasture bell s
  | .routeFlipApply pasture => Sys2Proof.Machine.execRouteFlipApply pasture s
  | .routeFlipCancel who pasture => Sys2Proof.Machine.execRouteFlipCancel who pasture s
  | .routeHoldWrite who pasture v => Sys2Proof.Machine.execRouteHoldWrite who pasture v s
  | .routeSnap who pasture bell => Sys2Proof.Machine.execRouteSnap who pasture bell s
  | .routeSnapTake pasture => Sys2Proof.Machine.execRouteSnapTake pasture s
  | .routeFailoverClear who v => Sys2Proof.Machine.execRouteFailoverClear who v s
  | .laneSignalDetect b lane => Sys2Proof.Machine.execLaneSignalDetect b lane s
  | .laneTrainComplete b lane snr lanes => Sys2Proof.Machine.execLaneTrainComplete b lane snr lanes s
  | .presetAdaptDone b reached => Sys2Proof.Machine.execPresetAdaptDone b reached s
  | .codewordLock b lane skewOk => Sys2Proof.Machine.execCodewordLock b lane skewOk s
  | .helloSend b => Sys2Proof.Machine.execHelloSend b s
  | .helloReceive b rec => Sys2Proof.Machine.execHelloReceive b rec s
  | .bringupTimeout b => Sys2Proof.Machine.execBringupTimeout b s
  | .flitReceive b header payload errs => Sys2Proof.Machine.execFlitReceive b header payload errs s
  | .ackTimeoutReplay b => Sys2Proof.Machine.execAckTimeoutReplay b s
  | .lossOfSignal b lane => Sys2Proof.Machine.execLossOfSignal b lane s
  | .holdExpire b => Sys2Proof.Machine.execHoldExpire b s
  | .flockLinkDown port => Sys2Proof.Machine.execFlockLinkDown port s
  | .flockHoldExpire port => Sys2Proof.Machine.execFlockHoldExpire port s
  | .flockLinkUp port => Sys2Proof.Machine.execFlockLinkUp port s
  | .portRetrainQuiesce who b => Sys2Proof.Machine.execPortRetrainQuiesce who b s
  | .portRetrainNow who b => Sys2Proof.Machine.execPortRetrainNow who b s
  | .quiesceTimeout b => Sys2Proof.Machine.execQuiesceTimeout b s
  | .modulePathWrite who b n v a => Sys2Proof.Machine.execModulePathWrite who b n v a s
  | .moduleReadyTimeout b n => Sys2Proof.Machine.execModuleReadyTimeout b n s
  | .modulePoll b n answer => Sys2Proof.Machine.execModulePoll b n answer s
  | .moduleRetry b n a => Sys2Proof.Machine.execModuleRetry b n a s
  | .heavyPairWindowClose => Sys2Proof.Machine.execHeavyPairWindowClose s
  | .circHpWindowWrite who v => Sys2Proof.Machine.execCircHpWindowWrite who v s
  | .circArm who b => Sys2Proof.Machine.execCircArm who b s
  | .circDisarm who b => Sys2Proof.Machine.execCircDisarm who b s
  | .circArmTimeout b => Sys2Proof.Machine.execCircArmTimeout b s
  | .circPresetPin who b slot => Sys2Proof.Machine.execCircPresetPin who b slot s
  | .circPresetUnpin who b slot => Sys2Proof.Machine.execCircPresetUnpin who b slot s
  | .circPresetDelete who b slot => Sys2Proof.Machine.execCircPresetDelete who b slot s
  | .beatStart => Sys2Proof.Machine.execBeatStart s
  | .beatCommit units events ue bad => Sys2Proof.Machine.execBeatCommit units events ue bad s
  | .writeOutComplete half ue => Sys2Proof.Machine.execWriteOutComplete half ue s
  | .sentinelDue => Sys2Proof.Machine.execSentinelDue s
  | .droveTileFence who t => Sys2Proof.Machine.execDroveTileFence who t s
  | .droveTileUnfence who t => Sys2Proof.Machine.execDroveTileUnfence who t s
  | .droveTileSwitch who t => Sys2Proof.Machine.execDroveTileSwitch who t s
  | .droveTileSentinel who t => Sys2Proof.Machine.execDroveTileSentinel who t s
  | .droveTempBinsWrite who v => Sys2Proof.Machine.execDroveTempBinsWrite who v s
  | .droveSqDoorbell who dma r tail => Sys2Proof.Machine.execDroveSqDoorbell who dma r tail s
  | .descriptorFetch dma r => Sys2Proof.Machine.execDescriptorFetch dma r s
  | .droveAdmit from_ => Sys2Proof.Machine.execDroveAdmit from_ s
  | .operationComplete c => Sys2Proof.Machine.execOperationComplete c s
  | .remoteRequestReceive paddock bytes => Sys2Proof.Machine.execRemoteRequestReceive paddock bytes s
  | .remoteResponseReceive paddock bytes => Sys2Proof.Machine.execRemoteResponseReceive paddock bytes s
  | .remoteTimeout n => Sys2Proof.Machine.execRemoteTimeout n s
  | .droveSuspResume who c => Sys2Proof.Machine.execDroveSuspResume who c s
  | .droveSuspAbort who c => Sys2Proof.Machine.execDroveSuspAbort who c s
  | .droveRingConfigWrite who dma r n v => Sys2Proof.Machine.execDroveRingConfigWrite who dma r n v s
  | .hostAccessFault dma r use f => Sys2Proof.Machine.execHostAccessFault dma r use f s
  | .collCommCreate who r => Sys2Proof.Machine.execCollCommCreate who r s
  | .collCommDelete who id => Sys2Proof.Machine.execCollCommDelete who id s
  | .collPostReceive bytes => Sys2Proof.Machine.execCollPostReceive bytes s
  | .collPostFwdReceive bytes => Sys2Proof.Machine.execCollPostFwdReceive bytes s
  | .collNoteReceive bytes => Sys2Proof.Machine.execCollNoteReceive bytes s
  | .collStartReceive bytes => Sys2Proof.Machine.execCollStartReceive bytes s
  | .collInReceive bytes => Sys2Proof.Machine.execCollInReceive bytes s
  | .collStepReceive bytes => Sys2Proof.Machine.execCollStepReceive bytes s
  | .collResultReceive bytes => Sys2Proof.Machine.execCollResultReceive bytes s
  | .collDoneSend slot => Sys2Proof.Machine.execCollDoneSend slot s
  | .collAbortReceive bytes => Sys2Proof.Machine.execCollAbortReceive bytes s
  | .collTimeout slot => Sys2Proof.Machine.execCollTimeout slot s
  | .commonRequestReceive paddock bytes => Sys2Proof.Machine.execCommonRequestReceive paddock bytes s
  | .commonWalkComplete unit => Sys2Proof.Machine.execCommonWalkComplete unit s
  | .commonHbmAccessComplete unit nth ue => Sys2Proof.Machine.execCommonHbmAccessComplete unit nth ue s
  | .commonHoldExpire w => Sys2Proof.Machine.execCommonHoldExpire w s
  | .mirrorAckReceive bytes => Sys2Proof.Machine.execMirrorAckReceive bytes s
  | .mirrorTimeout id => Sys2Proof.Machine.execMirrorTimeout id s
  | .commonInval who data => Sys2Proof.Machine.execCommonInval who data s
  | .commonInvalComplete => Sys2Proof.Machine.execCommonInvalComplete s
  | .commonResync who pasture => Sys2Proof.Machine.execCommonResync who pasture s
  | .commonResponseReceive paddock bytes => Sys2Proof.Machine.execCommonResponseReceive paddock bytes s
  | .commonRequestTimeout paddock slot => Sys2Proof.Machine.execCommonRequestTimeout paddock slot s
  | .commonFaultPop => Sys2Proof.Machine.execCommonFaultPop s
  | .lostWalk => Sys2Proof.Machine.execLostWalk s
  | .lostWalkDone => Sys2Proof.Machine.execLostWalkDone s
  | .dmaDescriptorStart r => Sys2Proof.Machine.execDmaDescriptorStart r s
  | .dmaTransferComplete r => Sys2Proof.Machine.execDmaTransferComplete r s
  | .dmaRingRestart who r => Sys2Proof.Machine.execDmaRingRestart who r s
  | .dmaRingDisable who r => Sys2Proof.Machine.execDmaRingDisable who r s
  | .bellTick => Sys2Proof.Machine.execBellTick s
  | .bellOverrun c late => Sys2Proof.Machine.execBellOverrun c late s
  | .bellSwitch who v => Sys2Proof.Machine.execBellSwitch who v s
  | .periodSwitch => Sys2Proof.Machine.execPeriodSwitch s
  | .bellBaseWrite who v => Sys2Proof.Machine.execBellBaseWrite who v s
  | .bwthSet who v => Sys2Proof.Machine.execBwthSet who v s
  | .bwthSelWrite who v => Sys2Proof.Machine.execBwthSelWrite who v s
  | .ptpEventReceive port bytes => Sys2Proof.Machine.execPtpEventReceive port bytes s
  | .ptpSyncSend port x => Sys2Proof.Machine.execPtpSyncSend port x s
  | .timeSyncReceive b bytes => Sys2Proof.Machine.execTimeSyncReceive b bytes s
  | .ppsInEdge => Sys2Proof.Machine.execPpsInEdge s
  | .ppsInMissing => Sys2Proof.Machine.execPpsInMissing s
  | .domainSampleLoss x => Sys2Proof.Machine.execDomainSampleLoss x s
  | .ppsOutRise => Sys2Proof.Machine.execPpsOutRise s
  | .ppsOutFall => Sys2Proof.Machine.execPpsOutFall s
  | .bwthTimeRead => Sys2Proof.Machine.execBwthTimeRead s
  | .stileFifoOverrun cls => Sys2Proof.Machine.execStileFifoOverrun cls s
  | .heartbeatReceive b bytes => Sys2Proof.Machine.execHeartbeatReceive b bytes s
  | .suspect f => Sys2Proof.Machine.execSuspect f s
  | .suspectRepeat f => Sys2Proof.Machine.execSuspectRepeat f s
  | .floodFrameReceive b bytes => Sys2Proof.Machine.execFloodFrameReceive b bytes s
  | .voteExpire => Sys2Proof.Machine.execVoteExpire s
  | .floodRepeat => Sys2Proof.Machine.execFloodRepeat s
  | .absenceExpire f => Sys2Proof.Machine.execAbsenceExpire f s
  | .logSegmentFree => Sys2Proof.Machine.execLogSegmentFree s
  | .musterDeclareFailed who f => Sys2Proof.Machine.execMusterDeclareFailed who f s
  | .musterResume who f => Sys2Proof.Machine.execMusterResume who f s
  | .musterDeclareUnrecoverable who f => Sys2Proof.Machine.execMusterDeclareUnrecoverable who f s
  | .musterAnnounceAbsence who ticks => Sys2Proof.Machine.execMusterAnnounceAbsence who ticks s
  | .logEntryReceive bytes => Sys2Proof.Machine.execLogEntryReceive bytes s
  | .logEndReceive bytes => Sys2Proof.Machine.execLogEndReceive bytes s
  | .replayRestart f => Sys2Proof.Machine.execReplayRestart f s
  | .replayTimeout => Sys2Proof.Machine.execReplayTimeout s
  | .fenceBlock who b => Sys2Proof.Machine.execFenceBlock who b s
  | .fenceStack who st => Sys2Proof.Machine.execFenceStack who st s
  | .fencePaddock who p => Sys2Proof.Machine.execFencePaddock who p s
  | .fenceDevice who => Sys2Proof.Machine.execFenceDevice who s
  | .unfenceBlock who b => Sys2Proof.Machine.execUnfenceBlock who b s
  | .oxpinOpenReq field m => Sys2Proof.Machine.execOxpinOpenReq field m s
  | .oxpinOpenProof field m => Sys2Proof.Machine.execOxpinOpenProof field m s
  | .oxpinOpenExpire => Sys2Proof.Machine.execOxpinOpenExpire s
  | .oxpinSlotUnlock k => Sys2Proof.Machine.execOxpinSlotUnlock k s
  | .oxpinRequest field m => Sys2Proof.Machine.execOxpinRequest field m s
  | .oxpinSpdm field m => Sys2Proof.Machine.execOxpinSpdm field m s
  | .oxpinCloseMessage m => Sys2Proof.Machine.execOxpinCloseMessage m s
  | .oxpinIdleTimeout n => Sys2Proof.Machine.execOxpinIdleTimeout n s
  | .oxpinClose who n => Sys2Proof.Machine.execOxpinClose who n s
  | .oxpinKeyWrite who k v => Sys2Proof.Machine.execOxpinKeyWrite who k v s
  | .criotteWdtKick who => Sys2Proof.Machine.execCriotteWdtKick who s
  | .criotteWdtExpire => Sys2Proof.Machine.execCriotteWdtExpire s
  | .criotteHalt who => Sys2Proof.Machine.execCriotteHalt who s
  | .criotteRestart who => Sys2Proof.Machine.execCriotteRestart who s
  | .fwPush who len => Sys2Proof.Machine.execFwPush who len s
  | .fwVerifyDone => Sys2Proof.Machine.execFwVerifyDone s
  | .fwReady who => Sys2Proof.Machine.execFwReady who s
  | .bootReqSend => Sys2Proof.Machine.execBootReqSend s
  | .bootData bytes => Sys2Proof.Machine.execBootData bytes s
  | .bootEnd bytes => Sys2Proof.Machine.execBootEnd bytes s
  | .bootDataSilence => Sys2Proof.Machine.execBootDataSilence s
  | .featAcceptWrite who v => Sys2Proof.Machine.execFeatAcceptWrite who v s
  | .featApply who p n v => Sys2Proof.Machine.execFeatApply who p n v s
  | .featApplyTake p => Sys2Proof.Machine.execFeatApplyTake p s
  | .featuresFlood => Sys2Proof.Machine.execFeaturesFlood s
  | .mailboxGo f => Sys2Proof.Machine.execMailboxGo f s
  | .mailboxDone f => Sys2Proof.Machine.execMailboxDone f s
  | .doeObjectReceive m => Sys2Proof.Machine.execDoeObjectReceive m s
  | .doeAbort => Sys2Proof.Machine.execDoeAbort s
  | .eventRaise kind f unit arg => Sys2Proof.Machine.execEventRaise kind f unit arg s
  | .evqHeadWrite f v => Sys2Proof.Machine.execEvqHeadWrite f v s
  | .msixUnmask f v => Sys2Proof.Machine.execMsixUnmask f v s
  | .ringOwnerWrite k v => Sys2Proof.Machine.execRingOwnerWrite k v s
  | .bar2Access off n data bad => Sys2Proof.Machine.execBar2Access off n data bad s
  | .bar2BaseWrite v => Sys2Proof.Machine.execBar2BaseWrite v s
  | .functionLevelReset f => Sys2Proof.Machine.execFunctionLevelReset f s
  | .pcieHotReset => Sys2Proof.Machine.execPcieHotReset s
  | .perstAssert => Sys2Proof.Machine.execPerstAssert s
  | .perstRelease rate width => Sys2Proof.Machine.execPerstRelease rate width s
  | .tallyCfgWrite who n v => Sys2Proof.Machine.execTallyCfgWrite who n v s
  | .tallyClear who v => Sys2Proof.Machine.execTallyClear who v s
  | .tallyLowRead n => Sys2Proof.Machine.execTallyLowRead n s
  | .tallySnapAt who bell => Sys2Proof.Machine.execTallySnapAt who bell s
  | .tallySnapNow who => Sys2Proof.Machine.execTallySnapNow who s
  | .tallySnapshot => Sys2Proof.Machine.execTallySnapshot s
  | .tallyRingEntryWritten fault => Sys2Proof.Machine.execTallyRingEntryWritten fault s
  | .tallyHistClear who t => Sys2Proof.Machine.execTallyHistClear who t s
  | .fleeceCapturePoint point port queue pasture frame why => Sys2Proof.Machine.execFleeceCapturePoint point port queue pasture frame why s
  | .fleeceCapture who v => Sys2Proof.Machine.execFleeceCapture who v s
  | .fleeceSampleWrite who p v => Sys2Proof.Machine.execFleeceSampleWrite who p v s
  | .fleeceRecordWritten die fault => Sys2Proof.Machine.execFleeceRecordWritten die fault s
  | .powerOnReset samples rate width => Sys2Proof.Machine.execPowerOnReset samples rate width s
  | .coldResetPin => Sys2Proof.Machine.execColdResetPin s
  | .warmResetPin => Sys2Proof.Machine.execWarmResetPin s
  | .resetRelease src samples rate width => Sys2Proof.Machine.execResetRelease src samples rate width s
  | .rstCmdWarm who announce ticks => Sys2Proof.Machine.execRstCmdWarm who announce ticks s
  | .rstCmdCold who announce ticks => Sys2Proof.Machine.execRstCmdCold who announce ticks s
  | .rstCmdBlock who kind unit => Sys2Proof.Machine.execRstCmdBlock who kind unit s
  | .blockReset kind unit => Sys2Proof.Machine.execBlockReset kind unit s
  | .refclkCoreLoss => Sys2Proof.Machine.execRefclkCoreLoss s
  | .auxClkLoss => Sys2Proof.Machine.execAuxClkLoss s
  | .pwrCmd who target => Sys2Proof.Machine.execPwrCmd who target s
  | .powerStepDone late => Sys2Proof.Machine.execPowerStepDone late s
  | .pwrGate who kind unit => Sys2Proof.Machine.execPwrGate who kind unit s
  | .pwrUngate who kind unit => Sys2Proof.Machine.execPwrUngate who kind unit s
  | .stackGateComplete st => Sys2Proof.Machine.execStackGateComplete st s
  | .thermalSample temps rails watts => Sys2Proof.Machine.execThermalSample temps rails watts s
  | .deviceThermalTrip => Sys2Proof.Machine.execDeviceThermalTrip s
  | .hbmHot st t => Sys2Proof.Machine.execHbmHot st t s
  | .railOutOfRange rail => Sys2Proof.Machine.execRailOutOfRange rail s
  | .sequenceBreak rail => Sys2Proof.Machine.execSequenceBreak rail s
  | .refclkSdLoss p => Sys2Proof.Machine.execRefclkSdLoss p s
  | .refclkSdReturn p => Sys2Proof.Machine.execRefclkSdReturn p s
  | .refclkPcieLoss => Sys2Proof.Machine.execRefclkPcieLoss s
  | .refclkDrift => Sys2Proof.Machine.execRefclkDrift s
  | .codewordLockLoss b lane => Sys2Proof.Machine.execCodewordLockLoss b lane s
  | .tokenBucketRefill => Sys2Proof.Machine.execTokenBucketRefill s
  | .bellSlotOpen => Sys2Proof.Machine.execBellSlotOpen s
  | .ptpDelayReqSend port x => Sys2Proof.Machine.execPtpDelayReqSend port x s
  | .ptpGeneralMessageReceive port bytes => Sys2Proof.Machine.execPtpGeneralMessageReceive port bytes s
  | .mgmtArpNdEcho l => Sys2Proof.Machine.execMgmtArpNdEcho l s
  | .moduleDataPathActivated b n state => Sys2Proof.Machine.execModuleDataPathActivated b n state s
  | .hbmSensorBelow92 st t => Sys2Proof.Machine.execHbmSensorBelow92 st t s
  | .musterLogEntryAccepted d => Sys2Proof.Machine.execMusterLogEntryAccepted d s

end Sys2Proof.Machine
end

