-- ==== Sys2Proof/Safety.lean ====
section
/-!
DEFINITION. What a safe run is: no step ends in a fault or a refusal, every table and memory keeps its one canonical form, the queue is
served in its order, time does not run back, and what has been sent stays sent. With it, the words that the statements use: when a unit
acts, when an access to the dictionary is served, and what a command leaves alone.
-/

namespace Sys2Proof.Machine

/-- Every memory, the objects, the byte strings and the registers are in canonical form, so that equal contents are equal data. -/
def State.tablesOk (s : State) : Bool :=
  TMap.wf okeyDefault s.objs && TMap.wf (fun _ => []) s.blobs && TMap.wf (fun _ => 0) s.regs && Memory.wf s.hbm && Memory.wf s.host

/-- What every command keeps between the state it finds and the state it leaves. -/
structure Keeps (s t : State) : Prop where
  tables  : s.tablesOk = true → t.tablesOk = true
  pending : t.pending = s.pending
  now     : s.now ≤ t.now
  free    : s.free ≤ t.free
  out     : s.out <:+ t.out

/-- The answer of a step is safe: a next state. -/
def isNext (a : Host.Outcome State Fault Refusal) : Bool :=
  match a with
  | .next _ => true
  | .fault _ => false
  | .refused _ => false

/-- The units of the dies act: no reset is asserted, and the device is not in DS4 (R575, R591). -/
abbrev State.Up (s : State) : Prop := s.serverInReset = false

/-- The units that stay powered in DS4 act: no reset is asserted. -/
abbrev State.Awake (s : State) : Prop := s.power.width = 0

/-- A write or command on object `oid` by path `who` is served: the Crook runs, the path reaches the object and has its role, and the
object server is up or the Crook answers for the object itself (R18, R23, R493, R495). The tables are in canonical form, as every
step keeps them. -/
def State.serves (s : State) (who : Path) (oid : Nat) : Bool :=
  s.tablesOk && match objDef oid with
  | none => false
  | some d => s.crookUp && (decide (who ≠ .window) || d.ty.inSlot) && (!s.serverInReset || crookSet oid) &&
      decide (d.acc ≠ .ro ∧ d.wr.num ≤ s.roleOf who)

/-- A served access is counted, a write through the BAR0 window aside (R514). -/
def State.taken (s : State) (who : Path) : State := if who = .window then s else s.count O.CTL_STAT 0 1

/-- A write or command on object `oid` by path `who` is served and counted, which leaves `t`. -/
abbrev State.Takes (s : State) (who : Path) (oid : Nat) (t : State) : Prop := s.serves who oid = true ∧ t = s.taken who

/-- A served access is answered with `status`, a write through the BAR0 window aside. -/
def State.answered (s : State) (who : Path) (oid status : Nat) : State := (s.served oid).reply who status 0 []

/-- Copy `id`, which is `c`, heads VOQ `k` and is decided in `u` (R82): it waits, it heads every VOQ that it stands in, no fenced ridge link
cuts it off, no port's horizon lies before its launch, and the log has room for its entry. -/
structure State.Decides (s : State) (k id : Nat) (c : Copy) (u : State) : Prop where
  head    : ∃ rest, s.voq k = id :: rest
  copy    : s.copy id = c
  waiting : c.stage = .waiting
  heads   : (s.jointIds id).all s.heads = true
  open_   : s.cutOff c = false
  near    : ∀ q ∈ c.members, s.beyondHorizon c.frame (q / 12) = false
  after   : u = s.refuse id c []
  same    : u.copy id = c
  members : c.members ≠ []
  log     : u.logBlocked c = false

/-- Frames of the wire reach the pipeline of flock port `port`: it exists, its block is not fenced and loops nothing back (R8, R141, R215). -/
structure State.FlockOpen (s : State) (port : Nat) : Prop where
  up     : s.Up
  exists_ : s.portExists port = true
  fence  : s.blockFenced (port / 8) = false
  link   : s.isLink (port / 8) = false
  loop   : s.bob (port / 8) O.PORT_LOOPBACK = 0

/-- A whole Oxpin message `m` of type `type` reaches the Crook, from the field network where that is open (R500, R501). -/
structure State.OxReceives (s : State) (field : Bool) (type : Nat) (m : List Byte) : Prop where
  up    : s.crookUp = true
  net   : field = true → s.fieldOn = true
  whole : oxWhole m = true
  type_ : oxType m = type

/-- The MAC that session `x` gives message `m` (R506). -/
def Session.macOf (x : Session) (m : List Byte) : List Byte :=
  (beBytes 48 (Config.hmac384 x.kMac (m.take 24 ++ oxPayload m)).toNat).take 16

/-- Message `m` belongs to session `x` of row `i` and says `l` in clear: its MAC holds, and it is encrypted where the session asks for
it (R506). -/
structure State.OxVerifies (s : State) (m : List Byte) (i : Nat) (x : Session) (l : List Byte) : Prop where
  row   : s.sessionRow (oxSession m) = some (i, x)
  mac   : m.drop (24 + oxLen m) = x.macOf m
  enc   : x.enc = true → (oxFlags m).testBit 0 = true
  plain : (if (oxFlags m).testBit 0 then Config.gcmOpen x.kEnc (gcmNonce 0 (oxSeq m)) (m.take 24) (oxPayload m) else some (oxPayload m)) = some l

/-- Session `x` after a message that it took. -/
def State.oxMoved (s : State) (x : Session) (m : List Byte) : Session := { x with lastNs := s.now, rxHigh := max x.rxHigh (oxSeq m) }

/-- Every byte of HBM and of host memory reads as before. -/
def SameMem (s t : State) : Prop := (∀ a, t.hbmRead a 1 = s.hbmRead a 1) ∧ (∀ a, t.hostRead a 1 = s.hostRead a 1)

/-- The engines, the Drove, the collective units and the Common, are as before. -/
structure SameEngines (s t : State) : Prop where
  drove  : t.drove = s.drove
  coll   : t.coll = s.coll
  common : t.common = s.common

/-- The other units, the Fold, Pasture forwarding, ports and links, circuits, the Muster and power, are as before. -/
structure SameUnits (s t : State) : Prop where
  fold   : t.fold = s.fold
  fwd    : t.fwd = s.fwd
  blocks : t.blocks = s.blocks
  circ   : t.circ = s.circ
  muster : t.muster = s.muster
  power  : t.power = s.power

/-- The path and the object of a command that is a write of one object of the dictionary: commands of the table that name their object,
the four requests of the mailbox aside, which carry theirs. -/
def accessOf : Instr → Option (Path × Nat)
  | .placementWrite who e _ => some (who, O.FAB_DIM_X - 1 + e.val)
  | .portRoleWrite who b _ => some (who, blockOid O.PORT_ROLE b.val)
  | .portPoolMibWrite who b _ => some (who, blockOid O.PORT_POOL_MIB b.val)
  | .portMaxFrameWrite who b _ => some (who, blockOid O.PORT_MAX_FRAME b.val)
  | .foldFarSizeWrite who _ => some (who, O.FOLD_FAR_SIZE_GIB)
  | .portSplitWrite who b rate _ => some (who, blockOid (if rate then O.PORT_LANE_RATE else O.PORT_SPLIT) b.val)
  | .queueConfigWrite who _ _ => some (who, O.EGR_QCFG)
  | .heftAgeShiftWrite who _ => some (who, O.HEFT_AGE_SHIFT)
  | .heftInsertStatic who _ _ => some (who, O.HEFT_OP)
  | .heftDelete who _ _ => some (who, O.HEFT_OP)
  | .heftFlushPasture who _ _ => some (who, O.HEFT_OP)
  | .heftFlushPort who _ _ _ => some (who, O.HEFT_OP)
  | .heftFlushAll who _ => some (who, O.HEFT_OP)
  | .heftStashRetry who _ => some (who, O.HEFT_OP)
  | .lpmAdd who _ _ _ _ _ => some (who, O.LPM_OP)
  | .lpmDelete who _ _ _ _ => some (who, O.LPM_OP)
  | .forwardingTableWrite who table _ _ => some (who, fwdTableOid table)
  | .routeFlip who _ _ => some (who, O.ROUTE_FLIP)
  | .routeFlipCancel who _ => some (who, O.ROUTE_FLIP_CANCEL)
  | .routeHoldWrite who _ _ => some (who, O.ROUTE_HOLD)
  | .routeSnap who _ _ => some (who, O.ROUTE_SNAP)
  | .portRetrainQuiesce who b => some (who, blockOid O.PORT_RETRAIN b.val)
  | .portRetrainNow who b => some (who, blockOid O.PORT_RETRAIN b.val)
  | .modulePathWrite who b i _ _ => some (who, blockOid O.PORT_MOD_PATH b.val + i.val)
  | .circHpWindowWrite who _ => some (who, O.CIRC_HP_WINDOW)
  | .circArm who _ => some (who, O.CIRC_ARM)
  | .circDisarm who _ => some (who, O.CIRC_ARM)
  | .circPresetPin who _ _ => some (who, O.CIRC_PRESET_OP)
  | .circPresetUnpin who _ _ => some (who, O.CIRC_PRESET_OP)
  | .circPresetDelete who _ _ => some (who, O.CIRC_PRESET_OP)
  | .droveTileFence who _ => some (who, O.DROVE_TILE_CMD)
  | .droveTileUnfence who _ => some (who, O.DROVE_TILE_CMD)
  | .droveTileSwitch who _ => some (who, O.DROVE_TILE_CMD)
  | .droveTileSentinel who _ => some (who, O.DROVE_TILE_CMD)
  | .droveTempBinsWrite who _ => some (who, O.DROVE_TEMP_BINS)
  | .droveSuspResume who _ => some (who, O.DROVE_SUSP_CMD)
  | .droveSuspAbort who _ => some (who, O.DROVE_SUSP_CMD)
  | .collCommCreate who _ => some (who, O.COLL_COMM_OP)
  | .collCommDelete who _ => some (who, O.COLL_COMM_OP)
  | .commonInval who _ => some (who, O.COMMON_INVAL)
  | .commonResync who _ => some (who, O.COMMON_RESYNC)
  | .dmaRingRestart who _ => some (who, O.DMA_RING_CMD)
  | .dmaRingDisable who _ => some (who, O.DMA_RING_CMD)
  | .bellSwitch who _ => some (who, O.BELL_SWITCH)
  | .bellBaseWrite who _ => some (who, O.BELL_BASE)
  | .bwthSet who _ => some (who, O.BWTH_SET)
  | .bwthSelWrite who _ => some (who, O.BWTH_SEL)
  | .musterDeclareFailed who _ => some (who, O.MUSTER_CMD)
  | .musterResume who _ => some (who, O.MUSTER_CMD)
  | .musterDeclareUnrecoverable who _ => some (who, O.MUSTER_CMD)
  | .musterAnnounceAbsence who _ => some (who, O.MUSTER_CMD)
  | .fenceBlock who _ => some (who, O.FENCE_CMD)
  | .fencePaddock who _ => some (who, O.FENCE_CMD)
  | .fenceDevice who => some (who, O.FENCE_CMD)
  | .unfenceBlock who _ => some (who, O.FENCE_CMD)
  | .oxpinClose who _ => some (who, O.OXPIN_CLOSE)
  | .oxpinKeyWrite who _ _ => some (who, O.OXPIN_KEY)
  | .criotteWdtKick who => some (who, O.CRIOTTE_WDT_KICK)
  | .criotteHalt who => some (who, O.CRIOTTE_CMD)
  | .criotteRestart who => some (who, O.CRIOTTE_CMD)
  | .fwPush who _ => some (who, O.FW_PUSH)
  | .fwReady who => some (who, O.FW_READY)
  | .featAcceptWrite who _ => some (who, O.FEAT_ACCEPT)
  | .featApply who _ _ _ => some (who, O.FEAT_APPLY)
  | .tallyCfgWrite who _ _ => some (who, O.TALLY_CFG)
  | .tallyClear who _ => some (who, O.TALLY_CLEAR)
  | .tallySnapAt who _ => some (who, O.TALLY_SNAP_AT)
  | .tallySnapNow who => some (who, O.TALLY_SNAP_NOW)
  | .tallyHistClear who _ => some (who, O.TALLY_HIST_CLEAR)
  | .fleeceCapture who _ => some (who, O.FLEECE_CAPTURE)
  | .fleeceSampleWrite who _ _ => some (who, O.FLEECE_SAMPLE)
  | .rstCmdWarm who _ _ => some (who, O.RST_CMD)
  | .rstCmdCold who _ _ => some (who, O.RST_CMD)
  | .rstCmdBlock who _ _ => some (who, O.RST_CMD)
  | .pwrCmd who _ => some (who, O.PWR_CMD)
  | .pwrGate who _ _ => some (who, O.PWR_GATE)
  | .pwrUngate who _ _ => some (who, O.PWR_GATE)
  | _ => none

/-- How much a command leaves alone, whatever the state: 1, HBM, host memory and the byte strings; 2, these and the engines (the Drove, the
collective units, the Common); 3, these and every other unit; 0, nothing is claimed here. -/
def frameOf : Instr → Nat
  | .portPoolMibWrite _ _ _ => 3
  | .portMaxFrameWrite _ _ _ => 3
  | .foldFarSizeWrite _ _ => 3
  | .groupFetch _ => 2
  | .queueConfigWrite _ _ _ => 2
  | .pfcFrameReceive _ _ _ => 2
  | .heftAgeShiftWrite _ _ => 2
  | .heftReqPop _ => 2
  | .lpmDelete _ _ _ _ _ => 2
  | .forwardingTableWrite _ _ _ _ => 3
  | .routeFlip _ _ _ => 2
  | .routeFlipApply _ => 2
  | .routeFlipCancel _ _ => 2
  | .routeSnap _ _ _ => 2
  | .routeSnapTake _ => 2
  | .routeFailoverClear _ _ => 3
  | .laneSignalDetect _ _ => 2
  | .laneTrainComplete _ _ _ _ => 2
  | .codewordLock _ _ _ => 2
  | .helloSend _ => 2
  | .flockLinkDown _ => 2
  | .flockLinkUp _ => 2
  | .circHpWindowWrite _ _ => 2
  | .circDisarm _ _ => 2
  | .circPresetPin _ _ _ => 3
  | .circPresetUnpin _ _ _ => 3
  | .circPresetDelete _ _ _ => 3
  | .droveTileFence _ _ => 1
  | .droveTileUnfence _ _ => 1
  | .droveTileSwitch _ _ => 1
  | .droveTileSentinel _ _ => 1
  | .droveTempBinsWrite _ _ => 3
  | .descriptorFetch _ _ => 1
  | .droveSuspResume _ _ => 1
  | .droveSuspAbort _ _ => 1
  | .collCommDelete _ _ => 1
  | .commonInval _ _ => 1
  | .commonFaultPop => 1
  | .dmaRingRestart _ _ => 1
  | .dmaRingDisable _ _ => 1
  | .bellSwitch _ _ => 3
  | .bwthSelWrite _ _ => 3
  | .bwthTimeRead => 3
  | .voteExpire => 2
  | .logSegmentFree => 2
  | .oxpinClose _ _ => 3
  | .oxpinKeyWrite _ _ _ => 3
  | .criotteWdtKick _ => 3
  | .fwReady _ => 3
  | .featAcceptWrite _ _ => 3
  | .featApply _ _ _ _ => 3
  | .featApplyTake _ => 3
  | .doeObjectReceive _ => 3
  | .doeAbort => 3
  | .evqHeadWrite _ _ => 3
  | .perstRelease _ _ => 3
  | .tallyCfgWrite _ _ _ => 3
  | .tallyClear _ _ => 3
  | .tallyLowRead _ => 3
  | .tallySnapAt _ _ => 3
  | .tallySnapNow _ => 3
  | .tallyHistClear _ _ => 3
  | .fleeceCapture _ _ => 3
  | .fleeceSampleWrite _ _ _ => 3
  | .pwrCmd _ _ => 2
  | .pwrGate _ _ _ => 1
  | .pwrUngate _ _ _ => 1
  | .refclkSdReturn _ => 2
  | .refclkPcieLoss => 3
  | .tokenBucketRefill => 2
  | .mgmtArpNdEcho _ => 3
  | .hbmSensorBelow92 _ _ => 2
  | .musterLogEntryAccepted _ => 2
  | _ => 0

end Sys2Proof.Machine
end

