-- ==== Sys2Proof/Certificates/Slice0/Obligations.lean ====
section
/-!
DEFINITION. The statements about the model: one definition each, named for what it states. Its docstring names the rules it comes from.
-/

open Sys2Proof Sys2Proof.Machine

/-! ### The queue, the step and the whole machine -/
/-- Every command: the block takes the command at the front of its queue and runs it with the queue's rest (the model's queue, no rule
of the spec). -/
def Obligations.StepTakesTheFrontCommand : Prop :=
  ∀ (c : Instr) (rest : List Instr) (s : State), s.pending = c :: rest → step s = exec c { s with pending := rest }

/-- With no command waiting, one cell time of 2 ns passes (log entry 1, the model's choice), and nothing stops. -/
def Obligations.EmptyQueuePassesOneCellTime : Prop :=
  ∀ s : State, s.pending = [] → ∃ t, step s = .next t ∧ t.now = s.now + 2 ∧ t.pending = [] ∧ t.blocks = s.blocks ∧ t.fold = s.fold ∧
    t.drove = s.drove ∧ t.coll = s.coll ∧ t.common = s.common ∧ t.muster = s.muster ∧ t.regs = s.regs ∧ t.power = s.power

/-- No command of the table ends in a fault or a refusal, in any state; and every command leaves the queue alone, keeps every table and
memory canonical, never takes time or what was sent back. -/
def Obligations.EveryCommandEndsSafely : Prop :=
  ∀ (c : Instr) (s : State), ∃ t, exec c s = .next t ∧ Keeps s t

/-- The invariant that every step keeps: objects, byte strings, registers, HBM and host memory are in canonical form. -/
def Obligations.StepKeepsCanonicalTables : Prop :=
  ∀ s t : State, s.tablesOk = true → step s = .next t → t.tablesOk = true

/-- Commands leave the queue first in, first out, whatever they do. -/
def Obligations.QueueIsServedInOrder : Prop :=
  ∀ s t : State, step s = .next t → t.pending = s.pending.tail ∧ s.now ≤ t.now ∧ s.out <:+ t.out

/-- The invariant holds right after reset. -/
def Obligations.ResetTablesAreCanonical : Prop :=
 State.reset.tablesOk = true

/-- Resets (R20, R541, R542, R579, R581): after power-on reset every object reads its default, every register that mirrors no object 0, and every counter of the Tally 0
(that HBM and host memory read 0 is the model's choice, log entry 3); a function-level reset aborts the rings of its function and returns it to reset; a hot
reset and PERST_N return what R542 names, and PERST_N released trains the link; a block reset reaches its one unit, by command or by register, and an idle
translation unit then has no lookaside entry. -/
def Obligations.ResetReadsDefaults : Prop :=
  ((∀ oid row, State.reset.row oid row = okeyDefault (okey oid row)) ∧ (∀ oid, State.reset.blob oid = []) ∧
  (∀ off, State.reset.reg off = 0) ∧ (∀ n, State.reset.ctr n = 0) ∧ (∀ a n, State.reset.hbmRead a n = List.replicate n 0) ∧
  (∀ a n, State.reset.hostRead a n = List.replicate n 0) ∧ State.reset.pending = []) ∧
  (∀ (f : Fin 33) (r : State × Nat) (s : State), s.Awake → s.fnUp f.val = true →
    r = ((List.range 48).flatMap (fun r => [(false, r), (true, r)])).foldl (fun x y => if x.1.ringOwner y.1 y.2 = f.val then
      ((x.1.ringAbort y.1 y.2).1, x.2 + (x.1.ringAbort y.1 y.2).2) else x) (s, 0) →
    exec (.functionLevelReset f) s = .next (if r.2 = 0 then r.1.setFn f.val {} else ((r.1.setFn f.val {}).count O.PCIE_STAT 8 r.2).raise O.PCIE_ERR 7)) ∧
  (∀ (s : State), s.pcie.perst = true → exec .pcieHotReset s = .next s ∧ exec .perstAssert s = .next s) ∧
  (∀ (s : State), s.pcie.perst = false → s.pcieOn = true → ∃ t, exec .pcieHotReset s = .next t ∧ t.pcie.numVfs = 0 ∧ t.pcie.vfEnable = false ∧
    t.pcie.bar2Log = 36 ∧ ∀ o, 0x1E0000 ≤ o → o < 0x1E0600 → t.reg o = 0) ∧
  (∀ (s : State), s.pcie.perst = false → s.pcieOn = true → ∃ t, exec .perstAssert s = .next t ∧ t.pcie.perst = true ∧ t.pcie.rate = 0 ∧
    t.pcie.width = 0) ∧
  (∀ (rate : Fin 7) (width : Fin 5) (s : State), s.pcie.perst = true → s.pcieOn = true → s.Awake → s.strap ≠ 8 → s.strap ≠ 9 →
    exec (.perstRelease rate width) s = .next { s with pcie := { s.pcie with
      perst := false, rate := rate.val, width := if rate.val = 0 then 0 else 2 ^ width.val, flit := decide (rate.val = 6) } }) ∧
  (∀ (who : Path) (k : BitVec 8) (n : BitVec 32) (s t : State), s.Takes who O.RST_CMD t → t.power.width = 0 →
    exec (.rstCmdBlock who k n) s = .next (if n.toNat < resetUnits k.toNat then
      ((t.blockReset k.toNat n.toNat).setOb O.RST_CMD_STATUS 0).answered who O.RST_CMD 0
      else (t.setOb O.RST_CMD_STATUS 0x0A).answered who O.RST_CMD 0x0A)) ∧
  (∀ (kind : Fin 6) (u : Fin 144) (s t : State), s.Up → u.val < resetUnits kind.val → s.unitInReset (256 * kind.val + u.val) = false →
    t = { s.count O.RST_COUNT 6 1 with power := { s.power with
      inReset := TMap.put 0 s.power.inReset (256 * kind.val + u.val) (s.now + 32) } } →
    exec (.blockReset kind u) s = .next (if kind.val = 1 then t.resetPort u.val else if kind.val = 2 then t.resetTile u.val
      else if kind.val = 3 then t.resetTu u.val else if kind.val = 4 then t.resetDma u.val else t.resetStack u.val)) ∧
  (∀ (p : Nat) (s : State), s.common.reqs = [] → s.common.walks = [] → s.resetTu p = ({ s with common := { s.common with
    tlb2 := TMap.put [] s.common.tlb2 p [], tlb1 := TMap.put [] s.common.tlb1 p [], walks := [] } }.setReg (0x1A0010 + 8 * p) 0))

/-! ### Registers and the object window (R22 to R26, R529) -/

/-- REGISTER_WRITE: writing ones clears bits of FOLD_ERR and DROVE_ERR; a half written reaches its half alone; the configuration registers (NumVFs,
VF Enable, whose clearing resets the VFs, and the size of BAR2), a VF's pasture, its event queue and its mailbox take what is
written; FLEECE_SAMPLE (R565) takes its fields; a register with no writable field is left as it is. -/
def Obligations.RegisterWriteEffects : Prop :=
  (∀ (half : Option Bool) (v : BitVec 64) (s : State), s.fnUp 0 = true → s.answers 0x100068 = true →
    exec (.registerWrite (.bar0 0x100068) half v) s = .next (s.setOb O.FOLD_ERR (oneClears (s.ob O.FOLD_ERR) (halfInto half 0 v.toNat)))) ∧
  (∀ (half : Option Bool) (v : BitVec 64) (s : State), s.answers 0x180008 = true →
    exec (.registerWrite (.core 0x180008) half v) s = .next (s.setOb O.DROVE_ERR (oneClears (s.ob O.DROVE_ERR) (halfInto half 0 v.toNat)))) ∧
  (∀ (off : BitVec 28) (half : Option Bool) (v : BitVec 64) (s : State), s.fnUp 0 = true → directReg off.toNat = true →
    s.answers (off.toNat / 8 * 8) = true → off.toNat < 0x180000 → off.toNat / 8 * 8 ≠ 0x100068 →
    exec (.registerWrite (.bar0 off) half v) s = .next s) ∧
  (∀ (f : Fin 33) (v : BitVec 64) (s : State), s.Awake → s.fnUp f.val = true → (s.fn f.val).evqCfg.testBit 5 = false →
    exec (.registerWrite (.bar4 f 0x10000) none v) s = .next (s.setFn f.val { s.fn f.val with evqBase := v.toNat / 64 * 64 })) ∧
  (∀ (v : BitVec 64) (s : State), s.Awake → s.fnUp 0 = true → s.pcie.vfEnable = false →
    exec (.registerWrite .numVfs none v) s = .next { s with pcie := { s.pcie with numVfs := min 32 v.toNat } }) ∧
  (∀ (v : BitVec 64) (s : State), s.Awake → s.fnUp 0 = true → 30 ≤ v.toNat → v.toNat ≤ 36 →
    exec (.registerWrite .bar2Size none v) s = .next { s with pcie := { s.pcie with bar2Log := v.toNat } }) ∧
  (∀ (v : BitVec 64) (s t : State), s.Awake → s.fnUp 0 = true →
    t = (if s.pcie.vfEnable = true ∧ v.toNat.testBit 0 = false then (List.range s.pcie.numVfs).foldl (fun s v => s.flr (v + 1)) s else s) →
    exec (.registerWrite .vfEnable none v) s = .next { t with pcie := { t.pcie with vfEnable := v.toNat.testBit 0 } }) ∧
  (∀ (f : Fin 33) (off : BitVec 20) (v : BitVec 64) (s : State), s.Awake → s.fnUp f.val = true → off.toNat % 8 = 0 → 0x11000 ≤ off.toNat →
    off.toNat < 0x11000 + 16400 →
    exec (.registerWrite (.bar4 f off) none v) s = .next (s.setFn f.val { s.fn f.val with
      mbxReq := patch (padTo 16400 (s.fn f.val).mbxReq) (off.toNat - 0x11000) (leBytes 8 v.toNat) })) ∧
  (∀ (i : Fin 32) (v : BitVec 64) (s : State), s.fnUp 0 = true → s.answers (0x1E0100 + 8 * i.val) = true →
    exec (.registerWrite (.bar0 (BitVec.ofNat 28 (0x1E0100 + 8 * i.val))) none v) s = .next (s.setReg (0x1E0100 + 8 * i.val) (v.toNat % 4096))) ∧
  (∀ (who : Path) (p : Fin 1024) (v : BitVec 64) (m : TMap Nat) (s t : State), s.Takes who O.FLEECE_SAMPLE t →
    m = TMap.put 0 (TMap.put 0 t.obsv.sample (2 * p.val) 0) (2 * p.val + 1) 0 →
    exec (.fleeceSampleWrite who p v) s =
      .next (({ t with obsv := { t.obsv with sample := m } }.setRow O.FLEECE_SAMPLE p.val (v.toNat % 2 ^ 33)).answered who O.FLEECE_SAMPLE 0))

/-- READ_CLEAR_REGISTER_READ: the access returns the half that it names of the register's value, and what it read of a field that a
read clears reads zero after it; every other register that mirrors no object reads as before; in BAR4 it is the count of lost records of
the tail alone that a read clears; the configuration registers return what was written to them. A HEFT response leaves the queue (R157), and a pair keeps its other
half (R453). -/
def Obligations.RegisterReadReturnsAndClears : Prop :=
  (∀ (off : BitVec 28) (half : Option Bool) (s : State), s.fnUp 0 = true → directReg off.toNat = true → s.answers (off.toNat / 8 * 8) = true →
    ∃ t, exec (.readClearRegisterRead (.bar0 off) half) s = .next t ∧
      t.out = .value (halfOf half (s.regValue (off.toNat / 8 * 8))) :: s.out ∧ t.objs = s.objs ∧ t.hbm = s.hbm ∧ t.host = s.host) ∧
  (∀ (off : BitVec 28) (half : Option Bool) (s : State), s.fnUp 0 = true → s.tablesOk = true → directReg off.toNat = true →
    s.answers (off.toNat / 8 * 8) = true → rcMask (off.toNat / 8 * 8) ≠ 0 →
    ∃ t, exec (.readClearRegisterRead (.bar0 off) half) s = .next t ∧
      t.reg (off.toNat / 8 * 8) &&& (rcMask (off.toNat / 8 * 8) &&& halfMask half) = 0 ∧
      ∀ o, o ≠ off.toNat / 8 * 8 → t.reg o = s.reg o) ∧
  (∀ (f : Fin 33) (off : BitVec 20) (half : Option Bool) (s : State), s.Awake → s.fnUp f.val = true →
    exec (.readClearRegisterRead (.bar4 f off) half) s =
      .next ((if off.toNat / 8 * 8 = 0x10018 ∧ half ≠ some false then s.setFn f.val { s.fn f.val with lost := 0 } else s).emit
        (.value (halfOf half (s.bar4Value f.val (off.toNat / 8 * 8)))))) ∧
  (∀ (s : State), s.Awake → s.fnUp 0 = true →
    exec (.readClearRegisterRead .numVfs none) s = .next (s.emit (.value s.pcie.numVfs)) ∧
    exec (.readClearRegisterRead .vfEnable none) s = .next (s.emit (.value (b2n s.pcie.vfEnable))) ∧
    exec (.readClearRegisterRead .bar2Size none) s = .next (s.emit (.value s.pcie.bar2Log))) ∧
  (∀ (die : Fin 4) (s : State), s.Up → exec (.heftReqPop die) s =
    .next ((s.setHeft die.val { s.heft die.val with notices := (s.heft die.val).notices.drop 1 }).emit (.value (s.heftReq die.val).2))) ∧
  (∀ (n : Fin 8192) (s : State), s.Up → exec (.tallyLowRead n) s = .next ((if n.val % 2 = 0 ∧ s.chainHigh (n.val + 1) = true then
    s.setReg 0x200000 (s.ctr (n.val + 1) + (n.val + 1) <<< 49) else s).emit (.value (s.tallyRow n.val))))

/-! ### Placement, ports and pools (chapters 1, 3 and 5) -/

/-- The writes that shape the fabric and the ports (R18, R32, R33, R37, R186, R188, R256): a placement is judged anew and, when it stands, sends
the Fold links that are up, ctrl or (the model's choice, log entry 135) in quiesce to hold for a new hello; a change of role, split or
lane rate takes the block down, drops what it holds, and starts it anew from wait; a role or split written unchanged ends an arm alone; a
value that the rules do not list answers 0x0A and stores nothing. -/
def Obligations.PlacementAndPortWrites : Prop :=
  (∀ (who : Path) (e : Fin 8) (v : BitVec 32) (s t u w : State) (l : List Nat), e.val ≠ 0 → s.Takes who (O.FAB_DIM_X - 1 + e.val) t →
    placementOk e.val v.toNat = true → u = t.setOb (O.FAB_DIM_X - 1 + e.val) (if e.val = 4 then v.toNat % 8 else v.toNat) →
    l = (List.range 128).filter (fun b => (u.setOb O.FAB_PLACED (b2n u.isPlaced)).isLink b) →
    w = l.foldl (fun s b => s.modBlock b (fun x => { x with recheck := true })) (u.setOb O.FAB_PLACED (b2n u.isPlaced)) →
    exec (.placementWrite who e v) s = .next ((if w.placed = true then l.foldl (fun s b =>
        if s.portState (8 * b) = 5 ∨ s.portState (8 * b) = 6 ∨ s.portState (8 * b) = 9 then s.linkHold b else s) w else w).answered
      who (O.FAB_DIM_X - 1 + e.val) 0)) ∧
  (∀ (who : Path) (b : Fin 128) (v : BitVec 8) (n : Nat) (s t u : State), s.Takes who (blockOid O.PORT_ROLE b.val) t →
    n = v.toNat % 256 &&& 0x77 → t.roleOk b.val n = true →
    u = (((t.blockDown b.val).disarm b.val).setOb (blockOid O.PORT_ROLE b.val) n).pfcDefault b.val →
    exec (.portRoleWrite who b v) s = .next ((if n = t.bob b.val O.PORT_ROLE then t.disarm b.val
      else (if 2 ≤ bits n 0 3 then u.raiseReserves b.val else u.setReg (ringEntryOff b.val) 0).blockStart b.val).answered who
        (blockOid O.PORT_ROLE b.val) 0)) ∧
  (∀ (who : Path) (b : Fin 128) (rate : Bool) (v : BitVec 8) (k : Nat) (s t : State),
    k = blockOid (if rate then O.PORT_LANE_RATE else O.PORT_SPLIT) b.val → s.Takes who k t →
    splitOk (if rate then t.bob b.val O.PORT_SPLIT else v.toNat) (if rate then v.toNat else t.bob b.val O.PORT_LANE_RATE) = true →
    (t.isLink b.val = true → (if rate then t.bob b.val O.PORT_SPLIT else v.toNat) = 1) →
    exec (.portSplitWrite who b rate v) s =
      .next ((if v.toNat = t.ob k then (if rate then t else t.disarm b.val)
        else ((((t.blockDown b.val).disarm b.val).setOb k v.toNat).pfcDefault b.val).blockStart b.val).answered who k 0)) ∧
  (∀ (who : Path) (e : Fin 8) (v : BitVec 32) (s : State), e.val ≠ 0 → s.serves who (O.FAB_DIM_X - 1 + e.val) = true →
    placementOk e.val v.toNat = false →
    exec (.placementWrite who e v) s = .next ((s.taken who).answered who (O.FAB_DIM_X - 1 + e.val) 0x0A)) ∧
  (∀ (who : Path) (b : Fin 128) (v : BitVec 8) (s : State), s.serves who (blockOid O.PORT_ROLE b.val) = true → 5 ≤ v.toNat % 8 →
    exec (.portRoleWrite who b v) s = .next ((s.taken who).answered who (blockOid O.PORT_ROLE b.val) 0x0A)) ∧
  (∀ (who : Path) (b : Fin 128) (v : BitVec 8) (s : State), s.serves who (blockOid O.PORT_SPLIT b.val) = true →
    v.toNat ≠ 1 → v.toNat ≠ 2 → v.toNat ≠ 4 → v.toNat ≠ 8 →
    exec (.portSplitWrite who b false v) s = .next ((s.taken who).answered who (blockOid O.PORT_SPLIT b.val) 0x0A))

/-! ### Fold links (chapter 5) -/

/-- Bring-up of a Fold link (R194, R195, R198, R204, R249, R252): signal on the last lane starts train, for 50 ms, or from a preset; the last
lane trained starts the search for codeword lock; adaptation that lands within 3/2 dB of the preset's SNR trains all lanes at once, one
that does not is counted and trains anew; lock on the last lane starts the hello under a new link_epoch; a hello flit is sent and counted;
a peer's hello puts a link that is up in hold; a step that exceeds its time goes back to wait. -/
def Obligations.LinkBringUpSteps : Prop :=
  (∀ (b : Fin 128) (lane : Fin 8) (s : State), s.Up → s.isLink b.val = true → (s.block b.val).inner = 1 →
    setBit (s.block b.val).signal lane.val = 255 → s.blockFenced b.val = false → s.unclocked b.val = false →
    ∃ t, exec (.laneSignalDetect b lane) s = .next t ∧ (t.block b.val).inner = 2 ∧ (t.block b.val).signal = 255 ∧ t.fold = s.fold ∧
      ((t.block b.val).stepAt = some (s.now + 50000000) ∨ ((t.block b.val).stepAt = none ∧ (t.block b.val).presetAt = some (s.now + 20000)))) ∧
  (∀ (b : Fin 128) (lane : Fin 8) (snr : BitVec 16) (lanes : BitVec 224) (s : State), s.Up → (s.block b.val).inner = 2 →
    (s.block b.val).presetAt = none →
    ∃ t, exec (.laneTrainComplete b lane snr lanes) s = .next t ∧
      t.objs = (s.setRow (blockOid O.PORT_LANE_SNR b.val) lane.val snr.toNat).objs ∧
      (t.block b.val).trained = setBit (s.block b.val).trained lane.val ∧
      (t.block b.val).inner = (if setBit (s.block b.val).trained lane.val = 255 then 3 else 2) ∧ t.fold = s.fold ∧ t.hbm = s.hbm) ∧
  (∀ (b : Fin 128) (snr : BitVec 128) (lanes : BitVec 1792) (i t0 : Nat) (s : State), s.Up → (s.block b.val).presetSlot = some i →
    (s.block b.val).presetAt = some t0 →
    ∃ t, exec (.presetAdaptDone b (snr, lanes)) s = .next t ∧ (t.block b.val).presetAt = none ∧
      (if (List.range 8).all (fun l => decide (bits (s.block b.val).preset (256 + 224 * l) 16 ≤ bits snr.toNat (16 * l) 16 + 384)) = true then
        (t.block b.val).trained = 255 ∧ (t.block b.val).lastUsed = true ∧ (t.block b.val).inner = 3
       else (t.block b.val).trained = 0 ∧ (t.block b.val).presetSlot = none ∧ (t.block b.val).stepAt = some (t.now + 50000000))) ∧
  (∀ (b : Fin 128) (lane : Fin 8) (s : State), s.Up → s.isLink b.val = true → (s.block b.val).inner = 3 →
    setBit (s.block b.val).locked lane.val = 255 →
    ∃ t, exec (.codewordLock b lane true) s = .next t ∧ (t.block b.val).inner = 4 ∧
      (t.block b.val).stepAt = some (s.now + 10000000) ∧
      (t.block b.val).epochInc = (s.block b.val).epochInc + (if (s.block b.val).askResume then 0 else 1)) ∧
  (∀ (b : Fin 128) (s : State), s.Up → s.isLink b.val = true → (s.block b.val).inner = 4 → (s.ob O.CROOK_SQUELCH).testBit b.val = false →
    s.unclocked b.val = false → s.blockFenced b.val = false →
    ∃ t h, exec (.helloSend b) s = .next t ∧ (t.block b.val).helloSent = (s.block b.val).helloSent + 1 ∧
      t.out = .flit b.val none h (beBytes 128 ((s.advertise b.val).helloRecord b.val) ++ List.replicate 512 0) :: s.out) ∧
  (∀ (b : Fin 128) (rec : BitVec 1024) (s : State), s.Up → s.isLink b.val = true → s.blockFenced b.val = false →
    (s.portState (8 * b.val) = 5 ∨ s.portState (8 * b.val) = 6) → (s.block b.val).armAt = none →
    exec (.helloReceive b rec) s =
      .next ((s.setOb (blockOid O.PORT_PEER b.val) (leNum (beBytes 128 rec.toNat))).linkHold b.val))

/-- A link in operation (R190, R193, R203 to R206, R210, R216): a flit with more symbol errors than the code corrects, or whose CRC fails, is
counted, raises bit 1 of PORT_ERR and is asked for again; corrected errors are counted; an acknowledgement that does not advance replays from the
buffer; loss of signal or of codeword lock on a link that carries flits puts it in hold; a hold that expires drops what the link held; a
step of bring-up that exceeds its time goes back to wait. -/
def Obligations.LinkErrorsAndHold : Prop :=
  (∀ (b : Fin 128) (h : BitVec 160) (payload : List Byte) (errs : BitVec 10) (s u : State), s.Up → s.role b.val ≠ 0 → s.blockFenced b.val = false →
    s.bob b.val O.PORT_LOOPBACK ≠ 2 → u = s.countFec b.val errs.toNat → u.isLink b.val = true → carries (u.portState (8 * b.val)) = true →
    (u.fecLimit b.val < errs.toNat → exec (.flitReceive b h payload errs) s = .next ((u.portErr b.val 1).flitNak b.val)) ∧
    (errs.toNat ≤ u.fecLimit b.val → bits h.toNat 0 24 ≠ crc24 h.toNat payload →
      exec (.flitReceive b h payload errs) s = .next (((u.portCount b.val 2 1).portErr b.val 1).flitNak b.val)) ∧
    (errs.toNat ≤ u.fecLimit b.val → bits h.toNat 0 24 = crc24 h.toNat payload → bits h.toNat 152 8 = 1 →
      bits h.toNat 128 24 = (u.block b.val).rxSeq → exec (.flitReceive b h payload errs) s =
        .next ((u.flitDeliver b.val h.toNat payload).skewRun b.val ((u.flitDeliver b.val h.toNat payload).block b.val).skewed.length))) ∧
  (∀ (b : Fin 128) (n : Nat) (s : State), n ≠ 0 → s.countFec b.val n = if n ≤ s.fecLimit b.val then
    ((s.portCount b.val 0 1).holdCount (fecOff b.val) 0 1).tally 0x0202 b.val
    else (s.portCount b.val 1 1).holdCount (fecOff b.val) 32 1) ∧
  (∀ (b : Fin 128) (s : State), s.Up → (s.block b.val).replay.isEmpty = false → carries (s.portState (8 * b.val)) = true →
    exec (.ackTimeoutReplay b) s =
      .next ((s.advanceTo ((s.block b.val).ackAt + 2 * s.bob b.val O.PORT_RTT_NS + 1000)).replayLink b.val)) ∧
  (∀ (b : Fin 128) (lane : Fin 8) (s u : State), s.Up → (s.block b.val).signal.testBit lane.val = true → s.isLink b.val = true →
    s.blockFenced b.val = false → carries (s.portState (8 * b.val)) = true → (s.block b.val).armAt = none →
    u = (s.modBlock b.val (fun x => { x with signal := clearBit x.signal lane.val, locked := clearBit x.locked lane.val
                                             darkAt := some s.now })).portErr b.val 0 →
    u.isLink b.val = true →
    exec (.lossOfSignal b lane) s = .next (u.linkHold b.val)) ∧
  (∀ (b : Fin 128) (lane : Fin 8) (s : State), s.Up → s.isLink b.val = true → carries (s.portState (8 * b.val)) = true →
    exec (.codewordLockLoss b lane) s =
      .next ((s.modBlock b.val (fun x => { x with locked := clearBit x.locked lane.val })).linkHold b.val)) ∧
  (∀ (b : Fin 128) (t0 : Nat) (s u : State), s.Up → (s.block b.val).holdAt = some t0 →
    u = ((s.advanceTo t0).portErr b.val 3).linkClear b.val →
    exec (.holdExpire b) s = .next (u.setPortState (8 * b.val) (u.block b.val).inner)) ∧
  (∀ (b : Fin 128) (t0 : Nat) (s u : State), s.Up → (s.block b.val).stepAt = some t0 → s.portState (8 * b.val) ≠ 7 →
    u = ((s.advanceTo t0).portCount b.val 4 1).portErr b.val 5 →
    exec (.bringupTimeout b) s =
      .next ((u.setPortState (8 * b.val) 1).restartWait b.val ((u.setPortState (8 * b.val) 1).block b.val).askResume))

/-- What hold keeps (R204): with a hold time that is not 0, the link keeps its replay buffer, its credits and a partial frame, and its
hold ends PORT_HOLD_MS after it began. Circuits (R245 to R247, R254 to R256): an arm lasts CIRC_ARM_TIMEOUT_MS and is counted, is taken back,
or times out with bit 3 of CIRC_ERR; presets are pinned, unpinned and deleted. -/
def Obligations.HoldKeepsTheReplayBuffer : Prop :=
  (∀ (b : Fin 128) (lane : Fin 8) (s : State), s.Up → s.isLink b.val = true → carries (s.portState (8 * b.val)) = true →
    s.bob b.val O.PORT_HOLD_MS ≠ 0 → (s.block b.val).holdAt = none →
    ∃ t, exec (.codewordLockLoss b lane) s = .next t ∧ (t.block b.val).replay = (s.block b.val).replay ∧
      (t.block b.val).credits = (s.block b.val).credits ∧ (t.block b.val).partialRx = (s.block b.val).partialRx ∧
      (t.block b.val).rxSeq = (s.block b.val).rxSeq ∧ (t.block b.val).txSeq = (s.block b.val).txSeq ∧
      (t.block b.val).holdAt = some (s.now + s.bob b.val O.PORT_HOLD_MS * 1000000) ∧ t.fold = s.fold) ∧
  (∀ (who : Path) (b : Fin 128) (s t : State), s.Takes who O.CIRC_ARM t → t.lFeature b.val 7 = true →
    t.keepsPresets b.val = true → t.blockFenced b.val = false → exValid (t.row O.CIRC_EXPECT b.val) = true →
    t.drained b.val = true → t.portState (8 * b.val) ≠ 7 →
    exec (.circArm who b) s =
      .next (((t.modBlock b.val (fun x => { x with armAt := some (t.now + t.ob O.CIRC_ARM_TIMEOUT_MS * 1000000) })).count
        O.CIRC_STAT 0 1).answered who O.CIRC_ARM 0)) ∧
  (∀ (who : Path) (b : Fin 128) (s t : State), s.Takes who O.CIRC_ARM t →
    exec (.circDisarm who b) s = .next ((t.modBlock b.val (fun x => { x with armAt := none })).answered who O.CIRC_ARM 0)) ∧
  (∀ (b : Fin 128) (t0 : Nat) (s u : State), s.Up → (s.block b.val).armAt = some t0 →
    u = ((s.advanceTo t0).modBlock b.val (fun x => { x with armAt := none })).modBlock b.val (fun x => { x with lastOut := 4 }) →
    exec (.circArmTimeout b) s = .next ((u.count O.CIRC_STAT 5 1).raise O.CIRC_ERR 3 0 2 b.val 0)) ∧
  (∀ (who : Path) (b : Fin 128) (slot : Fin 64) (s t : State), s.Takes who O.CIRC_PRESET_OP t →
    (t.row O.CIRC_PRESET (64 * b.val + slot.val)).testBit 71 = true →
    exec (.circPresetPin who b slot) s = .next (((t.setOb O.CIRC_PRESET_OP_STATUS 0).setRow O.CIRC_PRESET (64 * b.val + slot.val)
      (setBit (t.row O.CIRC_PRESET (64 * b.val + slot.val)) 72)).answered who O.CIRC_PRESET_OP 0) ∧
    exec (.circPresetUnpin who b slot) s = .next (((t.setOb O.CIRC_PRESET_OP_STATUS 0).setRow O.CIRC_PRESET (64 * b.val + slot.val)
      (clearBit (t.row O.CIRC_PRESET (64 * b.val + slot.val)) 72)).answered who O.CIRC_PRESET_OP 0) ∧
    exec (.circPresetDelete who b slot) s = .next (((t.setOb O.CIRC_PRESET_OP_STATUS 0).setRow O.CIRC_PRESET (64 * b.val + slot.val) 0).answered who O.CIRC_PRESET_OP 0))

/-- Flock links and retraining (R187, R207, R215): a flock port that goes down keeps its frames for PORT_HOLD_MS and then drops and counts
them; a port comes up; PORT_RETRAIN 1 quiesces a link that is up, and 2, or the end of the quiesce's time, resets it. PORT_MAX_FRAME
(R120, R189) takes 1,518 to 9,216 bytes, 8,282 at the least where a communicator names the block, if its buckets stay large enough. -/
def Obligations.FlockLinksAndRetrain : Prop :=
  (∀ (port : Fin 1024) (s u : State), s.Up → s.isFlockPort port.val = true → (s.portState port.val = 6 ∨ s.portState port.val = 9) →
    u = (s.flushDown port.val).setPortState port.val 1 →
    exec (.flockLinkDown port) s = .next (if u.bob (port.val / 8) O.PORT_HOLD_MS = 0 then
      (u.dropPort port.val).1.portCount (port.val / 8) 6 (u.dropPort port.val).2
      else u.modBlock (port.val / 8) (fun x => { x with
        portDownAt := TMap.put 0 x.portDownAt (port.val % 8) (u.now + u.bob (port.val / 8) O.PORT_HOLD_MS * 1000000) }))) ∧
  (∀ (port : Fin 1024) (t0 : Nat) (s u : State), s.Up → TMap.get 0 (s.block (port.val / 8)).portDownAt (port.val % 8) = t0 → t0 ≠ 0 →
    u = (s.advanceTo t0).modBlock (port.val / 8) (fun x => { x with portDownAt := TMap.put 0 x.portDownAt (port.val % 8) 0 }) →
    exec (.flockHoldExpire port) s = .next ((u.dropPort port.val).1.portCount (port.val / 8) 6 (u.dropPort port.val).2)) ∧
  (∀ (port : Fin 1024) (s : State), s.Up → s.isFlockPort port.val = true → s.blockFenced (port.val / 8) = false →
    s.unclocked (port.val / 8) = false →
    exec (.flockLinkUp port) s =
      .next ((s.setPortState port.val 6).modBlock (port.val / 8) (fun x => { x with portDownAt := TMap.put 0 x.portDownAt (port.val % 8) 0 }))) ∧
  (∀ (who : Path) (b : Fin 128) (s t : State), s.Takes who (blockOid O.PORT_RETRAIN b.val) t →
    t.isLink b.val = true → t.blockFenced b.val = false → (t.portState (8 * b.val) = 5 ∨ t.portState (8 * b.val) = 6) →
    exec (.portRetrainQuiesce who b) s =
      .next ((((t.setPortState (8 * b.val) 9).modBlock b.val (fun x => { x with
        quiesceAt := some (t.now + t.bob b.val O.PORT_HOLD_MS * 1000000) })).quiesceDone b.val).answered who
          (blockOid O.PORT_RETRAIN b.val) 0)) ∧
  (∀ (who : Path) (b : Fin 128) (s t : State), s.Takes who (blockOid O.PORT_RETRAIN b.val) t →
    t.isLink b.val = true → t.blockFenced b.val = false →
    exec (.portRetrainNow who b) s = .next ((t.linkReset b.val).answered who (blockOid O.PORT_RETRAIN b.val) 0)) ∧
  (∀ (b : Fin 128) (t0 : Nat) (s : State), s.Up → (s.block b.val).quiesceAt = some t0 →
    exec (.quiesceTimeout b) s = .next ((s.advanceTo t0).linkReset b.val)) ∧
  (∀ (who : Path) (b : Fin 128) (v : BitVec 16) (s t : State), s.Takes who (blockOid O.PORT_MAX_FRAME b.val) t →
    1518 ≤ v.toNat → v.toNat ≤ 9216 → ((∃ x ∈ t.rowsOf O.COLL_COMM_TABLE, ∃ j < cmM x.2, cmPort x.2 j / 8 = b.val) → 8282 ≤ v.toNat) →
    (∀ i, i < 8 → (t.setOb (blockOid O.PORT_MAX_FRAME b.val) v.toNat).burstsFit (8 * b.val + i) = true) →
    exec (.portMaxFrameWrite who b v) s =
      .next ((t.setOb (blockOid O.PORT_MAX_FRAME b.val) v.toNat).answered who (blockOid O.PORT_MAX_FRAME b.val) 0)) ∧
  (∀ (who : Path) (b : Fin 128) (v : BitVec 16) (s : State), s.serves who (blockOid O.PORT_MAX_FRAME b.val) = true →
    v.toNat < 1518 ∨ 9216 < v.toNat →
    exec (.portMaxFrameWrite who b v) s = .next ((s.taken who).answered who (blockOid O.PORT_MAX_FRAME b.val) 0x0A))

/-- Optical modules (R211 to R213): a path written with present set runs the sequence as far as the module answers, a reach block's module
that is not at 136 GBd having no application (log entry 133); activation of the data path starts polling; 60 s without it end the sequence; an
answered poll records the state, a silent one is counted, and the third marks the module absent, whose sequence is tried again. Circuits (R248):
ring and circuit blocks keep presets. -/
def Obligations.ModulesAndCircuits : Prop :=
  (∀ (who : Path) (b : Fin 128) (i : Fin 2) (v : BitVec 32) (a : ModuleAnswer) (s t u : State),
    s.Takes who (blockOid O.PORT_MOD_PATH b.val + i.val) t → u = t.setOb (blockOid O.PORT_MOD_PATH b.val + i.val) (v.toNat % 2 ^ 23) →
    exec (.modulePathWrite who b i v a) s =
      .next ((if v.getLsbD 22 then u.moduleStart b.val i.val a else u.setModl b.val i.val {}).answered who
        (blockOid O.PORT_MOD_PATH b.val + i.val) 0)) ∧
  (∀ (b i : Nat) (a : ModuleAnswer) (s : State), s.moduleStart b i a = match a with
    | .silent => (s.modAccess b i 1).moduleAbsent b i
    | .noApp => s.moduleNoApp b i
    | .slow => if s.role b = 3 then s.moduleNoApp b i else s.moduleRun b i
    | .fine => s.moduleRun b i) ∧
  (∀ (b : Fin 128) (i : Fin 2) (state : BitVec 11) (p : Nat) (s : State), s.Up → (s.modl b.val i.val).step = 6 →
    p = s.bob b.val O.PORT_MOD_POLL_MS →
    exec (.moduleDataPathActivated b i state) s = .next ((s.setOb (modStateOid b.val i.val) state.toNat).setModl b.val i.val
      { step := 7, deadline := if p = 0 then none else some (s.now + p * 1000000) })) ∧
  (∀ (b : Fin 128) (i : Fin 2) (t0 : Nat) (s : State), s.Up → (s.modl b.val i.val).deadline = some t0 → (s.modl b.val i.val).step = 6 →
    exec (.moduleReadyTimeout b i) s = .next ((s.advanceTo t0).setModl b.val i.val { step := 8 })) ∧
  (∀ (b : Fin 128) (i : Fin 2) (v : BitVec 13) (t0 p : Nat) (d : Option Nat) (s u : State), s.Up → (s.modl b.val i.val).deadline = some t0 →
    (s.modl b.val i.val).step = 7 → u = (s.advanceTo t0).modAccess b.val i.val 7 → p = u.bob b.val O.PORT_MOD_POLL_MS →
    d = (if p = 0 then none else some (u.now + p * 1000000)) →
    exec (.modulePoll b i (some v)) s =
      .next ((u.setOb (modStateOid b.val i.val) (clearBit v.toNat 11)).setModl b.val i.val { step := 7, fails := 0, deadline := d }) ∧
    exec (.modulePoll b i none) s = .next (if 2 ≤ (s.modl b.val i.val).fails then u.moduleAbsent b.val i.val
      else u.setModl b.val i.val { s.modl b.val i.val with fails := (s.modl b.val i.val).fails + 1, deadline := d })) ∧
  (∀ (b : Nat) (s : State), s.keepsPresets b = true ↔ s.role b = 2 ∨ s.role b = 4) ∧
  (∀ (b : Fin 128) (i : Fin 2) (a : ModuleAnswer) (t0 : Nat) (s : State), s.Up → (s.modl b.val i.val).deadline = some t0 →
    (s.modl b.val i.val).step = 0 → (s.modl b.val i.val).fails = 3 →
    exec (.moduleRetry b i a) s = .next ((s.advanceTo t0).moduleStart b.val i.val a))

/-! ### The Fold (chapter 2) -/

/-- Admission (R82 to R84, R226, R229): a head that every queue of its members admits is charged and linked, with the copies that arrived with
it; a lossy one is dropped and counted for the members that refuse it; a lossless one, or one that the hurdle alone refuses, waits at the
head of its VOQ. FOLD_FAR_SIZE_GIB and PORT_POOL_MIB (R86, R208, R391) take what the layout holds. -/
def Obligations.AdmissionDecisions : Prop :=
  (∀ (input : Fin 144) (dest : Fin 1040) (cls : Fin 8) (id : Nat) (lost : List Nat) (c : Copy) (s u v : State), s.Up →
    s.Decides (voqKey input.val dest.val cls.val) id c u → c.frame.lossless = false → c.joint = false →
    c.members.any (fun q => u.hurdleOnly c q) = false → lost = c.members.filter (fun q => !u.memberPasses c q) → lost ≠ [] →
    v = (u.refuse id c lost).count O.FOLD_LOSSY_DROPS 0 lost.length →
    exec (.voqHeadAdmission input dest cls) s = .next (if (v.copy id).members.isEmpty then v.discardCopy id else v.admitCopy id)) ∧
  (∀ (input : Fin 144) (dest : Fin 1040) (cls : Fin 8) (id : Nat) (c : Copy) (s u : State), s.Up →
    s.Decides (voqKey input.val dest.val cls.val) id c u →
    (∀ j ∈ u.jointIds id, ∀ q ∈ (u.copy j).members, u.memberPasses (u.copy j) q = true) →
    exec (.voqHeadAdmission input dest cls) s = .next ((u.jointIds id).foldl (fun s j => s.admitCopy j) u)) ∧
  (∀ (input : Fin 144) (dest : Fin 1040) (cls : Fin 8) (id : Nat) (c : Copy) (s u : State), s.Up →
    s.Decides (voqKey input.val dest.val cls.val) id c u → (∃ j ∈ u.jointIds id, ∃ q ∈ (u.copy j).members, u.memberPasses (u.copy j) q = false) →
    c.frame.lossless = true ∨ c.members.any (fun q => u.hurdleOnly c q) = true →
    exec (.voqHeadAdmission input dest cls) s = .next (u.holdHead id c) ∧ ∀ k, (u.holdHead id c).voq k = s.voq k) ∧
  (∀ (input : Fin 144) (dest : Fin 1040) (cls : Fin 8) (id : Nat) (rest : List Nat) (s : State), s.Up →
    s.voq (voqKey input.val dest.val cls.val) = id :: rest → (s.copy id).waited = true →
    ∃ t, exec (.admissionRetry input dest cls) s = .next t ∧ exec (.voqHeadAdmission input dest cls) s = .next t) ∧
  (∀ (who : Path) (v : BitVec 16) (s t : State), s.Takes who O.FOLD_FAR_SIZE_GIB t →
    v.toNat % 16 = 0 → 1 ≤ v.toNat → v.toNat ≤ 1024 → layoutFits v.toNat (t.ob O.CRIOTTE_RESV_GIB) (t.ob O.MUSTER_LOG_MIB) = true →
    (∀ d, d < 4 → t.reachMib d ≤ farMib v.toNat) →
    exec (.foldFarSizeWrite who v) s = .next ((t.setOb O.FOLD_FAR_SIZE_GIB v.toNat).answered who O.FOLD_FAR_SIZE_GIB 0)) ∧
  (∀ (who : Path) (v : BitVec 16) (s : State), s.serves who O.FOLD_FAR_SIZE_GIB = true →
    v.toNat % 16 ≠ 0 ∨ v.toNat = 0 ∨ 1024 < v.toNat →
    exec (.foldFarSizeWrite who v) s = .next ((s.taken who).answered who O.FOLD_FAR_SIZE_GIB 0x0A)) ∧
  (∀ (who : Path) (b : Fin 128) (v : BitVec 16) (s t : State), s.Takes who (blockOid O.PORT_POOL_MIB b.val) t →
    t.role b.val ≠ 3 → (v.toNat = 0 ∨ (16 ≤ v.toNat ∧ v.toNat ≤ 512)) → t.reachMib (b.val / 32) + 2 * v.toNat ≤ farMib t.farForChecks →
    exec (.portPoolMibWrite who b v) s =
      .next ((t.setOb (blockOid O.PORT_POOL_MIB b.val) v.toNat).answered who (blockOid O.PORT_POOL_MIB b.val) 0)) ∧
  (∀ (who : Path) (b : Fin 128) (v : BitVec 16) (s : State), s.serves who (blockOid O.PORT_POOL_MIB b.val) = true →
    (1 ≤ v.toNat ∧ v.toNat < 16) ∨ 512 < v.toNat →
    exec (.portPoolMibWrite who b v) s = .next ((s.taken who).answered who (blockOid O.PORT_POOL_MIB b.val) 0x0A))

/-- The gate matcher, the ridge and the near zone (R69 to R75, R91, R92): a matching adds transfers of at most four sectors and takes none away; a transfer whose
cell is read and that is not behind another of its frame is written into its bank group where it crosses no ridge or its last hop, whose
credits go back, and is held at the relay die on a diagonal; there it waits for credits of its second hop and, while local sectors
wait too, for the relay's turn; in the near zone an eviction is cancelled and a far group is fetched. -/
def Obligations.GateAndRidge : Prop :=
  (∀ (s : State), s.Up → ∃ t added, exec .gateMatch s = .next t ∧ t.fold.inflight = s.fold.inflight ++ added ∧
    (∀ x ∈ added, x.sectors ≤ 4 ∧ x.held = none) ∧ t.blocks = s.blocks ∧ t.drove = s.drove ∧ t.common = s.common) ∧
  (∀ (i : Nat) (x : Transfer) (s u : State), s.Up → s.fold.inflight[i]? = some x → x.held = none → s.unread x = false → x.hops = [] →
    s.behindOwn i x = false → u = (if x.left then s else s.leftInput x) →
    exec (.gateTransferWrite i) s = .next ((u.dropTransfer i).writeSectors x)) ∧
  (∀ (i d : Nat) (x : Transfer) (s u : State), s.Up → s.fold.inflight[i]? = some x → x.held = none → s.unread x = false → x.hops = [d] →
    s.behindOwn i x = false → u = (if x.left then s else s.leftInput x) →
    exec (.gateTransferWrite i) s = .next (((u.ridgeGive d x.sectors).dropTransfer i).writeSectors x)) ∧
  (∀ (i d e : Nat) (rest : List Nat) (x : Transfer) (s u : State), s.Up → s.fold.inflight[i]? = some x → x.held = none → s.unread x = false →
    x.hops = d :: e :: rest → u = s.leftInput x →
    exec (.gateTransferWrite i) s = .next { u with fold := { u.fold with
      inflight := u.fold.inflight.set i { x with hops := e :: rest, held := some d, left := true } } }) ∧
  (∀ (i : Nat) (x : Transfer) (s : State), s.Up → s.fold.inflight[i]? = some x →
    s.unread x = true ∨ x.held.isSome = true ∨ (x.hops.length ≤ 1 ∧ s.behindOwn i x = true) → exec (.gateTransferWrite i) s = .next s) ∧
  (∀ (i d e : Nat) (rest : List Nat) (x : Transfer) (s u : State), s.Up → s.fold.inflight[i]? = some x → x.held = some d →
    x.hops = e :: rest → u = ((((s.ridgeUse e x.sectors).ridgeGive d x.sectors).servedRelay e x.sectors).tally 0x0600 e x.sectors).tally
      0x0601 e x.sectors →
    exec (.ridgeRelayForward i) s = .next (if s.ridgeFree e < x.sectors ∨ (s.localWaits e = true ∧ s.relayTurnOf e 0 = false) then s
      else { u with fold := { u.fold with inflight := u.fold.inflight.set i { x with held := none } } })) ∧
  (∀ (qid : Fin 12480) (i : Nat) (s : State), s.Up → (s.eq qid.val).groupAt (fun g => g.place.isEvicting) = some i → i < s.nearZone →
    exec (.evictionWriteAck qid) s = .next ((s.setPlace qid.val i .near).slotFree (dieOf (qid.val / 12)) 1)) ∧
  (∀ (qid : Fin 12480) (i k : Nat) (g : CellGroup) (s : State), s.Up →
    ((s.eq qid.val).groups.take s.nearZone).findIdx? (fun g => g.place.isEvicting || g.place.isFar) = some i →
    (s.eq qid.val).groups[i]? = some g → g.place = .far k →
    exec (.groupFetch qid) s = .next (s.setPlace qid.val i (.fetching k)))

/-- Eviction and fetch (R57, R87, R90 to R92, R94, R97): the oldest aged group takes a far slot of the next stack, or bit 3 of FOLD_ERR is raised
when none is free; at high occupancy, with no aged group, the fullest queue gives its group; an acknowledged eviction frees its near
cells once no fetch and no log write waits on its stack; a fetched group lands when the die has cells for it, a bad cell poisoning its
frame, and a bad slot all its frames. -/
def Obligations.EvictionAndFetch : Prop :=
  (∀ (qid : Fin 12480) (busy : BitVec 4) (i k d : Nat) (s u v : State), s.Up → d = dieOf (qid.val / 12) → u = s.seeLimit d busy.toNat →
    (u.evictable qid.val true).head? = some i → (∃ j, j < 4 ∧ u.slotFreeOn (4 * d + j) = true) → u.nextStack d busy.toNat = some k →
    v = u.setOb (O.FOLD_FAR_USED + d) (u.ob (O.FOLD_FAR_USED + d) + 1) →
    exec (.evictionAge qid busy) s = .next (State.modEq { v with fold := { v.fold with rotate := TMap.put 0 v.fold.rotate d ((k + 1) % 4) } } qid.val
      (fun q => { q with groups := q.groups.modify i (fun g => { g with place := .evicting (4 * d + k), complete := true }) }))) ∧
  (∀ (qid : Fin 12480) (busy : BitVec 4) (i d : Nat) (s u : State), s.Up → d = dieOf (qid.val / 12) → u = s.seeLimit d busy.toNat →
    (u.evictable qid.val true).head? = some i → (∀ j, j < 4 → u.slotFreeOn (4 * d + j) = false) →
    exec (.evictionAge qid busy) s = .next (u.raise O.FOLD_ERR 3)) ∧
  (∀ (die : Fin 4) (busy : BitVec 4) (qid i n : Nat) (s u : State), s.Up → n = s.ob (O.FOLD_NEAR_USED + die.val) →
    s.ob O.FOLD_EVICT_HI * 196608 / 100 ≤ n ∨ (s.fold.occEvict.testBit die.val = true ∧ s.ob O.FOLD_EVICT_LO * 196608 / 100 ≤ n) →
    u = ({ s with fold := { s.fold with occEvict := setBits s.fold.occEvict die.val 1 1 } } : State).seeLimit die.val busy.toNat →
    u.ageDue die.val = false → u.fullest die.val = some qid →
    (if u.ob O.FOLD_EVICT_ORDER = 1 then (u.evictable qid false).head? else (u.evictable qid false).getLast?) = some i →
    exec (.evictionOccupancy die busy) s = .next (u.evictStart qid i busy.toNat)) ∧
  (∀ (qid : Fin 12480) (i k : Nat) (g : CellGroup) (s : State), s.Up →
    (s.eq qid.val).groupAt (fun g => g.place.isEvicting) = some i → s.nearZone ≤ i → (s.eq qid.val).groups[i]? = some g →
    g.place = .evicting k →
    exec (.evictionWriteAck qid) s = .next (if s.fetchWaits k = true ∨ s.logWaits k = true then s
      else (((s.setPlace qid.val i (.far k)).releaseNear g.cells).count O.FOLD_EVICTED 0 1).tally 0x0401 (dieOf (qid.val / 12)))) ∧
  (∀ (qid : Fin 12480) (crc : BitVec 16) (ue : Bool) (i d : Nat) (g : CellGroup) (bad : List Nat) (s u v : State), s.Up →
    (s.eq qid.val).groupAt (fun g => g.place.isFetching) = some i → (s.eq qid.val).groups[i]? = some g → d = dieOf (qid.val / 12) →
    g.cells.length ≤ s.dieFree d → bad = (List.range g.cells.length).filter (fun j => ue || g.fenced || crc.toNat.testBit j) →
    u = bad.foldl (fun s j => s.poisonCopy (g.cells.getD j (0, 0)).1) (g.cells.foldl (fun s x => s.fetchCell d x) s) →
    v = (if ue = true then u.raise O.FOLD_ERR 2 3 5 (g.place.stack.getD 0) 0
         else if g.fenced = false ∧ bad ≠ [] then u.raise O.FOLD_ERR 0 3 else u) →
    exec (.fetchComplete qid (crc, ue)) s = .next (((((if bad = [] then v else v.countPoison d bad.length).setPlace qid.val i .near).slotFree
      d 1).count O.FOLD_FETCHED 0 1).tally 0x0402 d))

/-! ### Egress (chapter 3) -/

/-- A queue record (R108, R110, R119, R120, R122, R132): a valid row is stored, its bucket full, its deficit 0, and a queue that no longer obeys
its priority is paused no more. PFC (R127, R130, R131, R138): a frame pauses the queues that obey it, and on a Fold link is ignored and
counted; a pause ends at its time; the watchdog counts and raises a bit. A record ring that cannot be written is turned off. -/
def Obligations.QueuesAndPauses : Prop :=
  (∀ (who : Path) (qid : Fin 12480) (v : BitVec 128) (n o : Nat) (s t u : State), s.Takes who O.EGR_QCFG t → o = t.row O.EGR_QCFG qid.val →
    rateOk (qRate v.toNat) = true → (qRate v.toNat ≠ 0 → qRate v.toNat ≠ rateOpen → 1 ≤ qBurst v.toNat ∧ qBurst v.toNat ≤ 67108864) →
    (qid.val / 12 < 1024 → burstOk (qRate v.toNat) (qBurst v.toNat)
      (t.maxFrame (qid.val / 96) + pOverhead (t.row O.EGR_PORTCFG (qid.val / 12))) = true) →
    (qRecSel v.toNat = true → qRecSel o = false → t.recSelected < 1024) →
    n = v.toNat &&& (0x1FFF7 + 0xFFFFFFFF <<< 32 + 0x3FFFFF <<< 64 + 0x7FFFFFF <<< 96) →
    u = (t.setRow O.EGR_QCFG qid.val n).modEq qid.val (fun q => { q with deficit := 0, short := 0 }) →
    exec (.queueConfigWrite who qid v) s =
      .next ((if qPauseEn o = true ∧ (qPauseEn n = false ∨ qPausePrio o ≠ qPausePrio n) then u.pauseEnd qid.val else u).answered who
        O.EGR_QCFG 0)) ∧
  (∀ (port : Fin 1024) (en : BitVec 8) (q : BitVec 128) (s : State), s.Up → (s.isLink (port.val / 8) = true →
      exec (.pfcFrameReceive port en q) s = .next (s.count O.PFC_PAUSE_IGNORED 0 1)) ∧
    (s.isFlockPort port.val = true → s.isLink (port.val / 8) = false →
      exec (.pfcFrameReceive port en q) s = .next ((List.range 12).foldl (fun (s : State) i =>
        let id := 12 * port.val + i
        let p := qPausePrio (s.row O.EGR_QCFG id)
        let n := bits q.toNat (16 * p) 16
        if qPauseEn (s.row O.EGR_QCFG id) && en.toNat.testBit p then
          if n = 0 then s.pauseEnd id
          else s.modEq id (fun x => { x with pauseUntil := some (s.now + s.quantaNs port.val n)
                                             pauseSince := some (match x.pauseSince with | some t => t | none => s.now) })
        else s) s))) ∧
  (∀ (qid : Fin 12480) (t0 : Nat) (s : State), s.Up → (s.eq qid.val).pauseUntil = some t0 →
    exec (.pfcPauseExpire qid) s =
      .next ((s.advanceTo t0).modEq qid.val (fun q => { q with pauseUntil := none, pauseSince := none, wdFired := false }))) ∧
  (∀ (qid : Fin 12480) (t0 u0 wd : Nat) (s : State), s.Up →
    wd = bits (s.row O.PFC_CFG (8 * (qid.val / 12) + qPausePrio (s.row O.EGR_QCFG qid.val))) 32 16 * 1000000 → wd ≠ 0 →
    (s.eq qid.val).pauseSince = some t0 → (s.eq qid.val).pauseUntil = some u0 → (s.eq qid.val).wdFired = false → t0 + wd ≤ u0 →
    exec (.pfcWatchdogExpire qid) s =
      .next ((((s.advanceTo (t0 + wd)).modEq qid.val (fun x => { x with wdFired := true })).count O.PFC_WD_EVENTS 0 1).raise O.EGR_ERR 1)) ∧
  (∀ (s : State), s.Up → s.ob O.EGR_QREC_SIZE ≠ 0 →
    exec .qrecRingWriteFault s = .next ((s.setOb O.EGR_QREC_SIZE 0).raise O.EGR_ERR 6))

/-- Selection and departure (R57, R61, R94, R100 to R110, R130, R469): a port with one eligible head, of weight 0, chooses it; an empty port selects nothing,
one with a choice keeps it; a departure starts with the frame chosen, logged first where its link is; a choice whose frame has gone or
has been paused too long is undone; an accepted entry lets the departure go on; a read of a bad cell poisons its copy. -/
def Obligations.SelectionAndDeparture : Prop :=
  (∀ (d : Fin 1040) (q0 id : Nat) (s : State), s.Up → (s.ep d.val).next = none → q0 < 12 →
    (∀ q, q < 12 → s.headDrop (12 * d.val + q) = none) → s.eligible (12 * d.val + q0) = some (id, .fits) →
    (∀ q, q < 12 → q ≠ q0 → s.eligible (12 * d.val + q) = none) → qWeight (s.row O.EGR_QCFG (12 * d.val + q0)) = 0 →
    ∃ t x, exec (.egressSelect d) s = .next t ∧ (t.ep d.val).next = some x ∧ x.queue = 12 * d.val + q0 ∧ x.copy = id ∧
      x.len = s.chargedLen d.val (s.copy id).frame ∧ t.objs = s.objs ∧ t.fold.copies = s.fold.copies) ∧
  (∀ (d : Fin 1040) (s : State), s.Up → (s.ep d.val).next.isSome = true → exec (.egressSelect d) s = .next s) ∧
  (∀ (d : Fin 1040) (s : State), s.Up → s.fold = {} → ∃ t, exec (.egressSelect d) s = .next t ∧ (t.ep d.val).next = none ∧ t.objs = s.objs) ∧
  (∀ (d : Fin 1040) (x : Chosen) (f : Frame) (s : State), s.Up → (s.ep d.val).dep = none → (s.ep d.val).next = some x →
    s.headOf x.queue = some x.copy → s.pausedLong x.queue = false → (s.copy x.copy).frame = f →
    (d.val < 1024 → s.still = false ∧ s.linkTakes d.val f (parseFrame f.etype f) = true) →
    (s.loggedUnder d.val ((f.outHdr (parseFrame f.etype f)).getD 0) = none →
      exec (.frameDepartureStart d) s = .next (s.depart x none)) ∧
    (∀ dev kind u, s.loggedUnder d.val ((f.outHdr (parseFrame f.etype f)).getD 0) = some (dev, kind) →
      s.logRoom (s.logStack (d.val / 64)) dev (32 + (linkLen f (parseFrame f.etype f) + 31) / 32 * 32) = some u →
      exec (.frameDepartureStart d) s = .next (u.depart x (some (dev, kind))))) ∧
  (∀ (d : Fin 1040) (x : Chosen) (s : State), s.Up → (s.ep d.val).dep = none → (s.ep d.val).next = some x →
    s.headOf x.queue ≠ some x.copy ∨ s.pausedLong x.queue = true → exec (.frameDepartureStart d) s = .next (s.unchoose d.val x)) ∧
  (∀ (d : Fin 1040) (x : Departing) (s : State), s.Up → (s.ep d.val).dep = some x →
    exec (.musterLogEntryAccepted d) s = .next (s.setEp d.val { s.ep d.val with dep := some { x with logged := true } })) ∧
  (∀ (d : Fin 1040) (x : Departing) (g : Nat) (bank : Fin 12) (s : State), s.Up → (s.ep d.val).dep = some x → x.started = true →
    x.logged = true → (s.copy x.copy).groups.getD x.cellRead 128 = g → g ≠ 128 → x.cellRead + 1 < (s.copy x.copy).frame.cells →
    ∃ t u, exec (.cellRead (.depart d) true 0 bank) s = .next t ∧ t.fold.copies = s.fold.copies ∧
      exec (.cellRead (.depart d) false 0 bank) s = .next u ∧ (u.copy x.copy).bad = true) ∧
  (∀ (qid : Fin 12480) (i : Fin 16) (g : CellGroup) (x : Nat × Nat) (bank : Fin 12) (crcOk : Bool) (s : State), s.Up →
    (s.eq qid.val).groups.find? (fun g => g.place.isEvicting) = some g → g.cells[i.val]? = some x →
    s.departWaits ((s.copy x.1).groups.getD x.2 128) = false → s.transferWaits ((s.copy x.1).groups.getD x.2 128) = false →
    exec (.cellRead (.evict qid i) crcOk 0 bank) s = .next (if crcOk then s
      else (((s.raise O.FOLD_ERR 0 3).countPoison ((s.raise O.FOLD_ERR 0 3).copy x.1).die 1).poisonCopy x.1)))

/-! ### Ingress and forwarding (chapter 4) -/

/-- A frame at a flock port (R141, R128, R154, R215, R232): one whose FCS fails, a runt and one longer than PORT_MAX_FRAME are dropped and counted
in their rows of PORT_CNT; one without a fabric header is counted in the Tally and goes on to classification with its port's pasture, class
and priority, unless it is lossy and the FIFO is full or its pasture held; loopback of the port's own frames takes none, of the far end's
sends them out again. XOFF of a priority still in XOFF is sent again (R127). -/
def Obligations.IngressChecks : Prop :=
  (∀ (port : Fin 1024) (bytes : List Byte) (fifo : Fin 257) (s u : State), s.FlockOpen port.val → u = s.setFifo (port.val / 8) fifo.val →
    exec (.ingressFrame port bytes false fifo) s = .next ((u.portCount (port.val / 8) 2 1).tally 0x0104 port.val)) ∧
  (∀ (port : Fin 1024) (bytes : List Byte) (fifo : Fin 257) (s u : State), s.FlockOpen port.val → u = s.setFifo (port.val / 8) fifo.val →
    u.isLink (port.val / 8) = false → bytes.length < 60 →
    exec (.ingressFrame port bytes true fifo) s =
      .next (((u.portCount (port.val / 8) 7 1).portErr (port.val / 8) 7).tally 0x0105 port.val)) ∧
  (∀ (port : Fin 1024) (bytes : List Byte) (fifo : Fin 257) (s u : State), s.FlockOpen port.val → u = s.setFifo (port.val / 8) fifo.val →
    u.isLink (port.val / 8) = false → 60 ≤ bytes.length → u.bob (port.val / 8) O.PORT_MAX_FRAME < bytes.length + 4 →
    exec (.ingressFrame port bytes true fifo) s =
      .next (((u.portCount (port.val / 8) 8 1).portErr (port.val / 8) 7).tally 0x0105 port.val)) ∧
  (∀ (port : Fin 1024) (bytes : List Byte) (fifo : Fin 257) (f0 f : Frame) (p : Parsed) (n : Nat) (s u w : State),
    s.FlockOpen port.val → u = s.setFifo (port.val / 8) fifo.val → u.isLink (port.val / 8) = false → 60 ≤ bytes.length →
    bytes.length + 4 ≤ u.bob (port.val / 8) O.PORT_MAX_FRAME → w = (u.tally 0x0100 port.val).tally 0x0101 port.val bytes.length →
    f0 = { bytes := bytes, port := port.val, rx := time112 w.time.dev, etype := w.ob O.FWD_ETHERTYPE } → p = parseFrame f0.etype f0 →
    p.fab = none → p.etype ≠ 0x8808 → n = (if p.tags = 0 then bits (w.row O.FWD_PORTCFG port.val) 12 3 else p.pcp) →
    f = { f0 with prio := n, lossless := pfcEnabled (w.row O.PFC_CFG (8 * port.val + n))
                  pasture := bits (w.row O.FWD_PORTCFG port.val) 0 12, cls := w.flockClass port.val p } →
    f.lossless = true ∨ ((w.block (port.val / 8)).fifo < 256 ∧ w.row O.ROUTE_HOLD f.pasture = 0) →
    exec (.ingressFrame port bytes true fifo) s = .next (w.classify (port.val / 8) (port.val / 8 / 32) f p)) ∧
  (∀ (port : Fin 1024) (bytes : List Byte) (ok : Bool) (fifo : Fin 257) (l : Nat) (s : State), s.Up → l = s.bob (port.val / 8) O.PORT_LOOPBACK →
    s.isLink (port.val / 8) = false →
    (s.portExists port.val = false ∨ l = 1 → exec (.ingressFrame port bytes ok fifo) s = .next s) ∧
    (s.portExists port.val = true → s.blockFenced (port.val / 8) = false → l = 2 →
      exec (.ingressFrame port bytes ok fifo) s = .next (s.transmit (port.val / 8) (.eth port.val bytes (!ok))))) ∧
  (∀ (port : Fin 1024) (prio : Fin 8) (t0 : Nat) (s u : State), s.Up → (s.ep port.val).xoff.testBit prio.val = true →
    TMap.get 0 (s.ep port.val).xoffAt prio.val = t0 → u = s.advanceTo t0 →
    exec (.pfcXoffRepeat port prio) s = .next (((u.modEp port.val (fun e => { e with
      xoffAt := TMap.put 0 e.xoffAt prio.val (t0 + u.quantaNs port.val 0xFFFF / 2) })).transmit (port.val / 8)
        (.pfc port.val (2 ^ prio.val) 0xFFFF)).tally 0x0106 port.val))

/-- Heft (R157, R161, R164): a known source seen again where it is has its stamp renewed; a sweep takes the dynamic entries as old as
the limit away; a static entry replaces the one of its identity or is inserted; a deletion removes its entry, or reports 1; the flushes take
away every dynamic entry of a pasture, of a port or of all; a retry inserts the stash of a die anew. -/
def Obligations.HeftCommands : Prop :=
  (∀ (die : Fin 4) (e port i : Nat) (rest : List (Nat × Nat)) (s u : State), s.Up → (s.heft die.val).learn = (e, port) :: rest →
    u = s.setHeft die.val { s.heft die.val with learn := rest } → (u.heft die.val).find (eStamp e u.heftStamp) = some i →
    eDev ((u.heft die.val).at i) = eDev (eStamp e u.heftStamp) → ePort ((u.heft die.val).at i) = ePort (eStamp e u.heftStamp) →
    exec (.heftInsert die) s =
      .next (u.setHeft die.val ((u.heft die.val).setAt i (eStamp ((u.heft die.val).at i) u.heftStamp)))) ∧
  (∀ (die : Fin 4) (old : Nat → Bool) (h : HeftDie) (s : State), s.Up → h = s.heft die.val →
    old = (fun e => !eStatic e && decide (s.ob O.HEFT_AGE_LIMIT ≤ (s.heftStamp + 65536 - eAge e) % 65536)) →
    exec (.heftAgeSweep die) s = .next (if s.ob O.HEFT_AGE_LIMIT = 0 then s
      else ((h.slots.map (·.2)).filter old ++ h.stash.filter old).foldl (fun s e => s.heftNotice die.val e 3) (s.setHeft die.val (h.flush old)))) ∧
  (∀ (who : Path) (d : Fin 4) (e : BitVec 128) (n : Nat) (s t : State), s.Takes who O.HEFT_OP t →
    n = setBits (setBits (setBits (e.toNat &&& (2 ^ 83 - 1)) 61 2 3) 63 1 0) 96 16 0 →
    (∀ i, (t.heft d.val).find n = some i → exec (.heftInsertStatic who (1#4 <<< d.val) e) s =
      .next (((t.setHeft d.val ((t.heft d.val).setAt i n)).setOb O.HEFT_OP_STATUS 0).answered who O.HEFT_OP 0)) ∧
    ((t.heft d.val).find n = none → exec (.heftInsertStatic who (1#4 <<< d.val) e) s =
      .next (((t.heftInsert d.val n).1.setOb O.HEFT_OP_STATUS (if (t.heftInsert d.val n).2 then 6 else 0)).answered who O.HEFT_OP 0))) ∧
  (∀ (who : Path) (d : Fin 4) (e : BitVec 128) (h : HeftDie) (s t : State), s.Takes who O.HEFT_OP t → h = t.heft d.val →
    (∀ i, h.find e.toNat = some i → exec (.heftDelete who (1#4 <<< d.val) e) s =
      .next (((t.setHeft d.val (if i < 1048576 then { h with slots := TMap.put 0 h.slots i 0 }
        else { h with stash := h.stash.eraseIdx (i - 1048576) })).setOb O.HEFT_OP_STATUS 0).answered who O.HEFT_OP 0)) ∧
    (h.find e.toNat = none →
      exec (.heftDelete who (1#4 <<< d.val) e) s = .next ((t.setOb O.HEFT_OP_STATUS 1).answered who O.HEFT_OP 0))) ∧
  (∀ (who : Path) (m : BitVec 4) (p : Fin 4096) (dev : Fin 512) (port : Fin 1024) (F : (Nat → Bool) → State) (s t : State),
    s.Takes who O.HEFT_OP t → F = (fun f => ((t.heftFlush m.toNat f).setOb O.HEFT_OP_STATUS 0).answered who O.HEFT_OP 0) →
    exec (.heftFlushPasture who m p) s = .next (F (fun x => !eStatic x && ePasture x == p.val)) ∧
    exec (.heftFlushPort who m dev port) s = .next (F (fun x => !eStatic x && eDev x == dev.val && ePort x == port.val)) ∧
    exec (.heftFlushAll who m) s = .next (F (fun x => !eStatic x))) ∧
  (∀ (who : Path) (d : Fin 4) (s t : State), s.Takes who O.HEFT_OP t →
    exec (.heftStashRetry who (1#4 <<< d.val)) s = .next (((t.heftRetry d.val).1.setOb O.HEFT_OP_STATUS
      (if (t.heftRetry d.val).2 then 6 else 0)).answered who O.HEFT_OP 0))

/-- Forwarding tables and routes (R165, R167, R181, R232, R234, R239): a prefix is added, cut to its length, and deleted,
or found absent with 0x0A; a row of a table is written on every die where its rule allows; a hold is written and XOFF follows on the pasture's
ports; a snapshot waits for a tick that has not begun, and is taken at it; bits of ROUTE_FAILOVER_ACT are cleared by
writing ones. -/
def Obligations.ForwardingCommands : Prop :=
  (∀ (who : Path) (v6 : Bool) (plen : BitVec 8) (pa : Fin 4096) (nh : Fin 65536) (pfx : BitVec 128) (k w x : Nat) (s t : State),
    s.Takes who O.LPM_OP t → w = (if v6 then 128 else 32) → plen.toNat ≤ w →
    x = (if v6 then pfx.toNat else pfx.toNat / 2 ^ 96) → k = lpmKey v6 plen.toNat pa.val (cutPrefix w plen.toNat x) →
    t.lpmUsed + 2 ≤ 262144 →
    exec (.lpmAdd who v6 plen pa nh pfx) s =
      .next ({ t with fwd := { t.fwd with lpm := TMap.put 0 t.fwd.lpm k (nh.val + 1) } }.answered who O.LPM_OP 0)) ∧
  (∀ (who : Path) (v6 : Bool) (plen : BitVec 8) (pa : Fin 4096) (pfx : BitVec 128) (k w x : Nat) (s t : State),
    s.Takes who O.LPM_OP t → w = (if v6 then 128 else 32) → plen.toNat ≤ w →
    x = (if v6 then pfx.toNat else pfx.toNat / 2 ^ 96) → k = lpmKey v6 plen.toNat pa.val (cutPrefix w plen.toNat x) →
    exec (.lpmDelete who v6 plen pa pfx) s = .next (if TMap.get 0 t.fwd.lpm k = 0 then t.answered who O.LPM_OP 0x0A
      else { t with fwd := { t.fwd with lpm := TMap.put 0 t.fwd.lpm k 0 } }.answered who O.LPM_OP 0)) ∧
  (∀ (who : Path) (table : Fin 6) (row o : Nat) (v : BitVec 768) (d : ObjDef) (s t : State), s.Takes who o t → o = fwdTableOid table →
    objDef o = some d → row < d.rows →
    exec (.forwardingTableWrite who table row v) s = .next (if t.fwdRowOk o row v.toNat = true
      then (t.setRow o row (v.toNat % 2 ^ (8 * d.size) &&& fwdRowMask o)).answered who o 0 else t.answered who o 0x0A)) ∧
  (∀ (who : Path) (pa : Fin 4096) (v : BitVec 8) (s t u w : State), s.Takes who O.ROUTE_HOLD t → v.toNat ≤ 2 →
    u = t.setRow O.ROUTE_HOLD pa.val v.toNat →
    w = (u.pasturePorts pa.val).foldl (fun s port => (List.range 8).foldl (fun s i => s.pfcUpdate port i) s) u →
    exec (.routeHoldWrite who pa v) s = .next ((if v.toNat = 0 then w.issueKept pa.val else w).answered who O.ROUTE_HOLD 0)) ∧
  (∀ (who : Path) (pa : Fin 4096) (n : BitVec 48) (s t : State), s.Takes who O.ROUTE_SNAP t →
    t.bell < t.bellOf48 n.toNat →
    exec (.routeSnap who pa n) s =
      .next ({ t.setRow O.ROUTE_SNAP_RES pa.val (setBits (t.row O.ROUTE_SNAP_RES pa.val) 48 1 0) with
        fwd := { t.fwd with snaps := TMap.put 0 t.fwd.snaps pa.val (t.bellOf48 n.toNat) } }.answered who O.ROUTE_SNAP 0)) ∧
  (∀ (pa : Fin 4096) (b : Nat) (s : State), s.Up → TMap.get 0 s.fwd.snaps pa.val = b → b ≠ 0 → b ≤ s.bell →
    exec (.routeSnapTake pa) s = .next { s.setRow O.ROUTE_SNAP_RES pa.val (b % 2 ^ 48 + 1 <<< 48 +
        (b2n (s.row O.ROUTE_HOLD pa.val != 0)) <<< 49 + (min (s.inDevice pa.val) 0xFFFFFFFF) <<< 64) with
      fwd := { s.fwd with snaps := TMap.put 0 s.fwd.snaps pa.val 0 } }) ∧
  (∀ (who : Path) (v : BitVec 32) (s t : State), s.Takes who O.ROUTE_FAILOVER_ACT t →
    exec (.routeFailoverClear who v) s =
      .next ((t.setOb O.ROUTE_FAILOVER_ACT (t.ob O.ROUTE_FAILOVER_ACT &&& (63 - v.toNat % 64))).answered who O.ROUTE_FAILOVER_ACT 0))

/-- A write of an object through the BAR0 window (R22, R23): an object of 8 bytes or fewer takes the value, one half of an 8-byte object
the half; a slot of a longer object or of a read-only one, and every slot of the object server in reset, takes nothing. Accesses that no register and no object slot takes complete: a read returns zero and a write is discarded, the one row of CTL_STAT
that counts them counts one, and bit 8 of CTL_ERR is raised (R24, R529). -/
def Obligations.WindowAccesses : Prop :=
  (∀ (idx : BitVec 16) (el : BitVec 8) (v : BitVec 64) (d : ObjDef) (oid : Nat) (s : State), s.fnUp 0 = true → s.crookUp = true → s.Up →
    oid = idx.toNat * 256 + el.toNat → objDef oid = some d → d.ty.inSlot = true → d.acc ≠ .ro → d.acc ≠ .cmd →
    exec (.objectWindowWrite idx el none v) s =
      .next ((s.writeValue .window oid 0 (v.toNat % 2 ^ (8 * d.ty.bytes)) d).1.served oid)) ∧
  (∀ (idx : BitVec 16) (el : BitVec 8) (up : Bool) (v : BitVec 64) (d : ObjDef) (oid : Nat) (s : State), s.fnUp 0 = true →
    s.crookUp = true → s.Up → oid = idx.toNat * 256 + el.toNat → objDef oid = some d → d.ty.inSlot = true → d.ty.bytes = 8 → d.acc = .rw →
    exec (.objectWindowWrite idx el (some up) v) s =
      .next ((s.writeValue .window oid 0 (setBits (s.rowValue oid 0) (if up then 32 else 0) 32 v.toNat) d).1.served oid)) ∧
  (∀ (idx : BitVec 16) (el : BitVec 8) (half : Option Bool) (v : BitVec 64) (d : ObjDef) (s : State),
    objDef (idx.toNat * 256 + el.toNat) = some d → d.ty.inSlot = false ∨ d.acc = .ro →
    exec (.objectWindowWrite idx el half v) s = .next s) ∧
  (∀ (idx : BitVec 16) (el : BitVec 8) (half : Option Bool) (v : BitVec 64) (s : State), s.serverInReset = true →
    crookSet (idx.toNat * 256 + el.toNat) = false → exec (.objectWindowWrite idx el half v) s = .next s) ∧
  (∀ (off : BitVec 26) (size : BitVec 13) (s : State), s.Awake → s.fnUp 0 = true →
    ((size.toNat = 4 ∨ size.toNat = 8) ∧ off.toNat % size.toNat = 0 → directReg off.toNat = false) →
    exec (.directRegisterUndefinedAccess off size false) s =
        .next (((s.count O.CTL_STAT 6 1).raise O.CTL_ERR 8).emit (.value 0)) ∧
    exec (.directRegisterUndefinedAccess off size true) s = .next ((s.count O.CTL_STAT 7 1).raise O.CTL_ERR 8)) ∧
  (∀ (off : BitVec 27) (size : BitVec 13) (s : State), s.crookUp = true → s.fnUp 0 = true →
    ((size.toNat = 4 ∨ size.toNat = 8) ∧ off.toNat % size.toNat = 0 → objDef (off.toNat / 2048 * 256 + off.toNat % 2048 / 8) = none) →
    exec (.objectWindowUndefinedAccess off size false) s =
        .next (((s.count O.CTL_STAT 4 1).raise O.CTL_ERR 8).emit (.value 0)) ∧
    exec (.objectWindowUndefinedAccess off size true) s = .next ((s.count O.CTL_STAT 5 1).raise O.CTL_ERR 8))

/-- Requests to the dictionary that are served, by a session, a core, the PF's mailbox or a virtual function's where the object is open
to it (R18, R493, R496 to R498): a read whose role suffices answers with the bytes from its offset on; a number written at its length is
judged by its object, a table's rows are written whole, and a string at its place; a command object takes its command, given as a number or
as bytes; a describe answers with the 16 bytes of the object. -/
def Obligations.DictionaryRequests : Prop :=
  ∀ (who : Path) (idx : BitVec 16) (el : BitVec 8) (off len : BitVec 32) (data : List Byte) (d : ObjDef) (oid : Nat)
    (F : State × Nat → Host.Outcome State Fault Refusal) (s u : State), who ≠ .window → (∀ v, who = .vfMailbox v → vfOpen oid = true) →
    s.crookUp = true → oid = idx.toNat * 256 + el.toNat → objDef oid = some d → u = s.count O.CTL_STAT 0 1 →
    (u.serverInReset && !crookSet oid) = false → len.toNat ≤ pathLimit who false → data.length ≤ pathLimit who false →
    F = (fun r => .next ((r.1.served oid).reply who r.2 (if r.2 = 0 then data.length else 0) [])) →
  (∀ (l : List Byte), d.rd.num ≤ u.roleOf who → d.ty = .table ∨ d.stringy = true ∨ d.ty = .time112 ∨ off.toNat = 0 →
    l = u.readBytes who.big oid d (u.sees who oid) off.toNat (if len.toNat = 0 then pathLimit who false else len.toNat) →
    exec (.dictionaryRead who idx el off len) s = .next (((u.readEffect oid).served oid).reply who 0 l.length l)) ∧
  (d.acc ≠ .ro → d.acc ≠ .cmd → d.wr.num ≤ u.roleOf who → d.ty ≠ .table → d.stringy = false → data.length = d.ty.bytes →
    exec (.dictionaryWrite who idx el 0 data) s = F (u.writeValue who oid 0 (leNum (commandBytes who.big d data)) d)) ∧
  (∀ (r : State × Nat × Nat), d.acc ≠ .ro → d.wr.num ≤ u.roleOf who → d.ty = .table → r = u.writeTable who who.big oid d off.toNat data →
    exec (.dictionaryWrite who idx el off data) s = .next ((r.1.served oid).reply who r.2.1 r.2.2 [])) ∧
  (d.acc ≠ .ro → d.acc ≠ .cmd → d.wr.num ≤ u.roleOf who → d.ty ≠ .table → d.stringy = true → data.length ≤ d.size →
    exec (.dictionaryWrite who idx el 0 data) s = F (u.writeString who oid d data)) ∧
  (d.acc = .cmd → d.wr.num ≤ u.roleOf who → d.ty ≠ .table → d.stringy = true → data.length = d.size →
    exec (.dictionaryCommand who idx el 0 data) s = F (u.command who oid data)) ∧
  (d.acc = .cmd → d.wr.num ≤ u.roleOf who → d.ty ≠ .table → d.stringy = false → data.length = d.ty.bytes →
    exec (.dictionaryCommand who idx el 0 data) s = F (u.command who oid (commandBytes who.big d data))) ∧
  exec (.dictionaryDescribe who idx el) s = .next ((u.served oid).reply who 0 16 d.describe)

/-- The mailbox of a function and the accesses that the object server does not answer (R493, R538, R539): a go takes the mailbox and its
answer lands at the end, which counts the function's completed requests; a go at a busy mailbox is counted and reported; a virtual
function may do nothing but read the objects that are open to it; after 100 ms without an answer the Crook completes with 0x08. -/
def Obligations.MailboxAndTimeout : Prop :=
  (∀ (f : Fin 33) (s : State), s.fnUp f.val = true → s.crookUp = true → (s.fn f.val).mbxBusy = true →
    exec (.mailboxGo f) s = .next ((s.count O.PCIE_STAT 6 1).raise O.PCIE_ERR 6)) ∧
  (∀ (f : Fin 33) (m : List Byte) (r : State × DictReply) (s : State), s.fnUp f.val = true → s.crookUp = true →
    (s.fn f.val).mbxBusy = false → m = padTo 16400 (s.fn f.val).mbxReq →
    r = s.requestBytes (if f.val = 0 then .pfMailbox else .vfMailbox (Fin.ofNat 33 f.val)) false (m.take (16 + leAt m 12 4)) →
    exec (.mailboxGo f) s = .next (r.1.setFn f.val { r.1.fn f.val with mbxBusy := true, mbxAnswer := some (r.2.bytes false) })) ∧
  (∀ (f : Fin 33) (x : PciFn) (a : List Byte) (s : State), x = s.fn f.val → x.mbxBusy = true → x.mbxAnswer = some a →
    x.mbxCfg.testBit 13 = false →
    exec (.mailboxDone f) s = .next ((s.setFn f.val { x with
      mbxBusy := false, mbxDone := (x.mbxDone + 1) % 2 ^ 32, mbxAnswer := none, mbxResp := a }).event [f.val] 0x0C 0 (leAt a 0 1))) ∧
  (∀ (v : Fin 33) (row : Nat) (s : State), s.sees (.vfMailbox v) O.FEAT_PASTURE_ACTIVE row = (row == s.vfPasture v.val) ∧
    s.sees (.vfMailbox v) O.COLL_RECENT row = s.recentOf row (s.vfPasture v.val)) ∧
  (∀ (v : Fin 33) (idx : BitVec 16) (el : BitVec 8) (off len : BitVec 32) (d : ObjDef) (oid row : Nat) (s u : State), s.crookUp = true → s.Up →
    oid = idx.toNat * 256 + el.toNat → oid = O.FEAT_PASTURE_ACTIVE ∨ oid = O.COLL_RECENT → objDef oid = some d → row < d.rows →
    off.toNat = row * d.size → len.toNat = d.size → u = s.count O.CTL_STAT 0 1 → u.Up → u.sees (.vfMailbox v) oid row = false →
    exec (.dictionaryRead (.vfMailbox v) idx el off len) s =
      .next ((u.served oid).reply (.vfMailbox v) 0 d.size (List.replicate d.size 0))) ∧
  (∀ (s u : State), s.crookUp = true → s.Up → u = (s.advanceTo (s.now + 100000000)).count O.CTL_STAT 1 1 →
    (u.ob O.CTL_ERR).testBit 3 = false →
    exec (.objectServerTimeout .cores) s =
      .next (({ u with ctl := { u.ctl with mainAlive := false } }.raise O.CTL_ERR 3 8).reply .cores 8 0 [])) ∧
  (∀ (i : Fin 8) (x : Session) (s : State), s.session i.val = some x →
    exec (.oxpinIdleTimeout i) s =
      .next (((s.advanceTo (x.lastNs + s.ob O.OXPIN_IDLE_S * 1000000000)).closeSession i.val).count O.OXPIN_STAT 5 1)) ∧
  (∀ (k : Fin 8) (v : BitVec 320) (s t : State), s.Takes .pfMailbox O.OXPIN_KEY t → bits v.toNat 256 8 = 2 →
    (∀ i, i < 8 → (t.setRow O.OXPIN_KEY k.val (bits v.toNat 0 264 + (bits v.toNat 264 1) <<< 264)).session i = none) → t.ctl.opens = [] →
    exec (.oxpinKeyWrite .pfMailbox k v) s = .next ((t.setRow O.OXPIN_KEY k.val (bits v.toNat 0 264 + (bits v.toNat 264 1) <<< 264)).answered
      .pfMailbox O.OXPIN_KEY 0)) ∧
  (∀ (k : Fin 8) (v : BitVec 320) (s : State), s.serves .cores O.OXPIN_KEY = true →
    exec (.oxpinKeyWrite .cores k v) s = .next ((s.taken .cores).answered .cores O.OXPIN_KEY 0x02))

/-- Host memory (R530, R534, R591): a read through BAR2 answers with the bytes of HBM that stand there and changes nothing, a write stores its bytes and no
others; a window's base that the size of the window does not divide is ignored; an access to a stack that sleeps answers Completer Abort, one
beyond the memory Unsupported Request, and both are counted; a failed host access faults its DMA transfer, or ends the operation whose record it was. -/
def Obligations.HostMemoryWindow : Prop :=
  (∀ (off : BitVec 36) (n : Fin 4097) (bad : Bool) (s : State), s.Awake → s.fnUp 0 = true → off.toNat < 2 ^ s.pcie.bar2Log →
    hpaExists (s.bar2Base + off.toNat) n.val = true → s.power.asleep.testBit (hpaStack (s.bar2Base + off.toNat)) = false →
    exec (.bar2Access off n none bad) s = .next (s.emit (.completion 0 (s.hbmPoisoned (s.bar2Base + off.toNat) n.val)
      (s.hbmRead (s.bar2Base + off.toNat) n.val)))) ∧
  (∀ (off : BitVec 36) (n : Fin 4097) (bad : Bool) (s : State), s.Awake → s.fnUp 0 = true → off.toNat < 2 ^ s.pcie.bar2Log →
    hpaExists (s.bar2Base + off.toNat) n.val = true → s.power.asleep.testBit (hpaStack (s.bar2Base + off.toNat)) = true →
    exec (.bar2Access off n none bad) s = .next (((s.count O.PCIE_STAT 3 1).raise O.PCIE_ERR 3).emit (.completion 4 false []))) ∧
  (∀ (off : BitVec 36) (n : Fin 4097) (bad : Bool) (s : State), s.Awake → s.fnUp 0 = true → off.toNat < 2 ^ s.pcie.bar2Log →
    hpaExists (s.bar2Base + off.toNat) n.val = false →
    exec (.bar2Access off n none bad) s = .next (((s.count O.PCIE_STAT 3 1).raise O.PCIE_ERR 3).emit (.completion 1 false []))) ∧
  (∀ (off : BitVec 36) (n : Fin 4097) (l : List Byte) (a : Nat) (s : State), s.tablesOk = true → s.Awake → s.fnUp 0 = true →
    off.toNat < 2 ^ s.pcie.bar2Log → a = s.bar2Base + off.toNat → hpaExists a l.length = true → s.power.asleep.testBit (hpaStack a) = false →
    ∃ t, exec (.bar2Access off n (some l) false) s = .next t ∧ t.hbmRead a l.length = l ∧
      (∀ b, b < a ∨ a + l.length ≤ b → t.hbmRead b 1 = s.hbmRead b 1) ∧ t.objs = s.objs ∧ t.host = s.host) ∧
  (∀ (v : BitVec 64) (s : State), s.Awake → (bits v.toNat 30 11 <<< 30) % 2 ^ s.pcie.bar2Log = 0 →
    (bits v.toNat 30 11 <<< 30) + 2 ^ s.pcie.bar2Log ≤ 2 ^ 41 →
    exec (.bar2BaseWrite v) s = .next (s.setReg 0x1E0008 (bits v.toNat 30 11 <<< 30))) ∧
  (∀ (v : BitVec 64) (s : State), s.Awake → (bits v.toNat 30 11 <<< 30) % 2 ^ s.pcie.bar2Log ≠ 0 →
    exec (.bar2BaseWrite v) s = .next ((s.count O.PCIE_STAT 3 1).raise O.PCIE_ERR 3)) ∧
  (∀ (r : Fin 64) (f : HostFault) (j : DmaJob) (s : State), s.Up → j = s.job r.val → j.live = true →
    exec (.hostAccessFault true r .operand f) s = .next ((s.hostFault f).dmaFault r.val f.status
      ((if j.buf.isNone then dmaSrc j.desc else dmaDst j.desc) + j.pos))) ∧
  (∀ (r : Fin 64) (c : Fin 256) (f : HostFault) (s : State), s.Up → (s.octx c.val).isOver = true → s.outputsWait c.val = false →
    exec (.hostAccessFault false r (.record c) f) s = .next (((s.hostFault f).ctxEnd c.val true).hostStop false r.val f))

/-- Events, vectors, rings and DOE (R533 to R537, R541, R542): an event of each kind is put to the functions that R537 names;
PCIE_EVQ_HEAD acknowledges the queue's message; an unmasked vector that was pending sends its message
once, and a masked one is kept; a ring changes hands at rest alone; DOE Discovery answers, and an object of another vendor is discarded. -/
def Obligations.HostInterface : Prop :=
  (∀ (kind : Fin 13) (f : Fin 33) (unit : BitVec 16) (arg : BitVec 32) (s : State), s.Awake → kind.val ≠ 0 →
    exec (.eventRaise kind f unit arg) s = .next (s.event (if kind.val = 12 then [f.val] else if kind.val = 1 ∨ kind.val = 2 then
      s.ringFns (kind.val == 2) unit.toNat else if kind.val = 5 then
      ((s.commRow unit.toNat).map (fun i => s.pastureFns (cmPasture (s.comm i)))).getD [0] else [0]) kind.val unit.toNat arg.toNat)) ∧
  (∀ (f : Fin 33) (v : BitVec 64) (s : State), s.Awake → s.fnUp f.val = true →
    exec (.evqHeadWrite f v) s = .next (s.setFn f.val { s.fn f.val with evqHead := v.toNat % 65536, unacked := false })) ∧
  (∀ (f : Fin 33) (v : Fin 2048) (x y : PciFn) (s : State), s.Awake → s.fnUp f.val = true → v.val < vectorsOf f.val → x = s.fn f.val →
    x.msixPend.contains v.val = false →
    y = { x with msix := TMap.put msixReset x.msix v.val (clearBit (TMap.get msixReset x.msix v.val) 96) } →
    exec (.msixUnmask f v) s = .next (s.setFn f.val y)) ∧
  (∀ (f : Fin 33) (v : Fin 2048) (x y : PciFn) (s t : State), s.Awake → s.fnUp f.val = true → v.val < vectorsOf f.val → x = s.fn f.val →
    x.msixPend.contains v.val = true → (clearBit (TMap.get msixReset x.msix v.val) 96).testBit 96 = false →
    y = { x with msix := TMap.put msixReset x.msix v.val (clearBit (TMap.get msixReset x.msix v.val) 96) } → t = s.setFn f.val y →
    exec (.msixUnmask f v) s =
      .next ((t.setFn f.val { t.fn f.val with msixPend := (t.fn f.val).msixPend.remove v.val }).sendVector f.val v.val)) ∧
  (vectorsOf 0 = 2048 ∧ ∀ f, f ≠ 0 → vectorsOf f = 64) ∧
  (∀ (f v : Nat) (s : State), vectorsOf f ≤ v → s.sendVector f v = s.count O.PCIE_STAT 5 1) ∧
  (∀ (f v e : Nat) (s : State), v < vectorsOf f → e = TMap.get msixReset (s.fn f).msix v → e.testBit 96 = true →
    s.sendVector f v = s.setFn f { s.fn f with msixPend := (s.fn f).msixPend.add v }) ∧
  (∀ (f v e : Nat) (s : State), v < vectorsOf f → e = TMap.get msixReset (s.fn f).msix v → e.testBit 96 = false →
    s.sendVector f v = s.emit (.msix f (bits e 0 64) (bits e 64 32))) ∧
  (∀ (k : Fin 96) (v : BitVec 64) (s : State), s.Awake → bits v.toNat 0 6 ≤ 32 →
    exec (.ringOwnerWrite k v) s = .next (if (s.ring (decide (48 ≤ k.val)) (k.val % 48)).resting then
      s.setReg (0x1E0200 + 8 * k.val) (bits v.toNat 0 6) else (s.count O.PCIE_STAT 7 1).raise O.PCIE_ERR 6)) ∧
  (∀ (s : State), s.Awake → s.fnUp 0 = true → s.crookUp = true →
    exec (.doeObjectReceive [1, 0, 0, 0, 3, 0, 0, 0, 0, 0, 0, 0]) s =
      .next ({ s with pcie := { s.pcie with doe := some (doeObject 0 [1, 0, 0, 1]) } }.emit (.doe (doeObject 0 [1, 0, 0, 1])))) ∧
  (∀ (m : List Byte) (s : State), s.Awake → leAt m 0 2 ≠ 1 →
    exec (.doeObjectReceive m) s = .next { s with pcie := { s.pcie with doe := none } }) ∧
  (∀ (s : State), s.Awake → exec .doeAbort s = .next { s with pcie := { s.pcie with doe := none } })

/-- The Criotte cores (R490, R491) and their firmware (R514 to R517): a kick starts the watchdog anew; when its period passes, the cores that run
halt, CTL_STAT counts it and bit 4 of CTL_ERR is raised; a halt stops the running cores; a restart without a loaded image is rejected. A push
starts a verification, is busy while an image is loading or loaded, and is not taken while the strap selects the network; an image with
the wrong magic fails at check 1; an image that passes is loaded at its offset and starts the cores; FW_READY is taken in state 4. -/
def Obligations.CriotteAndFirmware : Prop :=
  (∀ (who : Path) (w : Option Nat) (s t : State), s.Takes who O.CRIOTTE_WDT_KICK t →
    w = (if t.ob O.CRIOTTE_WDT_MS = 0 then none else some (t.now + t.ob O.CRIOTTE_WDT_MS * 1000000)) →
    exec (.criotteWdtKick who) s = .next ({ t with ctl := { t.ctl with wdtAt := w } }.answered who O.CRIOTTE_WDT_KICK 0)) ∧
  (∀ (t0 : Nat) (s u v : State), s.Up → s.ctl.wdtAt = some t0 → u = s.advanceTo t0 →
    v = ({ u with ctl := { u.ctl with wdtAt := none } }.coresFrom 1 0).count O.CTL_STAT 2 1 → (v.ob O.CTL_ERR).testBit 4 = false →
    exec .criotteWdtExpire s = .next ((v.raise O.CTL_ERR 4).event [0] 8 4 0)) ∧
  (∀ (who : Path) (s : State), s.serves who O.CRIOTTE_CMD = true →
    exec (.criotteHalt who) s = .next (((s.taken who).coresFrom 1 0).answered who O.CRIOTTE_CMD 0)) ∧
  (∀ (who : Path) (s : State), s.serves who O.CRIOTTE_CMD = true → (s.taken who).ob O.FW_STATE = 4 →
    exec (.criotteRestart who) s =
      .next (((s.taken who).fwRestart.setOb O.PWR_WAKE_FROM ((s.taken who).ob O.PWR_STATE)).answered who O.CRIOTTE_CMD 0)) ∧
  (∀ (who : Path) (s : State), s.serves who O.CRIOTTE_CMD = true → (s.taken who).ob O.FW_STATE < 3 →
    exec (.criotteRestart who) s = .next ((s.taken who).answered who O.CRIOTTE_CMD 0x0A)) ∧
  (∀ (who : Path) (n : BitVec 64) (s t : State), s.Takes who O.FW_PUSH t → t.ob O.FW_STATE = 0 → t.netBoot = false →
    exec (.fwPush who n) s = .next ({ t.setFw 2 with ctl := { (t.setFw 2).ctl with fwVerify := some n.toNat } }.answered who O.FW_PUSH 0)) ∧
  (∀ (who : Path) (n : BitVec 64) (s t : State), s.Takes who O.FW_PUSH t → 1 ≤ t.ob O.FW_STATE → t.ob O.FW_STATE ≤ 4 →
    exec (.fwPush who n) s = .next (t.answered who O.FW_PUSH 0x0D)) ∧
  (∀ (who : Path) (n : BitVec 64) (s t : State), s.Takes who O.FW_PUSH t → t.ob O.FW_STATE = 0 → t.netBoot = true →
    exec (.fwPush who n) s = .next (t.answered who O.FW_PUSH 0x09)) ∧
  (∀ (n : Nat) (s u : State), s.Up → s.ctl.fwVerify = some n → leAt (s.hbmRead stageBase 256) 0 4 ≠ 0x44563746 →
    u = { s with ctl := { s.ctl with fwVerify := none } } → exec .fwVerifyDone s = .next (u.fwFail 1)) ∧
  (∀ (n : Nat) (h g p : List Byte) (s u : State), s.Up → s.ctl.fwVerify = some n → h = s.hbmRead stageBase 256 →
    g = s.hbmRead (stageBase + 256) 2924 → p = s.hbmRead (stageBase + 4096) (min (fwLen h) (2 ^ 30)) →
    u = { s with ctl := { s.ctl with fwVerify := none } } →
    exec .fwVerifyDone s = .next (if u.fwCheck n h g p = 0 then ((u.fwLoad h g p).coresStart).setOb O.PWR_WAKE_FROM (u.ob O.PWR_STATE)
      else u.fwFail (u.fwCheck n h g p))) ∧
  (∀ (who : Path) (s t : State), s.Takes who O.FW_READY t → t.ob O.FW_STATE = 4 →
    exec (.fwReady who) s = .next ({ t with ctl := { t.ctl with ready := true } }.answered who O.FW_READY 0))

/-- Network boot (R518): a request goes out on both IP versions and is asked again a second later; data is stored where its offset says and
at no other byte, and holds the timer of 10 s; an end starts the verification; 10 s of silence start over; a device whose strap selects
no network does none of this. -/
def Obligations.NetworkBoot : Prop :=
  (∀ (t0 : Nat) (m : List Byte) (s u : State), s.bootWaits = true → s.ctl.netReqAt = some t0 → u = s.advanceTo t0 →
    m = beBytes 1 0x01 ++ beBytes 8 Config.serial.toNat ++ beBytes 6 mgmtMac →
    exec .bootReqSend s =
      .next (({ u with ctl := { u.ctl with netReqAt := some (u.now + 1000000000) } }.emit (.boot false m)).emit (.boot true m))) ∧
  (∀ (bytes data : List Byte) (off : Nat) (s : State), s.tablesOk = true → s.netBoot = true → s.ob O.FW_STATE = 1 → off = beAt bytes 1 8 →
    data = bytes.drop 9 → beAt bytes 0 1 = 0x02 → data ≠ [] → data.length ≤ 8192 → off + data.length ≤ s.common.resvGib * 2 ^ 30 →
    (s.ctl.netBlocks + 1) % 64 ≠ 0 →
    ∃ t, exec (.bootData bytes) s = .next t ∧ t.hbmRead (stageBase + off) data.length = data ∧
      (∀ a, a < stageBase + off ∨ stageBase + off + data.length ≤ a → t.hbmRead a 1 = s.hbmRead a 1) ∧
      t.ctl.netDataAt = some (s.now + 10000000000) ∧ t.ctl.netBlocks = s.ctl.netBlocks + 1 ∧ t.out = s.out ∧ t.objs = s.objs) ∧
  (∀ (bytes : List Byte) (s u : State), s.netBoot = true → s.crookUp = true → s.ob O.FW_STATE = 1 → beAt bytes 0 1 = 0x04 →
    u = s.bootAck.setFw 2 →
    exec (.bootEnd bytes) s = .next { u with ctl := { u.ctl with fwVerify := some (beAt bytes 1 8), netDataAt := none } }) ∧
  (∀ (t0 : Nat) (s u : State), s.ctl.netDataAt = some t0 → s.ob O.FW_STATE = 1 → u = (s.advanceTo t0).setFw 0 →
    exec .bootDataSilence s =
      .next { u with ctl := { u.ctl with netGot := [], netBlocks := 0, netDataAt := none, netReqAt := none } }) ∧
  (∀ (l : List Byte) (s : State), s.crookUp = true → beAt l 12 2 = 0x0806 → s.ob O.OXPIN_IPV4 ≠ 0 → beAt l 14 2 = 1 →
    beAt l 16 2 = 0x0800 → beAt l 20 2 = 1 →
    exec (.mgmtArpNdEcho l) s = .next (if beAt l 38 4 = s.ob O.OXPIN_IPV4 then
      s.emit (.mgmt (beBytes 6 (beAt l 6 6) ++ beBytes 6 mgmtMac ++ beBytes 2 0x0806 ++ (l.drop 14).take 6 ++ beBytes 2 2 ++ beBytes 6 mgmtMac ++
        beBytes 4 (s.ob O.OXPIN_IPV4) ++ (l.drop 22).take 10)) else s)) ∧
  (∀ (o : PendingOpen) (rest : List PendingOpen) (s u : State), s.ctl.opens = o :: rest → u = s.advanceTo o.expire →
    exec .oxpinOpenExpire s = .next ({ u with ctl := { u.ctl with opens := rest } }.count O.OXPIN_STAT 1 1)) ∧
  (∀ (k : Fin 8) (t0 : Nat) (s u : State), TMap.get 0 s.ctl.locked k.val = t0 → t0 ≠ 0 → u = s.advanceTo t0 →
    exec (.oxpinSlotUnlock k) s = .next { u with ctl := { u.ctl with locked := TMap.put 0 u.ctl.locked k.val 0 } }) ∧
  (∀ (who : Path) (i : BitVec 8) (s : State), s.serves who O.OXPIN_CLOSE = true →
    exec (.oxpinClose who i) s = .next (if 7 < i.toNat then (s.taken who).answered who O.OXPIN_CLOSE 0x0A
      else ((s.taken who).closeSession i.toNat).answered who O.OXPIN_CLOSE 0))

/-- Features (R509 to R513): FEAT_ACCEPT takes a vector within FEAT_DEVICE that holds the two bits that must be accepted, and rejects any
other; FEAT_APPLY waits for a tick at least 16 ahead, and is otherwise rejected with its status; at its tick the pasture's vector is
the one named; a flood carries FEAT_ACCEPT to the fabric and to this device's own row. COLL_COMM_OP (R384) deletes a communicator of which no
collective runs, with all that was kept of it. -/
def Obligations.FeatureCommands : Prop :=
  (∀ (who : Path) (v : BitVec 256) (s t : State), s.Takes who O.FEAT_ACCEPT t →
    v.toNat &&& t.ob O.FEAT_DEVICE = v.toNat → 0x300 &&& v.toNat = 0x300 →
    exec (.featAcceptWrite who v) s = .next ({ t.setOb O.FEAT_ACCEPT v.toNat with
      ctl := { t.ctl with featDue := t.ctl.featDue || v.toNat != t.ob O.FEAT_ACCEPT } }.answered who O.FEAT_ACCEPT 0)) ∧
  (∀ (who : Path) (v : BitVec 256) (s : State), s.serves who O.FEAT_ACCEPT = true → 0x300 &&& v.toNat ≠ 0x300 →
    exec (.featAcceptWrite who v) s = .next ((s.taken who).answered who O.FEAT_ACCEPT 0x0A)) ∧
  (∀ (who : Path) (p : BitVec 16) (n : BitVec 64) (v : BitVec 256) (s t : State), s.Takes who O.FEAT_APPLY t →
    p.toNat < 4096 → v.toNat &&& t.membersAccept p.toNat = v.toNat → v.toNat &&& t.ob O.FEAT_ACCEPT = v.toNat → t.bell + 16 ≤ n.toNat →
    TMap.get none t.ctl.apply p.toNat = none →
    exec (.featApply who p n v) s = .next ({ t.setOb O.FEAT_APPLY_STATUS 0 with
      ctl := { t.ctl with apply := TMap.put none t.ctl.apply p.toNat (some (n.toNat, v.toNat)) } }.answered who O.FEAT_APPLY 0)) ∧
  (∀ (who : Path) (p : BitVec 16) (n : BitVec 64) (v : BitVec 256) (s : State), s.serves who O.FEAT_APPLY = true →
    4096 ≤ p.toNat ∨ n.toNat < (s.taken who).bell + 16 →
    exec (.featApply who p n v) s = .next (((s.taken who).setOb O.FEAT_APPLY_STATUS 0x0A).answered who O.FEAT_APPLY 0x0A)) ∧
  (∀ (p : Fin 4096) (n v : Nat) (s : State), s.Up → TMap.get none s.ctl.apply p.val = some (n, v) →
    exec (.featApplyTake p) s = .next (if n ≤ s.bell then { s.setRow O.FEAT_PASTURE_ACTIVE p.val v with
      ctl := { s.ctl with apply := TMap.put none s.ctl.apply p.val none } } else s)) ∧
  (∀ (who : Path) (id : BitVec 16) (row : Nat) (s t u : State), s.Takes who O.COLL_COMM_OP t →
    t.commRow id.toNat = some row → t.commBusy row = false → u = (t.setRow O.COLL_COMM_TABLE row 0).setOb O.COLL_COMM_STATUS 0 →
    exec (.collCommDelete who id) s = .next ({ u with coll := { u.coll with
      posts := u.coll.posts.filter (fun p => p.comm != id.toNat), leads := u.coll.leads.filter (fun p => p.comm != id.toNat)
      ended := u.coll.ended.filter (fun p => p.1 != id.toNat), notes := u.coll.notes.filter (fun p => p.1 != row) } }.answered
        who O.COLL_COMM_OP 0)) ∧
  (∀ (s w u : State), s.Up → s.ctl.featDue = true →
    w = s.floodIssue 0x0E s.own 64 Config.serial.toNat s.bell 0 (beBytes 32 (s.ob O.FEAT_ACCEPT)) →
    u = w.featuresTake w.own (s.ob O.FEAT_ACCEPT) →
    exec .featuresFlood s = .next { u with ctl := { u.ctl with featSent := u.bell, featDue := false } })

/-- Oxpin's sessions open (R500 to R504): an open of an empty slot, or of a locked one, is refused and counted; an accepted one draws a
session and a nonce and waits 1 s for its proof; a proof under a locked slot, or one that fails, is refused, and one that holds opens
the first free row with the role that the slot allows. The session number and the nonce are free values (log entry 6). -/
def Obligations.OxpinOpens : Prop :=
  (∀ (field : Bool) (m : List Byte) (s : State), s.OxReceives field 0x01 m → (oxPayload m).length = 35 →
    s.slotValid (beAt (oxPayload m) 0 1) = false →
    exec (.oxpinOpenReq field m) s = .next ((s.count O.OXPIN_STAT 1 1).oxPlain field 0x20 0 (beBytes 1 0x0C))) ∧
  (∀ (field : Bool) (m : List Byte) (s : State), s.OxReceives field 0x01 m → (oxPayload m).length = 35 →
    s.slotValid (beAt (oxPayload m) 0 1) = true → s.slotLocked (beAt (oxPayload m) 0 1) = true →
    exec (.oxpinOpenReq field m) s = .next (((s.count O.OXPIN_STAT 1 1).raise O.CTL_ERR 0 0x0B).oxPlain field 0x20 0 (beBytes 1 0x0B))) ∧
  (∀ (field : Bool) (m p ns mac : List Byte) (k e ident : Nat) (s u : State), s.OxReceives field 0x01 m → p = oxPayload m →
    p.length = 35 → k = beAt p 0 1 → s.slotValid k = true → s.slotLocked k = false → s.sessionsFull = false → 1 ≤ beAt p 1 1 →
    beAt p 1 1 ≤ 3 → e = beAt p 2 1 → e ≤ 1 → (s.ob O.OXPIN_ENC_REQUIRED = 1 → e = 1) → ns = beBytes 32 (Config.freeNonce s.free).toNat →
    ident = 1 + (Config.freeSession s.free).toNat % (2 ^ 32 - 1) →
    mac = beBytes 48 (Config.hmac384 (s.slotKey k) ([0x4F, 0x58, 0x50, 0x49, 0x4E, 0x2D, 0x53] ++ p.drop 3 ++ ns ++ beBytes 4 ident ++
      beBytes 1 (beAt p 1 1) ++ beBytes 1 e ++ beBytes 8 Config.serial.toNat)).toNat →
    u = { s.draw with ctl := { s.ctl with opens := s.ctl.opens ++ [{ ident := ident, slot := k, role := beAt p 1 1, enc := e == 1
                                                                     nonceC := p.drop 3, nonceS := ns, expire := s.now + 1000000000 }] } } →
    exec (.oxpinOpenReq field m) s =
      .next (u.oxPlain field 0x02 ident (beBytes 4 ident ++ ns ++ beBytes 8 Config.serial.toNat ++ mac))) ∧
  (∀ (field : Bool) (m : List Byte) (o : PendingOpen) (s u : State), s.OxReceives field 0x03 m →
    s.ctl.opens.find? (fun o => o.ident == oxSession m && decide (s.now ≤ o.expire)) = some o →
    u = { s with ctl := { s.ctl with opens := s.ctl.opens.filter (fun x => x.ident != o.ident) } } →
    (u.slotLocked o.slot = true → exec (.oxpinOpenProof field m) s =
      .next (((u.count O.OXPIN_STAT 1 1).raise O.CTL_ERR 0 0x0B).oxPlain field 0x04 o.ident (beBytes 1 0x0B))) ∧
    (∀ mac, mac = beBytes 48 (Config.hmac384 (u.slotKey o.slot) ([0x4F, 0x58, 0x50, 0x49, 0x4E, 0x2D, 0x43] ++ o.nonceS ++ o.nonceC ++
      beBytes 4 o.ident ++ beBytes 1 o.role ++ beBytes 1 (b2n o.enc))).toNat → u.slotLocked o.slot = false →
      (oxPayload m ≠ mac → exec (.oxpinOpenProof field m) s = .next ((u.proofFailed o.slot).oxPlain field 0x04 o.ident (beBytes 1 0x0B))) ∧
      (∀ i v, oxPayload m = mac → (List.range 8).find? (fun i => (u.session i).isNone) = some i →
        v = (u.setSession i (some (u.sessionOf o))).count O.OXPIN_STAT 0 1 → exec (.oxpinOpenProof field m) s = .next
          (({ v with ctl := { v.ctl with fails := TMap.put 0 v.ctl.fails o.slot 0 } }).oxPlain field 0x04 o.ident (beBytes 1 0)))))

/-- Oxpin's sessions in use (R500, R501, R506 to R508): a message whose MAC does not verify is discarded and counted, one that repeats
a sequence number likewise, and the session stays; a message of no open session is discarded; a request that passes is executed and
its response kept, and a repeat of it is answered with that response again; an SPDM message is answered, a close message closes. -/
def Obligations.OxpinSessions : Prop :=
  (∀ (field : Bool) (m : List Byte) (i : Nat) (x : Session) (s u : State), s.sessionRow (oxSession m) = some (i, x) →
    m.drop (24 + oxLen m) ≠ x.macOf m → u = (s.count O.OXPIN_STAT 2 1).raise O.CTL_ERR 1 →
    (s.OxReceives false 0x1F m → exec (.oxpinCloseMessage m) s = .next u) ∧
    (s.OxReceives field 0x13 m → exec (.oxpinSpdm field m) s = .next u) ∧ (s.OxReceives field 0x10 m → exec (.oxpinRequest field m) s = .next u)) ∧
  (∀ (field : Bool) (m : List Byte) (s : State), s.crookUp = true → s.sessionRow (oxSession m) = none →
    exec (.oxpinCloseMessage m) s = .next s ∧ exec (.oxpinSpdm field m) s = .next s ∧ exec (.oxpinRequest field m) s = .next s) ∧
  (∀ (m : List Byte) (i : Nat) (x : Session) (l : List Byte) (s : State), s.OxReceives false 0x1F m → s.OxVerifies m i x l →
    (oxSeq m ≤ x.rxHigh → exec (.oxpinCloseMessage m) s = .next ((s.count O.OXPIN_STAT 3 1).raise O.CTL_ERR 1)) ∧
    (x.rxHigh < oxSeq m → exec (.oxpinCloseMessage m) s = .next ((s.setSession i (some (s.oxMoved x m))).closeSession i))) ∧
  (∀ (field : Bool) (m : List Byte) (i : Nat) (x y : Session) (l : List Byte) (s u : State), s.OxReceives field 0x13 m → s.OxVerifies m i x l →
    x.rxHigh < oxSeq m → y = s.oxMoved x m → u = s.setSession i (some y) →
    exec (.oxpinSpdm field m) s = .next (u.oxSend field i y 0x14 (Config.spdm u.attested l)).1) ∧
  (∀ (field : Bool) (m : List Byte) (i : Nat) (x : Session) (l : List Byte) (k : Nat × List Byte) (s : State), s.OxReceives field 0x10 m →
    s.OxVerifies m i x l → oxSeq m ≤ x.rxHigh → x.kept.find? (fun k => k.1 == oxSeq m) = some k →
    exec (.oxpinRequest field m) s = .next ((s.setSession i (some (s.oxMoved x m))).emit (.oxpin field k.2))) ∧
  (∀ (field : Bool) (m : List Byte) (i : Nat) (x y z : Session) (l : List Byte) (q : State × DictReply) (t : State × List Byte) (s : State),
    s.OxReceives field 0x10 m → s.OxVerifies m i x l → x.rxHigh < oxSeq m → x.kept.find? (fun k => k.1 == oxSeq m) = none →
    q = (s.setSession i (some (s.oxMoved x m))).requestBytes (.oxpin (Fin.ofNat 8 i)) field l →
    q.1.session i = some y → y.ident = x.ident → t = q.1.oxSend field i y 0x11 (q.2.bytes true) → t.1.session i = some z →
    exec (.oxpinRequest field m) s = .next (t.1.setSession i (some { z with kept := ((oxSeq m, t.2) :: z.kept).take 8 })))

/-- Ticks and what they carry (R161, R235, R246, R247, R446 to R450, R453): when the next boundary comes, its tick is raised; where device time has passed
boundaries already, the tick that contains it; an overrun of a budget is counted, kept and reported, and marks the queue records where it is theirs; a window
of pairs closes; a new HEFT_AGE_SHIFT restamps, and one above 20 is rejected; a route flip is taken back before its tick. -/
def Obligations.TicksAndOverruns : Prop :=
  (∀ (s : State), s.Up → s.time.lastBell < s.bellAt s.devNs → exec .bellTick s = .next (s.raiseTick (s.bellAt s.devNs))) ∧
  (∀ (s u : State), s.Up → s.bellAt s.devNs ≤ s.time.lastBell → u = s.advanceDev (s.bellStart (s.time.lastBell + 1) * devUnit) →
    u.time.lastBell < u.bellAt u.devNs → exec .bellTick s = .next (u.raiseTick (u.bellAt u.devNs))) ∧
  (∀ (c : Fin 8) (late : BitVec 32) (s r u v w : State), s.Up → (c.val = 6 → s.droveOverruns.2 = true) →
    r = (if c.val = 6 then s.droveOverruns.1 else s) → u = (r.count O.BELL_OVERRUNS c.val 1).tally 0x0003 0 →
    v = (u.raise O.BELL_ERR 0).setBlob O.BELL_LAST_OVERRUN (leBytes 16 (u.bell % 2 ^ 64 + c.val <<< 64 + late.toNat <<< 96)) →
    w = { v with time := { v.time with overNow := setBit v.time.overNow c.val } } →
    exec (.bellOverrun c late) s = .next (if c.val = 2 then w.qrecLate.raise O.EGR_ERR 5 else w)) ∧
  (∀ (s : State), s.Up → s.ob O.CIRC_HP_WINDOW ≠ 0 → s.bell % s.ob O.CIRC_HP_WINDOW = 0 → s.circ.closed ≠ s.bell + 1 →
    ∃ t, exec .heavyPairWindowClose s = .next t ∧ t.circ = { hp := [], closed := s.bell + 1 } ∧ t.blocks = s.blocks ∧ t.fold = s.fold) ∧
  (∀ (who : Path) (v : BitVec 32) (s t u : State), s.Takes who O.CIRC_HP_WINDOW t → v.toNat ≤ 1048576 → u = t.setOb O.CIRC_HP_WINDOW v.toNat →
    exec (.circHpWindowWrite who v) s =
      .next ((if v = 0 then { u with circ := { u.circ with hp := [] } } else u).answered who O.CIRC_HP_WINDOW 0)) ∧
  (∀ (who : Path) (v : BitVec 8) (s t : State), s.Takes who O.HEFT_AGE_SHIFT t → v.toNat ≤ 20 →
    v.toNat ≠ t.ob O.HEFT_AGE_SHIFT →
    exec (.heftAgeShiftWrite who v) s = .next ((t.setOb O.HEFT_AGE_SHIFT v.toNat).heftRestamp.answered who O.HEFT_AGE_SHIFT 0)) ∧
  (∀ (who : Path) (v : BitVec 8) (s : State), s.serves who O.HEFT_AGE_SHIFT = true → 20 < v.toNat →
    exec (.heftAgeShiftWrite who v) s = .next ((s.taken who).answered who O.HEFT_AGE_SHIFT 0x0A)) ∧
  (∀ (who : Path) (pa : Fin 4096) (s t : State), s.Takes who O.ROUTE_FLIP_CANCEL t →
    exec (.routeFlipCancel who pa) s = .next (if t.bell < TMap.get 0 t.fwd.flips pa.val then
      { t with fwd := { t.fwd with flips := TMap.put 0 t.fwd.flips pa.val 0 } }.answered who O.ROUTE_FLIP_CANCEL 0
      else t.answered who O.ROUTE_FLIP_CANCEL 0x0A))

/-- What waits for a named instant (R170, R451, R452, R454): BELL_SWITCH names an instant at least 1 ms ahead and is rejected when one stands, when it changes
nothing or comes too soon; 0 takes it back; at the instant the new period, origin and base take effect together; a write of BELL_BASE
does the same at once, and is rejected while a switch stands; a route flip waits for its tick and is carried out at it. -/
def Obligations.PeriodCommands : Prop :=
  (∀ (k : Nat) (s : State), s.ob O.BELL_PERIOD = k → k ≤ 5 → s.period = 2048 * 2 ^ k) ∧
  (State.reset.ob O.BELL_PERIOD = 2 ∧ State.reset.period = 8192) ∧
  (∀ (who : Path) (v : BitVec 64) (s t : State), s.Takes who O.BELL_SWITCH t → v.toNat ≠ 0 →
    t.devNs + 1000000 ≤ v.toNat * 65536 → t.ob O.BELL_PERIOD_NEXT ≠ t.ob O.BELL_PERIOD → t.time.switch = none →
    exec (.bellSwitch who v) s = .next ({ t with time := { t.time with
      switch := some (v.toNat * 65536, t.ob O.BELL_PERIOD_NEXT) } }.answered who O.BELL_SWITCH 0)) ∧
  (∀ (who : Path) (v : BitVec 64) (s t : State), s.Takes who O.BELL_SWITCH t → v.toNat ≠ 0 →
    v.toNat * 65536 < t.devNs + 1000000 ∨ t.ob O.BELL_PERIOD_NEXT = t.ob O.BELL_PERIOD ∨ t.time.switch.isSome = true →
    exec (.bellSwitch who v) s = .next (t.answered who O.BELL_SWITCH 0x0A)) ∧
  (∀ (who : Path) (s t : State), s.Takes who O.BELL_SWITCH t →
    exec (.bellSwitch who 0) s = .next ({ t with time := { t.time with switch := none } }.answered who O.BELL_SWITCH 0)) ∧
  (∀ (a p n : Nat) (s u v w : State), s.Up → s.time.switch = some (a, p) → u = s.advanceDev (a * devUnit) → n = u.bellAt a →
    v = ({ u with time := { u.time with t0 := a, n0 := n, switch := none } }) →
    w = (((((v.setOb O.BELL_PERIOD p).setOb O.BELL_ORIGIN a).setOb O.BELL_BASE n).count O.BELL_STAT 3 1).cancelBell.startsLate).missReset.heftRestamp →
    exec .periodSwitch s = .next (if w.ob O.CIRC_HP_WINDOW = 0 then w else w.heavyReport).stepTicks) ∧
  (∀ (who : Path) (v : BitVec 64) (s t u : State), s.Takes who O.BELL_BASE t → t.time.switch = none →
    u = (t.setOb O.BELL_BASE v.toNat).setOb O.BELL_PERIOD (t.ob O.BELL_PERIOD_NEXT) →
    exec (.bellBaseWrite who v) s = .next ({ u with time := { u.time with
      t0 := u.ob O.BELL_ORIGIN, n0 := v.toNat } }.stepTicks.answered who O.BELL_BASE 0)) ∧
  (∀ (who : Path) (v : BitVec 64) (s t : State), s.Takes who O.BELL_BASE t → t.time.switch.isSome = true →
    exec (.bellBaseWrite who v) s = .next (t.answered who O.BELL_BASE 0x0A)) ∧
  (∀ (who : Path) (pa : Fin 4096) (n : BitVec 48) (s t : State), s.Takes who O.ROUTE_FLIP t →
    t.bell < t.bellOf48 n.toNat → TMap.get 0 t.fwd.flips pa.val = 0 → t.profileUsed (t.otherProfile pa.val) = true →
    exec (.routeFlip who pa n) s =
      .next ({ t with fwd := { t.fwd with flips := TMap.put 0 t.fwd.flips pa.val (t.bellOf48 n.toNat) } }.answered who O.ROUTE_FLIP 0)) ∧
  (∀ (pa : Fin 4096) (r e : Nat) (s : State), s.Up → TMap.get 0 s.fwd.flips pa.val ≠ 0 → TMap.get 0 s.fwd.flips pa.val ≤ s.bell →
    s.row O.ROUTE_PASTURE pa.val = r → e = 1 - bits r 32 1 →
    exec (.routeFlipApply pa) s = .next { s.setRow O.ROUTE_PASTURE pa.val (setBits (setBits r 32 1 e) 33 2 (if e = 0 then 1 else 2)) with
      fwd := { s.fwd with flips := TMap.put 0 s.fwd.flips pa.val 0 } })

/-- Device time and what waits for it (R111, R115, R121, R178, R425, R429 to R432, R455, R459): a set of device time with no whole nanoseconds of a second is rejected, one that has them
steps device time and starts acquisition anew; BWTH_SEL takes a locked domain alone; a domain whose samples stop goes to holdover, one that is its own
source stays; a read of the time's low half latches the high half; a full Stile FIFO of a class discards and counts; a refill and the next
slot leave the frames stored; a launch time that lies ahead is waited for, and a reorder context whose time is up goes on at the nearest frame it holds. -/
def Obligations.DeviceTime : Prop :=
  (∀ (who : Path) (v : BitVec 112) (s t : State), s.Takes who O.BWTH_SET t → bits v.toNat 16 32 < 1000000000 →
    t.ob (domOid O.DOM_SRC_KIND 0) ≠ 4 → t.ob (domOid O.DOM_SRC_KIND 1) ≠ 4 →
    exec (.bwthSet who v) s = .next (({ t with time := { t.time with everLock := false, stepped := false } }.stepTime (devOf v.toNat)).answered
      who O.BWTH_SET 0)) ∧
  (∀ (who : Path) (v : BitVec 112) (s : State), s.serves who O.BWTH_SET = true → 1000000000 ≤ bits v.toNat 16 32 →
    exec (.bwthSet who v) s = .next ((s.taken who).answered who O.BWTH_SET 0x0A)) ∧
  (∀ (who : Path) (v : BitVec 8) (s t : State), s.Takes who O.BWTH_SEL t → v.toNat ≤ 1 → t.domState v.toNat = 2 →
    exec (.bwthSelWrite who v) s = .next ((if v.toNat = t.ob O.BWTH_SEL then t else t.domSwitch v.toNat).answered who O.BWTH_SEL 0)) ∧
  (∀ (who : Path) (v : BitVec 8) (s t : State), s.Takes who O.BWTH_SEL t → 1 < v.toNat ∨ t.domState v.toNat ≠ 2 →
    exec (.bwthSelWrite who v) s = .next (t.answered who O.BWTH_SEL 0x0A)) ∧
  (∀ (x : Fin 2) (s : State), s.Awake → (s.domState x.val = 1 ∨ s.domState x.val = 2) → s.ob (domOid O.DOM_SRC_KIND x.val) ≠ 4 →
    exec (.domainSampleLoss x) s =
      .next ((s.advanceTo ((s.domain x.val).lastNs + s.lossNs x.val)).domLeave x.val 3)) ∧
  (∀ (s : State), s.Awake → exec .bwthTimeRead s =
    .next (({ s with time := { s.time with hiLatch := s.devNs / 1000000000 % 2 ^ 64 } }).emit (.value s.timeLo))) ∧
  (∀ (cls : Fin 16) (s : State), s.Up → cls.val < 12 → exec (.stileFifoOverrun cls) s =
    .next (((s.count O.STILE_STAT cls.val 1).holdCount (0x1B0100 + 8 * cls.val) 0 1).raise O.STILE_ERR cls.val)) ∧
  (∀ (s : State), s.Up → ∃ t, exec .tokenBucketRefill s = .next t ∧ t.objs = s.objs ∧ t.now = s.now ∧ t.blocks = s.blocks ∧
    t.fold.copies = s.fold.copies ∧ t.fold.voqs = s.fold.voqs) ∧
  (∀ (qid : Fin 12480) (id t0 : Nat) (s : State), s.Up → s.headOf qid.val = some id → (s.copy id).frame.launch = some t0 →
    8 ≤ qid.val % 12 → s.reached t0 = false →
    exec (.launchTimeDue qid) s =
      .next (s.advanceDev ((s.devNs + (t64Ns t0 + t64Span - t64Ns s.t64) % t64Span) * devUnit))) ∧
  (∀ (s : State), s.Up → ∃ t, exec .bellSlotOpen s = .next t ∧ t.fold = s.fold ∧ t.blocks = s.blocks ∧ s.now ≤ t.now) ∧
  (∀ (src : Fin 512) (cls : Fin 8) (t0 : Nat) (h : Nat × Nat) (s u : State), s.Up →
    (s.ctx (8 * src.val + cls.val)).deadline = some t0 → (s.ctx (8 * src.val + cls.val)).nearest = some h → u = s.advanceTo t0 →
    exec (.reorderTimeout src cls) s = .next (u.reorderExpire (8 * src.val + cls.val) (u.copy h.2).die))

/-- The PPS pins, TIME_SYNC and snapshots (R436, R437, R444, R445, R554, R555): an edge is stamped with device time less the compensation and counted; 1.1 s without
another is counted and reported; the output rises at the next second and falls after its width; a TIME_SYNC is taken on a link that is up or
ctrl; a snapshot waits for a tick that has not begun, or for the cycle announced 64 cycles ahead, and is taken there. -/
def Obligations.PulsePerSecond : Prop :=
  (∀ (c : Int) (u s w : State), s.Awake → c = sint 32 (s.ob O.BWTH_PPS_IN_COMP_NS) * ((devUnit : Nat) : Int) →
    u = { s with time := { s.time with dev := (((s.time.dev : Nat) : Int) - c).toNat } } →
    w = (s.setBlob O.BWTH_PPS_IN_TS (leBytes 12 u.t96)).count O.BWTH_STAT 6 1 →
    w.ob (domOid O.DOM_SRC_KIND 0) ≠ 3 → w.ob (domOid O.DOM_SRC_KIND 1) ≠ 3 →
    exec .ppsInEdge s = .next { w with time := { w.time with ppsInAt := some w.now } }) ∧
  (∀ (t0 : Nat) (s u : State), s.Awake → s.time.ppsInAt = some t0 → u = s.advanceTo (t0 + 1100000000) →
    exec .ppsInMissing s = .next (({ u with time := { u.time with ppsInAt := none } }.count O.BWTH_STAT 7 1).raise O.BWTH_ERR 5)) ∧
  (∀ (s u : State), s.Awake → s.ppsDriven = true → s.time.ppsOut = false → u = s.advanceDev (s.ppsNext.2 * devUnit) →
    exec .ppsOutRise s = .next { u with time := { u.time with
      ppsOut := true, ppsRoseAt := u.now, ppsSecond := some s.ppsNext.1.toNat } }) ∧
  (∀ (s u : State), s.Awake → s.time.ppsOut = true → u = s.advanceTo (s.time.ppsRoseAt + s.ob O.BWTH_PPS_OUT_WIDTH_US * 1000) →
    exec .ppsOutFall s = .next { u with time := { u.time with ppsOut := false } }) ∧
  (∀ (who : Path) (b : BitVec 48) (s t : State), s.Takes who O.TALLY_SNAP_AT t → t.obsv.snapAt = none →
    t.bell < t.bellOf48 b.toNat →
    exec (.tallySnapAt who b) s = .next ({ t with obsv := { t.obsv with snapAt := some (t.bellOf48 b.toNat) } }.answered who O.TALLY_SNAP_AT 0)) ∧
  (∀ (who : Path) (b : BitVec 48) (s t : State), s.Takes who O.TALLY_SNAP_AT t →
    t.obsv.snapAt.isSome = true ∨ t.bellOf48 b.toNat ≤ t.bell →
    exec (.tallySnapAt who b) s = .next (t.answered who O.TALLY_SNAP_AT 0x0A)) ∧
  (∀ (who : Path) (s t : State), s.Takes who O.TALLY_SNAP_NOW t →
    exec (.tallySnapNow who) s = .next ((if t.obsv.nowAt.contains (t.now + 32) then t
      else { t with obsv := { t.obsv with nowAt := t.obsv.nowAt ++ [t.now + 32] } }).answered who O.TALLY_SNAP_NOW 0)) ∧
  (∀ (t0 : Nat) (rest : List Nat) (s u : State), s.Up → s.obsv.nowAt = t0 :: rest → u = s.advanceTo t0 →
    exec .tallySnapshot s = .next ({ u with obsv := { u.obsv with nowAt := rest } }.snapshot 4)) ∧
  (∀ (b : Fin 128) (bytes : List Byte) (s : State), s.Up → s.isLink b.val = true → s.portState (8 * b.val) = 5 ∨ s.portState (8 * b.val) = 6 →
    hOp (beAt bytes 0 32) = 0x04 → bytes.length = 96 →
    exec (.timeSyncReceive b bytes) s = .next (s.timeSyncTake b.val (beAt bytes 32 64)))

/-- PTP (R430, R433, R434): a master sends Sync, with the time in it or in a follow-up, and counts it; a listener
sends a delay request of the domain's mechanism and remembers it; a one-step Sync that comes to a listener is counted and completes with
its corrected time, and a message the hardware does not process goes to the cores; messages of a port whose roles are off are forwarded
as any frame, and a management port's are dropped. -/
def Obligations.PtpAndTimeSync : Prop :=
  (∀ (port : Fin 1025) (x : Fin 2) (n : Nat) (s u : State), s.Up → s.ptpUp port.val = true → s.ptpRole port.val x.val = 1 →
    n = (s.ptpPort port.val x.val).nextSeq → u = (s.modPtp port.val x.val (fun q => { q with nextSeq := (n + 1) % 65536 })).count O.BWTH_STAT 1 1 →
    exec (.ptpSyncSend port x) s = .next (if (s.row O.BWTH_PORT port.val).testBit 4 = true then u.ptpSend port.val x.val 0 n false 0 (wireOf (s.domTime x.val))
      else (u.ptpSend port.val x.val 0 n true 0 (List.replicate 10 0)).ptpSend port.val x.val 8 n false 0 (wireOf (s.domTime x.val)))) ∧
  (∀ (port : Fin 1025) (x : Fin 2) (n : Nat) (s u : State), s.Up → s.ptpUp port.val = true → s.ptpRole port.val x.val = 2 →
    s.ob (domOid O.DOM_DELAY_MECH x.val) = 1 → n = (s.ptpPort port.val x.val).nextSeq →
    u = s.modPtp port.val x.val (fun q => { q with nextSeq := (n + 1) % 65536, req := some (n, s.now * devUnit), resp := none }) →
    exec (.ptpDelayReqSend port x) s = .next (u.ptpSend port.val x.val 2 n false 0 (List.replicate 20 0))) ∧
  (∀ (port : Fin 1025) (x : Fin 2) (s : State), s.ptpRole port.val x.val = 0 →
    exec (.ptpSyncSend port x) s = .next s ∧ exec (.ptpDelayReqSend port x) s = .next s) ∧
  (∀ (port : Fin 1025) (bytes m : List Byte) (o : Nat) (p : Parsed) (s : State), s.Up → s.ptpUp port.val = true →
    p = parseEth (s.ob O.FWD_ETHERTYPE) bytes → p.ptp = some o → m = bytes.drop o → s.ptpRole port.val 0 = 0 → s.ptpRole port.val 1 = 0 →
    (beAt m 0 1 % 16 < 4 → exec (.ptpEventReceive port bytes) s =
      .next (if port.val = 1024 then s else s.ingress port.val bytes true none)) ∧
    (4 ≤ beAt m 0 1 % 16 → exec (.ptpGeneralMessageReceive port bytes) s =
      .next (if port.val = 1024 then s else s.ingress port.val bytes true none))) ∧
  (∀ (port : Fin 1025) (bytes m : List Byte) (o : Nat) (p : Parsed) (s u : State), s.Up → s.ptpUp port.val = true →
    p = parseEth (s.ob O.FWD_ETHERTYPE) bytes → p.ptp = some o → m = bytes.drop o → s.ptpRole port.val 0 ≠ 0 →
    beAt m 4 1 = s.ob (domOid O.DOM_NUMBER 0) → s.ob (domOid O.DOM_NUMBER 1) ≠ s.ob (domOid O.DOM_NUMBER 0) →
    u = (if port.val = 1024 then s else (s.tally 0x0100 port.val).tally 0x0101 port.val bytes.length) →
    (beAt m 0 1 % 16 = 0 → u.ptpRole port.val 0 = 2 → u.ob (domOid O.DOM_TRANSPORT 0) = (if p.ipVer = 4 then 1 else if p.ipVer = 6 then 2 else 0) →
      (beAt m 6 2).testBit 9 = false → exec (.ptpEventReceive port bytes) s =
        .next ((u.count O.BWTH_STAT 0 1).ptpSyncDone port.val 0 (ofWire m 34 + correctionOf m) (u.now * devUnit))) ∧
    (11 ≤ beAt m 0 1 % 16 → exec (.ptpGeneralMessageReceive port bytes) s =
      .next (u.emit (.cores (port.val / 64 % 16) { bytes := bytes, port := port.val, rx := time112 u.time.dev }))))

/-- Tally (R548, R549, R551, R558, R570, R571): a row of TALLY_CFG that may stand clears its counter and takes effect, one that names no event,
no unit, or a unit of another die, or that chains an even counter, is rejected; a clear takes its range of counters and no other, or is
rejected; a ring entry's bytes stand where the ring's head says, and a fault turns the ring off. -/
def Obligations.TallyCommands : Prop :=
  (∀ (who : Path) (n : Fin 8192) (v : BitVec 64) (s t : State), s.Takes who O.TALLY_CFG t →
    tallyRowOk n.val (v.toNat % 2 ^ 32) = true →
    exec (.tallyCfgWrite who n v) s =
      .next ((((t.pairClear n.val).setRow O.TALLY_CFG n.val (v.toNat % 2 ^ 32)).pairClear n.val).answered who O.TALLY_CFG 0)) ∧
  (∀ (who : Path) (n : Fin 8192) (v : BitVec 64) (s : State), s.serves who O.TALLY_CFG = true → tallyRowOk n.val (v.toNat % 2 ^ 32) = false →
    exec (.tallyCfgWrite who n v) s = .next ((s.taken who).answered who O.TALLY_CFG 0x0A)) ∧
  (∀ (who : Path) (n : Fin 8192) (v : BitVec 64) (r : Nat) (s : State), s.serves who O.TALLY_CFG = true → r = v.toNat % 2 ^ 32 →
    tallyEvent (bits r 0 16) = false ∨ (r.testBit 31 = true ∧ n.val % 2 = 0) ∨
      (256 ≤ bits r 0 16 ∧ bits r 16 14 ≠ 0x3FFF ∧ (tallyUnits (bits r 0 16) ≤ bits r 16 14 ∨
        (bits r 0 16 / 256 ∉ [0x00, 0x06, 0x09, 0x0E] ∧ bits r 0 16 ≠ 0x0C01 ∧ tallyDie (bits r 0 16) (bits r 16 14) ≠ n.val / 512 / 4))) →
    exec (.tallyCfgWrite who n v) s = .next ((s.taken who).answered who O.TALLY_CFG 0x0A)) ∧
  (∀ (n : Fin 8192) (r : Nat), tallyEvent (bits r 0 16) = true → r.testBit 31 = false ∨ n.val % 2 = 1 →
    bits r 16 14 < tallyUnits (bits r 0 16) → bits r 0 16 / 256 ∈ [0x00, 0x06, 0x09, 0x0E] ∨ tallyDie (bits r 0 16) (bits r 16 14) = n.val / 512 / 4 →
    tallyRowOk n.val r = true) ∧
  (∀ (r p e u : Nat), bits r 0 16 = 0 → e ≠ 0 → tallyCounts r p e u = false) ∧
  (∀ (who : Path) (v : BitVec 32) (lo n : Nat) (s t : State), s.Takes who O.TALLY_CLEAR t → lo = bits v.toNat 0 13 →
    n = bits v.toNat 16 14 → n ≠ 0 → lo + n ≤ 8192 →
    exec (.tallyClear who v) s = .next ({ t with obsv := { t.obsv with
      ctr := t.obsv.ctr.filter (fun x => decide (x.1 < lo ∨ lo + n ≤ x.1)) } }.answered who O.TALLY_CLEAR 0)) ∧
  (∀ (who : Path) (v : BitVec 32) (s : State), s.serves who O.TALLY_CLEAR = true →
    bits v.toNat 16 14 = 0 ∨ 8192 < bits v.toNat 0 13 + bits v.toNat 16 14 →
    exec (.tallyClear who v) s = .next ((s.taken who).answered who O.TALLY_CLEAR 0x0A)) ∧
  (∀ (e : Nat × List (Nat × Nat)) (s : State), s.tablesOk = true → s.Up → s.obsv.ringBuf = some e →
    s.ob O.TALLY_RING_SIZE ≠ 0 → s.stackShut (hpaStack (s.ob O.TALLY_RING_BASE)) = false →
    ∃ t, exec (.tallyRingEntryWritten false) s = .next t ∧ t.obsv.ringBuf = none ∧
      t.ob O.TALLY_RING_HEAD = (s.ob O.TALLY_RING_HEAD + 1) % s.ob O.TALLY_RING_SIZE ∧
      t.hbmRead (s.ob O.TALLY_RING_BASE + 65600 * s.ob O.TALLY_RING_HEAD) 64 = leBytes 64 e.1 ∧
      ∀ a, a < s.ob O.TALLY_RING_BASE + 65600 * s.ob O.TALLY_RING_HEAD ∨
        s.ob O.TALLY_RING_BASE + 65600 * s.ob O.TALLY_RING_HEAD + 65600 ≤ a → t.hbmRead a 1 = s.hbmRead a 1) ∧
  (∀ (e : Nat × List (Nat × Nat)) (s u : State), s.Up → s.obsv.ringBuf = some e → u = { s with obsv := { s.obsv with ringBuf := none } } →
    exec (.tallyRingEntryWritten true) s = .next ((u.setOb O.TALLY_RING_SIZE 0).raise O.TALLY_ERR 2))

/-- The Fleece (R562 to R571): a record is stored at the head's place, 160 bytes, and at no other byte, and the head moves on; a fault of a write turns
the ring off; with its ring off a capture point records nothing; a frame that the sampling of its port asks for is recorded once; a
capture command for a port or point that is not there, or while one waits, is rejected. -/
def Obligations.FleeceAndRings : Prop :=
  (∀ (die : Fin 4) (c : Capture) (rest : List Capture) (s : State), s.tablesOk = true → s.Up →
    TMap.get [] s.obsv.buf die.val = c :: rest → c.head.length = 128 → s.obsv.full = false →
    s.stackShut (hpaStack (s.ob O.FLEECE_BASE)) = false → s.ob O.FLEECE_HEAD + 1 < s.ob O.FLEECE_SIZE →
    ∃ t, exec (.fleeceRecordWritten die false) s = .next t ∧ t.ob O.FLEECE_HEAD = s.ob O.FLEECE_HEAD + 1 ∧
      t.hbmRead (s.ob O.FLEECE_BASE + 160 * s.ob O.FLEECE_HEAD) 160 = c.head ++ leBytes 32 c.info ∧
      ∀ a, a < s.ob O.FLEECE_BASE + 160 * s.ob O.FLEECE_HEAD ∨ s.ob O.FLEECE_BASE + 160 * s.ob O.FLEECE_HEAD + 160 ≤ a →
        t.hbmRead a 1 = s.hbmRead a 1) ∧
  (∀ (die : Fin 4) (c : Capture) (rest : List Capture) (s u : State), s.Up → TMap.get [] s.obsv.buf die.val = c :: rest →
    s.obsv.full = false → s.ob O.FLEECE_SIZE ≠ 0 → u = { s with obsv := { s.obsv with buf := TMap.put [] s.obsv.buf die.val rest } } →
    exec (.fleeceRecordWritten die true) s = .next ((u.setOb O.FLEECE_SIZE 0).raise O.TALLY_ERR 5)) ∧
  (∀ (point : Fin 3) (port : Fin 1040) (queue : Fin 16) (pasture : Fin 4096) (frame : List Byte) (why : List (Fin 64 × BitVec 32)) (s : State),
    s.Up → s.ob O.FLEECE_SIZE = 0 → ∃ t, exec (.fleeceCapturePoint point port queue pasture frame why) s = .next t ∧ t.obsv.buf = s.obsv.buf ∧
      t.obsv.seq = s.obsv.seq ∧ t.objs = s.objs) ∧
  (∀ (point : Fin 3) (port : Fin 1040) (queue : Fin 16) (pasture : Fin 4096) (frame : List Byte) (s : State) (n : Nat), s.Up →
    s.ob O.FLEECE_SIZE ≠ 0 → point.val < 2 → port.val < 1024 → n = bits (s.row O.FLEECE_SAMPLE port.val) (16 * point.val) 16 →
    (s.row O.FLEECE_SAMPLE port.val).testBit 32 = false → n ≠ 0 → n ≤ TMap.get 0 s.obsv.sample (2 * port.val + point.val) + 1 →
    s.obsv.want = none → s.obsv.aclHits = [] → TMap.get (0, 0) s.obsv.burst (4 * port.val + point.val) = (0, 0) → (TMap.get [] s.obsv.buf (dieOf port.val)).length < 4096 →
    s.obsv.full = false →
    ∃ t, exec (.fleeceCapturePoint point port queue pasture frame []) s = .next t ∧ t.obsv.seq = s.obsv.seq + 1 ∧
      (∃ c, TMap.get [] t.obsv.buf (dieOf port.val) = TMap.get [] s.obsv.buf (dieOf port.val) ++ [c] ∧ c.head = padTo 128 frame)) ∧
  (∀ (who : Path) (v : BitVec 16) (s t : State), s.Takes who O.FLEECE_CAPTURE t → t.capturePending = false →
    bits v.toNat 0 11 < 1040 → bits v.toNat 11 2 ≠ 3 → bits v.toNat 0 11 < 1024 ∨ bits v.toNat 11 2 = 1 →
    exec (.fleeceCapture who v) s = .next ({ t with obsv := { t.obsv with want := some (bits v.toNat 0 11, bits v.toNat 11 2) } }.answered
      who O.FLEECE_CAPTURE 0)) ∧
  (∀ (who : Path) (v : BitVec 16) (s t : State), s.Takes who O.FLEECE_CAPTURE t →
    t.capturePending = true ∨ bits v.toNat 11 2 = 3 ∨ 1040 ≤ bits v.toNat 0 11 ∨ (1024 ≤ bits v.toNat 0 11 ∧ bits v.toNat 11 2 ≠ 1) →
    exec (.fleeceCapture who v) s = .next (t.answered who O.FLEECE_CAPTURE 0x0A))

/-- The sources of a reset (R574 to R579, R584): each asserts its width and is counted; while another source stands the device stays in reset; the last one lets it out,
and a power-on reset measures the strap again; a warm or cold reset is commanded, announced where asked, and asserted with its status; an absence of
0 or of more than 1,048,576 ticks is rejected. -/
def Obligations.ResetSourcesAndCommands : Prop :=
  (∀ (s : State), s.crookUp = true → exec .coldResetPin s = .next (s.assertReset .coldPin 2 1 1 false) ∧
    exec .warmResetPin s = .next (s.assertReset .warmPin 1 3 3 false) ∧
    exec .refclkCoreLoss s = .next ((s.assertReset .refclkCore 2 5 5 false).raise O.RST_ERR 1)) ∧
  (∀ (s : State), exec .auxClkLoss s = .next ((s.assertReset .auxClk 3 6 5 false).raise O.RST_ERR 1)) ∧
  (∀ (s u v : State), s.anyHot 105 = false → u = s.assertReset .refclkCore 2 5 5 false → v = s.assertReset .auxClk 3 6 5 false →
    2 ≤ u.power.width ∧ u.power.sources.contains .refclkCore = true ∧ 3 ≤ v.power.width ∧ v.power.sources.contains .auxClk = true ∧
    v.ctl.sessions = [] ∧ (s.tablesOk = true → ∀ k, k < 16 → v.row O.OXPIN_KEY k = 0)) ∧
  (∀ (samples : BitVec 48) (rate : Fin 7) (width : Fin 5) (s u v w : State), s.power.sources = [] → s.anyHot 105 = false →
    u = s.assertReset .aonRail 3 0 0 false → v = { u with power := { u.power with sources := [] } } →
    w = { v with ctl := { v.ctl with crookAt := v.now } }.measureStrap samples.toNat →
    exec (.powerOnReset samples rate width) s = .next (w.comeOut rate.val (2 ^ width.val))) ∧
  (∀ (src : ResetSource) (samples : BitVec 48) (rate : Fin 7) (width : Fin 5) (l : List ResetSource) (s u : State), s.crookUp = true →
    s.power.sources.contains src = true → src ≠ .heat ∨ s.anyHot 105 = false → l = s.power.sources.filter (fun x => x != src) →
    u = { s with power := { s.power with sources := l } } →
    exec (.resetRelease src samples rate width) s = .next (if l.isEmpty then u.comeOut rate.val (2 ^ width.val) else u)) ∧
  (∀ (who : Path) (ann : Bool) (n : BitVec 32) (s t u : State), s.Takes who O.RST_CMD t → t.power.width = 0 →
    (ann = true → 1 ≤ n.toNat ∧ n.toNat ≤ 1048576) → u = (if ann then (t.announceAbsence n.toNat).count O.RST_COUNT 7 1 else t) →
    exec (.rstCmdWarm who ann n) s =
      .next (((u.assertReset .command 1 4 4 ann).setOb O.RST_CMD_STATUS 0).answered who O.RST_CMD 0) ∧
    exec (.rstCmdCold who ann n) s =
      .next (((u.assertReset .command 2 2 2 ann).setOb O.RST_CMD_STATUS 0).answered who O.RST_CMD 0)) ∧
  (∀ (who : Path) (n : BitVec 32) (s t : State), s.Takes who O.RST_CMD t → t.power.width = 0 →
    n.toNat = 0 ∨ 1048576 < n.toNat →
    exec (.rstCmdWarm who true n) s = .next ((t.setOb O.RST_CMD_STATUS 0x0A).answered who O.RST_CMD 0x0A) ∧
    exec (.rstCmdCold who true n) s = .next ((t.setOb O.RST_CMD_STATUS 0x0A).answered who O.RST_CMD 0x0A))

/-- What the reach of a reset leaves (R426, R574, R587): after a cold reset the objects that survive it read as before and every
other its default, HBM is empty (log entry 3, what it then reads is the model's choice), no direct register and no unit keeps anything;
the queue of commands, host memory and what was sent stay. -/
def Obligations.ColdResetReach : Prop :=
  (∀ (s : State), s.tablesOk = true → s.crookUp = true → s.anyHot 105 = false → s.ob O.PWR_STATE ≠ 4 →
    ∃ t, exec .coldResetPin s = .next t ∧
      (∀ oid row, row < 2 ^ 23 → oid ≠ O.RST_COUNT → oid ≠ O.RST_LAST → oid ≠ O.GPIO_OUT → keepsObj 2 oid = true →
        t.row oid row = s.row oid row) ∧
      (∀ oid row, row < 2 ^ 23 → oid ≠ O.RST_COUNT → oid ≠ O.RST_LAST → oid ≠ O.GPIO_OUT → keepsObj 2 oid = false →
        t.row oid row = okeyDefault (okey oid row)) ∧
      t.row O.RST_COUNT 1 = (s.row O.RST_COUNT 1 + 1) % 2 ^ 64 ∧ t.hbm = [] ∧ t.regs = [] ∧ t.fold = {} ∧ t.drove = {} ∧ t.coll = {} ∧
      t.time = {} ∧ t.host = s.host ∧ t.pending = s.pending ∧ t.out = s.out ∧ t.now = s.now) ∧
  (∀ (rail : Fin 13) (s : State), rail.val = 10 ∨ rail.val = 11 →
    exec (.railOutOfRange rail) s = .next (s.assertReset .aonRail 3 0 0 false) ∧ exec (.sequenceBreak rail) s = .next s) ∧
  (∀ (rail : Fin 13) (s : State), rail.val ≠ 10 → rail.val ≠ 11 → s.crookUp = true →
    exec (.railOutOfRange rail) s = .next ((s.assertReset .mainRail 2 0 0 false).elec 0 0 0 rail.val true) ∧
    exec (.sequenceBreak rail) s = .next ((s.assertReset .mainRail 2 0 0 false).elec 5 5 0 rail.val true)) ∧
  (∀ (s : State), exec .refclkPcieLoss s =
    .next { s with pcie := { s.pcie with rate := 0, width := 0, flit := false, l0p := false } })

/-- Power states and gates (R588 to R590, R593): PWR_CMD starts a change, and rejects a state that is not there and a
second change; each step moves one state towards the target, and the last one reports; a unit of each of the four kinds is gated where its rule
allows, else rejected, and ungated. -/
def Obligations.PowerCommands : Prop :=
  (∀ (who : Path) (v : BitVec 8) (s t : State), s.Takes who O.PWR_CMD t → who ≠ .cores → t.power.target = none →
    t.power.width = 0 → v.toNat ≤ 4 → v.toNat ≠ t.ob O.PWR_STATE →
    exec (.pwrCmd who v) s = .next ({ t.setOb O.PWR_CMD_STATUS 0xFF with
      power := { t.power with target := some v.toNat, slow := false } }.answered who O.PWR_CMD 0)) ∧
  (∀ (who : Path) (v : BitVec 8) (s t : State), s.Takes who O.PWR_CMD t → who ≠ .cores → t.power.target.isSome = true →
    exec (.pwrCmd who v) s = .next (t.answered who O.PWR_CMD 0x0D)) ∧
  (∀ (who : Path) (v : BitVec 8) (s t : State), s.Takes who O.PWR_CMD t → who ≠ .cores → t.power.target = none →
    t.power.width = 0 → 4 < v.toNat → exec (.pwrCmd who v) s = .next (t.answered who O.PWR_CMD 0x0A)) ∧
  (∀ (late : Bool) (n : Nat) (s t : State), s.Awake → s.power.target = some n →
    t = (if late then ({ s with power := { s.power with slow := true } }).raise O.RST_ERR 3 8 else s).powerMove n →
    exec (.powerStepDone late) s = .next (if t.ob O.PWR_STATE = n then t.powerReached else t)) ∧
  (∀ (s : State), s.tablesOk = true → s.Awake → s.power.target = some 1 → s.power.slow = false → s.ob O.PWR_STATE = 0 →
    ∃ t, exec (.powerStepDone false) s = .next t ∧ t.ob O.PWR_STATE = 1 ∧ t.ob O.PWR_CMD_STATUS = 0 ∧ t.power.target = none ∧
      t.drove.slow = true ∧ t.blocks = s.blocks ∧ t.fold = s.fold) ∧
  (∀ (who : Path) (k : BitVec 8) (u : BitVec 16) (F : State → Nat → Host.Outcome State Fault Refusal) (s t : State), s.Takes who O.PWR_GATE t →
    t.power.target = none → t.ob O.PWR_STATE < 3 → t.power.gating = [] → u.toNat < gateUnits k.toNat →
    F = (fun v n => .next ((v.setOb O.PWR_GATE_STATUS n).answered who O.PWR_GATE n)) →
    (t.isGated k.toNat u.toNat = true → exec (.pwrGate who k u) s = F t 0) ∧
    (t.isGated k.toNat u.toNat = false → t.gateOk k.toNat u.toNat = false → exec (.pwrGate who k u) s = F t 0x0A) ∧
    (t.isGated k.toNat u.toNat = false → t.gateOk k.toNat u.toNat = true →
      (k = 1 → exec (.pwrGate who k u) s = F (t.gateBlock u.toNat true) 0) ∧ (k = 2 → exec (.pwrGate who k u) s = F (t.gateTile u.toNat) 0) ∧
      (k = 3 → exec (.pwrGate who k u) s = .next ((t.gateStack u.toNat).answered who O.PWR_GATE 0)) ∧
      (k = 4 → exec (.pwrGate who k u) s = .next (((t.gatePaddock u.toNat).gateStack u.toNat).answered who O.PWR_GATE 0)))) ∧
  (∀ (who : Path) (k : BitVec 8) (u : BitVec 16) (F : State → Host.Outcome State Fault Refusal) (s t : State), s.Takes who O.PWR_GATE t →
    t.power.target = none → t.ob O.PWR_STATE < 3 → t.power.gating = [] → u.toNat < gateUnits k.toNat →
    F = (fun v => .next ((v.setOb O.PWR_GATE_STATUS 0).answered who O.PWR_GATE 0)) → exec (.pwrUngate who k u) s =
      (if t.isGated k.toNat u.toNat = false then F t else if k = 1 then F ((t.gateBlock u.toNat false).blockStart u.toNat)
       else if k = 2 then F (t.ungateTile u.toNat) else if k = 3 then F (t.ungateStack u.toNat) else F (t.ungatePaddock u.toNat)))

/-- Temperatures (R594, R606, R621): a cool sample is recorded and nothing more; a paddock at 115 °C is the first stage of the trip; the second
stage comes when it is due and not before; a stack from 95 °C on refreshes at the doubled rate, counted once, until it reads below 92 °C.
Rails and clocks (R577, R602, R604, R609): an AON rail out of range is a power-on reset, a main rail or a break of the sequence a cold one
with an event of its own; a paddock whose SerDes clock is lost takes its links down once, and they begin anew when it returns; a lost
PCIe clock takes the link down and nothing else; a drift is counted and reported. -/
def Obligations.TemperaturesRailsAndClocks : Prop :=
  (∀ (temps : BitVec 256) (rails : BitVec 208) (watts : BitVec 272) (s u v w : State), s.crookUp = true → u = s.advanceTo s.power.sampleAt →
    v = { u with power := { u.power with sampleAt := u.now + 100000 } } →
    w = (List.range 17).foldl (fun s i => s.setRow O.PWR_EST_W i (bits watts.toNat (16 * i) 16))
      ((List.range 13).foldl (fun s i => s.setRow O.PWR_RAIL_MV i (bits rails.toNat (16 * i) 16))
        ((List.range 16).foldl (fun s i => s.setRow O.THERM_PADDOCK i (bits temps.toNat (16 * i) 16)) v)) →
    (w.power.warned = false → w.anyHot (w.ob O.THERM_WARN_C) = false → w.anyHot 115 = false → w.power.tripAt = none →
      exec (.thermalSample temps rails watts) s = .next w) ∧
    (w.warn.power.tripAt = none → w.warn.anyHot 115 = true →
      ∃ t, exec (.thermalSample temps rails watts) s = .next t ∧ t.power.tripAt = some w.warn.now ∧ t.power.tripped = w.warn.hottest ∧
        t.out = s.out)) ∧
  (∀ (s : State), s.crookUp = true → s.power.thermTrip = false → s.secondDue = true → ∃ t, exec .deviceThermalTrip s = .next t ∧
    t.power.thermTrip = true ∧ t.now = s.now) ∧
  (∀ (st : Fin 16) (c : BitVec 16) (s u v : State), u = s.setRow O.THERM_HBM st.val c.toNat → 16 * 95 ≤ c.toInt →
    v = (if u.power.refresh.testBit st.val then u
      else ({ u with power := { u.power with refresh := setBit u.power.refresh st.val } }.count O.ELEC_STAT 2 1)) →
    exec (.hbmHot st c) s = .next (v.raise O.ELEC_ERR 2 0 5 st.val)) ∧
  (∀ (st : Fin 16) (c : BitVec 16) (s : State), c.toInt < 16 * 95 → exec (.hbmHot st c) s = .next (s.setRow O.THERM_HBM st.val c.toNat)) ∧
  (∀ (st : Fin 16) (c : BitVec 16) (s u : State), u = s.setRow O.THERM_HBM st.val c.toNat → c.toInt < 16 * 92 →
    exec (.hbmSensorBelow92 st c) s = .next { u with power := { u.power with refresh := clearBit u.power.refresh st.val } }) ∧
  (∀ (st : Fin 16) (c : BitVec 16) (s : State), 16 * 92 ≤ c.toInt → exec (.hbmSensorBelow92 st c) s = .next (s.setRow O.THERM_HBM st.val c.toNat)) ∧
  (∀ (p : Fin 16) (s u : State), s.power.clockLost.testBit p.val = false →
    u = { s with power := { s.power with clockLost := setBit s.power.clockLost p.val } } →
    exec (.refclkSdLoss p) s = .next (((List.range 8).foldl (fun s i => s.clockGone (8 * p.val + i)) u).elec 3 3 6 p.val false)) ∧
  (∀ (p : Fin 16) (s u : State), s.power.clockLost.testBit p.val = true →
    u = { s with power := { s.power with clockLost := clearBit s.power.clockLost p.val } } →
    exec (.refclkSdReturn p) s = .next ((List.range 8).foldl (fun s i => if s.isLink (8 * p.val + i) && !s.blockFenced (8 * p.val + i) then
      s.restartWait (8 * p.val + i) (s.block (8 * p.val + i)).askResume else s) u)) ∧
  (∀ (s : State), s.crookUp = true → exec .refclkDrift s = .next (s.elec 4 4 0 0 false))

/-- Beats (R270, R274, R299 to R303, R309): no boundary is acted on while a beat runs; a beat that nothing asks for is counted idle; one that an operation
gets goes to it; at the end of an operation's beat what it did is committed, unless a tile condemned it, and a beat that was rolled
back commits nothing; a save that is done is counted; a staging half is written out. -/
def Obligations.BeatsAreGivenAndCommitted : Prop :=
  (∀ (k : Nat) (s u v w x : State), s.Up → s.drove.holder = .idle → s.drove.gated = false → k = s.nextBeat →
    u = s.advanceDev (k * 2048 * devUnit) →
    v = { u with drove := { u.drove with beatAt := k, roll := false, temps := (List.range 16).map (fun p => u.row O.THERM_PADDOCK p) } } →
    w = v.dyingEnd.fencesDue → w.drove.stopping = false → w.drove.switches = [] → w.drove.saves = [] → w.drove.tests = [] →
    w.drove.sentinel = none →
    (w.nextOp = none → exec .beatStart s = .next (w.count O.DROVE_STAT 1 1)) ∧
    (∀ c, w.nextOp = some c → x = (w.takeTurn c).prepare c → x.drove.saves = [] → x.drove.tests = [] → x.drove.sentinel = none →
      x.ob O.DROVE_LIVE ≠ 0 → exec .beatStart s = .next (x.opBeat c))) ∧
  (∀ (units c : Nat) (ue : List Nat) (r : State × CtxBeat) (s t u : State), s.Up → s.drove.holder = .op c → t = s.give .idle →
    u = t.liveTiles.foldl (fun (s : State) x => s.histCount x (t.octx c).names.1 4) t → u.drove.roll = false → (u.octx c).runnable = true →
    r = u.runBeat c units ue → r.2.bad = none →
    exec (.beatCommit units [] ue []) s = .next (r.1.commitOps c { r.2 with s := r.1 })) ∧
  (∀ (units c : Nat) (ue : List Nat) (s t u : State), s.Up → s.drove.holder = .op c → t = s.give .idle →
    u = t.liveTiles.foldl (fun (s : State) x => s.histCount x (t.octx c).names.1 4) t → u.drove.roll = true →
    exec (.beatCommit units [] ue []) s = .next u) ∧
  (∀ (units c : Nat) (events : List TileEvent) (l : List (Nat × Bool × Nat)) (bad : List AccError) (s t : State), s.Up →
    s.drove.holder = .save c → t = ((s.give .idle).moveEvents (s.octx c).names events).lostWords (bad.filter (fun e => e.ctx.val == c)) →
    t.drove.saves = (c, false, 1) :: l → (∀ st, st < 16 → t.stackShut st = false) →
    exec (.beatCommit units events [] bad) s = .next ({ t with drove := { t.drove with saves := l } }.count O.DROVE_STAT 5 1)) ∧
  (∀ (units x : Nat) (ue : List Nat) (bad : List AccError) (s : State), s.Up → s.drove.holder = .test x false →
    exec (.beatCommit units [] ue bad) s = .next ((s.give .idle).histCount x 15 4)) ∧
  (∀ (half : Fin 2) (w : OutWrite) (ue : List Nat) (s u : State), s.Up → TMap.get [] s.drove.halves half.val = [w] →
    u = { s with drove := { s.drove with halves := TMap.erase s.drove.halves half.val } } →
    exec (.writeOutComplete half ue) s = .next (u.putOut ue w)) ∧
  (∀ (s u : State) (b : Nat), s.Up → s.ob O.DROVE_SENTINEL_TICKS ≠ 0 →
    b = max s.bell (min s.drove.sentBell s.bell + s.ob O.DROVE_SENTINEL_TICKS) → u = s.advanceDev (s.bellStart b * devUnit) →
    exec .sentinelDue s = .next { u with drove := { u.drove with
      sentBell := b, sentinel := some (u.drove.sentinel.getD (u.devNs / 2048)) } })

/-- DROVE_TILE_CMD, DROVE_TEMP_BINS and TALLY_HIST_CLEAR (R305, R308, R309, R313, R561): a fence rolls the running beat of a live tile back and waits for the boundary; an unfence
of a fenced tile tests it first; a sentinel command tests it; a switch that waits is taken; a tile that is not there is
rejected; boundaries of the bins that rise clear every histogram, others are rejected; a clear of histograms takes one tile, or all. -/
def Obligations.DroveTileCommands : Prop :=
  (∀ (who : Path) (x : BitVec 8) (hit : Bool) (s t : State), s.Takes who O.DROVE_TILE_CMD t → x.toNat < 144 →
    (hit = true ↔ (∃ c, t.drove.holder = .op c) ∧ t.liveTiles.contains x.toNat = true) →
    exec (.droveTileFence who x) s = .next ({ t with drove := { t.drove with
      roll := t.drove.roll || hit, fencing := (t.drove.fencing ++ [x.toNat]).eraseDups } }.answered who O.DROVE_TILE_CMD 0)) ∧
  (∀ (who : Path) (x : BitVec 8) (s t : State), s.Takes who O.DROVE_TILE_CMD t → x.toNat < 144 →
    exec (.droveTileUnfence who x) s = .next ((if t.tile x.toNat = tFenced then
      { t with drove := { t.drove with tests := t.drove.tests ++ [(x.toNat, true)] } } else t).answered who O.DROVE_TILE_CMD 0) ∧
    exec (.droveTileSentinel who x) s =
      .next ({ t with drove := { t.drove with tests := t.drove.tests ++ [(x.toNat, false)] } }.answered who O.DROVE_TILE_CMD 0)) ∧
  (∀ (who : Path) (x : BitVec 8) (y : Nat × Nat) (s t u : State), s.Takes who O.DROVE_TILE_CMD t → x.toNat < 144 →
    t.drove.awaiting.find? (fun y => y.1 == x.toNat) = some y → u = t.setSlots (t.slots.map (fun y => if y = 256 + x.toNat then x.toNat else y)) →
    exec (.droveTileSwitch who x) s = .next ({ u with drove := { u.drove with switches := u.drove.switches ++ [x.toNat] } }.answered
      who O.DROVE_TILE_CMD 0)) ∧
  (∀ (who : Path) (x : BitVec 8) (s t : State), s.Takes who O.DROVE_TILE_CMD t → 144 ≤ x.toNat →
    exec (.droveTileFence who x) s = .next (t.answered who O.DROVE_TILE_CMD 0x0A) ∧
    exec (.droveTileUnfence who x) s = .next (t.answered who O.DROVE_TILE_CMD 0x0A) ∧
    exec (.droveTileSwitch who x) s = .next (t.answered who O.DROVE_TILE_CMD 0x0A) ∧
    exec (.droveTileSentinel who x) s = .next (t.answered who O.DROVE_TILE_CMD 0x0A)) ∧
  (∀ (who : Path) (v : BitVec 56) (s t : State), s.Takes who O.DROVE_TEMP_BINS t →
    exec (.droveTempBinsWrite who v) s = .next (if ∀ i, i < 6 → bits v.toNat (8 * i) 8 < bits v.toNat (8 * i + 8) 8 then
      ((List.range 7).foldl (fun (s : State) i => s.setRow O.DROVE_TEMP_BINS i (bits v.toNat (8 * i) 8))
        (t.clearRows O.TALLY_HIST 0 18432)).answered who O.DROVE_TEMP_BINS 0
      else t.answered who O.DROVE_TEMP_BINS 0x0A)) ∧
  (∀ (who : Path) (x : BitVec 8) (s t : State), s.Takes who O.TALLY_HIST_CLEAR t →
    exec (.tallyHistClear who x) s = .next (if x.toNat = 0xFF then (t.clearRows O.TALLY_HIST 0 18432).answered who O.TALLY_HIST_CLEAR 0
      else if 144 ≤ x.toNat then t.answered who O.TALLY_HIST_CLEAR 0x0A
      else (t.clearRows O.TALLY_HIST (128 * x.toNat) 128).answered who O.TALLY_HIST_CLEAR 0))

/-- Rings (R317, R351, R422, R532 to R534): a tail inside the ring is taken and one outside is misuse; a base is taken while the ring is disabled alone; a
writer that the ring is not given to changes nothing of it; a descriptor is fetched from HBM or the host where the ring's head points, and moves the
head; one that a host access fails stops its ring; a stopped DMA ring restarts, and one is disabled by command. -/
def Obligations.RingCommands : Prop :=
  (∀ (who : RingWriter) (dma : Bool) (r : Fin 64) (v : BitVec 16) (x : Ring) (s u : State), s.Up →
    u = (if r.val < 48 then s.tally 0x0E00 (r.val + if dma then 48 else 0) else s) → u.ringReach dma r.val who = true → x = u.ring dma r.val →
    exec (.droveSqDoorbell who dma r v) s = .next (if ringSize x.sqCfg ≤ v.toNat then u.ringMisuse
      else u.setRing dma r.val { x with sqTail := v.toNat })) ∧
  (∀ (f : Fin 33) (dma : Bool) (r : Fin 64) (i : Fin 8) (v : BitVec 64) (s : State), s.Up → s.ringReach dma r.val (.page f) = false →
    exec (.droveRingConfigWrite (.page f) dma r i v) s = .next s) ∧
  (∀ (who : RingWriter) (dma : Bool) (r : Fin 64) (v : BitVec 64) (x : Ring) (s : State), s.Up → s.ringReach dma r.val who = true →
    x = s.ring dma r.val →
    exec (.droveRingConfigWrite who dma r 0 v) s = .next (if x.enabled = true then s.ringMisuse else s.setRing dma r.val { x with
      sqBase := v.toNat / 128 * 128 + (if s.ringOwner dma r.val ≠ 0 then 1 else v.toNat % 2) }) ∧
    exec (.droveRingConfigWrite who dma r 7 v) s = .next (s.setRing dma r.val { x with cqHead := v.toNat % 65536 })) ∧
  (∀ (dma : Bool) (r : Fin 64) (n : Nat) (l : List Byte) (x : Ring) (s : State), s.Up → s.mayFetch dma r.val = true → x = s.ring dma r.val →
    (s.ringInHost dma r.val x.sqBase = true → s.pcie.perst = false) → n = (if dma then 64 else 128) →
    l = (if s.ringInHost dma r.val x.sqBase then s.hostRead (ringAddr x.sqBase + n * x.sqHead) n else s.hbmRead (ringAddr x.sqBase + n * x.sqHead) n) →
    exec (.descriptorFetch dma r) s = .next (s.setRing dma r.val { x with
      sqHead := (x.sqHead + 1) % ringSize x.sqCfg, busy := x.busy + 1, fetched := x.fetched ++ [leNum l] })) ∧
  (∀ (r : Fin 64) (f : HostFault) (x : Ring) (s u v : State), s.Up → s.mayFetch false r.val = true → x = s.ring false r.val →
    s.ringInHost false r.val x.sqBase = true →
    u = ((s.hostFault f).setRing false r.val { x with sqHead := (x.sqHead + 1) % ringSize x.sqCfg, busy := x.busy + 1 }) →
    v = u.draw.draw.putRecord false r.val ((Config.freeWord u.free).toNat + f.status <<< 64 +
      ((Config.freeWord (u.free + 1)).toNat % 256) <<< 72 + r.val <<< 168) false →
    exec (.hostAccessFault false r .fetch f) s = .next (v.hostStop false r.val f)) ∧
  (∀ (who : Path) (r : Fin 64) (x : Ring) (s t : State), s.Takes who O.DMA_RING_CMD t → x = t.ring true r.val →
    exec (.dmaRingRestart who r) s = .next (if x.stopped = true then (t.setRing true r.val { x with stopped := false }).answered
      who O.DMA_RING_CMD 0 else t.answered who O.DMA_RING_CMD 0x0A) ∧
    exec (.dmaRingDisable who r) s = .next ((t.setRing true r.val { x with
      sqCfg := clearBit x.sqCfg 5, sqHead := x.sqTail, stopped := false }).answered who O.DMA_RING_CMD 0))

/-- Operations and communicators (R319, R334 to R337, R341, R347, R354, R384): a head that is rejected ends with its
status; one that fits takes a free context with all its members; an operation completes when every member has ended and its outputs are
acknowledged; a suspended operation is resumed or ended with its fault's status, and a command for one that is not suspended is rejected; a
communicator is created, or rejected with the first check that its record fails, and deleted when no instance of it runs. -/
def Obligations.OperationLifecycle : Prop :=
  (∀ (r : Fin 64) (d : Nat) (rest : List Nat) (x : Ring) (o : Op) (s : State), s.Up → s.drove.gated = false → x = s.ring false r.val →
    x.fetched = d :: rest → s.stillborn (s.ringOp r.val d) (s.ringOwner false r.val) = some o →
    exec (.droveAdmit (.ring r)) s =
      .next ((s.setRing false r.val { x with fetched := rest }).opEnd o (o.ended == some 9 || o.ended == some 2))) ∧
  (∀ (r : Fin 64) (d c : Nat) (rest : List Nat) (x : Ring) (ops : List Op) (s : State), s.Up → s.drove.gated = false →
    x = s.ring false r.val → x.fetched = d :: rest → s.stillborn (s.ringOp r.val d) (s.ringOwner false r.val) = none → dRemote d = false →
    ops = s.group (s.ringOwner false r.val) ((x.fetched.map (s.ringOp r.val)).takeWhile (fun o => !dRemote o.desc)) →
    s.freeContext = some c → s.fits ops = true →
    exec (.droveAdmit (.ring r)) s =
      .next ((s.setRing false r.val { x with fetched := x.fetched.drop ops.length }).enterCtx c ops 3 r.val)) ∧
  (∀ (c : Fin 256) (s : State), s.Up → (s.octx c.val).isOver = true → s.outputsWait c.val = false →
    exec (.operationComplete c) s =
      .next (((s.octx c.val).ops.filter (fun o => !o.gone)).foldl (fun (s : State) o => s.opEnd o false false) (s.freeOctx c.val))) ∧
  (∀ (who : Path) (c : Fin 256) (s t : State), s.Takes who O.DROVE_SUSP_CMD t →
    (t.row O.DROVE_SUSP c.val).testBit 88 = true →
    exec (.droveSuspResume who c) s = .next ((t.unsuspend c.val).answered who O.DROVE_SUSP_CMD 0) ∧
    exec (.droveSuspAbort who c) s =
      .next (((t.unsuspend c.val).endOctx c.val (bits (t.row O.DROVE_SUSP c.val) 64 8)).answered who O.DROVE_SUSP_CMD 0)) ∧
  (∀ (who : Path) (c : Fin 256) (s t : State), s.Takes who O.DROVE_SUSP_CMD t →
    (t.row O.DROVE_SUSP c.val).testBit 88 = false →
    exec (.droveSuspResume who c) s = .next (t.answered who O.DROVE_SUSP_CMD 0x0A) ∧
    exec (.droveSuspAbort who c) s = .next (t.answered who O.DROVE_SUSP_CMD 0x0A)) ∧
  (∀ (who : Path) (r : BitVec 1536) (n : Nat) (s t : State), s.Takes who O.COLL_COMM_OP t →
    t.pFeature (cmPasture r.toNat) (if r.toNat.testBit 39 then 1 else 0) = true → n = setBits (setBits (setBits (setBits r.toNat 81 15 0) 112 16 0) 320 192 0) 44 4 0 % 2 ^ 512 +
      ((List.range (cmM r.toNat)).foldl (fun a j => a + cmPort r.toNat j <<< (16 * j)) 0) <<< 512 →
    (t.commFails r.toNat = none → exec (.collCommCreate who r) s =
      .next (((t.setRow O.COLL_COMM_TABLE t.freeCommRow n).setOb O.COLL_COMM_STATUS 0).answered who O.COLL_COMM_OP 0)) ∧
    (∀ k, t.commFails r.toNat = some k → exec (.collCommCreate who r) s =
      .next (((t.setOb O.COLL_COMM_STATUS k).raise O.COLL_ERR 0).answered who O.COLL_COMM_OP 0x0A))) ∧
  (∀ (who : Path) (id : BitVec 16) (s t : State), s.Takes who O.COLL_COMM_OP t → t.commRow id.toNat = none →
    exec (.collCommDelete who id) s = .next ((t.setOb O.COLL_COMM_STATUS 7).answered who O.COLL_COMM_OP 0x0A))

/-- Remote operations and requests (R318, R344, R345, R411): a request waits in the remote queue, of 1,024; another opcode, or a pasture without the
feature, is answered 0x09; a response without its request is counted; one that has a request writes its record; a request that is not answered in time
ends with 0x08. A Common request slot that is not answered in time is asked again once, and then its transfer faults with 0x08. -/
def Obligations.RemoteOperations : Prop :=
  (∀ (p : Fin 16) (bytes : List Byte) (h : Nat) (o : Op) (s : State), s.Up → h = beAt bytes 0 32 →
    o = { desc := leNum ((bytes.drop 32).take 128), source := 0xFE, pasture := hPasture h, payload := pclean ((bytes.drop 32).drop 128)
          origin := .remote (hSrcDev h) (hSrcPort h) p.val (hPasture h) } →
    (hOp h ≠ 0x30 → exec (.remoteRequestReceive p bytes) s = .next (s.opEnd { o with ended := some 9, aux := 1 } true)) ∧
    (hOp h = 0x30 → s.pFeature (hPasture h) 13 = false →
      exec (.remoteRequestReceive p bytes) s = .next (s.opEnd { o with ended := some 9 } true)) ∧
    (hOp h = 0x30 → s.pFeature (hPasture h) 13 = true → s.drove.gated = false → s.deviceFenced = false →
      exec (.remoteRequestReceive p bytes) s = .next (if 1024 ≤ s.drove.remote.length then s
        else { s with drove := { s.drove with remote := s.drove.remote ++ [o] } }))) ∧
  (∀ (p : Fin 16) (bytes : List Byte) (r : Nat) (s : State), s.Up → r = leNum ((bytes.drop 32).take 32) →
    s.drove.waits.find? (fun w => w.dev == hSrcDev (beAt bytes 0 32) && w.ring % 16 == p.val && dTag w.desc == bits r 0 64 &&
      dOpcode w.desc == bits r 72 8) = none →
    exec (.remoteResponseReceive p bytes) s = .next ((s.count O.DROVE_OPCNT 1 1).raise O.DROVE_OP_ERR 7)) ∧
  (∀ (p : Fin 16) (bytes : List Byte) (r : Nat) (w : RemoteWait) (s u : State), s.Up → r = leNum ((bytes.drop 32).take 32) →
    s.drove.waits.find? (fun w => w.dev == hSrcDev (beAt bytes 0 32) && w.ring % 16 == p.val && dTag w.desc == bits r 0 64 &&
      dOpcode w.desc == bits r 72 8) = some w → u = s.waitOver w → bytes.drop 64 = [] →
    exec (.remoteResponseReceive p bytes) s = .next (u.putRecord false w.ring (setBit r 166) (dIrq w.desc))) ∧
  (∀ (n : Nat) (w : RemoteWait) (o : Op) (s u : State), s.Up → s.drove.waits[n]? = some w →
    u = ((s.advanceTo w.deadline).waitOver w).raise O.DROVE_OP_ERR 5 8 → o = { desc := w.desc, source := w.ring, ended := some 8, opflags := 64 } →
    exec (.remoteTimeout n) s = .next (u.putRecord false w.ring o.record (dIrq w.desc))) ∧
  (∀ (p : Fin 16) (k : Fin 1024) (x : Slot) (r : Nat) (j : DmaJob) (s u : State), s.Up →
    x = TMap.get ({} : Slot) s.common.slots (1024 * p.val + k.val) → x.holder = some r →
    (TMap.get ({} : Slot) (s.advanceTo x.deadline).common.slots (1024 * p.val + k.val)).holder = some r →
    u = ((s.advanceTo x.deadline).slotFreed (1024 * p.val + k.val)).raise O.COMMON_ERR 5 8 → j = u.job r →
    exec (.commonRequestTimeout p k) s = .next (if j.gone = true then u.setJob r {}
      else if j.retried = true then
        (u.setJob r { j with slot := none }).dmaFault r 8 ((if j.buf.isNone then dmaSrc j.desc else dmaDst j.desc) + j.pos)
      else (u.setJob r { j with slot := none, retried := true }).dmaPump r j.fuel)) ∧
  (∀ (p : Fin 16) (k : Fin 1024) (s : State), (TMap.get ({} : Slot) s.common.slots (1024 * p.val + k.val)).holder = none →
    exec (.commonRequestTimeout p k) s = .next s)

/-- What starts a collective and ends it early (R354, R374, R376, R384): the first POST of a member goes on to the lead, and a later one is
granted or noted as a mismatch; the lead keeps the first forwarded POST of a sequence; a START run and an ABORT run go on along the lower axes and are
taken; a frame of no row here is a stray. -/
def Obligations.CollectiveControl : Prop :=
  (∀ (bytes : List Byte) (row j h post r : Nat) (s u : State), s.Up → h = collOf bytes → post = beAt bytes 64 16 → s.collRow bytes = some row →
    r = s.comm row → s.collMember row bytes = some j → postOk post = true →
    ((fmtMx (pInFmt post) || hasUp (pKind post) && fmtMx (pOutFmt post)) = true → s.pFeature (cmPasture r) 2 = true) →
    (∀ x ∈ s.coll.posts, ¬ (x.comm = cmId r ∧ x.seq = chSeq h ∧ x.member = j)) →
    u = { s with coll := { s.coll with posts := s.coll.posts ++ [({ comm := cmId r, seq := chSeq h, member := j, post := post } : PostRec)] } } →
    (∀ i, u.findInst (cmId r) (chSeq h) = some i → exec (.collPostReceive bytes) s = .next (if (u.inst i).post ≠ post
      then (u.raise O.COLL_ERR 4).collNote row (chSeq h) 5 else if (u.inst i).slot.isSome then u.collGrant i false else u)) ∧
    (u.findInst (cmId r) (chSeq h) = none → exec (.collPostReceive bytes) s = .next (
      if (∃ x ∈ s.coll.posts, x.comm = cmId r ∧ x.seq = chSeq h) ∨ (cmId r, chSeq h) ∈ s.coll.ended then u
      else u.collSend (cmId r % 16) r 0x41 (u.leadOf r) (cmId r % 16)
        (collHdr (cmId r) (chSeq h) 0 0 1 0 0 0 0 0 0 0 0 0 0) (pclean (beBytes 16 post))))) ∧
  (∀ (bytes : List Byte) (row h : Nat) (r : Nat) (s : State), s.Up → h = collOf bytes → s.collRow bytes = some row → r = s.comm row →
    s.leadOf r = s.own → s.coll.leads.any (fun e => e.comm == cmId r && e.seq == chSeq h) = false →
    s.coll.ended.contains (cmId r, chSeq h) = false →
    exec (.collPostFwdReceive bytes) s = .next (({ s with coll := { s.coll with
      leads := s.coll.leads ++ [({ comm := cmId r, seq := chSeq h, post := beAt bytes 64 16 } : LeadEntry)] } }).leadAdvance (cmId r))) ∧
  (∀ (bytes : List Byte) (row h r : Nat) (s u : State), s.Up → h = collOf bytes → s.collRow bytes = some row → r = s.comm row →
    u = s.collSpread r 0x58 (chStage h) 0 (cmId r % 16) (cmId r % 16) (fun st => setBits h 173 3 st)
      ((bytes.drop 64).map (fun b => (b, false))) →
    exec (.collStartReceive bytes) s = .next (u.takeStart row (chSeq h) (u.bellOf48 (chArg h)) (beAt bytes 64 16) false)) ∧
  (∀ (bytes : List Byte) (row h v r : Nat) (s u : State), s.Up → h = collOf bytes → s.collRow bytes = some row → r = s.comm row →
    u = s.collSpread r 0x5A (chStage h) 0 (cmId r % 16) (cmId r % 16) (fun st => setBits h 173 3 st)
      ((bytes.drop 64).map (fun b => (b, false))) → v = beAt bytes 64 2 →
    exec (.collAbortReceive bytes) s =
      .next ((u.takeAbort row (chSeq h) (u.bellOf48 (chArg h)) (v % 256) (v.testBit 8)).leadAdvance (cmId r))) ∧
  (∀ (bytes : List Byte) (c : Instr) (s : State), s.Up → s.collRow bytes = none →
    c ∈ [.collPostReceive bytes, .collPostFwdReceive bytes, .collNoteReceive bytes, .collStartReceive bytes, .collAbortReceive bytes,
      .collInReceive bytes, .collStepReceive bytes, .collResultReceive bytes] → exec c s = .next s.collStray)

/-- A collective's data (R356, R365, R367, R368, R378): a segment whose check fails is counted, reported and noted; a contribution that passes is placed by
member and chunk, its surplus counted and a member that is short filled up; a step and a result are placed once by chunk, stage and segment, a result that is
whole goes on, and one outside the collective is a stray. -/
def Obligations.CollectiveData : Prop :=
  (∀ (bytes : List Byte) (row id j h k : Nat) (c e : CInst) (g : Seg) (t : Nat × Seg) (x : CChunk) (ins : List (Nat × Seg)) (mine : List Seg)
    (short : Bool) (s u : State), s.Up → s.collFor bytes = .ok (row, id) → c = s.inst id → s.collMember row bytes = some j →
    (s.senders c).contains j = true → g = segOf bytes → h = collOf bytes →
    k = s.inKey c j (chChunk h) → t = g.trim c.inFmt (s.chunkSpan c k).2 → x = c.chunk k → ins = x.ins ++ [(j, t.2)] →
    mine = (ins.filter (fun y => y.1 == j)).map (·.2) → short = (segsDone mine && decide ((mine.map (·.cnt)).sum < (s.chunkSpan c k).2)) →
    e = { c.setChunk k { x with ins := ins, rflags := x.rflags ||| g.rflags } with
      overflow := c.overflow + t.1, padded := if short then c.padded.add j else c.padded } →
    u = (if t.1 = 0 then s.setInst id e else (s.setInst id e).count O.COLL_STAT 6 t.1) →
    exec (.collInReceive bytes) s = .next (if (if hasUp (pKind c.post) then g.clean.residue c.inFmt c.inScale else g.crc) ≠ chCheck h
      then ((s.count O.COLL_STAT 7 1).raise O.COLL_ERR 2 7).collNote row c.seq 3
      else if s.inChunks c ≤ chChunk h then
        ((s.setInst id { c with overflow := c.overflow + g.cnt }).count O.COLL_STAT 6 g.cnt).raise O.COLL_ERR 5
      else if x.ins.any (fun y => y.1 == j && y.2.idx == g.idx) || x.stage != 0 then s
      else if t.1 = 0 ∧ short = false then u else u.raise O.COLL_ERR 5)) ∧
  (∀ (bytes : List Byte) (row id h : Nat) (c : CInst) (g : Seg) (x : CChunk) (s : State), s.Up → s.collFor bytes = .ok (row, id) →
    c = s.inst id → g = segOf bytes → h = collOf bytes → g.clean.residue (cmStepFmt (s.comm row)) 0 = chCheck h → x = c.chunk (chChunk h) →
    exec (.collStepReceive bytes) s = .next (if s.inChunks c ≤ chChunk h ∨ chStage h = 0 ∨ 3 < chStage h then s.collStray
      else if x.steps.any (fun y => y.1 == chStage h && y.2.idx == g.idx) then s
      else s.setInst id (c.setChunk (chChunk h) { x with steps := x.steps ++ [(chStage h, g)], rflags := x.rflags ||| g.rflags }))) ∧
  (∀ (bytes : List Byte) (row id h : Nat) (c : CInst) (g : Seg) (x y : CChunk) (s : State), s.Up → s.collFor bytes = .ok (row, id) →
    c = s.inst id → g = segOf bytes → h = collOf bytes → x = c.chunk (chChunk h) →
    y = { x with runs := x.runs ++ [(chStage h, g)], rflags := x.rflags ||| g.rflags } →
    (g.crc ≠ chCheck h → exec (.collResultReceive bytes) s =
      .next (((s.count O.COLL_STAT 7 1).raise O.COLL_ERR 2 7).collNote row c.seq 3)) ∧
    (g.crc = chCheck h → chChunk h < s.allChunks c → 4 ≤ chStage h → chStage h ≤ 6 → x.runs.any (fun y => y.2.idx == g.idx) = false →
      x.stage ≠ 5 → exec (.collResultReceive bytes) s = .next (s.setInst id (c.setChunk (chChunk h) (if segsDone (y.runs.map (·.2)) then
        { y with stage := 5, via := chStage h, result := chunkBytes c.outFmt (s.chunkSpan c (chChunk h)).2 (y.runs.map (·.2)), runs := [] } else y)))))

/-- Requests at the home unit (R388, R396, R399 to R405, R407): a request is counted and waits for its sink's earlier ones; else a unit that is shut answers 0x04, another
device or pasture is answered 0x02, a shape not of the table 0x09, and the rest is translated; a walk that ends has the requests that waited for its page checked,
or failed, and starts the next; a read answers with the bytes of HBM, and a write stores its bytes. -/
def Obligations.CommonRequests : Prop :=
  (∀ (p : Fin 16) (bytes : List Byte) (id : Nat) (r q : CReq) (s w u v : State), s.Up → r = parseReq p.val bytes →
    q = { r with unit := if r.op = 0x15 then p.val else homeOf r.off } → w = (s.count O.COMMON_STAT 0 1).tally 0x0A00 q.unit →
    u = (if q.unit = p.val then w else w.count O.COMMON_STAT 3 1) → id = u.common.nextReq →
    v = ({ u with common := { u.common with nextReq := id + 1 } }).setCreq id q → v.creq id = q →
    exec (.commonRequestReceive p bytes) s = .next (if v.sinkAhead p.val id then v
      else if v.unitShut q.unit then (v.answer q 4 0 0 0 [] false false).dropCreq id
      else if bits q.addr 43 9 ≠ (if q.mirror then v.ob O.COMMON_MIRROR_OF else v.own) ∨ bits q.addr 52 12 ≠ q.pasture then
        (((v.raise O.COMMON_ERR 1 2).faultRecord q.unit q.addr q.src q.op 2 q.mirror).answer q 2 0 0 q.off [] false false).dropCreq id
      else if v.reqShapeOk q then v.translateReq id else (v.answer q 9 0 0 0 [] false false).dropCreq id)) ∧
  (∀ (unit : Fin 16) (w : Nat × Nat) (off p : Nat) (m : Bool) (g : Nat × CReq → Nat × Nat) (l : List (Nat × CReq)) (s u v : State), s.Up →
    s.common.walks.find? (fun w => w.1 == unit.val) = some w → off = bits w.2 0 22 * 2 ^ 21 → p = bits w.2 22 12 → m = w.2.testBit 34 →
    u = { s with common := { s.common with walks := s.common.walks.erase w } } →
    g = (fun x => (unit.val, tlbTag x.2.mirror x.2.pasture x.2.off false)) →
    l = (u.unitReqs unit.val (fun x => x == .walk)).filter (fun x => (g x).2 == w.2) →
    (∀ y, u.walk m p off = .ok y → v = l.foldl (fun s x => s.checkReq x.1) (u.tlbUse unit.val m p off y.entry y.giant)) →
    (∀ f, u.walk m p off = .error f → v = l.foldl (fun s x => s.failReq x.1 f 0 x.2.off) u) →
    exec (.commonWalkComplete unit) s = .next (match ((v.unitReqs unit.val (fun x => x == .walk)).filter
        (fun x => !v.common.walks.contains (g x))).head? with
      | some x => { v with common := { v.common with walks := v.common.walks ++ [g x] } }
      | none => v)) ∧
  (∀ (unit : Fin 16) (nth : Fin 4096) (ue bad : Bool) (id : Nat) (q q0 : CReq) (s : State), s.Up →
    (s.unitReqs unit.val (fun x => x == .access))[nth.val]? = some (id, q0) → q = s.creq id → q.op = 0x10 ∨ q.op = 0x18 →
    bad = (ue || s.hbmPoisoned q.hpa q.count) →
    exec (.commonHbmAccessComplete unit nth ue) s = .next (((if s.stackShut (hpaStack q.hpa) then s.answer q 4 0 0 q.off [] false false
      else s.answer q (if bad then 3 else 0) 0 q.count 0 (s.hbmRead q.hpa q.count) bad false).dropCreq id).wakeReqs)) ∧
  (∀ (unit : Fin 16) (nth : Fin 4096) (ue : Bool) (id : Nat) (q q0 : CReq) (s u : State), s.Up →
    (s.unitReqs unit.val (fun x => x == .access))[nth.val]? = some (id, q0) → q = s.creq id → q.op ≠ 0x10 → q.op ≠ 0x18 →
    u = s.hbmWrite q.hpa (q.payload.take q.count) →
    (q.op = 0x11 → u.mirrorDue q.pasture (setBits q.leaf 8 1 (b2n (pteLost (u.leafEntry q.pasture q.off)))) = 0) →
    exec (.commonHbmAccessComplete unit nth ue) s = .next ((u.setCreq id { q with stage := .mirror, mlost := false }).requestMirrored id))

/-- The Common's commands and records (R398, R400, R401, R407, R408, R417, R418, R421): an invalidation of 24 bytes is queued and drops its entries at once, another
length is rejected; it completes when what it waits for has ended, and late past 100 µs; a held request or transfer fails after COMMON_HOLD_US; a resync is busy
while another runs; a read of COMMON_FAULT_HI takes the head record away; an acknowledgement of no mirror write is counted, and a mirror write times out. -/
def Obligations.CommonCommands : Prop :=
  (∀ (who : Path) (data : List Byte) (v w : Inval) (s t u : State), s.Takes who O.COMMON_INVAL t → data.length = 24 →
    t.common.invals.length < 16 → v = parseInval data →
    w = { v with
      at_ := t.now, beat := t.drove.beatAt
      reqs := (t.common.reqs.filter (fun x => (x.2.stage.inFlight || x.2.stage == .blocked) &&
        x.2.parts.any (fun y => t.invalHits v x.2.mirror x.2.pasture y.1))).map (·.1)
      mirrs := (t.common.mirrors.filter (fun m => t.invalHits v false m.2.pasture m.2.offset)).map (·.1) } → u = t.tlbDrop w →
    exec (.commonInval who data) s = .next ((({ u with common := { u.common with invals := u.common.invals ++ [w] } }).setOb
      O.COMMON_INVAL_STATUS 0xFF).answered who O.COMMON_INVAL 0)) ∧
  (∀ (who : Path) (data : List Byte) (s : State), s.serves who O.COMMON_INVAL = true → data.length ≠ 24 →
    exec (.commonInval who data) s = .next ((s.taken who).answered who O.COMMON_INVAL 0x0A)) ∧
  (∀ (v : Inval) (rest : List Inval) (s t u : State), s.Up → s.common.invals = v :: rest →
    t = (if s.now ≤ v.at_ + 100000 then s else s.raise O.COMMON_ERR 8) → t.invalReady v = true →
    u = { t with common := { t.common with invals := rest } } →
    exec .commonInvalComplete s = .next (((if rest.isEmpty then u.setOb O.COMMON_INVAL_STATUS 0 else u).recheckHeld
      (fun mirror p off => (if rest.isEmpty then u.setOb O.COMMON_INVAL_STATUS 0 else u).invalHits v mirror p off)).dmaWake)) ∧
  (∀ (id : Nat) (q : CReq) (s u : State), s.Up → q = s.creq id → q.stage = .held →
    u = (s.advanceTo (q.since.getD s.now + 1000 * s.ob O.COMMON_HOLD_US)).count O.COMMON_STAT 5 1 →
    exec (.commonHoldExpire (.request id)) s = .next ((u.answer q 1 0 0 (u.heldAt q) [] false false).dropCreq id).wakeReqs) ∧
  (∀ (r : Fin 64) (j : DmaJob) (at_ : Nat) (s : State), s.Up → j = s.job r.val → j.held = some at_ →
    exec (.commonHoldExpire (.dma r)) s = .next ((s.advanceTo (at_ + 1000 * s.ob O.COMMON_HOLD_US)).dmaFault r.val 1
      ((if j.buf.isNone then dmaSrc j.desc else dmaDst j.desc) + j.pos))) ∧
  (∀ (who : Path) (p : Fin 4096) (s t : State), s.Takes who O.COMMON_RESYNC t →
    exec (.commonResync who p) s = .next (if t.common.resync.isEmpty then (t.resync p.val).answered who O.COMMON_RESYNC 0
      else t.answered who O.COMMON_RESYNC 0x0D)) ∧
  (∀ (s : State), s.Up → exec .commonFaultPop s =
    .next (({ s with common := { s.common with faults := s.common.faults.tail } }).emit (.value s.faultHi))) ∧
  (∀ (bytes : List Byte) (s : State), s.Up → s.common.mirrors.find? (fun m => m.1 == bits (beAt bytes 32 32) 224 32) = none →
    exec (.mirrorAckReceive bytes) s = .next (s.count O.COMMON_STAT 9 1)) ∧
  (∀ (id : Nat) (m : Mirror) (s : State), s.Up → s.common.mirrors.find? (fun m => m.1 == id) = some (id, m) →
    exec (.mirrorTimeout id) s = .next ((s.advanceTo m.deadline).mirrorEnd id false))

/-- DMA and its requester (R410, R412 to R415): a descriptor that the checks turn away ends with its status, one of no bytes with 0x00, one that runs is moved on;
ranges that overlap within one memory are turned away and no others; a transfer that has moved every byte ends; a response that no slot waits for is counted,
and one that a slot waits for is taken by it. -/
def Obligations.DmaCommands : Prop :=
  (∀ (r : Fin 64) (d : Nat) (rest : List Nat) (x : Ring) (s u : State), s.Up → x = s.ring true r.val → x.fetched = d :: rest →
    (s.job r.val).live = false → x.stopped = false → u = s.setRing true r.val { x with fetched := rest } →
    exec (.dmaDescriptorStart r) s = .next (if u.dmaCheck r.val d ≠ 0 then
      (u.setJob r.val { desc := d, status := u.dmaCheck r.val d }).dmaEnd r.val
      else if dmaLen d = 0 then (u.setJob r.val { desc := d }).dmaEnd r.val
      else (u.setJob r.val { desc := d, live := true }).dmaPump r.val ({ desc := d, live := true } : DmaJob).fuel)) ∧
  (∀ (r : Fin 64) (d : Nat) (rest : List Nat) (x : Ring) (s u : State), s.Up → x = s.ring true r.val → x.fetched = d :: rest →
    (s.job r.val).live = false → x.stopped = false → u = s.setRing true r.val { x with fetched := rest } →
    dmaOp d = 1 ∨ dmaOp d = 2 → dmaDstSpace d ≠ 3 → u.ringOwner true r.val = 0 →
    (dmaLen d = 0 → exec (.dmaDescriptorStart r) s = .next ((u.setJob r.val { desc := d, status := 0, done := 0 }).dmaEnd r.val)) ∧
    (dmaOp d = 1 → dmaSrcSpace d = dmaDstSpace d → dmaSrcSpace d = 1 ∨ (dmaSrcSpace d = 2 ∧ bits (dmaSrc d) 43 9 = u.own) →
      dmaSrc d < dmaDst d + dmaLen d → dmaDst d < dmaSrc d + dmaLen d →
      exec (.dmaDescriptorStart r) s = .next ((u.setJob r.val { desc := d, status := 9 }).dmaEnd r.val)) ∧
    (dmaOp d = 1 → (dmaSrcSpace d = 1 ∧ dmaDstSpace d = 1) ∨ (dmaSrcSpace d = 2 ∧ dmaDstSpace d = 2 ∧ bits (dmaSrc d) 43 9 = u.own) →
      dmaDst d + dmaLen d ≤ dmaSrc d ∨ dmaSrc d + dmaLen d ≤ dmaDst d → u.dmaCheck r.val d = 0) ∧
    (dmaOp d = 1 → dmaSrcSpace d ≠ dmaDstSpace d ∨ (dmaSrcSpace d ≠ 1 ∧ dmaSrcSpace d ≠ 2) ∨
      (dmaSrcSpace d = 2 ∧ bits (dmaSrc d) 43 9 ≠ u.own) → u.dmaCheck r.val d = 0)) ∧
  (∀ (r : Fin 64) (j : DmaJob) (s : State), s.Up → j = s.job r.val → j.live = true → j.slot = none → s.mirrorsFor (.dma r.val) = false →
    j.pos = dmaLen j.desc → exec (.dmaTransferComplete r) s = .next (s.dmaEnd r.val)) ∧
  (∀ (p : Fin 16) (bytes : List Byte) (r : Nat) (s : State), s.Up → r = beAt bytes 32 32 → hOp (beAt bytes 0 32) < 0x24 →
    (TMap.get ({} : Slot) s.common.slots (1024 * p.val + bits r 224 32 % 1024)).holder = none →
    exec (.commonResponseReceive p bytes) s = .next (s.count O.COMMON_STAT 9 1)) ∧
  (∀ (p : Fin 16) (bytes : List Byte) (r k n : Nat) (s : State), s.Up → r = beAt bytes 32 32 → hOp (beAt bytes 0 32) < 0x24 →
    n = bits r 224 32 → k = 1024 * p.val + n % 1024 → (TMap.get ({} : Slot) s.common.slots k).holder.isSome = true →
    (TMap.get ({} : Slot) s.common.slots k).uses = n / 1024 →
    exec (.commonResponseReceive p bytes) s =
      .next (s.slotAnswered k (bits r 216 8) (r.testBit 199) (r.testBit 198) (bytes.drop 64) (bits r 96 48)))

/-- Suspicion and votes (R460 to R463): a heartbeat raises the highest Bell number seen on its block and ends the suspicion of the device that
the block faces; a neighbour is suspected when its miss count reaches MUSTER_K and not before; a suspicion repeats after 64 ticks; votes that
are too old are dropped and the others stay. Members that lag (R374, R376, R378, R381): a collective that commits no step is noted to the lead, which
takes a note of its own rows; a collective with every sum in ends, and the lead goes on. -/
def Obligations.SuspicionAndVotes : Prop :=
  (∀ (b : Fin 128) (bytes : List Byte) (p : Nat) (m : TMap Nat) (s u v : State), s.Up → hOp (beAt bytes 0 32) = 0x08 → s.isLink b.val = true →
    p = beAt bytes 32 32 → u = (s.count O.MUSTER_STAT 0 1).tally 0x0C00 b.val →
    m = TMap.put 0 u.muster.h b.val (max (TMap.get 0 u.muster.h b.val) (bits p 192 64)) → v = { u with muster := { u.muster with h := m } } →
    exec (.heartbeatReceive b bytes) s =
      .next (if (v.facing (bits p 119 9)).contains b.val then v.unsuspect (bits p 119 9) else v)) ∧
  (∀ (b : Fin 128) (bytes : List Byte) (s : State), hOp (beAt bytes 0 32) ≠ 0x08 ∨ s.isLink b.val = false →
    exec (.heartbeatReceive b bytes) s = .next s) ∧
  (∀ (f : Fin 512) (n : Nat) (s : State), s.Up → s.missFacing f.val = some n → s.maySuspect f.val = true → s.ob O.MUSTER_K ≤ n →
    exec (.suspect f) s = .next ((((if s.devState f.val = 0 then s.setDevState f.val 1 else s).count O.MUSTER_STAT 1 1).sendSuspect f.val).voteCheck
      f.val)) ∧
  (∀ (f : Fin 512) (n : Nat) (s : State), s.missFacing f.val = some n → n < s.ob O.MUSTER_K → exec (.suspect f) s = .next s) ∧
  (∀ (f : Fin 512) (t : Nat) (s : State), s.Up → TMap.get 0 s.muster.suspects f.val = t → t ≠ 0 →
    exec (.suspectRepeat f) s = .next (if t + 63 ≤ s.bell then (s.sendSuspect f.val).voteCheck f.val else s)) ∧
  (∀ (s : State), s.Up → exec .voteExpire s = .next { s with muster := { s.muster with
    votes := s.muster.votes.filter (fun v => decide (s.bell ≤ v.bell + s.ob O.MUSTER_VOTE_TTL)) } }) ∧
  (∀ (slot : Fin 64) (id n : Nat) (c : CInst) (s u : State), s.Up → s.slotInst slot.val = some id → c = s.inst id →
    n = cmTimeout (s.comm c.row) → n ≠ 0 → c.held = [] → s.coll.notes.contains (c.row, c.seq, 2) = false →
    u = s.advanceDev (s.bellStart (c.last + n) * devUnit) →
    exec (.collTimeout slot) s = .next ((u.raise O.COLL_ERR 3 8).collNote c.row c.seq 2)) ∧
  (∀ (bytes : List Byte) (row : Nat) (s : State), s.Up → s.collRow bytes = some row → s.leadOf (s.comm row) = s.own →
    exec (.collNoteReceive bytes) s = .next (s.leadNote row (chSeq (collOf bytes)) (beAt bytes 64 1))) ∧
  (∀ (slot : Fin 64) (i : Nat) (c : CInst) (s : State), s.Up → s.slotInst slot.val = some i → c = s.inst i → s.collComplete c = true →
    exec (.collDoneSend slot) s = .next ((((s.count O.COLL_STAT 1 1).collFinish i (if c.poisoned then 3 else if c.overflow ≠ 0 then 6 else 0)
      false).leadDrop (cmId (s.comm c.row)) c.seq).leadAdvance (cmId (s.comm c.row))))

/-- Floods and absences (R417, R463 to R466, R470, R478, R480): a flood goes on with one hop less where it has not gone yet, and a new one is taken in;
a flood of one's own that is due goes again; an absence ends when the Bell passes it; the oldest log segment past MUSTER_W is freed and gives its trimmed
bell; a walk of lost pages is done once, and its end is counted with an event. -/
def Obligations.FloodsAndAbsences : Prop :=
  (∀ (b : Fin 128) (bytes : List Byte) (op p : Nat) (old : Option FloodSeen) (done : List Nat) (r : State × List Nat) (s u : State), s.Up →
    op = hOp (beAt bytes 0 32) → s.isLink b.val = true → 9 ≤ op → op ≤ 0x0E → p = beAt bytes 32 32 →
    old = s.floodSeen op (bits p 247 9) (bits p 238 9) (bits p 96 64) → done = (match old with | some k => k.queued | none => []) →
    r = (if bits p 230 8 = 0 then (s, []) else s.floodTo (s.liveLinks.filter (fun x => x != b.val && !done.contains x)) op
      (beBytes 32 (setBits p 230 8 (bits p 230 8 - 1)) ++ bytes.drop 64)) →
    u = r.1.floodKeep { op := op, dev := bits p 247 9, origin := bits p 238 9, bell := bits p 96 64, queued := r.2.foldl NSet.add done,
                        seen := (match old with | some k => k.seen | none => s.bell) } →
    exec (.floodFrameReceive b bytes) s = .next (if old.isSome then u
      else u.floodTake op (bits p 247 9) (bits p 238 9) (bits p 160 64) (bits p 96 64) (bits p 64 32) (bytes.drop 64))) ∧
  (∀ (due l : List OwnFlood) (s u : State), s.Up → l = s.muster.own.filter (fun o => decide (s.bell ≤ o.until_)) →
    due = l.filter (fun o => decide (o.next ≤ s.bell)) →
    u = { s with muster := { s.muster with own := l.map (fun o => if o.next ≤ s.bell then { o with next := s.bell + 64 } else o) } } →
    exec .floodRepeat s = .next (due.foldl (fun s o => s.floodIssue o.op o.dev 64 o.serial o.bell o.arg) u)) ∧
  (∀ (f : Fin 512) (m : TMap Nat) (s : State), s.Up → TMap.has s.muster.away f.val = true → m = TMap.put 0 s.muster.away f.val 0 →
    exec (.absenceExpire f) s = .next (if TMap.get 0 s.muster.away f.val < s.bell then
      ({ s with muster := { s.muster with away := m } }).raise O.MUSTER_ERR 6 0 8 f.val 0 else s)) ∧
  (∀ (g : LogSeg) (l rest : List LogSeg) (f : LogSeg → Bool) (s : State), s.Up → s.muster.segs = l ++ g :: rest → (∀ x ∈ l, f x = false) → f g = true →
    f = (fun g => !s.muster.frozen.contains g.dest &&
      (match g.entries.getLast? with | some e => decide (e.bell + s.ob O.MUSTER_W < s.bell) | none => true)) →
    exec .logSegmentFree s = .next { s with muster := { s.muster with
      segs := l ++ rest
      trimmed := TMap.put 0 s.muster.trimmed g.dest (match g.entries.getLast? with | some e => e.bell + 1 | none => TMap.get 0 s.muster.trimmed g.dest) } }) ∧
  (∀ (st : Nat) (rest : List Nat) (s : State), s.Up → s.common.lost = st :: rest →
    exec .lostWalk s = .next ({ s with common := { s.common with lost := rest, walked := s.common.walked ++ [st] } }.lostWalk st)) ∧
  (∀ (st n : Nat) (rest : List Nat) (s : State), s.Up → s.common.walked = st :: rest → n = (s.ob O.COMMON_LOST_DONE + 1) % 2 ^ 32 →
    exec .lostWalkDone s =
      .next (({ s with common := { s.common with walked := rest } }.setOb O.COMMON_LOST_DONE n).event [0] 0x0B st n))

/-- Recovery (R472 to R474, R477, R484, R485): op 2 of MUSTER_CMD sends the entries of another device to it, and at the stand-in opens the recovery with its deadline;
op 3 is for the stand-in alone; an entry already received is discarded, a new one is counted and, if it is a Common write, lies in the replay ring; a log that ends is
recorded; a stand-in that does not resume in time is reported; an absence of 0 ticks is rejected. -/
def Obligations.RecoveryCommands : Prop :=
  (∀ (who : Path) (f : BitVec 16) (s t : State), s.Takes who O.MUSTER_CMD t → t.Up → f.toNat < 512 →
    exec (.musterDeclareFailed who f) s =
      .next (((t.noticeTake f.toNat (t.helloSerial f.toNat) t.bell).setOb O.MUSTER_CMD_STATUS 0).answered who O.MUSTER_CMD 0)) ∧
  (∀ (who : Path) (f : BitVec 16) (s t : State), s.Takes who O.MUSTER_CMD t → t.Up → f.toNat < 512 →
    f.toNat ≠ (t.setDevState f.toNat 4).own →
    exec (.musterResume who f) s =
      .next ((((t.setDevState f.toNat 4).sendReplay f.toNat).setOb O.MUSTER_CMD_STATUS 0).answered who O.MUSTER_CMD 0)) ∧
  (∀ (who : Path) (f : BitVec 16) (s t u v : State), s.Takes who O.MUSTER_CMD t → t.Up → f.toNat < 512 →
    u = t.setDevState f.toNat 4 → f.toNat = u.own →
    v = { u with muster := { u.muster with recov := some { deadline := u.now + u.ob O.MUSTER_REPLAY_TO_MS * 1000000 } } } →
    exec (.musterResume who f) s = .next (((v.recovCheck []).setOb O.MUSTER_CMD_STATUS 0).answered who O.MUSTER_CMD 0)) ∧
  (∀ (who : Path) (f : BitVec 16) (s t : State), s.Takes who O.MUSTER_CMD t → t.Up →
    exec (.musterDeclareUnrecoverable who f) s = .next (if f.toNat = t.own ∧ t.muster.recov.isSome = true then
      ((t.floodUnrecov f.toNat).setOb O.MUSTER_CMD_STATUS 0).answered who O.MUSTER_CMD 0
      else (t.setOb O.MUSTER_CMD_STATUS 9).answered who O.MUSTER_CMD 9)) ∧
  (∀ (who : Path) (a : BitVec 32) (s t : State), s.Takes who O.MUSTER_CMD t →
    exec (.musterAnnounceAbsence who a) s = .next (if 1 ≤ a.toNat ∧ a.toNat ≤ 1048576 then
      ((t.announceAbsence a.toNat).setOb O.MUSTER_CMD_STATUS 0).answered who O.MUSTER_CMD 0
      else (t.setOb O.MUSTER_CMD_STATUS 9).answered who O.MUSTER_CMD 9)) ∧
  (∀ (f : Fin 512) (s : State), s.Up → s.devState f.val = 4 → f.val ≠ s.own → exec (.replayRestart f) s = .next (s.sendReplay f.val)) ∧
  (∀ (bytes : List Byte) (r : Recovery) (h d n : Nat) (s u : State), s.Up → s.muster.recov = some r → d = hSrcDev (beAt bytes 0 32) →
    h = leAt (bytes.drop 32) 0 32 → n = bits h 96 32 →
    u = ({ s with muster := { s.muster with recov := some { r with last := TMap.put 0 r.last d (n + 1) } } }).count O.MUSTER_STAT 8 1 →
    exec (.logEntryReceive bytes) s = .next (if n + 1 ≤ TMap.get 0 r.last d then s
      else if h.testBit 57 then u.replayWrite (bytes.drop 32) else u.droverTakes (((bytes.drop 32).drop 32).take (bits h 64 16)))) ∧
  (∀ (bytes : List Byte) (r w : Recovery) (p : Nat) (s : State), s.Up → s.muster.recov = some r → p = beAt bytes 32 80 →
    w = { r with ends := r.ends.add (hSrcDev (beAt bytes 0 32)), incomplete := r.incomplete || p.testBit 575 } →
    exec (.logEndReceive bytes) s = .next (({ s with muster := { s.muster with recov := some w } }).recovCheck
      ((List.range 512).filter (fun d => p.testBit d)))) ∧
  (∀ (r : Recovery) (s : State), s.Up → s.muster.recov = some r →
    exec .replayTimeout s = .next ((s.advanceTo r.deadline).raise O.MUSTER_ERR 4))

/-- Fences (R482, R483, R485): the five forms of FENCE_CMD carry out their fence and leave status 0; a unit that is not there leaves status 9; a block inside a wider
fence, or not fenced, is not unfenced; a stack may be fenced by its own controller. Gates of stacks (R593): one that holds nothing more sleeps, one that still does
at its deadline stays awake with an error. A ridge link's fence (R97) drops every copy that crosses it, counted. -/
def Obligations.FenceCommands : Prop :=
  (∀ (who : Path) (b : BitVec 8) (s t : State), s.Takes who O.FENCE_CMD t →
    exec (.fenceBlock who b) s = .next (if b.toNat < 128 then ((t.blockFence b.toNat).setOb O.FENCE_STATUS 0).answered who O.FENCE_CMD 0
      else (t.setOb O.FENCE_STATUS 9).answered who O.FENCE_CMD 9)) ∧
  (∀ (who : Path) (b : BitVec 8) (s t : State), s.Takes who O.FENCE_CMD t →
    exec (.fenceStack (some who) b) s = .next (if b.toNat < 16 then ((t.stackFence b.toNat).setOb O.FENCE_STATUS 0).answered who O.FENCE_CMD 0
      else (t.setOb O.FENCE_STATUS 9).answered who O.FENCE_CMD 9)) ∧
  (∀ (who : Path) (b : BitVec 8) (s t : State), s.Takes who O.FENCE_CMD t →
    exec (.fencePaddock who b) s = .next (if b.toNat < 16 then ((t.paddockFence b.toNat).setOb O.FENCE_STATUS 0).answered who O.FENCE_CMD 0
      else (t.setOb O.FENCE_STATUS 9).answered who O.FENCE_CMD 9)) ∧
  (∀ (who : Path) (s : State), s.serves who O.FENCE_CMD = true →
    exec (.fenceDevice who) s = .next (((s.taken who).deviceFence.setOb O.FENCE_STATUS 0).answered who O.FENCE_CMD 0)) ∧
  (∀ (b : BitVec 8) (s : State), b.toNat < 16 → exec (.fenceStack none b) s = .next (s.stackFence b.toNat)) ∧
  (∀ (who : Path) (b : BitVec 8) (s t : State), s.Takes who O.FENCE_CMD t → b.toNat < 128 →
    (t.deviceFenced = true ∨ (t.ob O.FENCE_PADDOCKS).testBit (b.toNat / 8) = true ∨ t.blockFenced b.toNat = false →
      exec (.unfenceBlock who b) s = .next ((t.setOb O.FENCE_STATUS 0).answered who O.FENCE_CMD 0)) ∧
    (t.deviceFenced = false → (t.ob O.FENCE_PADDOCKS).testBit (b.toNat / 8) = false → t.blockFenced b.toNat = true → t.role b.toNat ≠ 3 →
      exec (.unfenceBlock who b) s =
        .next ((((t.markBlock b.toNat false).blockStart b.toNat).setOb O.FENCE_STATUS 0).answered who O.FENCE_CMD 0))) ∧
  (∀ (st : Fin 16) (n : Nat) (s : State), s.Up → TMap.get 0 s.power.gating st.val = n + 1 → s.stackHolds st.val = false →
    exec (.stackGateComplete st) s = .next ((s.stackAsleep st.val).setOb O.PWR_GATE_STATUS 0)) ∧
  (∀ (st : Fin 16) (n : Nat) (s u : State), s.Up → TMap.get 0 s.power.gating st.val = n + 1 → s.stackHolds st.val = true →
    u = (s.advanceTo n).setOb O.PWR_GATE_STATUS 8 →
    exec (.stackGateComplete st) s = .next ({ u with power := { u.power with
      gating := TMap.put 0 u.power.gating st.val 0 } }.raise O.RST_ERR 4 8 5 st.val)) ∧
  (∀ (l : Fin 4) (s u : State), s.Up → s.fold.ridgeFenced.testBit l.val = false →
    u = State.raise { s with fold := { s.fold with ridgeFenced := setBit s.fold.ridgeFenced l.val } } O.FOLD_ERR 5 4 →
    exec (.ridgeLinkFence l) s = .next
      (((u.fold.copies.filter (fun x => copyCrosses l.val x.2)).map (·.1)).foldl
        (fun (s : State) id => (s.purgeCopy id).fwdDrop (inputDie (s.copy id).input) (s.copy id).frame .unreachable)
        { u with power := { u.power with faultN := false } }))

/-- Accesses turned away (R23, R493, R495, R497, R577, R589, R593): the object server in reset answers 0x0D but for an object of the Crook's own; a read-only object and a role
that does not suffice answer 0x02; a virtual function reaches the objects open to it alone; in all of these nothing changes but the count of accesses; a write
through the BAR0 window is neither counted nor answered; a core may not command the power state, and no gate is taken from DS3 on. -/
def Obligations.AccessesAreTurnedAway : Prop :=
  (∀ (c : Instr) (who : Path) (oid : Nat) (d : ObjDef) (s : State), accessOf c = some (who, oid) → objDef oid = some d → s.tablesOk = true →
    (s.crookUp = false ∨ (who = .window ∧ d.ty.inSlot = false) → exec c s = .next s) ∧
    (s.crookUp = true → who ≠ .window ∨ d.ty.inSlot = true →
      (s.serverInReset = true → crookSet oid = false → exec c s = .next ((s.taken who).reply who 0x0D 0 [])) ∧
      (s.serverInReset = false ∨ crookSet oid = true → d.acc = .ro ∨ s.roleOf who < d.wr.num →
        exec c s = .next ((s.taken who).reply who 0x02 0 [])))) ∧
  (∀ (v : Fin 33) (s : State), s.roleOf (.vfMailbox v) = 1) ∧
  (∀ oid, vfOpen oid = true ↔ oid ∈ [0x000001, 0x000002, 0x000003, 0x000004, 0x000005, 0x000006, 0x000007, 0x000008, 0x001001, 0x001002,
    0x001005, 0x030007, 0x030401, 0x030404, 0x340006]) ∧
  (∀ (v : Fin 33) (idx : BitVec 16) (el : BitVec 8) (off len : BitVec 32) (data : List Byte) (s u : State), s.crookUp = true →
    len.toNat ≤ 16384 → data.length ≤ 16384 → vfOpen (idx.toNat * 256 + el.toNat) = false →
    u = (s.count O.CTL_STAT 0 1).reply (.vfMailbox v) 0x02 0 [] →
    exec (.dictionaryRead (.vfMailbox v) idx el off len) s = .next u ∧ exec (.dictionaryWrite (.vfMailbox v) idx el off data) s = .next u ∧
    exec (.dictionaryCommand (.vfMailbox v) idx el off data) s = .next u ∧ exec (.dictionaryDescribe (.vfMailbox v) idx el) s = .next u) ∧
  (∀ (who : Path) (idx : BitVec 16) (el : BitVec 8) (off len : BitVec 32) (data : List Byte) (oid : Nat) (s u : State), who ≠ .window →
    (∀ v, who = .vfMailbox v → vfOpen oid = true) → s.crookUp = true → oid = idx.toNat * 256 + el.toNat → u = s.count O.CTL_STAT 0 1 →
    len.toNat ≤ pathLimit who false → data.length ≤ pathLimit who false →
    (∀ c ∈ [Instr.dictionaryRead who idx el off len, .dictionaryWrite who idx el off data, .dictionaryCommand who idx el off data,
        .dictionaryDescribe who idx el],
      (objDef oid = none → exec c s = .next (u.reply who 0x01 0 [])) ∧
      (∀ d, objDef oid = some d → u.serverInReset = true → crookSet oid = false → exec c s = .next (u.reply who 0x0D 0 []))) ∧
    (∀ d v, objDef oid = some d → (u.serverInReset && !crookSet oid) = false → v = (u.served oid).reply who 0x02 0 [] →
      (u.roleOf who < d.rd.num → exec (.dictionaryRead who idx el off len) s = .next v) ∧
      (d.acc = .ro ∨ u.roleOf who < d.wr.num → exec (.dictionaryWrite who idx el off data) s = .next v) ∧
      (d.acc ≠ .cmd → exec (.dictionaryCommand who idx el off data) s = .next v))) ∧
  (∀ (v : BitVec 8) (s : State), s.serves .cores O.PWR_CMD = true →
    exec (.pwrCmd .cores v) s = .next ((s.taken .cores).answered .cores O.PWR_CMD 0x02)) ∧
  (∀ (who : Path) (k : BitVec 8) (u : BitVec 16) (s t : State), s.Takes who O.PWR_GATE t →
    3 ≤ t.ob O.PWR_STATE →
    exec (.pwrGate who k u) s = .next (t.answered who O.PWR_GATE 0x0D) ∧
    exec (.pwrUngate who k u) s = .next (t.answered who O.PWR_GATE 0x0D))

/-! ### What holds of many commands together (R23, R493 to R497, R539) -/

/-- The frame of the commands of control, whatever they do and whether they are accepted: memory, the engines and the units that are none
of theirs are left as they were. And a command that finds nothing to do changes nothing: an event of a time that is not set, of a unit that
is not at that point, or for something that is not there. -/
def Obligations.ControlCommandsLeaveTheRestAlone : Prop :=
  (∀ (c : Instr) (s t : State), exec c s = .next t →
    (frameOf c ≠ 0 → SameMem s t ∧ t.poison = s.poison ∧ t.blobs = s.blobs) ∧
    (2 ≤ frameOf c → SameEngines s t) ∧ (frameOf c = 3 → SameUnits s t)) ∧
  (∀ s : State, (s.crookUp = false → exec .coldResetPin s = .next s ∧ exec .warmResetPin s = .next s ∧ exec .refclkCoreLoss s = .next s) ∧
    (s.secondDue = false → exec .deviceThermalTrip s = .next s) ∧ (s.ctl.wdtAt = none → exec .criotteWdtExpire s = .next s) ∧
    (s.time.switch = none → exec .periodSwitch s = .next s) ∧ (s.ppsDriven = false → exec .ppsOutRise s = .next s) ∧
    (s.power.target = none → ∀ late, exec (.powerStepDone late) s = .next s) ∧
    (∀ p : Fin 16, (s.power.clockLost.testBit p.val = true → exec (.refclkSdLoss p) s = .next s) ∧
      (s.power.clockLost.testBit p.val = false → exec (.refclkSdReturn p) s = .next s) ∧
      (TMap.get 0 s.power.gating p.val = 0 → exec (.stackGateComplete p) s = .next s)) ∧
    (∀ f : Fin 33, (s.fn f.val).mbxBusy = false → exec (.mailboxDone f) s = .next s)) ∧
  (∀ s : State, (s.drove.holder ≠ .idle ∨ s.drove.gated = true → exec .beatStart s = .next s) ∧
    (s.drove.holder = .idle → ∀ units ev ue bad, exec (.beatCommit units ev ue bad) s = .next s) ∧
    (s.ob O.DROVE_SENTINEL_TICKS = 0 → exec .sentinelDue s = .next s) ∧
    (s.drove.gated = true → ∀ a, exec (.droveAdmit a) s = .next s) ∧
    (∀ n, s.drove.waits[n]? = none → exec (.remoteTimeout n) s = .next s) ∧
    (∀ (dma : Bool) (r : Fin 64), s.mayFetch dma r.val = false →
      exec (.descriptorFetch dma r) s = .next s ∧ ∀ f, exec (.hostAccessFault dma r .fetch f) s = .next s) ∧
    (∀ c : Fin 256, (s.octx c.val).isOver = false ∨ s.outputsWait c.val = true → exec (.operationComplete c) s = .next s) ∧
    (∀ k : Fin 64, s.slotInst k.val = none → exec (.collDoneSend k) s = .next s ∧ exec (.collTimeout k) s = .next s)) ∧
  (∀ s : State, (s.common.invals = [] → exec .commonInvalComplete s = .next s) ∧
    (s.common.lost = [] → exec .lostWalk s = .next s) ∧ (s.common.walked = [] → exec .lostWalkDone s = .next s) ∧
    (∀ id, (s.creq id).stage ≠ .held → exec (.commonHoldExpire (.request id)) s = .next s) ∧
    (∀ id, s.common.mirrors.find? (fun m => m.1 == id) = none → exec (.mirrorTimeout id) s = .next s) ∧
    (∀ u : Fin 16, s.common.walks.find? (fun w => w.1 == u.val) = none → exec (.commonWalkComplete u) s = .next s) ∧
    (∀ r : Fin 64, (s.job r.val).live = false → exec (.dmaTransferComplete r) s = .next s)) ∧
  (∀ (s : State) (bytes : List Byte), s.muster.recov = none →
    exec (.logEntryReceive bytes) s = .next s ∧ exec (.logEndReceive bytes) s = .next s ∧ exec .replayTimeout s = .next s) ∧
  (∀ (s : State) (b : Fin 128) (bytes : List Byte), hOp (beAt bytes 0 32) < 0x09 ∨ 0x0E < hOp (beAt bytes 0 32) →
    exec (.floodFrameReceive b bytes) s = .next s)
end

