-- ==== Sys2Proof/Laws/TMap.lean ====
section
/-!
SUPPORT. Laws of sparse tables and memories: a read after a write, and that every operation keeps the canonical form.
-/

namespace Sys2Proof.Machine

variable {α : Type}

theorem TMap.get_insert_same (d : α) (m : TMap α) (i : Nat) (v : α) : TMap.get d (TMap.insert m i v) i = v := by
  induction m with
  | nil => simp [TMap.insert, TMap.get]
  | cons e m ih =>
    obtain ⟨k, w⟩ := e
    simp only [TMap.insert]
    split
    · simp [TMap.get]
    · split
      · simp [TMap.get]
      · simp [TMap.get, *]

theorem TMap.get_insert_other (d : α) (m : TMap α) (i j : Nat) (v : α) (h : j ≠ i) :
    TMap.get d (TMap.insert m i v) j = TMap.get d m j := by
  induction m with
  | nil => simp [TMap.insert, TMap.get, h]
  | cons e m ih =>
    obtain ⟨k, w⟩ := e
    simp only [TMap.insert]
    split
    · subst_vars; simp only [TMap.get, if_neg h]
    · split
      · simp only [TMap.get, if_neg h]
        split
        · by_cases hk : j = k
          · omega
          · simp [hk]; omega
        · rfl
      · simp only [TMap.get, ih]

theorem TMap.sortedFrom_mono {lo lo' : Nat} {m : TMap α} (h : lo' ≤ lo) (hs : TMap.sortedFrom lo m = true) :
    TMap.sortedFrom lo' m = true := by
  cases m with
  | nil => rfl
  | cons e m => obtain ⟨k, w⟩ := e; simp [TMap.sortedFrom] at *; exact ⟨by omega, hs.2⟩

theorem TMap.get_of_lt (d : α) {lo j : Nat} {m : TMap α} (hs : TMap.sortedFrom lo m = true) (h : j < lo) :
    TMap.get d m j = d := by
  cases m with
  | nil => rfl
  | cons e m =>
    obtain ⟨k, w⟩ := e
    simp [TMap.sortedFrom] at hs
    simp only [TMap.get]
    rw [if_neg (by omega), if_pos (by omega)]

theorem TMap.get_erase_same (d : α) {lo : Nat} {m : TMap α} (hs : TMap.sortedFrom lo m = true) (i : Nat) :
    TMap.get d (TMap.erase m i) i = d := by
  induction m generalizing lo with
  | nil => rfl
  | cons e m ih =>
    obtain ⟨k, w⟩ := e
    simp [TMap.sortedFrom] at hs
    simp only [TMap.erase]
    split
    · exact TMap.get_of_lt d hs.2 (by omega)
    · split
      · simp [TMap.get, *]
      · simp [TMap.get, *, ih hs.2]

theorem TMap.get_erase_other (d : α) {lo : Nat} {m : TMap α} (hs : TMap.sortedFrom lo m = true) (i j : Nat) (h : j ≠ i) :
    TMap.get d (TMap.erase m i) j = TMap.get d m j := by
  induction m generalizing lo with
  | nil => rfl
  | cons e m ih =>
    obtain ⟨k, w⟩ := e
    simp [TMap.sortedFrom] at hs
    simp only [TMap.erase]
    split
    · subst_vars
      simp only [TMap.get, if_neg h]
      split
      · exact TMap.get_of_lt d hs.2 (by omega)
      · rfl
    · split
      · rfl
      · simp only [TMap.get, ih hs.2]

theorem TMap.sortedFrom_insert {lo : Nat} {m : TMap α} (hs : TMap.sortedFrom lo m = true) (i : Nat) (v : α) (h : lo ≤ i) :
    TMap.sortedFrom lo (TMap.insert m i v) = true := by
  induction m generalizing lo with
  | nil => simp [TMap.insert, TMap.sortedFrom, h]
  | cons e m ih =>
    obtain ⟨k, w⟩ := e
    simp [TMap.sortedFrom] at hs
    simp only [TMap.insert]
    split
    · subst_vars; simp [TMap.sortedFrom, hs.2, h]
    · split
      · simp [TMap.sortedFrom, hs.2, h]; omega
      · simp [TMap.sortedFrom, hs.1]; exact ih hs.2 (by omega)

theorem TMap.sortedFrom_erase {lo : Nat} {m : TMap α} (hs : TMap.sortedFrom lo m = true) (i : Nat) :
    TMap.sortedFrom lo (TMap.erase m i) = true := by
  induction m generalizing lo with
  | nil => rfl
  | cons e m ih =>
    obtain ⟨k, w⟩ := e
    simp [TMap.sortedFrom] at hs
    simp only [TMap.erase]
    split
    · exact TMap.sortedFrom_mono (by omega) hs.2
    · split
      · simp [TMap.sortedFrom, hs]
      · simp [TMap.sortedFrom, hs.1, ih hs.2]

theorem TMap.sortedFrom_filter {lo : Nat} {m : TMap α} (hs : TMap.sortedFrom lo m = true) (p : Nat × α → Bool) :
    TMap.sortedFrom lo (m.filter p) = true := by
  induction m generalizing lo with
  | nil => rfl
  | cons e m ih =>
    obtain ⟨k, w⟩ := e
    simp [TMap.sortedFrom] at hs
    simp only [List.filter_cons]
    split
    · simp [TMap.sortedFrom, hs.1, ih hs.2]
    · exact TMap.sortedFrom_mono (by omega) (ih hs.2)

theorem TMap.mem_insert {m : TMap α} {i : Nat} {v : α} {e : Nat × α} (h : e ∈ TMap.insert m i v) : e = (i, v) ∨ e ∈ m := by
  induction m with
  | nil => simpa [TMap.insert] using h
  | cons x m ih =>
    obtain ⟨k, w⟩ := x
    simp only [TMap.insert] at h
    split at h
    · grind
    · split at h <;> grind

theorem TMap.mem_erase {m : TMap α} {i : Nat} {e : Nat × α} (h : e ∈ TMap.erase m i) : e ∈ m := by
  induction m with
  | nil => simp [TMap.erase] at h
  | cons x m ih =>
    obtain ⟨k, w⟩ := x
    simp only [TMap.erase] at h
    split at h
    · simp [h]
    · split at h
      · exact h
      · grind

variable [DecidableEq α]

theorem TMap.noDefault_iff (d : Nat → α) (m : TMap α) : TMap.noDefault d m = true ↔ ∀ e ∈ m, e.2 ≠ d e.1 := by
  induction m with
  | nil => simp [TMap.noDefault]
  | cons e m ih => obtain ⟨k, w⟩ := e; simp [TMap.noDefault, ih]

/-- Writing a key keeps the canonical form. -/
theorem TMap.wf_put {d : Nat → α} {m : TMap α} (h : TMap.wf d m = true) (i : Nat) (v : α) :
    TMap.wf d (TMap.put (d i) m i v) = true := by
  simp only [TMap.wf, Bool.and_eq_true, TMap.noDefault_iff] at *
  unfold TMap.put
  split
  · exact ⟨TMap.sortedFrom_erase h.1 i, fun e he => h.2 e (TMap.mem_erase he)⟩
  · refine ⟨TMap.sortedFrom_insert h.1 i v (by omega), fun e he => ?_⟩
    rcases TMap.mem_insert he with rfl | he
    · assumption
    · exact h.2 e he

/-- Dropping entries keeps the canonical form. -/
theorem TMap.wf_filter {d : Nat → α} {m : TMap α} (h : TMap.wf d m = true) (p : Nat × α → Bool) :
    TMap.wf d (m.filter p) = true := by
  simp only [TMap.wf, Bool.and_eq_true, TMap.noDefault_iff] at *
  exact ⟨TMap.sortedFrom_filter h.1 p, fun e he => h.2 e ((List.mem_filter.mp he).1)⟩

@[simp] theorem TMap.wf_nil (d : Nat → α) : TMap.wf d ([] : TMap α) = true := rfl

/-- A key reads as what was last written to it. -/
theorem TMap.get_put_same {d : Nat → α} {m : TMap α} (h : TMap.wf d m = true) (i : Nat) (v : α) :
    TMap.get (d i) (TMap.put (d i) m i v) i = v := by
  simp only [TMap.wf, Bool.and_eq_true] at h
  unfold TMap.put
  split
  · rename_i hv; rw [TMap.get_erase_same (d i) h.1, hv]
  · exact TMap.get_insert_same _ _ _ _

/-- A write of one key leaves every other key as it was. -/
theorem TMap.get_put_other {d : Nat → α} {m : TMap α} (h : TMap.wf d m = true) (e : α) (i j : Nat) (v : α) (hj : j ≠ i) :
    TMap.get e (TMap.put (d i) m i v) j = TMap.get e m j := by
  simp only [TMap.wf, Bool.and_eq_true] at h
  unfold TMap.put
  split
  · exact TMap.get_erase_other e h.1 i j hj
  · exact TMap.get_insert_other e m i j v hj

/-- Writing bytes keeps a memory in canonical form. -/
theorem memWrite_wf {m : TMap Byte} (h : Memory.wf m = true) (a : Nat) (l : List Byte) : Memory.wf (memWrite m a l) = true := by
  induction l generalizing m a with
  | nil => exact h
  | cons b l ih => exact ih (TMap.wf_put (d := fun _ => 0) h a b) (a + 1)

/-- Writing bytes leaves every address outside them as it was. -/
theorem memWrite_other {m : TMap Byte} (h : Memory.wf m = true) (a : Nat) (l : List Byte) (x : Nat) (hx : x < a ∨ a + l.length ≤ x) :
    TMap.get 0 (memWrite m a l) x = TMap.get 0 m x := by
  induction l generalizing m a with
  | nil => rfl
  | cons b l ih =>
    have hw := TMap.wf_put (d := fun _ => (0 : Byte)) h a b
    simp only [List.length_cons] at hx
    unfold memWrite
    rw [ih hw (a + 1) (by omega)]
    exact TMap.get_put_other (d := fun _ => (0 : Byte)) h 0 a x b (by omega)

/-- Bytes read back as they were written. -/
theorem memRead_memWrite {m : TMap Byte} (h : Memory.wf m = true) (a : Nat) (l : List Byte) :
    memRead (memWrite m a l) a l.length = l := by
  induction l generalizing m a with
  | nil => rfl
  | cons b l ih =>
    have hw := TMap.wf_put (d := fun _ => (0 : Byte)) h a b
    simp only [List.length_cons, memRead, memWrite]
    rw [ih hw (a + 1), memWrite_other hw (a + 1) l a (by omega)]
    rw [TMap.get_put_same (d := fun _ => (0 : Byte)) h a b]

end Sys2Proof.Machine
end

