-- ==== Sys2Proof/Laws/State.lean ====
section
/-!
SUPPORT. What each primitive update of the state leaves in each field, one lemma for a field and an update, and what a row of an
object reads after a row is set.
-/

namespace Sys2Proof.Machine

variable (s : State)

/-! ### setRow -/

@[simp] theorem State.setRow_objs (oid row v : Nat) : (s.setRow oid row v).objs = TMap.put (okeyDefault (okey oid row)) s.objs (okey oid row) v := rfl
@[simp] theorem State.setRow_blobs (oid row v : Nat) : (s.setRow oid row v).blobs = s.blobs := rfl
@[simp] theorem State.setRow_regs (oid row v : Nat) : (s.setRow oid row v).regs = s.regs := rfl
@[simp] theorem State.setRow_hbm (oid row v : Nat) : (s.setRow oid row v).hbm = s.hbm := rfl
@[simp] theorem State.setRow_poison (oid row v : Nat) : (s.setRow oid row v).poison = s.poison := rfl
@[simp] theorem State.setRow_host (oid row v : Nat) : (s.setRow oid row v).host = s.host := rfl
@[simp] theorem State.setRow_now (oid row v : Nat) : (s.setRow oid row v).now = s.now := rfl
@[simp] theorem State.setRow_time (oid row v : Nat) : (s.setRow oid row v).time = s.time := rfl
@[simp] theorem State.setRow_fold (oid row v : Nat) : (s.setRow oid row v).fold = s.fold := rfl
@[simp] theorem State.setRow_fwd (oid row v : Nat) : (s.setRow oid row v).fwd = s.fwd := rfl
@[simp] theorem State.setRow_blocks (oid row v : Nat) : (s.setRow oid row v).blocks = s.blocks := rfl
@[simp] theorem State.setRow_circ (oid row v : Nat) : (s.setRow oid row v).circ = s.circ := rfl
@[simp] theorem State.setRow_drove (oid row v : Nat) : (s.setRow oid row v).drove = s.drove := rfl
@[simp] theorem State.setRow_coll (oid row v : Nat) : (s.setRow oid row v).coll = s.coll := rfl
@[simp] theorem State.setRow_common (oid row v : Nat) : (s.setRow oid row v).common = s.common := rfl
@[simp] theorem State.setRow_muster (oid row v : Nat) : (s.setRow oid row v).muster = s.muster := rfl
@[simp] theorem State.setRow_ctl (oid row v : Nat) : (s.setRow oid row v).ctl = s.ctl := rfl
@[simp] theorem State.setRow_pcie (oid row v : Nat) : (s.setRow oid row v).pcie = s.pcie := rfl
@[simp] theorem State.setRow_obsv (oid row v : Nat) : (s.setRow oid row v).obsv = s.obsv := rfl
@[simp] theorem State.setRow_power (oid row v : Nat) : (s.setRow oid row v).power = s.power := rfl
@[simp] theorem State.setRow_out (oid row v : Nat) : (s.setRow oid row v).out = s.out := rfl
@[simp] theorem State.setRow_free (oid row v : Nat) : (s.setRow oid row v).free = s.free := rfl
@[simp] theorem State.setRow_pending (oid row v : Nat) : (s.setRow oid row v).pending = s.pending := rfl
@[simp] theorem State.setRow_block (oid row v : Nat) (i : Nat) : (s.setRow oid row v).block i = s.block i := rfl
@[simp] theorem State.setRow_portState (oid row v : Nat) (i : Nat) : (s.setRow oid row v).portState i = s.portState i := rfl
@[simp] theorem State.setRow_fn (oid row v : Nat) (i : Nat) : (s.setRow oid row v).fn i = s.fn i := rfl

/-! ### setOb -/

@[simp] theorem State.setOb_objs (oid v : Nat) : (s.setOb oid v).objs = (s.setRow oid 0 v).objs := rfl
@[simp] theorem State.setOb_blobs (oid v : Nat) : (s.setOb oid v).blobs = s.blobs := rfl
@[simp] theorem State.setOb_regs (oid v : Nat) : (s.setOb oid v).regs = s.regs := rfl
@[simp] theorem State.setOb_hbm (oid v : Nat) : (s.setOb oid v).hbm = s.hbm := rfl
@[simp] theorem State.setOb_poison (oid v : Nat) : (s.setOb oid v).poison = s.poison := rfl
@[simp] theorem State.setOb_host (oid v : Nat) : (s.setOb oid v).host = s.host := rfl
@[simp] theorem State.setOb_now (oid v : Nat) : (s.setOb oid v).now = s.now := rfl
@[simp] theorem State.setOb_time (oid v : Nat) : (s.setOb oid v).time = s.time := rfl
@[simp] theorem State.setOb_fold (oid v : Nat) : (s.setOb oid v).fold = s.fold := rfl
@[simp] theorem State.setOb_fwd (oid v : Nat) : (s.setOb oid v).fwd = s.fwd := rfl
@[simp] theorem State.setOb_blocks (oid v : Nat) : (s.setOb oid v).blocks = s.blocks := rfl
@[simp] theorem State.setOb_circ (oid v : Nat) : (s.setOb oid v).circ = s.circ := rfl
@[simp] theorem State.setOb_drove (oid v : Nat) : (s.setOb oid v).drove = s.drove := rfl
@[simp] theorem State.setOb_coll (oid v : Nat) : (s.setOb oid v).coll = s.coll := rfl
@[simp] theorem State.setOb_common (oid v : Nat) : (s.setOb oid v).common = s.common := rfl
@[simp] theorem State.setOb_muster (oid v : Nat) : (s.setOb oid v).muster = s.muster := rfl
@[simp] theorem State.setOb_ctl (oid v : Nat) : (s.setOb oid v).ctl = s.ctl := rfl
@[simp] theorem State.setOb_pcie (oid v : Nat) : (s.setOb oid v).pcie = s.pcie := rfl
@[simp] theorem State.setOb_obsv (oid v : Nat) : (s.setOb oid v).obsv = s.obsv := rfl
@[simp] theorem State.setOb_power (oid v : Nat) : (s.setOb oid v).power = s.power := rfl
@[simp] theorem State.setOb_out (oid v : Nat) : (s.setOb oid v).out = s.out := rfl
@[simp] theorem State.setOb_free (oid v : Nat) : (s.setOb oid v).free = s.free := rfl
@[simp] theorem State.setOb_pending (oid v : Nat) : (s.setOb oid v).pending = s.pending := rfl
@[simp] theorem State.setOb_block (oid v : Nat) (i : Nat) : (s.setOb oid v).block i = s.block i := rfl
@[simp] theorem State.setOb_portState (oid v : Nat) (i : Nat) : (s.setOb oid v).portState i = s.portState i := rfl
@[simp] theorem State.setOb_fn (oid v : Nat) (i : Nat) : (s.setOb oid v).fn i = s.fn i := rfl

/-! ### setBlob -/

@[simp] theorem State.setBlob_objs (oid : Nat) (v : List Byte) : (s.setBlob oid v).objs = s.objs := rfl
@[simp] theorem State.setBlob_blobs (oid : Nat) (v : List Byte) : (s.setBlob oid v).blobs = TMap.put [] s.blobs oid v := rfl
@[simp] theorem State.setBlob_regs (oid : Nat) (v : List Byte) : (s.setBlob oid v).regs = s.regs := rfl
@[simp] theorem State.setBlob_hbm (oid : Nat) (v : List Byte) : (s.setBlob oid v).hbm = s.hbm := rfl
@[simp] theorem State.setBlob_poison (oid : Nat) (v : List Byte) : (s.setBlob oid v).poison = s.poison := rfl
@[simp] theorem State.setBlob_host (oid : Nat) (v : List Byte) : (s.setBlob oid v).host = s.host := rfl
@[simp] theorem State.setBlob_now (oid : Nat) (v : List Byte) : (s.setBlob oid v).now = s.now := rfl
@[simp] theorem State.setBlob_time (oid : Nat) (v : List Byte) : (s.setBlob oid v).time = s.time := rfl
@[simp] theorem State.setBlob_fold (oid : Nat) (v : List Byte) : (s.setBlob oid v).fold = s.fold := rfl
@[simp] theorem State.setBlob_fwd (oid : Nat) (v : List Byte) : (s.setBlob oid v).fwd = s.fwd := rfl
@[simp] theorem State.setBlob_blocks (oid : Nat) (v : List Byte) : (s.setBlob oid v).blocks = s.blocks := rfl
@[simp] theorem State.setBlob_circ (oid : Nat) (v : List Byte) : (s.setBlob oid v).circ = s.circ := rfl
@[simp] theorem State.setBlob_drove (oid : Nat) (v : List Byte) : (s.setBlob oid v).drove = s.drove := rfl
@[simp] theorem State.setBlob_coll (oid : Nat) (v : List Byte) : (s.setBlob oid v).coll = s.coll := rfl
@[simp] theorem State.setBlob_common (oid : Nat) (v : List Byte) : (s.setBlob oid v).common = s.common := rfl
@[simp] theorem State.setBlob_muster (oid : Nat) (v : List Byte) : (s.setBlob oid v).muster = s.muster := rfl
@[simp] theorem State.setBlob_ctl (oid : Nat) (v : List Byte) : (s.setBlob oid v).ctl = s.ctl := rfl
@[simp] theorem State.setBlob_pcie (oid : Nat) (v : List Byte) : (s.setBlob oid v).pcie = s.pcie := rfl
@[simp] theorem State.setBlob_obsv (oid : Nat) (v : List Byte) : (s.setBlob oid v).obsv = s.obsv := rfl
@[simp] theorem State.setBlob_power (oid : Nat) (v : List Byte) : (s.setBlob oid v).power = s.power := rfl
@[simp] theorem State.setBlob_out (oid : Nat) (v : List Byte) : (s.setBlob oid v).out = s.out := rfl
@[simp] theorem State.setBlob_free (oid : Nat) (v : List Byte) : (s.setBlob oid v).free = s.free := rfl
@[simp] theorem State.setBlob_pending (oid : Nat) (v : List Byte) : (s.setBlob oid v).pending = s.pending := rfl
@[simp] theorem State.setBlob_row (oid : Nat) (v : List Byte) (i j : Nat) : (s.setBlob oid v).row i j = s.row i j := rfl
@[simp] theorem State.setBlob_ob (oid : Nat) (v : List Byte) (i : Nat) : (s.setBlob oid v).ob i = s.ob i := rfl
@[simp] theorem State.setBlob_bob (oid : Nat) (v : List Byte) (i j : Nat) : (s.setBlob oid v).bob i j = s.bob i j := rfl
@[simp] theorem State.setBlob_role (oid : Nat) (v : List Byte) (i : Nat) : (s.setBlob oid v).role i = s.role i := rfl
@[simp] theorem State.setBlob_isLink (oid : Nat) (v : List Byte) (i : Nat) : (s.setBlob oid v).isLink i = s.isLink i := rfl
@[simp] theorem State.setBlob_blockFenced (oid : Nat) (v : List Byte) (i : Nat) : (s.setBlob oid v).blockFenced i = s.blockFenced i := rfl
@[simp] theorem State.setBlob_block (oid : Nat) (v : List Byte) (i : Nat) : (s.setBlob oid v).block i = s.block i := rfl
@[simp] theorem State.setBlob_portState (oid : Nat) (v : List Byte) (i : Nat) : (s.setBlob oid v).portState i = s.portState i := rfl
@[simp] theorem State.setBlob_fn (oid : Nat) (v : List Byte) (i : Nat) : (s.setBlob oid v).fn i = s.fn i := rfl

/-! ### countIn -/

@[simp] theorem State.countIn_blobs (oid row i n : Nat) : (s.countIn oid row i n).blobs = s.blobs := rfl
@[simp] theorem State.countIn_regs (oid row i n : Nat) : (s.countIn oid row i n).regs = s.regs := rfl
@[simp] theorem State.countIn_hbm (oid row i n : Nat) : (s.countIn oid row i n).hbm = s.hbm := rfl
@[simp] theorem State.countIn_poison (oid row i n : Nat) : (s.countIn oid row i n).poison = s.poison := rfl
@[simp] theorem State.countIn_host (oid row i n : Nat) : (s.countIn oid row i n).host = s.host := rfl
@[simp] theorem State.countIn_now (oid row i n : Nat) : (s.countIn oid row i n).now = s.now := rfl
@[simp] theorem State.countIn_time (oid row i n : Nat) : (s.countIn oid row i n).time = s.time := rfl
@[simp] theorem State.countIn_fold (oid row i n : Nat) : (s.countIn oid row i n).fold = s.fold := rfl
@[simp] theorem State.countIn_fwd (oid row i n : Nat) : (s.countIn oid row i n).fwd = s.fwd := rfl
@[simp] theorem State.countIn_blocks (oid row i n : Nat) : (s.countIn oid row i n).blocks = s.blocks := rfl
@[simp] theorem State.countIn_circ (oid row i n : Nat) : (s.countIn oid row i n).circ = s.circ := rfl
@[simp] theorem State.countIn_drove (oid row i n : Nat) : (s.countIn oid row i n).drove = s.drove := rfl
@[simp] theorem State.countIn_coll (oid row i n : Nat) : (s.countIn oid row i n).coll = s.coll := rfl
@[simp] theorem State.countIn_common (oid row i n : Nat) : (s.countIn oid row i n).common = s.common := rfl
@[simp] theorem State.countIn_muster (oid row i n : Nat) : (s.countIn oid row i n).muster = s.muster := rfl
@[simp] theorem State.countIn_ctl (oid row i n : Nat) : (s.countIn oid row i n).ctl = s.ctl := rfl
@[simp] theorem State.countIn_pcie (oid row i n : Nat) : (s.countIn oid row i n).pcie = s.pcie := rfl
@[simp] theorem State.countIn_obsv (oid row i n : Nat) : (s.countIn oid row i n).obsv = s.obsv := rfl
@[simp] theorem State.countIn_power (oid row i n : Nat) : (s.countIn oid row i n).power = s.power := rfl
@[simp] theorem State.countIn_out (oid row i n : Nat) : (s.countIn oid row i n).out = s.out := rfl
@[simp] theorem State.countIn_free (oid row i n : Nat) : (s.countIn oid row i n).free = s.free := rfl
@[simp] theorem State.countIn_pending (oid row i n : Nat) : (s.countIn oid row i n).pending = s.pending := rfl
@[simp] theorem State.countIn_block (oid row i n : Nat) (i : Nat) : (s.countIn oid row i n).block i = s.block i := rfl
@[simp] theorem State.countIn_portState (oid row i n : Nat) (i : Nat) : (s.countIn oid row i n).portState i = s.portState i := rfl
@[simp] theorem State.countIn_fn (oid row i n : Nat) (i : Nat) : (s.countIn oid row i n).fn i = s.fn i := rfl

/-! ### count -/

@[simp] theorem State.count_blobs (oid row n : Nat) : (s.count oid row n).blobs = s.blobs := rfl
@[simp] theorem State.count_regs (oid row n : Nat) : (s.count oid row n).regs = s.regs := rfl
@[simp] theorem State.count_hbm (oid row n : Nat) : (s.count oid row n).hbm = s.hbm := rfl
@[simp] theorem State.count_poison (oid row n : Nat) : (s.count oid row n).poison = s.poison := rfl
@[simp] theorem State.count_host (oid row n : Nat) : (s.count oid row n).host = s.host := rfl
@[simp] theorem State.count_now (oid row n : Nat) : (s.count oid row n).now = s.now := rfl
@[simp] theorem State.count_time (oid row n : Nat) : (s.count oid row n).time = s.time := rfl
@[simp] theorem State.count_fold (oid row n : Nat) : (s.count oid row n).fold = s.fold := rfl
@[simp] theorem State.count_fwd (oid row n : Nat) : (s.count oid row n).fwd = s.fwd := rfl
@[simp] theorem State.count_blocks (oid row n : Nat) : (s.count oid row n).blocks = s.blocks := rfl
@[simp] theorem State.count_circ (oid row n : Nat) : (s.count oid row n).circ = s.circ := rfl
@[simp] theorem State.count_drove (oid row n : Nat) : (s.count oid row n).drove = s.drove := rfl
@[simp] theorem State.count_coll (oid row n : Nat) : (s.count oid row n).coll = s.coll := rfl
@[simp] theorem State.count_common (oid row n : Nat) : (s.count oid row n).common = s.common := rfl
@[simp] theorem State.count_muster (oid row n : Nat) : (s.count oid row n).muster = s.muster := rfl
@[simp] theorem State.count_ctl (oid row n : Nat) : (s.count oid row n).ctl = s.ctl := rfl
@[simp] theorem State.count_pcie (oid row n : Nat) : (s.count oid row n).pcie = s.pcie := rfl
@[simp] theorem State.count_obsv (oid row n : Nat) : (s.count oid row n).obsv = s.obsv := rfl
@[simp] theorem State.count_power (oid row n : Nat) : (s.count oid row n).power = s.power := rfl
@[simp] theorem State.count_out (oid row n : Nat) : (s.count oid row n).out = s.out := rfl
@[simp] theorem State.count_free (oid row n : Nat) : (s.count oid row n).free = s.free := rfl
@[simp] theorem State.count_pending (oid row n : Nat) : (s.count oid row n).pending = s.pending := rfl
@[simp] theorem State.count_block (oid row n : Nat) (i : Nat) : (s.count oid row n).block i = s.block i := rfl
@[simp] theorem State.count_portState (oid row n : Nat) (i : Nat) : (s.count oid row n).portState i = s.portState i := rfl
@[simp] theorem State.count_fn (oid row n : Nat) (i : Nat) : (s.count oid row n).fn i = s.fn i := rfl

/-! ### setReg -/

@[simp] theorem State.setReg_objs (off v : Nat) : (s.setReg off v).objs = s.objs := rfl
@[simp] theorem State.setReg_blobs (off v : Nat) : (s.setReg off v).blobs = s.blobs := rfl
@[simp] theorem State.setReg_regs (off v : Nat) : (s.setReg off v).regs = TMap.put 0 s.regs off (BitVec.ofNat 64 v) := rfl
@[simp] theorem State.setReg_hbm (off v : Nat) : (s.setReg off v).hbm = s.hbm := rfl
@[simp] theorem State.setReg_poison (off v : Nat) : (s.setReg off v).poison = s.poison := rfl
@[simp] theorem State.setReg_host (off v : Nat) : (s.setReg off v).host = s.host := rfl
@[simp] theorem State.setReg_now (off v : Nat) : (s.setReg off v).now = s.now := rfl
@[simp] theorem State.setReg_time (off v : Nat) : (s.setReg off v).time = s.time := rfl
@[simp] theorem State.setReg_fold (off v : Nat) : (s.setReg off v).fold = s.fold := rfl
@[simp] theorem State.setReg_fwd (off v : Nat) : (s.setReg off v).fwd = s.fwd := rfl
@[simp] theorem State.setReg_blocks (off v : Nat) : (s.setReg off v).blocks = s.blocks := rfl
@[simp] theorem State.setReg_circ (off v : Nat) : (s.setReg off v).circ = s.circ := rfl
@[simp] theorem State.setReg_drove (off v : Nat) : (s.setReg off v).drove = s.drove := rfl
@[simp] theorem State.setReg_coll (off v : Nat) : (s.setReg off v).coll = s.coll := rfl
@[simp] theorem State.setReg_common (off v : Nat) : (s.setReg off v).common = s.common := rfl
@[simp] theorem State.setReg_muster (off v : Nat) : (s.setReg off v).muster = s.muster := rfl
@[simp] theorem State.setReg_ctl (off v : Nat) : (s.setReg off v).ctl = s.ctl := rfl
@[simp] theorem State.setReg_pcie (off v : Nat) : (s.setReg off v).pcie = s.pcie := rfl
@[simp] theorem State.setReg_obsv (off v : Nat) : (s.setReg off v).obsv = s.obsv := rfl
@[simp] theorem State.setReg_power (off v : Nat) : (s.setReg off v).power = s.power := rfl
@[simp] theorem State.setReg_out (off v : Nat) : (s.setReg off v).out = s.out := rfl
@[simp] theorem State.setReg_free (off v : Nat) : (s.setReg off v).free = s.free := rfl
@[simp] theorem State.setReg_pending (off v : Nat) : (s.setReg off v).pending = s.pending := rfl
@[simp] theorem State.setReg_row (off v : Nat) (i j : Nat) : (s.setReg off v).row i j = s.row i j := rfl
@[simp] theorem State.setReg_ob (off v : Nat) (i : Nat) : (s.setReg off v).ob i = s.ob i := rfl
@[simp] theorem State.setReg_bob (off v : Nat) (i j : Nat) : (s.setReg off v).bob i j = s.bob i j := rfl
@[simp] theorem State.setReg_role (off v : Nat) (i : Nat) : (s.setReg off v).role i = s.role i := rfl
@[simp] theorem State.setReg_isLink (off v : Nat) (i : Nat) : (s.setReg off v).isLink i = s.isLink i := rfl
@[simp] theorem State.setReg_blockFenced (off v : Nat) (i : Nat) : (s.setReg off v).blockFenced i = s.blockFenced i := rfl
@[simp] theorem State.setReg_block (off v : Nat) (i : Nat) : (s.setReg off v).block i = s.block i := rfl
@[simp] theorem State.setReg_portState (off v : Nat) (i : Nat) : (s.setReg off v).portState i = s.portState i := rfl
@[simp] theorem State.setReg_fn (off v : Nat) (i : Nat) : (s.setReg off v).fn i = s.fn i := rfl

/-! ### holdCount -/

@[simp] theorem State.holdCount_objs (off lo n : Nat) : (s.holdCount off lo n).objs = s.objs := rfl
@[simp] theorem State.holdCount_blobs (off lo n : Nat) : (s.holdCount off lo n).blobs = s.blobs := rfl
@[simp] theorem State.holdCount_hbm (off lo n : Nat) : (s.holdCount off lo n).hbm = s.hbm := rfl
@[simp] theorem State.holdCount_poison (off lo n : Nat) : (s.holdCount off lo n).poison = s.poison := rfl
@[simp] theorem State.holdCount_host (off lo n : Nat) : (s.holdCount off lo n).host = s.host := rfl
@[simp] theorem State.holdCount_now (off lo n : Nat) : (s.holdCount off lo n).now = s.now := rfl
@[simp] theorem State.holdCount_time (off lo n : Nat) : (s.holdCount off lo n).time = s.time := rfl
@[simp] theorem State.holdCount_fold (off lo n : Nat) : (s.holdCount off lo n).fold = s.fold := rfl
@[simp] theorem State.holdCount_fwd (off lo n : Nat) : (s.holdCount off lo n).fwd = s.fwd := rfl
@[simp] theorem State.holdCount_blocks (off lo n : Nat) : (s.holdCount off lo n).blocks = s.blocks := rfl
@[simp] theorem State.holdCount_circ (off lo n : Nat) : (s.holdCount off lo n).circ = s.circ := rfl
@[simp] theorem State.holdCount_drove (off lo n : Nat) : (s.holdCount off lo n).drove = s.drove := rfl
@[simp] theorem State.holdCount_coll (off lo n : Nat) : (s.holdCount off lo n).coll = s.coll := rfl
@[simp] theorem State.holdCount_common (off lo n : Nat) : (s.holdCount off lo n).common = s.common := rfl
@[simp] theorem State.holdCount_muster (off lo n : Nat) : (s.holdCount off lo n).muster = s.muster := rfl
@[simp] theorem State.holdCount_ctl (off lo n : Nat) : (s.holdCount off lo n).ctl = s.ctl := rfl
@[simp] theorem State.holdCount_pcie (off lo n : Nat) : (s.holdCount off lo n).pcie = s.pcie := rfl
@[simp] theorem State.holdCount_obsv (off lo n : Nat) : (s.holdCount off lo n).obsv = s.obsv := rfl
@[simp] theorem State.holdCount_power (off lo n : Nat) : (s.holdCount off lo n).power = s.power := rfl
@[simp] theorem State.holdCount_out (off lo n : Nat) : (s.holdCount off lo n).out = s.out := rfl
@[simp] theorem State.holdCount_free (off lo n : Nat) : (s.holdCount off lo n).free = s.free := rfl
@[simp] theorem State.holdCount_pending (off lo n : Nat) : (s.holdCount off lo n).pending = s.pending := rfl
@[simp] theorem State.holdCount_row (off lo n : Nat) (i j : Nat) : (s.holdCount off lo n).row i j = s.row i j := rfl
@[simp] theorem State.holdCount_ob (off lo n : Nat) (i : Nat) : (s.holdCount off lo n).ob i = s.ob i := rfl
@[simp] theorem State.holdCount_bob (off lo n : Nat) (i j : Nat) : (s.holdCount off lo n).bob i j = s.bob i j := rfl
@[simp] theorem State.holdCount_role (off lo n : Nat) (i : Nat) : (s.holdCount off lo n).role i = s.role i := rfl
@[simp] theorem State.holdCount_isLink (off lo n : Nat) (i : Nat) : (s.holdCount off lo n).isLink i = s.isLink i := rfl
@[simp] theorem State.holdCount_blockFenced (off lo n : Nat) (i : Nat) : (s.holdCount off lo n).blockFenced i = s.blockFenced i := rfl
@[simp] theorem State.holdCount_block (off lo n : Nat) (i : Nat) : (s.holdCount off lo n).block i = s.block i := rfl
@[simp] theorem State.holdCount_portState (off lo n : Nat) (i : Nat) : (s.holdCount off lo n).portState i = s.portState i := rfl
@[simp] theorem State.holdCount_fn (off lo n : Nat) (i : Nat) : (s.holdCount off lo n).fn i = s.fn i := rfl

/-! ### hbmWrite -/

@[simp] theorem State.hbmWrite_objs (a : Nat) (l : List Byte) (p : Bool) : (s.hbmWrite a l p).objs = s.objs := rfl
@[simp] theorem State.hbmWrite_blobs (a : Nat) (l : List Byte) (p : Bool) : (s.hbmWrite a l p).blobs = s.blobs := rfl
@[simp] theorem State.hbmWrite_regs (a : Nat) (l : List Byte) (p : Bool) : (s.hbmWrite a l p).regs = s.regs := rfl
@[simp] theorem State.hbmWrite_hbm (a : Nat) (l : List Byte) (p : Bool) : (s.hbmWrite a l p).hbm = memWrite s.hbm a l := rfl
@[simp] theorem State.hbmWrite_poison (a : Nat) (l : List Byte) (p : Bool) : (s.hbmWrite a l p).poison = poisonAfter s.poison a l.length p := rfl
@[simp] theorem State.hbmWrite_host (a : Nat) (l : List Byte) (p : Bool) : (s.hbmWrite a l p).host = s.host := rfl
@[simp] theorem State.hbmWrite_now (a : Nat) (l : List Byte) (p : Bool) : (s.hbmWrite a l p).now = s.now := rfl
@[simp] theorem State.hbmWrite_time (a : Nat) (l : List Byte) (p : Bool) : (s.hbmWrite a l p).time = s.time := rfl
@[simp] theorem State.hbmWrite_fold (a : Nat) (l : List Byte) (p : Bool) : (s.hbmWrite a l p).fold = s.fold := rfl
@[simp] theorem State.hbmWrite_fwd (a : Nat) (l : List Byte) (p : Bool) : (s.hbmWrite a l p).fwd = s.fwd := rfl
@[simp] theorem State.hbmWrite_blocks (a : Nat) (l : List Byte) (p : Bool) : (s.hbmWrite a l p).blocks = s.blocks := rfl
@[simp] theorem State.hbmWrite_circ (a : Nat) (l : List Byte) (p : Bool) : (s.hbmWrite a l p).circ = s.circ := rfl
@[simp] theorem State.hbmWrite_drove (a : Nat) (l : List Byte) (p : Bool) : (s.hbmWrite a l p).drove = s.drove := rfl
@[simp] theorem State.hbmWrite_coll (a : Nat) (l : List Byte) (p : Bool) : (s.hbmWrite a l p).coll = s.coll := rfl
@[simp] theorem State.hbmWrite_common (a : Nat) (l : List Byte) (p : Bool) : (s.hbmWrite a l p).common = s.common := rfl
@[simp] theorem State.hbmWrite_muster (a : Nat) (l : List Byte) (p : Bool) : (s.hbmWrite a l p).muster = s.muster := rfl
@[simp] theorem State.hbmWrite_ctl (a : Nat) (l : List Byte) (p : Bool) : (s.hbmWrite a l p).ctl = s.ctl := rfl
@[simp] theorem State.hbmWrite_pcie (a : Nat) (l : List Byte) (p : Bool) : (s.hbmWrite a l p).pcie = s.pcie := rfl
@[simp] theorem State.hbmWrite_obsv (a : Nat) (l : List Byte) (p : Bool) : (s.hbmWrite a l p).obsv = s.obsv := rfl
@[simp] theorem State.hbmWrite_power (a : Nat) (l : List Byte) (p : Bool) : (s.hbmWrite a l p).power = s.power := rfl
@[simp] theorem State.hbmWrite_out (a : Nat) (l : List Byte) (p : Bool) : (s.hbmWrite a l p).out = s.out := rfl
@[simp] theorem State.hbmWrite_free (a : Nat) (l : List Byte) (p : Bool) : (s.hbmWrite a l p).free = s.free := rfl
@[simp] theorem State.hbmWrite_pending (a : Nat) (l : List Byte) (p : Bool) : (s.hbmWrite a l p).pending = s.pending := rfl
@[simp] theorem State.hbmWrite_row (a : Nat) (l : List Byte) (p : Bool) (i j : Nat) : (s.hbmWrite a l p).row i j = s.row i j := rfl
@[simp] theorem State.hbmWrite_ob (a : Nat) (l : List Byte) (p : Bool) (i : Nat) : (s.hbmWrite a l p).ob i = s.ob i := rfl
@[simp] theorem State.hbmWrite_bob (a : Nat) (l : List Byte) (p : Bool) (i j : Nat) : (s.hbmWrite a l p).bob i j = s.bob i j := rfl
@[simp] theorem State.hbmWrite_role (a : Nat) (l : List Byte) (p : Bool) (i : Nat) : (s.hbmWrite a l p).role i = s.role i := rfl
@[simp] theorem State.hbmWrite_isLink (a : Nat) (l : List Byte) (p : Bool) (i : Nat) : (s.hbmWrite a l p).isLink i = s.isLink i := rfl
@[simp] theorem State.hbmWrite_blockFenced (a : Nat) (l : List Byte) (p : Bool) (i : Nat) : (s.hbmWrite a l p).blockFenced i = s.blockFenced i := rfl
@[simp] theorem State.hbmWrite_block (a : Nat) (l : List Byte) (p : Bool) (i : Nat) : (s.hbmWrite a l p).block i = s.block i := rfl
@[simp] theorem State.hbmWrite_portState (a : Nat) (l : List Byte) (p : Bool) (i : Nat) : (s.hbmWrite a l p).portState i = s.portState i := rfl
@[simp] theorem State.hbmWrite_fn (a : Nat) (l : List Byte) (p : Bool) (i : Nat) : (s.hbmWrite a l p).fn i = s.fn i := rfl

/-! ### hostWrite -/

@[simp] theorem State.hostWrite_objs (a : Nat) (l : List Byte) : (s.hostWrite a l).objs = s.objs := rfl
@[simp] theorem State.hostWrite_blobs (a : Nat) (l : List Byte) : (s.hostWrite a l).blobs = s.blobs := rfl
@[simp] theorem State.hostWrite_regs (a : Nat) (l : List Byte) : (s.hostWrite a l).regs = s.regs := rfl
@[simp] theorem State.hostWrite_hbm (a : Nat) (l : List Byte) : (s.hostWrite a l).hbm = s.hbm := rfl
@[simp] theorem State.hostWrite_poison (a : Nat) (l : List Byte) : (s.hostWrite a l).poison = s.poison := rfl
@[simp] theorem State.hostWrite_host (a : Nat) (l : List Byte) : (s.hostWrite a l).host = memWrite s.host a l := rfl
@[simp] theorem State.hostWrite_now (a : Nat) (l : List Byte) : (s.hostWrite a l).now = s.now := rfl
@[simp] theorem State.hostWrite_time (a : Nat) (l : List Byte) : (s.hostWrite a l).time = s.time := rfl
@[simp] theorem State.hostWrite_fold (a : Nat) (l : List Byte) : (s.hostWrite a l).fold = s.fold := rfl
@[simp] theorem State.hostWrite_fwd (a : Nat) (l : List Byte) : (s.hostWrite a l).fwd = s.fwd := rfl
@[simp] theorem State.hostWrite_blocks (a : Nat) (l : List Byte) : (s.hostWrite a l).blocks = s.blocks := rfl
@[simp] theorem State.hostWrite_circ (a : Nat) (l : List Byte) : (s.hostWrite a l).circ = s.circ := rfl
@[simp] theorem State.hostWrite_drove (a : Nat) (l : List Byte) : (s.hostWrite a l).drove = s.drove := rfl
@[simp] theorem State.hostWrite_coll (a : Nat) (l : List Byte) : (s.hostWrite a l).coll = s.coll := rfl
@[simp] theorem State.hostWrite_common (a : Nat) (l : List Byte) : (s.hostWrite a l).common = s.common := rfl
@[simp] theorem State.hostWrite_muster (a : Nat) (l : List Byte) : (s.hostWrite a l).muster = s.muster := rfl
@[simp] theorem State.hostWrite_ctl (a : Nat) (l : List Byte) : (s.hostWrite a l).ctl = s.ctl := rfl
@[simp] theorem State.hostWrite_pcie (a : Nat) (l : List Byte) : (s.hostWrite a l).pcie = s.pcie := rfl
@[simp] theorem State.hostWrite_obsv (a : Nat) (l : List Byte) : (s.hostWrite a l).obsv = s.obsv := rfl
@[simp] theorem State.hostWrite_power (a : Nat) (l : List Byte) : (s.hostWrite a l).power = s.power := rfl
@[simp] theorem State.hostWrite_out (a : Nat) (l : List Byte) : (s.hostWrite a l).out = s.out := rfl
@[simp] theorem State.hostWrite_free (a : Nat) (l : List Byte) : (s.hostWrite a l).free = s.free := rfl
@[simp] theorem State.hostWrite_pending (a : Nat) (l : List Byte) : (s.hostWrite a l).pending = s.pending := rfl
@[simp] theorem State.hostWrite_row (a : Nat) (l : List Byte) (i j : Nat) : (s.hostWrite a l).row i j = s.row i j := rfl
@[simp] theorem State.hostWrite_ob (a : Nat) (l : List Byte) (i : Nat) : (s.hostWrite a l).ob i = s.ob i := rfl
@[simp] theorem State.hostWrite_bob (a : Nat) (l : List Byte) (i j : Nat) : (s.hostWrite a l).bob i j = s.bob i j := rfl
@[simp] theorem State.hostWrite_role (a : Nat) (l : List Byte) (i : Nat) : (s.hostWrite a l).role i = s.role i := rfl
@[simp] theorem State.hostWrite_isLink (a : Nat) (l : List Byte) (i : Nat) : (s.hostWrite a l).isLink i = s.isLink i := rfl
@[simp] theorem State.hostWrite_blockFenced (a : Nat) (l : List Byte) (i : Nat) : (s.hostWrite a l).blockFenced i = s.blockFenced i := rfl
@[simp] theorem State.hostWrite_block (a : Nat) (l : List Byte) (i : Nat) : (s.hostWrite a l).block i = s.block i := rfl
@[simp] theorem State.hostWrite_portState (a : Nat) (l : List Byte) (i : Nat) : (s.hostWrite a l).portState i = s.portState i := rfl
@[simp] theorem State.hostWrite_fn (a : Nat) (l : List Byte) (i : Nat) : (s.hostWrite a l).fn i = s.fn i := rfl

/-! ### emit -/

@[simp] theorem State.emit_objs (o : Out) : (s.emit o).objs = s.objs := rfl
@[simp] theorem State.emit_blobs (o : Out) : (s.emit o).blobs = s.blobs := rfl
@[simp] theorem State.emit_regs (o : Out) : (s.emit o).regs = s.regs := rfl
@[simp] theorem State.emit_hbm (o : Out) : (s.emit o).hbm = s.hbm := rfl
@[simp] theorem State.emit_poison (o : Out) : (s.emit o).poison = s.poison := rfl
@[simp] theorem State.emit_host (o : Out) : (s.emit o).host = s.host := rfl
@[simp] theorem State.emit_now (o : Out) : (s.emit o).now = s.now := rfl
@[simp] theorem State.emit_time (o : Out) : (s.emit o).time = s.time := rfl
@[simp] theorem State.emit_fold (o : Out) : (s.emit o).fold = s.fold := rfl
@[simp] theorem State.emit_fwd (o : Out) : (s.emit o).fwd = s.fwd := rfl
@[simp] theorem State.emit_blocks (o : Out) : (s.emit o).blocks = s.blocks := rfl
@[simp] theorem State.emit_circ (o : Out) : (s.emit o).circ = s.circ := rfl
@[simp] theorem State.emit_drove (o : Out) : (s.emit o).drove = s.drove := rfl
@[simp] theorem State.emit_coll (o : Out) : (s.emit o).coll = s.coll := rfl
@[simp] theorem State.emit_common (o : Out) : (s.emit o).common = s.common := rfl
@[simp] theorem State.emit_muster (o : Out) : (s.emit o).muster = s.muster := rfl
@[simp] theorem State.emit_ctl (o : Out) : (s.emit o).ctl = s.ctl := rfl
@[simp] theorem State.emit_pcie (o : Out) : (s.emit o).pcie = s.pcie := rfl
@[simp] theorem State.emit_obsv (o : Out) : (s.emit o).obsv = s.obsv := rfl
@[simp] theorem State.emit_power (o : Out) : (s.emit o).power = s.power := rfl
@[simp] theorem State.emit_out (o : Out) : (s.emit o).out = o :: s.out := rfl
@[simp] theorem State.emit_free (o : Out) : (s.emit o).free = s.free := rfl
@[simp] theorem State.emit_pending (o : Out) : (s.emit o).pending = s.pending := rfl
@[simp] theorem State.emit_row (o : Out) (i j : Nat) : (s.emit o).row i j = s.row i j := rfl
@[simp] theorem State.emit_ob (o : Out) (i : Nat) : (s.emit o).ob i = s.ob i := rfl
@[simp] theorem State.emit_bob (o : Out) (i j : Nat) : (s.emit o).bob i j = s.bob i j := rfl
@[simp] theorem State.emit_role (o : Out) (i : Nat) : (s.emit o).role i = s.role i := rfl
@[simp] theorem State.emit_isLink (o : Out) (i : Nat) : (s.emit o).isLink i = s.isLink i := rfl
@[simp] theorem State.emit_blockFenced (o : Out) (i : Nat) : (s.emit o).blockFenced i = s.blockFenced i := rfl
@[simp] theorem State.emit_block (o : Out) (i : Nat) : (s.emit o).block i = s.block i := rfl
@[simp] theorem State.emit_portState (o : Out) (i : Nat) : (s.emit o).portState i = s.portState i := rfl
@[simp] theorem State.emit_fn (o : Out) (i : Nat) : (s.emit o).fn i = s.fn i := rfl

/-! ### draw -/

@[simp] theorem State.draw_objs : (s.draw).objs = s.objs := rfl
@[simp] theorem State.draw_blobs : (s.draw).blobs = s.blobs := rfl
@[simp] theorem State.draw_regs : (s.draw).regs = s.regs := rfl
@[simp] theorem State.draw_hbm : (s.draw).hbm = s.hbm := rfl
@[simp] theorem State.draw_poison : (s.draw).poison = s.poison := rfl
@[simp] theorem State.draw_host : (s.draw).host = s.host := rfl
@[simp] theorem State.draw_now : (s.draw).now = s.now := rfl
@[simp] theorem State.draw_time : (s.draw).time = s.time := rfl
@[simp] theorem State.draw_fold : (s.draw).fold = s.fold := rfl
@[simp] theorem State.draw_fwd : (s.draw).fwd = s.fwd := rfl
@[simp] theorem State.draw_blocks : (s.draw).blocks = s.blocks := rfl
@[simp] theorem State.draw_circ : (s.draw).circ = s.circ := rfl
@[simp] theorem State.draw_drove : (s.draw).drove = s.drove := rfl
@[simp] theorem State.draw_coll : (s.draw).coll = s.coll := rfl
@[simp] theorem State.draw_common : (s.draw).common = s.common := rfl
@[simp] theorem State.draw_muster : (s.draw).muster = s.muster := rfl
@[simp] theorem State.draw_ctl : (s.draw).ctl = s.ctl := rfl
@[simp] theorem State.draw_pcie : (s.draw).pcie = s.pcie := rfl
@[simp] theorem State.draw_obsv : (s.draw).obsv = s.obsv := rfl
@[simp] theorem State.draw_power : (s.draw).power = s.power := rfl
@[simp] theorem State.draw_out : (s.draw).out = s.out := rfl
@[simp] theorem State.draw_free : (s.draw).free = s.free + 1 := rfl
@[simp] theorem State.draw_pending : (s.draw).pending = s.pending := rfl
@[simp] theorem State.draw_row (i j : Nat) : (s.draw).row i j = s.row i j := rfl
@[simp] theorem State.draw_ob (i : Nat) : (s.draw).ob i = s.ob i := rfl
@[simp] theorem State.draw_bob (i j : Nat) : (s.draw).bob i j = s.bob i j := rfl
@[simp] theorem State.draw_role (i : Nat) : (s.draw).role i = s.role i := rfl
@[simp] theorem State.draw_isLink (i : Nat) : (s.draw).isLink i = s.isLink i := rfl
@[simp] theorem State.draw_blockFenced (i : Nat) : (s.draw).blockFenced i = s.blockFenced i := rfl
@[simp] theorem State.draw_block (i : Nat) : (s.draw).block i = s.block i := rfl
@[simp] theorem State.draw_portState (i : Nat) : (s.draw).portState i = s.portState i := rfl
@[simp] theorem State.draw_fn (i : Nat) : (s.draw).fn i = s.fn i := rfl

/-! ### setFn -/

@[simp] theorem State.setFn_objs (f : Nat) (x : PciFn) : (s.setFn f x).objs = s.objs := rfl
@[simp] theorem State.setFn_blobs (f : Nat) (x : PciFn) : (s.setFn f x).blobs = s.blobs := rfl
@[simp] theorem State.setFn_regs (f : Nat) (x : PciFn) : (s.setFn f x).regs = s.regs := rfl
@[simp] theorem State.setFn_hbm (f : Nat) (x : PciFn) : (s.setFn f x).hbm = s.hbm := rfl
@[simp] theorem State.setFn_poison (f : Nat) (x : PciFn) : (s.setFn f x).poison = s.poison := rfl
@[simp] theorem State.setFn_host (f : Nat) (x : PciFn) : (s.setFn f x).host = s.host := rfl
@[simp] theorem State.setFn_now (f : Nat) (x : PciFn) : (s.setFn f x).now = s.now := rfl
@[simp] theorem State.setFn_time (f : Nat) (x : PciFn) : (s.setFn f x).time = s.time := rfl
@[simp] theorem State.setFn_fold (f : Nat) (x : PciFn) : (s.setFn f x).fold = s.fold := rfl
@[simp] theorem State.setFn_fwd (f : Nat) (x : PciFn) : (s.setFn f x).fwd = s.fwd := rfl
@[simp] theorem State.setFn_blocks (f : Nat) (x : PciFn) : (s.setFn f x).blocks = s.blocks := rfl
@[simp] theorem State.setFn_circ (f : Nat) (x : PciFn) : (s.setFn f x).circ = s.circ := rfl
@[simp] theorem State.setFn_drove (f : Nat) (x : PciFn) : (s.setFn f x).drove = s.drove := rfl
@[simp] theorem State.setFn_coll (f : Nat) (x : PciFn) : (s.setFn f x).coll = s.coll := rfl
@[simp] theorem State.setFn_common (f : Nat) (x : PciFn) : (s.setFn f x).common = s.common := rfl
@[simp] theorem State.setFn_muster (f : Nat) (x : PciFn) : (s.setFn f x).muster = s.muster := rfl
@[simp] theorem State.setFn_ctl (f : Nat) (x : PciFn) : (s.setFn f x).ctl = s.ctl := rfl
@[simp] theorem State.setFn_obsv (f : Nat) (x : PciFn) : (s.setFn f x).obsv = s.obsv := rfl
@[simp] theorem State.setFn_power (f : Nat) (x : PciFn) : (s.setFn f x).power = s.power := rfl
@[simp] theorem State.setFn_out (f : Nat) (x : PciFn) : (s.setFn f x).out = s.out := rfl
@[simp] theorem State.setFn_free (f : Nat) (x : PciFn) : (s.setFn f x).free = s.free := rfl
@[simp] theorem State.setFn_pending (f : Nat) (x : PciFn) : (s.setFn f x).pending = s.pending := rfl
@[simp] theorem State.setFn_row (f : Nat) (x : PciFn) (i j : Nat) : (s.setFn f x).row i j = s.row i j := rfl
@[simp] theorem State.setFn_ob (f : Nat) (x : PciFn) (i : Nat) : (s.setFn f x).ob i = s.ob i := rfl
@[simp] theorem State.setFn_bob (f : Nat) (x : PciFn) (i j : Nat) : (s.setFn f x).bob i j = s.bob i j := rfl
@[simp] theorem State.setFn_role (f : Nat) (x : PciFn) (i : Nat) : (s.setFn f x).role i = s.role i := rfl
@[simp] theorem State.setFn_isLink (f : Nat) (x : PciFn) (i : Nat) : (s.setFn f x).isLink i = s.isLink i := rfl
@[simp] theorem State.setFn_blockFenced (f : Nat) (x : PciFn) (i : Nat) : (s.setFn f x).blockFenced i = s.blockFenced i := rfl
@[simp] theorem State.setFn_block (f : Nat) (x : PciFn) (i : Nat) : (s.setFn f x).block i = s.block i := rfl
@[simp] theorem State.setFn_portState (f : Nat) (x : PciFn) (i : Nat) : (s.setFn f x).portState i = s.portState i := rfl

/-! ### setBlock -/

@[simp] theorem State.setBlock_objs (b : Nat) (x : Block) : (s.setBlock b x).objs = s.objs := rfl
@[simp] theorem State.setBlock_blobs (b : Nat) (x : Block) : (s.setBlock b x).blobs = s.blobs := rfl
@[simp] theorem State.setBlock_regs (b : Nat) (x : Block) : (s.setBlock b x).regs = s.regs := rfl
@[simp] theorem State.setBlock_hbm (b : Nat) (x : Block) : (s.setBlock b x).hbm = s.hbm := rfl
@[simp] theorem State.setBlock_poison (b : Nat) (x : Block) : (s.setBlock b x).poison = s.poison := rfl
@[simp] theorem State.setBlock_host (b : Nat) (x : Block) : (s.setBlock b x).host = s.host := rfl
@[simp] theorem State.setBlock_now (b : Nat) (x : Block) : (s.setBlock b x).now = s.now := rfl
@[simp] theorem State.setBlock_time (b : Nat) (x : Block) : (s.setBlock b x).time = s.time := rfl
@[simp] theorem State.setBlock_fold (b : Nat) (x : Block) : (s.setBlock b x).fold = s.fold := rfl
@[simp] theorem State.setBlock_fwd (b : Nat) (x : Block) : (s.setBlock b x).fwd = s.fwd := rfl
@[simp] theorem State.setBlock_blocks (b : Nat) (x : Block) : (s.setBlock b x).blocks = TMap.put {} s.blocks b x := rfl
@[simp] theorem State.setBlock_circ (b : Nat) (x : Block) : (s.setBlock b x).circ = s.circ := rfl
@[simp] theorem State.setBlock_drove (b : Nat) (x : Block) : (s.setBlock b x).drove = s.drove := rfl
@[simp] theorem State.setBlock_coll (b : Nat) (x : Block) : (s.setBlock b x).coll = s.coll := rfl
@[simp] theorem State.setBlock_common (b : Nat) (x : Block) : (s.setBlock b x).common = s.common := rfl
@[simp] theorem State.setBlock_muster (b : Nat) (x : Block) : (s.setBlock b x).muster = s.muster := rfl
@[simp] theorem State.setBlock_ctl (b : Nat) (x : Block) : (s.setBlock b x).ctl = s.ctl := rfl
@[simp] theorem State.setBlock_pcie (b : Nat) (x : Block) : (s.setBlock b x).pcie = s.pcie := rfl
@[simp] theorem State.setBlock_obsv (b : Nat) (x : Block) : (s.setBlock b x).obsv = s.obsv := rfl
@[simp] theorem State.setBlock_power (b : Nat) (x : Block) : (s.setBlock b x).power = s.power := rfl
@[simp] theorem State.setBlock_out (b : Nat) (x : Block) : (s.setBlock b x).out = s.out := rfl
@[simp] theorem State.setBlock_free (b : Nat) (x : Block) : (s.setBlock b x).free = s.free := rfl
@[simp] theorem State.setBlock_pending (b : Nat) (x : Block) : (s.setBlock b x).pending = s.pending := rfl
@[simp] theorem State.setBlock_row (b : Nat) (x : Block) (i j : Nat) : (s.setBlock b x).row i j = s.row i j := rfl
@[simp] theorem State.setBlock_ob (b : Nat) (x : Block) (i : Nat) : (s.setBlock b x).ob i = s.ob i := rfl
@[simp] theorem State.setBlock_bob (b : Nat) (x : Block) (i j : Nat) : (s.setBlock b x).bob i j = s.bob i j := rfl
@[simp] theorem State.setBlock_role (b : Nat) (x : Block) (i : Nat) : (s.setBlock b x).role i = s.role i := rfl
@[simp] theorem State.setBlock_isLink (b : Nat) (x : Block) (i : Nat) : (s.setBlock b x).isLink i = s.isLink i := rfl
@[simp] theorem State.setBlock_blockFenced (b : Nat) (x : Block) (i : Nat) : (s.setBlock b x).blockFenced i = s.blockFenced i := rfl
@[simp] theorem State.setBlock_fn (b : Nat) (x : Block) (i : Nat) : (s.setBlock b x).fn i = s.fn i := rfl

/-! ### modBlock -/

@[simp] theorem State.modBlock_objs (b : Nat) (f : Block → Block) : (s.modBlock b f).objs = s.objs := rfl
@[simp] theorem State.modBlock_blobs (b : Nat) (f : Block → Block) : (s.modBlock b f).blobs = s.blobs := rfl
@[simp] theorem State.modBlock_regs (b : Nat) (f : Block → Block) : (s.modBlock b f).regs = s.regs := rfl
@[simp] theorem State.modBlock_hbm (b : Nat) (f : Block → Block) : (s.modBlock b f).hbm = s.hbm := rfl
@[simp] theorem State.modBlock_poison (b : Nat) (f : Block → Block) : (s.modBlock b f).poison = s.poison := rfl
@[simp] theorem State.modBlock_host (b : Nat) (f : Block → Block) : (s.modBlock b f).host = s.host := rfl
@[simp] theorem State.modBlock_now (b : Nat) (f : Block → Block) : (s.modBlock b f).now = s.now := rfl
@[simp] theorem State.modBlock_time (b : Nat) (f : Block → Block) : (s.modBlock b f).time = s.time := rfl
@[simp] theorem State.modBlock_fold (b : Nat) (f : Block → Block) : (s.modBlock b f).fold = s.fold := rfl
@[simp] theorem State.modBlock_fwd (b : Nat) (f : Block → Block) : (s.modBlock b f).fwd = s.fwd := rfl
@[simp] theorem State.modBlock_blocks (b : Nat) (f : Block → Block) : (s.modBlock b f).blocks = TMap.put {} s.blocks b (f (s.block b)) := rfl
@[simp] theorem State.modBlock_circ (b : Nat) (f : Block → Block) : (s.modBlock b f).circ = s.circ := rfl
@[simp] theorem State.modBlock_drove (b : Nat) (f : Block → Block) : (s.modBlock b f).drove = s.drove := rfl
@[simp] theorem State.modBlock_coll (b : Nat) (f : Block → Block) : (s.modBlock b f).coll = s.coll := rfl
@[simp] theorem State.modBlock_common (b : Nat) (f : Block → Block) : (s.modBlock b f).common = s.common := rfl
@[simp] theorem State.modBlock_muster (b : Nat) (f : Block → Block) : (s.modBlock b f).muster = s.muster := rfl
@[simp] theorem State.modBlock_ctl (b : Nat) (f : Block → Block) : (s.modBlock b f).ctl = s.ctl := rfl
@[simp] theorem State.modBlock_pcie (b : Nat) (f : Block → Block) : (s.modBlock b f).pcie = s.pcie := rfl
@[simp] theorem State.modBlock_obsv (b : Nat) (f : Block → Block) : (s.modBlock b f).obsv = s.obsv := rfl
@[simp] theorem State.modBlock_power (b : Nat) (f : Block → Block) : (s.modBlock b f).power = s.power := rfl
@[simp] theorem State.modBlock_out (b : Nat) (f : Block → Block) : (s.modBlock b f).out = s.out := rfl
@[simp] theorem State.modBlock_free (b : Nat) (f : Block → Block) : (s.modBlock b f).free = s.free := rfl
@[simp] theorem State.modBlock_pending (b : Nat) (f : Block → Block) : (s.modBlock b f).pending = s.pending := rfl
@[simp] theorem State.modBlock_row (b : Nat) (f : Block → Block) (i j : Nat) : (s.modBlock b f).row i j = s.row i j := rfl
@[simp] theorem State.modBlock_ob (b : Nat) (f : Block → Block) (i : Nat) : (s.modBlock b f).ob i = s.ob i := rfl
@[simp] theorem State.modBlock_bob (b : Nat) (f : Block → Block) (i j : Nat) : (s.modBlock b f).bob i j = s.bob i j := rfl
@[simp] theorem State.modBlock_role (b : Nat) (f : Block → Block) (i : Nat) : (s.modBlock b f).role i = s.role i := rfl
@[simp] theorem State.modBlock_isLink (b : Nat) (f : Block → Block) (i : Nat) : (s.modBlock b f).isLink i = s.isLink i := rfl
@[simp] theorem State.modBlock_blockFenced (b : Nat) (f : Block → Block) (i : Nat) : (s.modBlock b f).blockFenced i = s.blockFenced i := rfl
@[simp] theorem State.modBlock_fn (b : Nat) (f : Block → Block) (i : Nat) : (s.modBlock b f).fn i = s.fn i := rfl

/-! ### setCtr -/

@[simp] theorem State.setCtr_objs (n v : Nat) : (s.setCtr n v).objs = s.objs := rfl
@[simp] theorem State.setCtr_blobs (n v : Nat) : (s.setCtr n v).blobs = s.blobs := rfl
@[simp] theorem State.setCtr_regs (n v : Nat) : (s.setCtr n v).regs = s.regs := rfl
@[simp] theorem State.setCtr_hbm (n v : Nat) : (s.setCtr n v).hbm = s.hbm := rfl
@[simp] theorem State.setCtr_poison (n v : Nat) : (s.setCtr n v).poison = s.poison := rfl
@[simp] theorem State.setCtr_host (n v : Nat) : (s.setCtr n v).host = s.host := rfl
@[simp] theorem State.setCtr_now (n v : Nat) : (s.setCtr n v).now = s.now := rfl
@[simp] theorem State.setCtr_time (n v : Nat) : (s.setCtr n v).time = s.time := rfl
@[simp] theorem State.setCtr_fold (n v : Nat) : (s.setCtr n v).fold = s.fold := rfl
@[simp] theorem State.setCtr_fwd (n v : Nat) : (s.setCtr n v).fwd = s.fwd := rfl
@[simp] theorem State.setCtr_blocks (n v : Nat) : (s.setCtr n v).blocks = s.blocks := rfl
@[simp] theorem State.setCtr_circ (n v : Nat) : (s.setCtr n v).circ = s.circ := rfl
@[simp] theorem State.setCtr_drove (n v : Nat) : (s.setCtr n v).drove = s.drove := rfl
@[simp] theorem State.setCtr_coll (n v : Nat) : (s.setCtr n v).coll = s.coll := rfl
@[simp] theorem State.setCtr_common (n v : Nat) : (s.setCtr n v).common = s.common := rfl
@[simp] theorem State.setCtr_muster (n v : Nat) : (s.setCtr n v).muster = s.muster := rfl
@[simp] theorem State.setCtr_ctl (n v : Nat) : (s.setCtr n v).ctl = s.ctl := rfl
@[simp] theorem State.setCtr_pcie (n v : Nat) : (s.setCtr n v).pcie = s.pcie := rfl
@[simp] theorem State.setCtr_power (n v : Nat) : (s.setCtr n v).power = s.power := rfl
@[simp] theorem State.setCtr_out (n v : Nat) : (s.setCtr n v).out = s.out := rfl
@[simp] theorem State.setCtr_free (n v : Nat) : (s.setCtr n v).free = s.free := rfl
@[simp] theorem State.setCtr_pending (n v : Nat) : (s.setCtr n v).pending = s.pending := rfl
@[simp] theorem State.setCtr_row (n v : Nat) (i j : Nat) : (s.setCtr n v).row i j = s.row i j := rfl
@[simp] theorem State.setCtr_ob (n v : Nat) (i : Nat) : (s.setCtr n v).ob i = s.ob i := rfl
@[simp] theorem State.setCtr_bob (n v : Nat) (i j : Nat) : (s.setCtr n v).bob i j = s.bob i j := rfl
@[simp] theorem State.setCtr_role (n v : Nat) (i : Nat) : (s.setCtr n v).role i = s.role i := rfl
@[simp] theorem State.setCtr_isLink (n v : Nat) (i : Nat) : (s.setCtr n v).isLink i = s.isLink i := rfl
@[simp] theorem State.setCtr_blockFenced (n v : Nat) (i : Nat) : (s.setCtr n v).blockFenced i = s.blockFenced i := rfl
@[simp] theorem State.setCtr_block (n v : Nat) (i : Nat) : (s.setCtr n v).block i = s.block i := rfl
@[simp] theorem State.setCtr_portState (n v : Nat) (i : Nat) : (s.setCtr n v).portState i = s.portState i := rfl
@[simp] theorem State.setCtr_fn (n v : Nat) (i : Nat) : (s.setCtr n v).fn i = s.fn i := rfl

/-! ### served -/

@[simp] theorem State.served_objs (oid : Nat) : (s.served oid).objs = s.objs := by unfold State.served; split <;> rfl
@[simp] theorem State.served_blobs (oid : Nat) : (s.served oid).blobs = s.blobs := by unfold State.served; split <;> rfl
@[simp] theorem State.served_regs (oid : Nat) : (s.served oid).regs = s.regs := by unfold State.served; split <;> rfl
@[simp] theorem State.served_hbm (oid : Nat) : (s.served oid).hbm = s.hbm := by unfold State.served; split <;> rfl
@[simp] theorem State.served_poison (oid : Nat) : (s.served oid).poison = s.poison := by unfold State.served; split <;> rfl
@[simp] theorem State.served_host (oid : Nat) : (s.served oid).host = s.host := by unfold State.served; split <;> rfl
@[simp] theorem State.served_now (oid : Nat) : (s.served oid).now = s.now := by unfold State.served; split <;> rfl
@[simp] theorem State.served_time (oid : Nat) : (s.served oid).time = s.time := by unfold State.served; split <;> rfl
@[simp] theorem State.served_fold (oid : Nat) : (s.served oid).fold = s.fold := by unfold State.served; split <;> rfl
@[simp] theorem State.served_fwd (oid : Nat) : (s.served oid).fwd = s.fwd := by unfold State.served; split <;> rfl
@[simp] theorem State.served_blocks (oid : Nat) : (s.served oid).blocks = s.blocks := by unfold State.served; split <;> rfl
@[simp] theorem State.served_circ (oid : Nat) : (s.served oid).circ = s.circ := by unfold State.served; split <;> rfl
@[simp] theorem State.served_drove (oid : Nat) : (s.served oid).drove = s.drove := by unfold State.served; split <;> rfl
@[simp] theorem State.served_coll (oid : Nat) : (s.served oid).coll = s.coll := by unfold State.served; split <;> rfl
@[simp] theorem State.served_common (oid : Nat) : (s.served oid).common = s.common := by unfold State.served; split <;> rfl
@[simp] theorem State.served_muster (oid : Nat) : (s.served oid).muster = s.muster := by unfold State.served; split <;> rfl
@[simp] theorem State.served_pcie (oid : Nat) : (s.served oid).pcie = s.pcie := by unfold State.served; split <;> rfl
@[simp] theorem State.served_obsv (oid : Nat) : (s.served oid).obsv = s.obsv := by unfold State.served; split <;> rfl
@[simp] theorem State.served_power (oid : Nat) : (s.served oid).power = s.power := by unfold State.served; split <;> rfl
@[simp] theorem State.served_out (oid : Nat) : (s.served oid).out = s.out := by unfold State.served; split <;> rfl
@[simp] theorem State.served_free (oid : Nat) : (s.served oid).free = s.free := by unfold State.served; split <;> rfl
@[simp] theorem State.served_pending (oid : Nat) : (s.served oid).pending = s.pending := by unfold State.served; split <;> rfl
@[simp] theorem State.served_row (oid : Nat) (i j : Nat) : (s.served oid).row i j = s.row i j := by unfold State.served; split <;> rfl
@[simp] theorem State.served_ob (oid : Nat) (i : Nat) : (s.served oid).ob i = s.ob i := by unfold State.served; split <;> rfl
@[simp] theorem State.served_bob (oid : Nat) (i j : Nat) : (s.served oid).bob i j = s.bob i j := by unfold State.served; split <;> rfl
@[simp] theorem State.served_role (oid : Nat) (i : Nat) : (s.served oid).role i = s.role i := by unfold State.served; split <;> rfl
@[simp] theorem State.served_isLink (oid : Nat) (i : Nat) : (s.served oid).isLink i = s.isLink i := by unfold State.served; split <;> rfl
@[simp] theorem State.served_blockFenced (oid : Nat) (i : Nat) : (s.served oid).blockFenced i = s.blockFenced i := by unfold State.served; split <;> rfl
@[simp] theorem State.served_block (oid : Nat) (i : Nat) : (s.served oid).block i = s.block i := by unfold State.served; split <;> rfl
@[simp] theorem State.served_portState (oid : Nat) (i : Nat) : (s.served oid).portState i = s.portState i := by unfold State.served; split <;> rfl
@[simp] theorem State.served_fn (oid : Nat) (i : Nat) : (s.served oid).fn i = s.fn i := by unfold State.served; split <;> rfl

end Sys2Proof.Machine
end

