-- ==== Sys2Proof/Laws/Access.lean ====
section
/-!
SUPPORT. Rows read after rows are set, and what an access to the dictionary does: served, it runs its body on the state with the access
counted and answers with the body's status; turned away, it answers and nothing else.
-/

namespace Sys2Proof.Machine

theorem okey_inj {a b c d : Nat} (hb : b < 2 ^ 23) (hd : d < 2 ^ 23) : okey a b = okey c d ↔ a = c ∧ b = d := by
  unfold okey; omega

theorem State.objs_wf {s : State} (h : s.tablesOk = true) : TMap.wf okeyDefault s.objs = true := by
  unfold State.tablesOk at h
  simp only [Bool.and_eq_true] at h
  exact h.1.1.1.1

theorem State.row_setRow_same {s : State} (h : s.tablesOk = true) (oid row v : Nat) : (s.setRow oid row v).row oid row = v :=
  TMap.get_put_same (d := okeyDefault) (State.objs_wf h) _ _

theorem State.row_setRow_other {s : State} (h : s.tablesOk = true) {oid row oid' row' : Nat} (v : Nat)
    (hk : okey oid' row' ≠ okey oid row) : (s.setRow oid row v).row oid' row' = s.row oid' row' :=
  TMap.get_put_other (d := okeyDefault) (State.objs_wf h) _ _ _ _ hk

theorem State.taken_width (s : State) (who : Path) : (s.taken who).power = s.power := by unfold State.taken; split <;> rfl

theorem State.taken_ctl (s : State) (who : Path) : (s.taken who).ctl = s.ctl := by unfold State.taken; split <;> rfl

theorem State.taken_row {s : State} (h : s.tablesOk = true) (who : Path) {oid row : Nat}
    (hk : okey oid row ≠ okey O.CTL_STAT 0) : (s.taken who).row oid row = s.row oid row := by
  unfold State.taken; split
  · rfl
  · exact State.row_setRow_other h _ hk

theorem State.taken_inReset {s : State} (h : s.tablesOk = true) (who : Path) : (s.taken who).serverInReset = s.serverInReset := by
  unfold State.serverInReset State.ob
  rw [State.taken_width, State.taken_row h who (by decide)]

theorem State.taken_roleOf (s : State) (who p : Path) : (s.taken who).roleOf p = s.roleOf p := by
  unfold State.roleOf State.session; rw [State.taken_ctl]

/-- A table read where it was written, if what was written is not what an unlisted key reads as. -/
theorem TMap.get_put_self {α : Type} [DecidableEq α] {d : α} (e : α) {m : TMap α} {i : Nat} {v : α} (h : v ≠ d) :
    TMap.get e (TMap.put d m i v) i = v := by
  unfold TMap.put; rw [if_neg h]; exact TMap.get_insert_same _ _ _ _

theorem State.block_setBlock {s : State} {b : Nat} {x : Block} (h : x ≠ {}) : (s.setBlock b x).block b = x :=
  TMap.get_put_self _ h

theorem State.block_modBlock {s : State} {b : Nat} {f : Block → Block} (h : f (s.block b) ≠ {}) :
    (s.modBlock b f).block b = f (s.block b) := TMap.get_put_self _ h

/-- A served access runs its body on the state with the access counted, and answers with the body's status. -/
theorem State.access_serves {s : State} {who : Path} {oid : Nat} (h : s.serves who oid = true) (body : State → State × Nat) :
    s.access who oid body = (body (s.taken who)).1.answered who oid (body (s.taken who)).2 := by
  simp only [State.serves, Bool.and_eq_true] at h
  obtain ⟨h0, h⟩ := h
  unfold State.access
  cases hd : objDef oid with
  | none => simp [hd] at h
  | some d =>
    simp only [hd, Bool.and_eq_true, Bool.or_eq_true, decide_eq_true_eq] at h
    obtain ⟨⟨⟨h1, h2⟩, h3⟩, h4, h5⟩ := h
    have a := State.taken_inReset h0 who
    have r := State.taken_roleOf s who who
    have g : ¬ ((s.taken who).serverInReset && !crookSet oid) = true := by
      rw [a]; cases h3 <;> simp_all
    have b : ¬ ((who = .window ∧ (!d.ty.inSlot) = true) ∨ (!s.crookUp) = true) := by
      rcases h2 with h2 | h2 <;> simp_all
    simp only [if_neg b]
    change (if ((s.taken who).serverInReset && !crookSet oid) = true then _ else _) = _
    rw [if_neg g, if_neg h4, if_neg (by change ¬ (s.taken who).roleOf who < _; rw [r]; omega)]
    unfold State.answered State.served
    rfl

/-- The same where it is known what the body answers, so that no proof reduces it. -/
theorem State.access_answers {s t u : State} {who : Path} {oid st : Nat} {body : State → State × Nat} (h : s.serves who oid = true)
    (ht : t = s.taken who) (hb : body t = (u, st)) : s.access who oid body = u.answered who oid st := by
  rw [State.access_serves h body, ← ht, hb]

/-- What taking in a message does that arrives whole and verifies: a number seen before is counted, unless its response is kept;
else the session moves on and gives the message in clear. -/
theorem State.oxTake_verifies {s : State} {field : Bool} {type i : Nat} {m l : List Byte} {x : Session} (h : s.OxReceives field type m)
    (v : s.OxVerifies m i x l) (kept : Session → Bool) :
    s.oxTake type m kept = if oxSeq m ≤ x.rxHigh ∧ kept x = false then ((s.count O.OXPIN_STAT 3 1).raise O.CTL_ERR 1, none)
      else (s.setSession i (some (s.oxMoved x m)), some (i, s.oxMoved x m, l)) := by
  obtain ⟨h1, -, h3, h4⟩ := h
  obtain ⟨v1, v2, v3, v4⟩ := v
  unfold State.oxTake
  dsimp only
  rw [if_neg (by simp [h1, h3, h4]), v1]
  dsimp only
  have v2' := v2; unfold Session.macOf at v2'
  rw [if_neg (by simp [v2']), if_neg (by intro g; simp [v3 g.1] at g), v4]
  dsimp only
  simp only [Bool.not_eq_true']
  rfl

end Sys2Proof.Machine
end

