-- ==== Sys2Proof/Laws/Keeps.lean ====
section
/-!
SUPPORT. What every operation of the model keeps (`Keeps`): canonical tables, the queue, time, the draws of free values, and what
has been sent. This file has its laws and those of the operations that write a table; the files after it, one lemma per operation.
-/

namespace Sys2Proof.Machine

theorem Keeps.refl (s : State) : Keeps s s := ⟨id, rfl, Nat.le_refl _, Nat.le_refl _, List.suffix_refl _⟩

theorem Keeps.trans {a b c : State} (h : Keeps a b) (k : Keeps b c) : Keeps a c :=
  ⟨k.tables ∘ h.tables, k.pending.trans h.pending, Nat.le_trans h.now k.now, Nat.le_trans h.free k.free, h.out.trans k.out⟩

/-- A change of the blocks' inner state keeps all of it. -/
theorem Keeps.mk' {s0 s : State} (h : Keeps s0 s) (poison time fold fwd blocks circ drove coll common muster ctl pcie obsv power) :
    Keeps s0 { objs := s.objs, blobs := s.blobs, regs := s.regs, hbm := s.hbm, poison := poison, host := s.host, now := s.now
               time := time, fold := fold, fwd := fwd, blocks := blocks, circ := circ, drove := drove, coll := coll
               common := common, muster := muster, ctl := ctl, pcie := pcie, obsv := obsv, power := power, out := s.out
               free := s.free, pending := s.pending } :=
  ⟨h.tables, h.pending, h.now, h.free, h.out⟩

/-- The state of a pair keeps all of it. -/
def Keeps1 {β : Type} (s0 : State) (r : State × β) : Prop := Keeps s0 r.1

theorem Keeps.foldl {s0 s : State} {α : Type} {l : List α} {f : State → α → State} (h : Keeps s0 s)
    (k : ∀ s a, Keeps s0 s → Keeps s0 (f s a)) : Keeps s0 (l.foldl f s) := by
  induction l generalizing s with
  | nil => exact h
  | cons a l ih => exact ih (k s a h)

theorem Keeps.foldl1 {s0 : State} {α β : Type} {l : List α} {f : State × β → α → State × β} {r : State × β} (h : Keeps s0 r.1)
    (k : ∀ r a, Keeps s0 r.1 → Keeps s0 (f r a).1) : Keeps s0 (l.foldl f r).1 := by
  induction l generalizing r with
  | nil => exact h
  | cons a l ih => exact ih (k r a h)

theorem Keeps.ite {s0 s t : State} {c : Prop} [Decidable c] (h : Keeps s0 s) (k : Keeps s0 t) : Keeps s0 (if c then s else t) := by
  split
  · exact h
  · exact k

theorem Keeps.getD {s0 s : State} {o : Option State} (h : Keeps s0 s) (k : ∀ t, o = some t → Keeps s0 t) : Keeps s0 (o.getD s) := by
  cases o with
  | none => exact h
  | some t => exact k t rfl

/-- Tables that stay canonical are all that a change of tables owes. -/
theorem Keeps.tabled {s0 s t : State} (h : Keeps s0 s) (k : s.tablesOk = true → t.tablesOk = true) (p : t.pending = s.pending)
    (n : t.now = s.now) (f : t.free = s.free) (o : t.out = s.out) : Keeps s0 t :=
  h.trans ⟨k, p, Nat.le_of_eq n.symm, Nat.le_of_eq f.symm, o ▸ List.suffix_refl _⟩

theorem State.tablesOk_iff (s : State) : s.tablesOk = true ↔ TMap.wf okeyDefault s.objs = true ∧ TMap.wf (fun _ => []) s.blobs = true ∧
    TMap.wf (fun _ => 0) s.regs = true ∧ Memory.wf s.hbm = true ∧ Memory.wf s.host = true := by
  simp [State.tablesOk, and_assoc]

theorem State.setRow_keeps {s0 s : State} (h : Keeps s0 s) (oid row v : Nat) : Keeps s0 (s.setRow oid row v) := by
  refine h.tabled (fun k => ?_) rfl rfl rfl rfl
  rw [State.tablesOk_iff] at *
  exact ⟨TMap.wf_put k.1 _ _, k.2⟩

theorem State.setBlob_keeps {s0 s : State} (h : Keeps s0 s) (oid : Nat) (v : List Byte) : Keeps s0 (s.setBlob oid v) := by
  refine h.tabled (fun k => ?_) rfl rfl rfl rfl
  rw [State.tablesOk_iff] at *
  exact ⟨k.1, TMap.wf_put (d := fun _ => []) k.2.1 _ _, k.2.2⟩

theorem State.setReg_keeps {s0 s : State} (h : Keeps s0 s) (off v : Nat) : Keeps s0 (s.setReg off v) := by
  refine h.tabled (fun k => ?_) rfl rfl rfl rfl
  rw [State.tablesOk_iff] at *
  exact ⟨k.1, k.2.1, TMap.wf_put (d := fun _ => 0) k.2.2.1 _ _, k.2.2.2⟩

theorem State.hbmWrite_keeps {s0 s : State} (h : Keeps s0 s) (a : Nat) (l : List Byte) (poisoned : Bool) :
    Keeps s0 (s.hbmWrite a l poisoned) := by
  refine h.tabled (fun k => ?_) rfl rfl rfl rfl
  rw [State.tablesOk_iff] at *
  exact ⟨k.1, k.2.1, k.2.2.1, memWrite_wf k.2.2.2.1 _ _, k.2.2.2.2⟩

theorem State.hostWrite_keeps {s0 s : State} (h : Keeps s0 s) (a : Nat) (l : List Byte) : Keeps s0 (s.hostWrite a l) := by
  refine h.tabled (fun k => ?_) rfl rfl rfl rfl
  rw [State.tablesOk_iff] at *
  exact ⟨k.1, k.2.1, k.2.2.1, k.2.2.2.1, memWrite_wf k.2.2.2.2 _ _⟩

/-- Entries of the objects, of the byte strings and of the registers may be dropped. -/
theorem Keeps.dropObjs {s0 s : State} (h : Keeps s0 s) (p : Nat × Nat → Bool) : Keeps s0 { s with objs := s.objs.filter p } := by
  refine h.tabled (fun k => ?_) rfl rfl rfl rfl
  rw [State.tablesOk_iff] at *
  exact ⟨TMap.wf_filter k.1 _, k.2⟩

theorem Keeps.dropBlobs {s0 s : State} (h : Keeps s0 s) (p : Nat × List Byte → Bool) :
    Keeps s0 { s with blobs := s.blobs.filter p } := by
  refine h.tabled (fun k => ?_) rfl rfl rfl rfl
  rw [State.tablesOk_iff] at *
  exact ⟨k.1, TMap.wf_filter k.2.1 _, k.2.2⟩

theorem Keeps.dropRegs {s0 s : State} (h : Keeps s0 s) (p : Nat × Reg64 → Bool) : Keeps s0 { s with regs := s.regs.filter p } := by
  refine h.tabled (fun k => ?_) rfl rfl rfl rfl
  rw [State.tablesOk_iff] at *
  exact ⟨k.1, k.2.1, TMap.wf_filter k.2.2.1 _, k.2.2.2⟩

theorem State.emit_keeps {s0 s : State} (h : Keeps s0 s) (o : Out) : Keeps s0 (s.emit o) :=
  ⟨h.tables, h.pending, h.now, h.free, h.out.trans (List.suffix_cons _ _)⟩

theorem State.draw_keeps {s0 s : State} (h : Keeps s0 s) : Keeps s0 s.draw :=
  ⟨h.tables, h.pending, h.now, Nat.le_succ_of_le h.free, h.out⟩

end Sys2Proof.Machine
end

