-- ==== Sys2Proof/Laws/Keeps1.lean ====
section
/-!
SUPPORT. What the operations of Ops, Access, Tally, Clock, Heft, FoldOps keep (`Keeps`), one lemma per operation.
-/

namespace Sys2Proof.Machine

set_option Elab.async false

/-! ### Ops -/

theorem State.setBlock_keeps {s0 : State} {s : State} (h_s : Keeps s0 s) (b : Nat) (x : Block) :
        Keeps s0 (State.setBlock s b x) := by
  unfold State.setBlock
  grind [← Keeps.foldl, ← Keeps.foldl1, ← Keeps.mk']

theorem State.modBlock_keeps {s0 : State} {s : State} (h_s : Keeps s0 s) (b : Nat) (f : Block → Block) :
        Keeps s0 (State.modBlock s b f) := by
  unfold State.modBlock
  grind [← Keeps.foldl, ← Keeps.foldl1, ← Keeps.mk', ← State.setBlock_keeps]

theorem State.transmit_keeps {s0 : State} {s : State} (h_s : Keeps s0 s) (b : Nat) (o : Out) :
        Keeps s0 (State.transmit s b o) := by
  unfold State.transmit
  grind [← Keeps.foldl, ← Keeps.foldl1, ← Keeps.mk', ← State.emit_keeps]

theorem State.countIn_keeps {s0 : State} {s : State} (h_s : Keeps s0 s) (oid : Nat) (row : Nat) (i : Nat) (n : Nat) :
        Keeps s0 (State.countIn s oid row i n) := by
  unfold State.countIn
  grind [← Keeps.foldl, ← Keeps.foldl1, ← Keeps.mk', ← State.setRow_keeps]

theorem State.count_keeps {s0 : State} {s : State} (h_s : Keeps s0 s) (oid : Nat) (row : Nat) (n : Nat) :
        Keeps s0 (State.count s oid row n) := by
  unfold State.count
  grind [← Keeps.foldl, ← Keeps.foldl1, ← Keeps.mk', ← State.countIn_keeps]

theorem State.portCount_keeps {s0 : State} {s : State} (h_s : Keeps s0 s) (b : Nat) (i : Nat) (n : Nat) :
        Keeps s0 (State.portCount s b i n) := by
  unfold State.portCount
  grind [← Keeps.foldl, ← Keeps.foldl1, ← Keeps.mk', ← State.count_keeps]

theorem State.setOb_keeps {s0 : State} {s : State} (h_s : Keeps s0 s) (oid : Nat) (v : Nat) :
        Keeps s0 (State.setOb s oid v) := by
  unfold State.setOb
  grind [← Keeps.foldl, ← Keeps.foldl1, ← Keeps.mk', ← State.setRow_keeps]

theorem State.eventCore_keeps {s0 : State} {s : State} (h_s : Keeps s0 s) (kind : Nat) (unit : Nat) (arg : Nat) :
        Keeps s0 (State.eventCore s kind unit arg) := by
  unfold State.eventCore
  grind [← Keeps.foldl, ← Keeps.foldl1, ← Keeps.mk', ← State.hbmWrite_keeps]

theorem State.setFn_keeps {s0 : State} {s : State} (h_s : Keeps s0 s) (f : Nat) (x : PciFn) :
        Keeps s0 (State.setFn s f x) := by
  unfold State.setFn
  grind [← Keeps.foldl, ← Keeps.foldl1, ← Keeps.mk']

theorem State.eventLost_keeps {s0 : State} {s : State} (h_s : Keeps s0 s) (f : Nat) :
        Keeps s0 (State.eventLost s f) := by
  unfold State.eventLost
  grind [← Keeps.foldl, ← Keeps.foldl1, ← Keeps.mk', ← State.count_keeps, ← State.setFn_keeps]

theorem State.sendVector_keeps {s0 : State} {s : State} (h_s : Keeps s0 s) (f : Nat) (v : Nat) :
        Keeps s0 (State.sendVector s f v) := by
  unfold State.sendVector
  grind [← Keeps.foldl, ← Keeps.foldl1, ← Keeps.mk', ← State.count_keeps, ← State.setFn_keeps, ← State.emit_keeps]

theorem State.eventTo_keeps {s0 : State} {s : State} (h_s : Keeps s0 s) (f : Nat) (kind : Nat) (unit : Nat) (arg : Nat) :
        Keeps s0 (State.eventTo s f kind unit arg) := by
  unfold State.eventTo
  grind [← Keeps.foldl, ← Keeps.foldl1, ← Keeps.mk', ← State.eventLost_keeps, ← State.hostWrite_keeps, ← State.setFn_keeps, ←
    State.sendVector_keeps]

theorem State.eventQuiet_keeps {s0 : State} {s : State} (h_s : Keeps s0 s) (fns : List Nat) (kind : Nat) (unit : Nat) (arg : Nat) :
        Keeps s0 (State.eventQuiet s fns kind unit arg) := by
  unfold State.eventQuiet
  grind [← Keeps.foldl, ← Keeps.foldl1, ← Keeps.mk', ← State.eventCore_keeps, ← State.eventTo_keeps]

theorem State.logRaw_keeps {s0 : State} {s : State} (h_s : Keeps s0 s) (obj : Nat) (bit : Nat) (status : Nat) (unitKind : Nat) (unit
    : Nat) (detail : Nat) :
        Keeps s0 (State.logRaw s obj bit status unitKind unit detail) := by
  unfold State.logRaw
  grind [← Keeps.foldl, ← Keeps.foldl1, ← Keeps.mk', ← State.setRow_keeps, ← State.setOb_keeps, ← State.eventQuiet_keeps]

theorem State.flagRaw_keeps {s0 : State} {s : State} (h_s : Keeps s0 s) (oid : Nat) (bit : Nat) (status : Nat) (unitKind : Nat)
    (unit : Nat) (detail : Nat) :
        Keeps s0 (State.flagRaw s oid bit status unitKind unit detail) := by
  unfold State.flagRaw
  grind [← Keeps.foldl, ← Keeps.foldl1, ← Keeps.mk', ← State.logRaw_keeps, ← State.setOb_keeps]

theorem State.raise_keeps {s0 : State} {s : State} (h_s : Keeps s0 s) (oid : Nat) (bit : Nat) (status : Nat) (unitKind : Nat) (unit
    : Nat) (detail : Nat) :
        Keeps s0 (State.raise s oid bit status unitKind unit detail) := by
  unfold State.raise
  grind [← Keeps.foldl, ← Keeps.foldl1, ← Keeps.mk', ← State.flagRaw_keeps]

theorem State.portErr_keeps {s0 : State} {s : State} (h_s : Keeps s0 s) (b : Nat) (bit : Nat) (status : Nat) :
        Keeps s0 (State.portErr s b bit status) := by
  unfold State.portErr
  grind [← Keeps.foldl, ← Keeps.foldl1, ← Keeps.mk', ← State.raise_keeps]

theorem State.event_keeps {s0 : State} {s : State} (h_s : Keeps s0 s) (fns : List Nat) (kind : Nat) (unit : Nat) (arg : Nat) :
        Keeps s0 (State.event s fns kind unit arg) := by
  unfold State.event
  grind [← Keeps.foldl, ← Keeps.foldl1, ← Keeps.mk', ← State.eventQuiet_keeps, ← State.raise_keeps]

theorem State.holdCount_keeps {s0 : State} {s : State} (h_s : Keeps s0 s) (off : Nat) (lo : Nat) (n : Nat) :
        Keeps s0 (State.holdCount s off lo n) := by
  unfold State.holdCount
  grind [← Keeps.foldl, ← Keeps.foldl1, ← Keeps.mk', ← State.setReg_keeps]

theorem State.errLog_keeps {s0 : State} {s : State} (h_s : Keeps s0 s) (obj : Nat) (bit : Nat) (status : Nat) (unitKind : Nat) (unit
    : Nat) (detail : Nat) :
        Keeps s0 (State.errLog s obj bit status unitKind unit detail) := by
  unfold State.errLog
  grind [← Keeps.foldl, ← Keeps.foldl1, ← Keeps.mk', ← State.logRaw_keeps, ← State.flagRaw_keeps]

/-! ### Access -/

theorem State.reply_keeps {s0 : State} {s : State} (h_s : Keeps s0 s) (who : Path) (status : Nat) (done : Nat) (data : List Byte) :
        Keeps s0 (State.reply s who status done data) := by
  unfold State.reply
  grind [← Keeps.foldl, ← Keeps.foldl1, ← Keeps.mk', ← State.emit_keeps]

theorem State.access_keeps {s0 : State} {s : State} (h_s : Keeps s0 s) (who : Path) (oid : Nat) (body : State → State × Nat) (k_body
    : ∀ s, Keeps s0 s → Keeps1 s0 (body s)) :
        Keeps s0 (State.access s who oid body) := by
  unfold State.access
  grind [← Keeps.foldl, ← Keeps.foldl1, ← Keeps.mk', ← State.reply_keeps, ← State.count_keeps, Keeps1]

theorem awake_keeps {s0 : State} {s : State} (h_s : Keeps s0 s) (a : Ans) (k_a : ∀ t, a = .next t → Keeps s0 t) :
        ∀ t_, awake s a = .next t_ → Keeps s0 t_ := by
  unfold awake
  grind [← Keeps.foldl, ← Keeps.foldl1, ← Keeps.mk']

theorem live_keeps {s0 : State} {s : State} (h_s : Keeps s0 s) (a : Ans) (k_a : ∀ t, a = .next t → Keeps s0 t) :
        ∀ t_, live s a = .next t_ → Keeps s0 t_ := by
  unfold live
  grind [← Keeps.foldl, ← Keeps.foldl1, ← Keeps.mk']

theorem okay_keeps {s0 : State} (f : State → State) {s : State} (h_s : Keeps s0 s) (k_f : ∀ s, Keeps s0 s → Keeps s0 (f s)) :
        Keeps s0 (okay f s).1 := by
  unfold okay
  grind [← Keeps.foldl, ← Keeps.foldl1, ← Keeps.mk']

theorem readable_keeps {s0 : State} {s : State} (h_s : Keeps s0 s) (a : Ans) (k_a : ∀ t, a = .next t → Keeps s0 t) :
        ∀ t_, readable s a = .next t_ → Keeps s0 t_ := by
  unfold readable
  grind [← Keeps.foldl, ← Keeps.foldl1, ← Keeps.mk', ← State.emit_keeps]

theorem checked_keeps {s0 : State} (c : State → Bool) (f : State → State) {s : State} (h_s : Keeps s0 s) (k_f : ∀ s, Keeps s0 s →
    Keeps s0 (f s)) :
        Keeps s0 (checked c f s).1 := by
  unfold checked
  grind [← Keeps.foldl, ← Keeps.foldl1, ← Keeps.mk']

/-! ### Tally -/

theorem State.setCtr_keeps {s0 : State} {s : State} (h_s : Keeps s0 s) (n : Nat) (v : Nat) :
        Keeps s0 (State.setCtr s n v) := by
  unfold State.setCtr
  grind [← Keeps.foldl, ← Keeps.foldl1, ← Keeps.mk']

theorem State.ctrAdd_keeps {s0 : State} {s : State} (h_s : Keeps s0 s) (n : Nat) (k : Nat) :
        Keeps s0 (State.ctrAdd s n k) := by
  unfold State.ctrAdd
  dsimp only
  repeat' split
  all_goals grind (splits := 40) (gen := 40) (ematch := 40) [← Keeps.foldl, ← Keeps.foldl1, ← Keeps.mk', ← State.setCtr_keeps, ←
    State.raise_keeps]

theorem State.tally_keeps {s0 : State} {s : State} (h_s : Keeps s0 s) (e : Nat) (u : Nat) (k : Nat) :
        Keeps s0 (State.tally s e u k) := by
  unfold State.tally
  grind [← Keeps.foldl, ← Keeps.foldl1, ← Keeps.mk', ← State.ctrAdd_keeps]

/-! ### Clock -/

theorem State.tallyTime_keeps {s0 : State} {s : State} (h_s : Keeps s0 s) (ns : Nat) :
        Keeps s0 (State.tallyTime s ns) := by
  unfold State.tallyTime
  grind [← Keeps.foldl, ← Keeps.foldl1, ← Keeps.mk', ← State.ctrAdd_keeps, ← State.draw_keeps]

theorem State.advance_keeps {s0 : State} {s : State} (h_s : Keeps s0 s) (ns : Nat) :
        Keeps s0 (State.advance s ns) := by
  unfold State.advance
  extract_lets held stp run s1 ti s2
  have h1 : Keeps s0 s1 := State.tallyTime_keeps h_s ns
  have h2 : Keeps s0 s2 := (h1.trans ⟨id, rfl, Nat.le_add_right _ ns, Nat.le_refl _, List.suffix_refl _⟩ :
    Keeps s0 { s1 with now := s1.now + ns }).mk' _ _ _ _ _ _ _ _ _ _ _ _ _ _
  clear_value s2 held
  split
  · exact h2
  · exact State.raise_keeps (State.count_keeps h2 _ _ _) _ _ _ _ _ _

theorem State.advanceTo_keeps {s0 : State} {s : State} (h_s : Keeps s0 s) (t : Nat) :
        Keeps s0 (State.advanceTo s t) := by
  unfold State.advanceTo
  grind [← Keeps.foldl, ← Keeps.foldl1, ← Keeps.mk', ← State.advance_keeps]

theorem State.advanceDev_keeps {s0 : State} {s : State} (h_s : Keeps s0 s) (t : Nat) :
        Keeps s0 (State.advanceDev s t) := by
  unfold State.advanceDev
  grind [← Keeps.foldl, ← Keeps.foldl1, ← Keeps.mk', ← State.advance_keeps]

theorem State.idle_keeps {s0 : State} {s : State} (h_s : Keeps s0 s) :
        Keeps s0 (State.idle s) := by
  unfold State.idle
  grind [← Keeps.foldl, ← Keeps.foldl1, ← Keeps.mk', ← State.advance_keeps]

/-! ### Heft -/

theorem State.fwdCount_keeps {s0 : State} {s : State} (h_s : Keeps s0 s) (die : Nat) (c : FwdStat) (n : Nat) :
        Keeps s0 (State.fwdCount s die c n) := by
  unfold State.fwdCount
  grind [← Keeps.foldl, ← Keeps.foldl1, ← Keeps.mk', ← State.countIn_keeps, ← State.tally_keeps, ← State.raise_keeps]

theorem State.setHeft_keeps {s0 : State} {s : State} (h_s : Keeps s0 s) (die : Nat) (h : HeftDie) :
        Keeps s0 (State.setHeft s die h) := by
  unfold State.setHeft
  grind [← Keeps.foldl, ← Keeps.foldl1, ← Keeps.mk']

theorem State.learnRequest_keeps {s0 : State} {s : State} (h_s : Keeps s0 s) (die : Nat) (e : Nat) (port : Nat) :
        Keeps s0 (State.learnRequest s die e port) := by
  unfold State.learnRequest
  grind [← Keeps.foldl, ← Keeps.foldl1, ← Keeps.mk', ← State.setHeft_keeps, ← State.fwdCount_keeps]

theorem State.heftFlush_keeps {s0 : State} {s : State} (h_s : Keeps s0 s) (dies : Nat) (p : Nat → Bool) :
        Keeps s0 (State.heftFlush s dies p) := by
  unfold State.heftFlush
  grind [← Keeps.foldl, ← Keeps.foldl1, ← Keeps.mk', ← State.setHeft_keeps]

theorem State.heftRestamp_keeps {s0 : State} {s : State} (h_s : Keeps s0 s) :
        Keeps s0 (State.heftRestamp s) := by
  unfold State.heftRestamp
  grind [← Keeps.foldl, ← Keeps.foldl1, ← Keeps.mk', ← State.setHeft_keeps]

theorem State.heftNotice_keeps {s0 : State} {s : State} (h_s : Keeps s0 s) (die : Nat) (e : Nat) (kind : Nat) (discarded : Bool) :
        Keeps s0 (State.heftNotice s die e kind discarded) := by
  unfold State.heftNotice
  grind [← Keeps.foldl, ← Keeps.foldl1, ← Keeps.mk', ← State.setHeft_keeps, ← State.fwdCount_keeps]

theorem State.heftSweep_keeps {s0 : State} {s : State} (h_s : Keeps s0 s) (die : Nat) :
        Keeps s0 (State.heftSweep s die) := by
  unfold State.heftSweep
  grind [← Keeps.foldl, ← Keeps.foldl1, ← Keeps.mk', ← State.heftNotice_keeps, ← State.setHeft_keeps]

theorem State.heftInsert_keeps {s0 : State} {s : State} (h_s : Keeps s0 s) (die : Nat) (e : Nat) :
        Keeps s0 (State.heftInsert s die e).1 := by
  unfold State.heftInsert
  grind [← Keeps.foldl, ← Keeps.foldl1, ← Keeps.mk', ← State.setHeft_keeps, ← State.fwdCount_keeps, ← State.heftNotice_keeps, ←
    State.raise_keeps]

theorem State.heftStatus_keeps {s0 : State} {s : State} (h_s : Keeps s0 s) (st : Nat) :
        Keeps s0 (State.heftStatus s st) := by
  unfold State.heftStatus
  grind [← Keeps.foldl, ← Keeps.foldl1, ← Keeps.mk', ← State.setOb_keeps]

theorem State.heftStatic_keeps {s0 : State} {s : State} (h_s : Keeps s0 s) (mask : Nat) (e : Nat) :
        Keeps s0 (State.heftStatic s mask e) := by
  unfold State.heftStatic
  grind [← Keeps.foldl, ← Keeps.foldl1, ← Keeps.mk', ← State.setHeft_keeps, ← State.heftInsert_keeps, ← State.heftStatus_keeps]

theorem State.heftDelete_keeps {s0 : State} {s : State} (h_s : Keeps s0 s) (mask : Nat) (e : Nat) :
        Keeps s0 (State.heftDelete s mask e) := by
  unfold State.heftDelete
  grind [← Keeps.foldl, ← Keeps.foldl1, ← Keeps.mk', ← State.setHeft_keeps, ← State.heftStatus_keeps]

theorem State.heftRetry_keeps {s0 : State} {s : State} (h_s : Keeps s0 s) (die : Nat) :
        Keeps s0 (State.heftRetry s die).1 := by
  unfold State.heftRetry
  grind [← Keeps.foldl, ← Keeps.foldl1, ← Keeps.mk', ← State.heftInsert_keeps, ← State.setHeft_keeps]

theorem State.heftRetryAll_keeps {s0 : State} {s : State} (h_s : Keeps s0 s) (mask : Nat) :
        Keeps s0 (State.heftRetryAll s mask) := by
  unfold State.heftRetryAll
  grind [← Keeps.foldl, ← Keeps.foldl1, ← Keeps.mk', ← State.heftRetry_keeps, ← State.heftStatus_keeps]

theorem State.heftOp_keeps {s0 : State} {s : State} (h_s : Keeps s0 s) (opcode : Nat) (mask : Nat) (e : Nat) :
        ∀ t_, State.heftOp s opcode mask e = some t_ → Keeps s0 t_ := by
  unfold State.heftOp
  grind [← Keeps.foldl, ← Keeps.foldl1, ← Keeps.mk', ← State.heftStatic_keeps, ← State.heftDelete_keeps, ← State.heftStatus_keeps, ←
     State.heftFlush_keeps, ← State.heftRetryAll_keeps]

theorem State.heftPop_keeps {s0 : State} {s : State} (h_s : Keeps s0 s) (die : Nat) :
        Keeps s0 (State.heftPop s die) := by
  unfold State.heftPop
  grind [← Keeps.foldl, ← Keeps.foldl1, ← Keeps.mk', ← State.setHeft_keeps]

theorem State.heftLearn_keeps {s0 : State} {s : State} (h_s : Keeps s0 s) (die : Nat) :
        Keeps s0 (State.heftLearn s die) := by
  unfold State.heftLearn
  grind [← Keeps.foldl, ← Keeps.foldl1, ← Keeps.mk', ← State.setHeft_keeps, ← State.fwdCount_keeps, ← State.heftInsert_keeps, ←
    State.heftNotice_keeps]

/-! ### FoldOps -/

theorem State.setEq_keeps {s0 : State} {s : State} (h_s : Keeps s0 s) (qid : Nat) (x : EQueue) :
        Keeps s0 (State.setEq s qid x) := by
  unfold State.setEq
  grind [← Keeps.foldl, ← Keeps.foldl1, ← Keeps.mk']

theorem State.modEq_keeps {s0 : State} {s : State} (h_s : Keeps s0 s) (qid : Nat) (f : EQueue → EQueue) :
        Keeps s0 (State.modEq s qid f) := by
  unfold State.modEq
  grind [← Keeps.foldl, ← Keeps.foldl1, ← Keeps.mk', ← State.setEq_keeps]

theorem State.countDrop_keeps {s0 : State} {s : State} (h_s : Keeps s0 s) (qid : Nat) :
        Keeps s0 (State.countDrop s qid) := by
  unfold State.countDrop
  grind [← Keeps.foldl, ← Keeps.foldl1, ← Keeps.mk', ← State.tally_keeps, ← State.modEq_keeps]

theorem State.uncharge_keeps {s0 : State} {s : State} (h_s : Keeps s0 s) (qid : Nat) (pasture : Nat) (n : Nat) :
        Keeps s0 (State.uncharge s qid pasture n) := by
  unfold State.uncharge
  grind [← Keeps.foldl, ← Keeps.foldl1, ← Keeps.mk', ← State.modEq_keeps]

theorem State.setVoq_keeps {s0 : State} {s : State} (h_s : Keeps s0 s) (k : Nat) (l : List Nat) :
        Keeps s0 (State.setVoq s k l) := by
  unfold State.setVoq
  grind [← Keeps.foldl, ← Keeps.foldl1, ← Keeps.mk']

theorem State.leaveVoqs_keeps {s0 : State} {s : State} (h_s : Keeps s0 s) (id : Nat) (c : Copy) (members : List Nat) :
        Keeps s0 (State.leaveVoqs s id c members) := by
  unfold State.leaveVoqs
  grind [← Keeps.foldl, ← Keeps.foldl1, ← Keeps.mk', ← State.setVoq_keeps]

theorem State.slotFree_keeps {s0 : State} {s : State} (h_s : Keeps s0 s) (die : Nat) (n : Nat) :
        Keeps s0 (State.slotFree s die n) := by
  unfold State.slotFree
  grind [← Keeps.foldl, ← Keeps.foldl1, ← Keeps.mk', ← State.setOb_keeps]

theorem State.cutCells_keeps {s0 : State} {s : State} (h_s : Keeps s0 s) (qid : Nat) (p : Nat × Nat → Bool) :
        Keeps s0 (State.cutCells s qid p) := by
  unfold State.cutCells
  grind [← Keeps.foldl, ← Keeps.foldl1, ← Keeps.mk', ← State.slotFree_keeps, ← State.modEq_keeps]

theorem State.nearSub_keeps {s0 : State} {s : State} (h_s : Keeps s0 s) (die : Nat) (n : Nat) :
        Keeps s0 (State.nearSub s die n) := by
  unfold State.nearSub
  grind [← Keeps.foldl, ← Keeps.foldl1, ← Keeps.mk', ← State.setOb_keeps]

theorem State.setBank_keeps {s0 : State} {s : State} (h_s : Keeps s0 s) (g : Nat) (x : BankGroup) :
        Keeps s0 (State.setBank s g x) := by
  unfold State.setBank
  grind [← Keeps.foldl, ← Keeps.foldl1, ← Keeps.mk']

theorem State.bankGive_keeps {s0 : State} {s : State} (h_s : Keeps s0 s) (g : Nat) :
        Keeps s0 (State.bankGive s g) := by
  unfold State.bankGive
  grind [← Keeps.foldl, ← Keeps.foldl1, ← Keeps.mk', ← State.nearSub_keeps, ← State.setBank_keeps]

theorem State.setCopy_keeps {s0 : State} {s : State} (h_s : Keeps s0 s) (c : Nat) (x : Copy) :
        Keeps s0 (State.setCopy s c x) := by
  unfold State.setCopy
  grind [← Keeps.foldl, ← Keeps.foldl1, ← Keeps.mk']

theorem State.setCtx_keeps {s0 : State} {s : State} (h_s : Keeps s0 s) (k : Nat) (x : Reorder) :
        Keeps s0 (State.setCtx s k x) := by
  unfold State.setCtx
  grind [← Keeps.foldl, ← Keeps.foldl1, ← Keeps.mk']

theorem State.leaveCtx_keeps {s0 : State} {s : State} (h_s : Keeps s0 s) (id : Nat) :
        Keeps s0 (State.leaveCtx s id) := by
  unfold State.leaveCtx
  grind [← Keeps.foldl, ← Keeps.foldl1, ← Keeps.mk', ← State.setCtx_keeps]

theorem State.setRidge_keeps {s0 : State} {s : State} (h_s : Keeps s0 s) (d : Nat) (x : RidgeDir) :
        Keeps s0 (State.setRidge s d x) := by
  unfold State.setRidge
  grind [← Keeps.foldl, ← Keeps.foldl1, ← Keeps.mk']

theorem State.ridgeGive_keeps {s0 : State} {s : State} (h_s : Keeps s0 s) (d : Nat) (n : Nat) :
        Keeps s0 (State.ridgeGive s d n) := by
  unfold State.ridgeGive
  grind [← Keeps.foldl, ← Keeps.foldl1, ← Keeps.mk', ← State.setRidge_keeps]

theorem State.setLanding_keeps {s0 : State} {s : State} (h_s : Keeps s0 s) (arr : Nat) (l : List Nat) :
        Keeps s0 (State.setLanding s arr l) := by
  unfold State.setLanding
  grind [← Keeps.foldl, ← Keeps.foldl1, ← Keeps.mk']

theorem State.creditDue_keeps {s0 : State} {s : State} (h_s : Keeps s0 s) (b : Nat) (space : Nat) (cells : Nat) :
        Keeps s0 (State.creditDue s b space cells) := by
  unfold State.creditDue
  grind [← Keeps.foldl, ← Keeps.foldl1, ← Keeps.mk', ← State.modBlock_keeps]

theorem State.landSweep_keeps {s0 : State} {s : State} (h_s : Keeps s0 s) (c : Copy) (b : Nat) :
        Keeps s0 (State.landSweep s c b) := by
  unfold State.landSweep
  grind [← Keeps.foldl, ← Keeps.foldl1, ← Keeps.mk', ← State.bankGive_keeps, ← State.setLanding_keeps, ← State.creditDue_keeps]

theorem State.setEp_keeps {s0 : State} {s : State} (h_s : Keeps s0 s) (d : Nat) (x : EPort) :
        Keeps s0 (State.setEp s d x) := by
  unfold State.setEp
  grind [← Keeps.foldl, ← Keeps.foldl1, ← Keeps.mk']

theorem State.modEp_keeps {s0 : State} {s : State} (h_s : Keeps s0 s) (d : Nat) (f : EPort → EPort) :
        Keeps s0 (State.modEp s d f) := by
  unfold State.modEp
  grind [← Keeps.foldl, ← Keeps.foldl1, ← Keeps.mk', ← State.setEp_keeps]

theorem State.pfcUpdate_keeps {s0 : State} {s : State} (h_s : Keeps s0 s) (port : Nat) (prio : Nat) :
        Keeps s0 (State.pfcUpdate s port prio) := by
  unfold State.pfcUpdate
  grind [← Keeps.foldl, ← Keeps.foldl1, ← Keeps.mk', ← State.tally_keeps, ← State.transmit_keeps, ← State.modEp_keeps]

theorem State.nearAdd_keeps {s0 : State} {s : State} (h_s : Keeps s0 s) (die : Nat) (n : Nat) :
        Keeps s0 (State.nearAdd s die n) := by
  unfold State.nearAdd
  grind [← Keeps.foldl, ← Keeps.foldl1, ← Keeps.mk', ← State.setOb_keeps]

theorem State.bankTake_keeps {s0 : State} {s : State} (h_s : Keeps s0 s) (g : Nat) :
        Keeps s0 (State.bankTake s g) := by
  unfold State.bankTake
  grind [← Keeps.foldl, ← Keeps.foldl1, ← Keeps.mk', ← State.nearAdd_keeps, ← State.setBank_keeps]

theorem State.takeCells_keeps {s0 : State} {s : State} (h_s : Keeps s0 s) (die : Nat) (first : Nat) (x3 : Nat) :
        Keeps s0 (State.takeCells s die first x3).1 := by
  induction x3 generalizing s with
  | zero => exact h_s
  | succ n ih =>
    unfold State.takeCells
    split
    · exact ih (State.bankTake_keeps h_s _)
    · exact ih h_s

theorem State.enqueue_keeps {s0 : State} {s : State} (h_s : Keeps s0 s) (i : Nat) (f : Frame) (dests : List Nat) :
        Keeps s0 (State.enqueue s i f dests) := by
  unfold State.enqueue
  dsimp only
  refine Keeps.foldl ?_ (fun s die h => ?_)
  · have k1 := fun x => h_s.mk' s.poison s.time x s.fwd s.blocks s.circ s.drove s.coll s.common s.muster s.ctl s.pcie s.obsv s.power
    replace k1 := k1 { s.fold with nextId := s.fold.nextId + 1 }
    split
    · exact (State.takeCells_keeps k1 _ _ _).mk' _ _ _ _ _ _ _ _ _ _ _ _ _ _
    · exact k1.mk' _ _ _ _ _ _ _ _ _ _ _ _ _ _
  · split
    · exact h
    · exact Keeps.foldl (State.setCopy_keeps (h.mk' _ _ _ _ _ _ _ _ _ _ _ _ _ _) _ _) (fun s q h => State.setVoq_keeps h _ _)

theorem State.setBacklog_keeps {s0 : State} {s : State} (h_s : Keeps s0 s) (i : Nat) (l : List (Frame × List Nat)) :
        Keeps s0 (State.setBacklog s i l) := by
  unfold State.setBacklog
  grind [← Keeps.foldl, ← Keeps.foldl1, ← Keeps.mk']

theorem State.drainBacklog_keeps {s0 : State} {s : State} (h_s : Keeps s0 s) (i : Nat) (x2 : Nat) :
        Keeps s0 (State.drainBacklog s i x2) := by
  induction x2 generalizing s with
  | zero => exact h_s
  | succ n ih =>
    unfold State.drainBacklog
    split
    · split
      · exact ih (State.enqueue_keeps (State.setBacklog_keeps h_s _ _) _ _ _)
      · exact h_s
    · exact h_s

theorem State.penFree_keeps {s0 : State} {s : State} (h_s : Keeps s0 s) (i : Nat) (n : Nat) (f : Frame) :
        Keeps s0 (State.penFree s i n f) := by
  unfold State.penFree
  grind [← Keeps.foldl, ← Keeps.foldl1, ← Keeps.mk', ← State.creditDue_keeps, ← State.pfcUpdate_keeps, ← State.drainBacklog_keeps]

theorem State.penSweep_keeps {s0 : State} {s : State} (h_s : Keeps s0 s) (c : Copy) :
        Keeps s0 (State.penSweep s c) := by
  unfold State.penSweep
  grind [← Keeps.foldl, ← Keeps.foldl1, ← Keeps.mk', ← State.penFree_keeps]

theorem State.inputSweep_keeps {s0 : State} {s : State} (h_s : Keeps s0 s) (c : Copy) :
        Keeps s0 (State.inputSweep s c) := by
  unfold State.inputSweep
  grind [← Keeps.foldl, ← Keeps.foldl1, ← Keeps.mk', ← State.landSweep_keeps, ← State.penSweep_keeps]

theorem State.endCopy_keeps {s0 : State} {s : State} (h_s : Keeps s0 s) (id : Nat) :
        Keeps s0 (State.endCopy s id) := by
  unfold State.endCopy
  grind [← Keeps.foldl, ← Keeps.foldl1, ← Keeps.mk', ← State.leaveCtx_keeps, ← State.leaveVoqs_keeps, ← State.ridgeGive_keeps, ←
    State.inputSweep_keeps]

theorem State.freeCells_keeps {s0 : State} {s : State} (h_s : Keeps s0 s) (id : Nat) :
        Keeps s0 (State.freeCells s id) := by
  unfold State.freeCells
  grind [← Keeps.foldl, ← Keeps.foldl1, ← Keeps.mk', ← State.bankGive_keeps, ← State.setCopy_keeps, ← State.endCopy_keeps, ←
    State.inputSweep_keeps]

theorem State.unlink_keeps {s0 : State} {s : State} (h_s : Keeps s0 s) (id : Nat) (qid : Nat) (read : Nat) :
        Keeps s0 (State.unlink s id qid read) := by
  unfold State.unlink
  grind [← Keeps.foldl, ← Keeps.foldl1, ← Keeps.mk', ← State.uncharge_keeps, ← State.modEq_keeps, ← State.leaveVoqs_keeps, ←
    State.cutCells_keeps, ← State.freeCells_keeps, ← State.setCopy_keeps]

theorem State.dropFrom_keeps {s0 : State} {s : State} (h_s : Keeps s0 s) (id : Nat) (qid : Nat) :
        Keeps s0 (State.dropFrom s id qid) := by
  unfold State.dropFrom
  grind [← Keeps.foldl, ← Keeps.foldl1, ← Keeps.mk', ← State.countDrop_keeps, ← State.unlink_keeps]

theorem State.dropQueue_keeps {s0 : State} {s : State} (h_s : Keeps s0 s) (qid : Nat) (p : Copy → Bool) :
        Keeps s0 (State.dropQueue s qid p).1 := by
  unfold State.dropQueue
  grind [← Keeps.foldl, ← Keeps.foldl1, ← Keeps.mk', ← State.dropFrom_keeps]

theorem State.dropPort_keeps {s0 : State} {s : State} (h_s : Keeps s0 s) (d : Nat) :
        Keeps s0 (State.dropPort s d).1 := by
  unfold State.dropPort
  grind [← Keeps.foldl, ← Keeps.foldl1, ← Keeps.mk', ← State.dropQueue_keeps]

theorem State.link_keeps {s0 : State} {s : State} (h_s : Keeps s0 s) (id : Nat) :
        Keeps s0 (State.link s id) := by
  unfold State.link
  grind [← Keeps.foldl, ← Keeps.foldl1, ← Keeps.mk', ← State.modEq_keeps, ← State.setCopy_keeps]

theorem State.charge_keeps {s0 : State} {s : State} (h_s : Keeps s0 s) (qid : Nat) (pasture : Nat) (n : Nat) :
        Keeps s0 (State.charge s qid pasture n) := by
  unfold State.charge
  grind [← Keeps.foldl, ← Keeps.foldl1, ← Keeps.mk', ← State.modEq_keeps]

theorem State.foldRelease_keeps {s0 : State} {s : State} (h_s : Keeps s0 s) :
        Keeps s0 (State.foldRelease s) := by
  unfold State.foldRelease
  grind [← Keeps.foldl, ← Keeps.foldl1, ← Keeps.mk']

theorem State.pfcUpdateBlock_keeps {s0 : State} {s : State} (h_s : Keeps s0 s) (b : Nat) :
        Keeps s0 (State.pfcUpdateBlock s b) := by
  unfold State.pfcUpdateBlock
  grind [← Keeps.foldl, ← Keeps.foldl1, ← Keeps.mk', ← State.pfcUpdate_keeps]

theorem State.poisonCopy_keeps {s0 : State} {s : State} (h_s : Keeps s0 s) (id : Nat) :
        Keeps s0 (State.poisonCopy s id) := by
  unfold State.poisonCopy
  grind [← Keeps.foldl, ← Keeps.foldl1, ← Keeps.mk', ← State.setCopy_keeps]

theorem State.countGap_keeps {s0 : State} {s : State} (h_s : Keeps s0 s) (die : Nat) (gap : Nat) (forced : Bool) :
        Keeps s0 (State.countGap s die gap forced) := by
  unfold State.countGap
  grind [← Keeps.foldl, ← Keeps.foldl1, ← Keeps.mk', ← State.fwdCount_keeps]

theorem State.releaseWhile_keeps {s0 : State} {s : State} (h_s : Keeps s0 s) (k : Nat) (die : Nat) (forced : Bool) (more : Reorder →
    Nat → Bool) (x5 : Nat) :
        Keeps s0 (State.releaseWhile s k die forced more x5) := by
  induction x5 generalizing s with
  | zero => exact h_s
  | succ n ih =>
    unfold State.releaseWhile
    dsimp only
    split
    · split
      · exact ih (State.link_keeps (State.setCtx_keeps (State.countGap_keeps h_s _ _ _) _ _) _)
      · exact h_s
    · exact h_s

theorem State.releaseRun_keeps {s0 : State} {s : State} (h_s : Keeps s0 s) (k : Nat) (x2 : Nat) :
        Keeps s0 (State.releaseRun s k x2) := by
  induction x2 generalizing s with
  | zero => exact h_s
  | succ n ih =>
    unfold State.releaseRun
    extract_lets x
    split
    · exact ih (State.link_keeps (h_s.mk' _ _ _ _ _ _ _ _ _ _ _ _ _ _) _)
    · exact h_s

theorem State.moveTo_keeps {s0 : State} {s : State} (h_s : Keeps s0 s) (k : Nat) (e : Nat) (die : Nat) (forced : Bool) :
        Keeps s0 (State.moveTo s k e die forced) := by
  unfold State.moveTo
  exact State.releaseRun_keeps (State.setCtx_keeps (State.countGap_keeps (State.releaseWhile_keeps h_s _ _ _ _ _) _ _ _) _ _) _ _

theorem State.ctxTimer_keeps {s0 : State} {s : State} (h_s : Keeps s0 s) (k : Nat) (moved : Bool) :
        Keeps s0 (State.ctxTimer s k moved) := by
  unfold State.ctxTimer
  grind [← Keeps.foldl, ← Keeps.foldl1, ← Keeps.mk', ← State.setCtx_keeps]

theorem State.dropLate_keeps {s0 : State} {s : State} (h_s : Keeps s0 s) (id : Nat) (die : Nat) :
        Keeps s0 (State.dropLate s id die) := by
  unfold State.dropLate
  grind [← Keeps.foldl, ← Keeps.foldl1, ← Keeps.mk', ← State.unlink_keeps, ← State.fwdCount_keeps]

theorem State.reorderArrive_keeps {s0 : State} {s : State} (h_s : Keeps s0 s) (id : Nat) (h : Nat) :
        Keeps s0 (State.reorderArrive s id h) := by
  unfold State.reorderArrive
  grind [← Keeps.foldl, ← Keeps.foldl1, ← Keeps.mk', ← State.setCtx_keeps, ← State.releaseWhile_keeps, ← State.moveTo_keeps, ←
    State.link_keeps, ← State.ctxTimer_keeps, ← State.releaseRun_keeps, ← State.setCopy_keeps, ← State.dropLate_keeps]

theorem State.ridgeUse_keeps {s0 : State} {s : State} (h_s : Keeps s0 s) (d : Nat) (n : Nat) :
        Keeps s0 (State.ridgeUse s d n) := by
  unfold State.ridgeUse
  grind [← Keeps.foldl, ← Keeps.foldl1, ← Keeps.mk', ← State.setRidge_keeps]

theorem State.reorderExpire_keeps {s0 : State} {s : State} (h_s : Keeps s0 s) (k : Nat) (die : Nat) :
        Keeps s0 (State.reorderExpire s k die) := by
  unfold State.reorderExpire
  grind [← Keeps.foldl, ← Keeps.foldl1, ← Keeps.mk', ← State.setCtx_keeps, ← State.countGap_keeps, ← State.ctxTimer_keeps, ←
    State.releaseRun_keeps]

end Sys2Proof.Machine
end

