-- ==== Sys2Proof/Laws/Keeps2.lean ====
section
/-!
SUPPORT. What the operations of Lookup, Ingress, FoldCmds, LinkOps, MusterLog, Egress keep (`Keeps`), one lemma per operation.
-/

namespace Sys2Proof.Machine

set_option Elab.async false

/-! ### Lookup -/

theorem State.vcCount_keeps {s0 : State} {s : State} (h_s : Keeps s0 s) (row : Nat) (bit : Option Nat) (n : Nat) :
        Keeps s0 (State.vcCount s row bit n) := by
  unfold State.vcCount
  grind [← Keeps.foldl, ← Keeps.foldl1, ← Keeps.mk', ← State.count_keeps, ← State.raise_keeps]

theorem State.copyToCores_keeps {s0 : State} {s : State} (h_s : Keeps s0 s) (f : Frame) :
        Keeps s0 (State.copyToCores s f) := by
  unfold State.copyToCores
  grind [← Keeps.foldl, ← Keeps.foldl1, ← Keeps.mk', ← State.draw_keeps, ← State.emit_keeps]

theorem State.missAction_keeps {s0 : State} {s : State} (h_s : Keeps s0 s) (die : Nat) (p : Nat) (f : Frame) :
        Keeps s0 (State.missAction s die p f).1 := by
  unfold State.missAction
  grind [← Keeps.foldl, ← Keeps.foldl1, ← Keeps.mk', ← State.copyToCores_keeps, ← State.fwdCount_keeps]

theorem State.sprayMember_keeps {s0 : State} {s : State} (h_s : Keeps s0 s) (g : Nat) :
        ∀ t_, State.sprayMember s g = some t_ → Keeps s0 t_.1 := by
  unfold State.sprayMember
  grind [← Keeps.foldl, ← Keeps.foldl1, ← Keeps.mk']

theorem State.route_keeps {s0 : State} {s : State} (h_s : Keeps s0 s) (p : Nat) (e : Nat) (d : Nat) (f : Frame) (ps : Parsed) (multi
    : Bool) :
        Keeps s0 (State.route s p e d f ps multi).1 := by
  unfold State.route
  extract_lets row spray x g
  split
  · exact h_s
  · split
    · exact h_s
    · split
      · split
        · rename_i e; exact State.sprayMember_keeps h_s _ _ e
        · exact h_s
      · split
        · split <;> exact h_s
        · exact h_s

theorem State.multicast_keeps {s0 : State} {s : State} (h_s : Keeps s0 s) (die : Nat) (f : Frame) (h : Nat) (ps : Parsed) :
        Keeps s0 (State.multicast s die f h ps).1 := by
  unfold State.multicast
  grind [← Keeps.foldl, ← Keeps.foldl1, ← Keeps.mk', ← State.route_keeps, ← State.vcCount_keeps, ← State.fwdCount_keeps]

theorem State.deliver_keeps {s0 : State} {s : State} (h_s : Keeps s0 s) (p : Nat) (dev : Nat) (port : Nat) (f : Frame) (ps : Parsed)
    :
        Keeps s0 (State.deliver s p dev port f ps).1 := by
  unfold State.deliver
  grind [← Keeps.foldl, ← Keeps.foldl1, ← Keeps.mk', ← State.route_keeps]

theorem State.lookup_keeps {s0 : State} {s : State} (h_s : Keeps s0 s) (die : Nat) (f : Frame) (ps : Parsed) :
        Keeps s0 (State.lookup s die f ps).1 := by
  unfold State.lookup
  grind [← Keeps.foldl, ← Keeps.foldl1, ← Keeps.mk', ← State.missAction_keeps, ← State.tally_keeps, ← State.vcCount_keeps, ←
    State.multicast_keeps, ← State.route_keeps, ← State.copyToCores_keeps, ← State.deliver_keeps]

/-! ### Ingress -/

theorem State.aclFleece_keeps {s0 : State} {s : State} (h_s : Keeps s0 s) (row : Nat) (f : Frame) :
        Keeps s0 (State.aclFleece s row f) := by
  unfold State.aclFleece
  grind [← Keeps.foldl, ← Keeps.foldl1, ← Keeps.mk']

theorem State.fwdDrop_keeps {s0 : State} {s : State} (h_s : Keeps s0 s) (die : Nat) (f : Frame) (c : FwdStat) :
        Keeps s0 (State.fwdDrop s die f c) := by
  unfold State.fwdDrop
  grind [← Keeps.foldl, ← Keeps.foldl1, ← Keeps.mk', ← State.fwdCount_keeps, ← State.emit_keeps]

theorem State.learnFrom_keeps {s0 : State} {s : State} (h_s : Keeps s0 s) (die : Nat) (f : Frame) (p : Parsed) :
        Keeps s0 (State.learnFrom s die f p).1 := by
  unfold State.learnFrom
  grind [← Keeps.foldl, ← Keeps.foldl1, ← Keeps.mk', ← State.fwdCount_keeps, ← State.learnRequest_keeps]

theorem State.refund_keeps {s0 : State} {s : State} (h_s : Keeps s0 s) (f : Frame) :
        Keeps s0 (State.refund s f) := by
  unfold State.refund
  grind [← Keeps.foldl, ← Keeps.foldl1, ← Keeps.mk', ← State.creditDue_keeps]

theorem State.penEnter_keeps {s0 : State} {s : State} (h_s : Keeps s0 s) (i : Nat) (f : Frame) (dests : List Nat) :
        Keeps s0 (State.penEnter s i f dests) := by
  unfold State.penEnter
  grind [← Keeps.foldl, ← Keeps.foldl1, ← Keeps.mk', ← State.enqueue_keeps, ← State.setBacklog_keeps, ← State.raise_keeps, ←
    State.count_keeps, ← State.pfcUpdate_keeps, ← State.tally_keeps]

theorem State.classify_keeps {s0 : State} {s : State} (h_s : Keeps s0 s) (i : Nat) (die : Nat) (f : Frame) (p : Parsed) :
        Keeps s0 (State.classify s i die f p) := by
  have k0 : ∀ o : Option (Nat × Nat), Keeps s0 (match o with
      | some x => (s.count O.ACL_HITS x.1 1).tally 0x0703 die
      | none => s) := by
    intro o
    cases o
    · exact h_s
    · exact State.tally_keeps (State.count_keeps h_s _ _ _) _ _ _
  unfold State.classify
  extract_lets flock arrival hit s1 act s1' arrived f1 f2 f3 s2 r s3 f4 l s4
  have k1 : Keeps s0 s1 := k0 hit
  have k1' : Keeps s0 s1' := by
    show Keeps s0 (ite _ _ _)
    split
    · exact State.aclFleece_keeps k1 _ _
    · exact k1
  have k2 : Keeps s0 s2 := by
    show Keeps s0 (ite _ _ _)
    split
    · exact State.copyToCores_keeps k1' _
    · exact k1'
  have k3 : Keeps s0 r.1 := by
    show Keeps s0 (Prod.fst (ite _ _ _))
    split
    · exact k2
    · exact State.lookup_keeps k2 _ _ _
  have k4 : Keeps s0 s4 := State.learnFrom_keeps k3 _ _ _
  split
  · exact State.fwdDrop_keeps k1' _ _ _
  · split
    · exact State.refund_keeps (State.fwdDrop_keeps k4 _ _ _) _
    · exact State.refund_keeps k4 _
    · extract_lets dests
      clear_value dests
      split
      · exact State.refund_keeps k4 _
      · split
        · exact State.refund_keeps (State.fwdDrop_keeps k4 _ _ _) _
        · refine State.penEnter_keeps (Keeps.foldl k4 (fun s d h => ?_)) _ _ _
          split
          · exact State.vcCount_keeps h _ _ _
          · exact h

theorem State.ingress_keeps {s0 : State} {s : State} (h_s : Keeps s0 s) (port : Nat) (bytes : List Byte) (fcsOk : Bool) (credit :
    Option (Nat × Nat)) :
        Keeps s0 (State.ingress s port bytes fcsOk credit) := by
  unfold State.ingress
  dsimp only
  repeat' split
  all_goals grind (splits := 40) (gen := 40) (ematch := 40) [← Keeps.foldl, ← Keeps.foldl1, ← Keeps.mk', ← State.creditDue_keeps, ←
    State.tally_keeps, ← State.portCount_keeps, ← State.portErr_keeps, ← State.count_keeps, ← State.fwdCount_keeps, ←
    State.raise_keeps, ← State.vcCount_keeps, ← State.classify_keeps]

theorem State.issue_keeps {s0 : State} {s : State} (h_s : Keeps s0 s) (paddock : Nat) (hdr : Nat) (payload : List Byte) :
        Keeps s0 (State.issue s paddock hdr payload) := by
  unfold State.issue
  grind [← Keeps.foldl, ← Keeps.foldl1, ← Keeps.mk', ← State.fwdDrop_keeps, ← State.classify_keeps]

theorem State.produce_keeps {s0 : State} {s : State} (h_s : Keeps s0 s) (paddock : Nat) (hdr : Nat) (payload : List Byte) :
        Keeps s0 (State.produce s paddock hdr payload) := by
  unfold State.produce
  grind [← Keeps.foldl, ← Keeps.foldl1, ← Keeps.mk', ← State.issue_keeps]

theorem State.send_keeps {s0 : State} {s : State} (h_s : Keeps s0 s) (paddock : Nat) (p : Nat) (op : Nat) (dstDev : Nat) (dstPort :
    Nat) (payload : List Byte) :
        Keeps s0 (State.send s paddock p op dstDev dstPort payload) := by
  unfold State.send
  grind [← Keeps.foldl, ← Keeps.foldl1, ← Keeps.mk', ← State.produce_keeps]

theorem State.sendCtrl_keeps {s0 : State} {s : State} (h_s : Keeps s0 s) (b : Nat) (op : Nat) (payload : List Byte) (tsOff : Nat) :
        Keeps s0 (State.sendCtrl s b op payload tsOff) := by
  unfold State.sendCtrl
  repeat' split
  all_goals grind (splits := 20) (gen := 20) (ematch := 20) [← Keeps.foldl, ← Keeps.foldl1, ← Keeps.mk', ← State.takeCells_keeps, ←
    State.link_keeps, ← State.charge_keeps, ← State.setCopy_keeps, ← State.vcCount_keeps]

theorem State.issueKept_keeps {s0 : State} {s : State} (h_s : Keeps s0 s) (p : Nat) :
        Keeps s0 (State.issueKept s p) := by
  unfold State.issueKept
  grind [← Keeps.foldl, ← Keeps.foldl1, ← Keeps.mk', ← State.issue_keeps]

/-! ### FoldCmds -/

theorem State.purgeCopy_keeps {s0 : State} {s : State} (h_s : Keeps s0 s) (id : Nat) :
        Keeps s0 (State.purgeCopy s id) := by
  unfold State.purgeCopy
  grind [← Keeps.foldl, ← Keeps.foldl1, ← Keeps.mk', ← State.endCopy_keeps, ← State.dropFrom_keeps]

theorem State.writeSectors_keeps {s0 : State} {s : State} (h_s : Keeps s0 s) (t : Transfer) :
        Keeps s0 (State.writeSectors s t) := by
  unfold State.writeSectors
  grind [← Keeps.foldl, ← Keeps.foldl1, ← Keeps.mk', ← State.setCopy_keeps, ← State.bankTake_keeps]

theorem State.countPoison_keeps {s0 : State} {s : State} (h_s : Keeps s0 s) (die : Nat) (n : Nat) :
        Keeps s0 (State.countPoison s die n) := by
  unfold State.countPoison
  grind [← Keeps.foldl, ← Keeps.foldl1, ← Keeps.mk', ← State.tally_keeps, ← State.count_keeps]

theorem State.gateStats_keeps {s0 : State} {s : State} (h_s : Keeps s0 s) (limit : Nat) (heads : List (Nat × List Nat)) (m :
    Matching) :
        Keeps s0 (State.gateStats s limit heads m) := by
  unfold State.gateStats
  extract_lets left spare s1 s2 short s3 s4 relayed
  have k1 : Keeps s0 s1 := by
    show Keeps s0 (ite _ _ _)
    split
    · exact h_s
    · exact State.holdCount_keeps h_s _ _ _
  have k2 : Keeps s0 s2 := Keeps.foldl k1 (fun s a h => State.tally_keeps h _ _ _)
  have k3 : Keeps s0 s3 := by
    show Keeps s0 (ite _ _ _)
    split
    · exact k2
    · exact State.holdCount_keeps k2 _ _ _
  have k4 : Keeps s0 s4 := Keeps.foldl k3 (fun s a h => State.tally_keeps h _ _ _)
  exact Keeps.foldl k4 (fun s a h => State.holdCount_keeps h _ _ _)

theorem State.fetchCell_keeps {s0 : State} {s : State} (h_s : Keeps s0 s) (die : Nat) (x : Nat × Nat) :
        Keeps s0 (State.fetchCell s die x) := by
  unfold State.fetchCell
  grind [← Keeps.foldl, ← Keeps.foldl1, ← Keeps.mk', ← State.bankTake_keeps, ← State.setCopy_keeps]

theorem State.setPlace_keeps {s0 : State} {s : State} (h_s : Keeps s0 s) (qid : Nat) (i : Nat) (p : GroupPlace) :
        Keeps s0 (State.setPlace s qid i p) := by
  unfold State.setPlace
  grind [← Keeps.foldl, ← Keeps.foldl1, ← Keeps.mk', ← State.modEq_keeps]

theorem execGroupFetch_keeps {s0 : State} (qid : Fin 12480) {s : State} (h_s : Keeps s0 s) :
        ∀ t_, execGroupFetch qid s = .next t_ → Keeps s0 t_ := by
  unfold execGroupFetch
  grind [← Keeps.foldl, ← Keeps.foldl1, ← Keeps.mk', live, ← State.setPlace_keeps, ← State.slotFree_keeps]

theorem State.leftInput_keeps {s0 : State} {s : State} (h_s : Keeps s0 s) (t : Transfer) :
        Keeps s0 (State.leftInput s t) := by
  unfold State.leftInput
  grind [← Keeps.foldl, ← Keeps.foldl1, ← Keeps.mk', ← State.inputSweep_keeps, ← State.setCopy_keeps]

theorem State.holdHead_keeps {s0 : State} {s : State} (h_s : Keeps s0 s) (id : Nat) (c : Copy) :
        Keeps s0 (State.holdHead s id c) := by
  unfold State.holdHead
  grind [← Keeps.foldl, ← Keeps.foldl1, ← Keeps.mk', ← State.tally_keeps, ← State.holdCount_keeps, ← State.setCopy_keeps, ←
    State.count_keeps]

theorem State.ridgeFence_keeps {s0 : State} {s : State} (h_s : Keeps s0 s) (l : Nat) :
        Keeps s0 (State.ridgeFence s l) := by
  unfold State.ridgeFence
  grind [← Keeps.foldl, ← Keeps.foldl1, ← Keeps.mk', ← State.raise_keeps, ← State.fwdDrop_keeps, ← State.purgeCopy_keeps]

theorem execRidgeLinkFence_keeps {s0 : State} (l : Fin 4) {s : State} (h_s : Keeps s0 s) :
        ∀ t_, execRidgeLinkFence l s = .next t_ → Keeps s0 t_ := by
  unfold execRidgeLinkFence
  grind [← Keeps.foldl, ← Keeps.foldl1, ← Keeps.mk', live, ← State.ridgeFence_keeps]

theorem State.seeLimit_keeps {s0 : State} {s : State} (h_s : Keeps s0 s) (die : Nat) (busy : Nat) :
        Keeps s0 (State.seeLimit s die busy) := by
  unfold State.seeLimit
  grind [← Keeps.foldl, ← Keeps.foldl1, ← Keeps.mk']

theorem State.evictStart_keeps {s0 : State} {s : State} (h_s : Keeps s0 s) (qid : Nat) (i : Nat) (busy : Nat) :
        Keeps s0 (State.evictStart s qid i busy) := by
  unfold State.evictStart
  grind [← Keeps.foldl, ← Keeps.foldl1, ← Keeps.mk', ← State.raise_keeps, ← State.setOb_keeps, ← State.modEq_keeps]

theorem execEvictionAge_keeps {s0 : State} (qid : Fin 12480) (busy : BitVec 4) {s : State} (h_s : Keeps s0 s) :
        ∀ t_, execEvictionAge qid busy s = .next t_ → Keeps s0 t_ := by
  unfold execEvictionAge
  grind [← Keeps.foldl, ← Keeps.foldl1, ← Keeps.mk', live, ← State.seeLimit_keeps, ← State.evictStart_keeps]

theorem State.releaseNear_keeps {s0 : State} {s : State} (h_s : Keeps s0 s) (cells : List (Nat × Nat)) :
        Keeps s0 (State.releaseNear s cells) := by
  unfold State.releaseNear
  grind [← Keeps.foldl, ← Keeps.foldl1, ← Keeps.mk', ← State.setCopy_keeps, ← State.bankGive_keeps]

theorem execEvictionWriteAck_keeps {s0 : State} (qid : Fin 12480) {s : State} (h_s : Keeps s0 s) :
        ∀ t_, execEvictionWriteAck qid s = .next t_ → Keeps s0 t_ := by
  unfold execEvictionWriteAck
  grind [← Keeps.foldl, ← Keeps.foldl1, ← Keeps.mk', live, ← State.slotFree_keeps, ← State.setPlace_keeps, ← State.tally_keeps, ←
    State.count_keeps, ← State.releaseNear_keeps]

theorem State.fetchDone_keeps {s0 : State} {s : State} (h_s : Keeps s0 s) (qid : Nat) (i : Nat) (g : CellGroup) (crc : Nat) (ue :
    Bool) :
        Keeps s0 (State.fetchDone s qid i g crc ue) := by
  unfold State.fetchDone
  repeat' split
  all_goals grind (splits := 20) (gen := 20) (ematch := 20) [← Keeps.foldl, ← Keeps.foldl1, ← Keeps.mk', ← State.fetchCell_keeps, ←
    State.poisonCopy_keeps, ← State.raise_keeps, ← State.countPoison_keeps, ← State.tally_keeps, ← State.count_keeps, ←
    State.slotFree_keeps, ← State.setPlace_keeps]

theorem State.discardCopy_keeps {s0 : State} {s : State} (h_s : Keeps s0 s) (id : Nat) :
        Keeps s0 (State.discardCopy s id) := by
  unfold State.discardCopy
  grind [← Keeps.foldl, ← Keeps.foldl1, ← Keeps.mk', ← State.endCopy_keeps]

theorem State.refuse_keeps {s0 : State} {s : State} (h_s : Keeps s0 s) (id : Nat) (c : Copy) (lost : List Nat) :
        Keeps s0 (State.refuse s id c lost) := by
  unfold State.refuse
  grind [← Keeps.foldl, ← Keeps.foldl1, ← Keeps.mk', ← State.setCopy_keeps, ← State.leaveVoqs_keeps, ← State.countDrop_keeps]

theorem State.admitCopy_keeps {s0 : State} {s : State} (h_s : Keeps s0 s) (id : Nat) :
        Keeps s0 (State.admitCopy s id) := by
  unfold State.admitCopy
  grind [← Keeps.foldl, ← Keeps.foldl1, ← Keeps.mk', ← State.charge_keeps, ← State.setCopy_keeps, ← State.setLanding_keeps, ←
    State.count_keeps, ← State.reorderArrive_keeps, ← State.link_keeps, ← State.leaveVoqs_keeps]

theorem State.decideHead_keeps {s0 : State} {s : State} (h_s : Keeps s0 s) (k : Nat) :
        Keeps s0 (State.decideHead s k) := by
  unfold State.decideHead
  repeat' split
  all_goals grind (splits := 20) (gen := 20) (ematch := 20) [← Keeps.foldl, ← Keeps.foldl1, ← Keeps.mk', ← State.fwdDrop_keeps, ←
    State.discardCopy_keeps, ← State.raise_keeps, ← State.count_keeps, ← State.refuse_keeps, ← State.tally_keeps, ←
    State.setCopy_keeps, ← State.admitCopy_keeps, ← State.holdHead_keeps]

theorem State.roundStep_keeps {s0 : State} {s : State} (h_s : Keeps s0 s) (d : Nat) (relayed : Nat) (local_ : Nat) :
        Keeps s0 (State.roundStep s d relayed local_) := by
  unfold State.roundStep
  grind [← Keeps.foldl, ← Keeps.foldl1, ← Keeps.mk', ← State.setRidge_keeps]

theorem State.servedRelay_keeps {s0 : State} {s : State} (h_s : Keeps s0 s) (d : Nat) (n : Nat) :
        Keeps s0 (State.servedRelay s d n) := by
  unfold State.servedRelay
  grind [← Keeps.foldl, ← Keeps.foldl1, ← Keeps.mk', ← State.roundStep_keeps, ← State.setRidge_keeps]

theorem State.relayForward_keeps {s0 : State} {s : State} (h_s : Keeps s0 s) (i : Nat) :
        Keeps s0 (State.relayForward s i) := by
  unfold State.relayForward
  repeat' split
  all_goals grind (splits := 20) (gen := 20) (ematch := 20) [← Keeps.foldl, ← Keeps.foldl1, ← Keeps.mk', ← State.servedRelay_keeps,
    ← State.ridgeGive_keeps, ← State.ridgeUse_keeps, ← State.tally_keeps]

theorem execAdmissionRetry_keeps {s0 : State} (input : Fin 144) (dest : Fin 1040) (cls : Fin 8) {s : State} (h_s : Keeps s0 s) :
        ∀ t_, execAdmissionRetry input dest cls s = .next t_ → Keeps s0 t_ := by
  unfold execAdmissionRetry
  grind [← Keeps.foldl, ← Keeps.foldl1, ← Keeps.mk', live, ← State.decideHead_keeps]

theorem State.accept_keeps {s0 : State} {s : State} (h_s : Keeps s0 s) (m : Matching) (limit : Nat) (i : Nat) (first : Bool) (ks :
    List Nat) (mine : List Nat) :
        Keeps s0 (State.accept s m limit i first ks mine).1 := by
  unfold State.accept
  grind [← Keeps.foldl, ← Keeps.foldl1, ← Keeps.mk']

theorem State.iterate_keeps {s0 : State} {s : State} (h_s : Keeps s0 s) (limit : Nat) (first : Bool) (heads : List (Nat × List Nat))
    (m : Matching) :
        Keeps s0 (State.iterate s limit first heads m).1 := by
  unfold State.iterate
  grind [← Keeps.foldl, ← Keeps.foldl1, ← Keeps.mk', ← State.accept_keeps]

theorem State.servedLocal_keeps {s0 : State} {s : State} (h_s : Keeps s0 s) (d : Nat) (n : Nat) :
        Keeps s0 (State.servedLocal s d n) := by
  unfold State.servedLocal
  grind [← Keeps.foldl, ← Keeps.foldl1, ← Keeps.mk', ← State.roundStep_keeps, ← State.setRidge_keeps]

theorem State.gateMatch_keeps {s0 : State} {s : State} (h_s : Keeps s0 s) :
        Keeps s0 (State.gateMatch s) := by
  unfold State.gateMatch
  extract_lets limit inputs heads r1 r2 r3 s1 m s2 s3 s4 s5 fo s6
  have e3 : Keeps s0 s1 := State.iterate_keeps (State.iterate_keeps (State.iterate_keeps h_s _ _ _ _) _ _ _ _) _ _ _ _
  clear_value s1 m heads limit
  have f2 : Keeps s0 s2 := Keeps.foldl e3 (fun s i h => by
    split
    · exact h.mk' _ _ _ _ _ _ _ _ _ _ _ _ _ _
    · exact h)
  have f3 : Keeps s0 s3 := State.gateStats_keeps f2 _ _ _
  have f4 : Keeps s0 s4 := Keeps.foldl f3 (fun s x h => State.servedLocal_keeps (State.ridgeUse_keeps (State.tally_keeps h _ _ _) _
    _) _ _)
  have f5 : Keeps s0 s5 := Keeps.foldl f4 (fun s x h => State.setCopy_keeps h _ _)
  clear_value s5
  have f6 : Keeps s0 s6 := f5.mk' _ _ _ _ _ _ _ _ _ _ _ _ _ _
  refine Keeps.foldl f6 (fun s x h => ?_)
  split
  · exact h
  · exact State.leaveVoqs_keeps h _ _ _

theorem execEvictionOccupancy_keeps {s0 : State} (die : Fin 4) (busy : BitVec 4) {s : State} (h_s : Keeps s0 s) :
        ∀ t_, execEvictionOccupancy die busy s = .next t_ → Keeps s0 t_ := by
  unfold execEvictionOccupancy
  grind [← Keeps.foldl, ← Keeps.foldl1, ← Keeps.mk', live, ← State.seeLimit_keeps, ← State.evictStart_keeps]

theorem execFetchComplete_keeps {s0 : State} (qid : Fin 12480) (bad : BitVec 16 × Bool) {s : State} (h_s : Keeps s0 s) :
        ∀ t_, execFetchComplete qid bad s = .next t_ → Keeps s0 t_ := by
  unfold execFetchComplete
  grind [← Keeps.foldl, ← Keeps.foldl1, ← Keeps.mk', live, ← State.fetchDone_keeps]

theorem State.dropTransfer_keeps {s0 : State} {s : State} (h_s : Keeps s0 s) (i : Nat) :
        Keeps s0 (State.dropTransfer s i) := by
  unfold State.dropTransfer
  grind [← Keeps.foldl, ← Keeps.foldl1, ← Keeps.mk']

theorem State.transferWrite_keeps {s0 : State} {s : State} (h_s : Keeps s0 s) (i : Nat) :
        Keeps s0 (State.transferWrite s i) := by
  unfold State.transferWrite
  grind [← Keeps.foldl, ← Keeps.foldl1, ← Keeps.mk', ← State.leftInput_keeps, ← State.ridgeGive_keeps, ← State.writeSectors_keeps, ←
     State.dropTransfer_keeps]

theorem execVoqHeadAdmission_keeps {s0 : State} (input : Fin 144) (dest : Fin 1040) (cls : Fin 8) {s : State} (h_s : Keeps s0 s) :
        ∀ t_, execVoqHeadAdmission input dest cls s = .next t_ → Keeps s0 t_ := by
  unfold execVoqHeadAdmission
  grind [← Keeps.foldl, ← Keeps.foldl1, ← Keeps.mk', live, ← State.decideHead_keeps]

theorem execGateTransferWrite_keeps {s0 : State} (i : Nat) {s : State} (h_s : Keeps s0 s) :
        ∀ t_, execGateTransferWrite i s = .next t_ → Keeps s0 t_ := by
  unfold execGateTransferWrite
  grind [← Keeps.foldl, ← Keeps.foldl1, ← Keeps.mk', live, ← State.transferWrite_keeps]

theorem execGateMatch_keeps {s0 : State} {s : State} (h_s : Keeps s0 s) :
        ∀ t_, execGateMatch s = .next t_ → Keeps s0 t_ := by
  unfold execGateMatch
  grind [← Keeps.foldl, ← Keeps.foldl1, ← Keeps.mk', live, ← State.gateMatch_keeps]

theorem execRidgeRelayForward_keeps {s0 : State} (i : Nat) {s : State} (h_s : Keeps s0 s) :
        ∀ t_, execRidgeRelayForward i s = .next t_ → Keeps s0 t_ := by
  unfold execRidgeRelayForward
  grind [← Keeps.foldl, ← Keeps.foldl1, ← Keeps.mk', live, ← State.relayForward_keeps]

/-! ### LinkOps -/

theorem State.setPortState_keeps {s0 : State} {s : State} (h_s : Keeps s0 s) (p : Nat) (v : Nat) :
        Keeps s0 (State.setPortState s p v) := by
  unfold State.setPortState
  grind [← Keeps.foldl, ← Keeps.foldl1, ← Keeps.mk', ← State.modBlock_keeps]

theorem State.sendTraining_keeps {s0 : State} {s : State} (h_s : Keeps s0 s) (b : Nat) :
        Keeps s0 (State.sendTraining s b) := by
  unfold State.sendTraining
  grind [← Keeps.foldl, ← Keeps.foldl1, ← Keeps.mk', ← State.transmit_keeps]

theorem State.tryTrain_keeps {s0 : State} {s : State} (h_s : Keeps s0 s) (b : Nat) :
        Keeps s0 (State.tryTrain s b) := by
  unfold State.tryTrain
  grind [← Keeps.foldl, ← Keeps.foldl1, ← Keeps.mk', ← State.setPortState_keeps, ← State.sendTraining_keeps, ← State.modBlock_keeps,
     ← State.setRow_keeps, ← State.count_keeps]

theorem State.restartWait_keeps {s0 : State} {s : State} (h_s : Keeps s0 s) (b : Nat) (ask : Bool) :
        Keeps s0 (State.restartWait s b ask) := by
  unfold State.restartWait
  grind [← Keeps.foldl, ← Keeps.foldl1, ← Keeps.mk', ← State.tryTrain_keeps, ← State.modBlock_keeps]

theorem State.cutDeparture_keeps {s0 : State} {s : State} (h_s : Keeps s0 s) (d : Nat) :
        Keeps s0 (State.cutDeparture s d).1 := by
  unfold State.cutDeparture
  grind [← Keeps.foldl, ← Keeps.foldl1, ← Keeps.mk', ← State.countDrop_keeps, ← State.unlink_keeps, ← State.modEp_keeps]

theorem State.emptyPort_keeps {s0 : State} {s : State} (h_s : Keeps s0 s) (p : Nat) :
        Keeps s0 (State.emptyPort s p) := by
  unfold State.emptyPort
  grind [← Keeps.foldl, ← Keeps.foldl1, ← Keeps.mk', ← State.cutDeparture_keeps, ← State.dropPort_keeps, ← State.portCount_keeps]

theorem State.linkClear_keeps {s0 : State} {s : State} (h_s : Keeps s0 s) (b : Nat) :
        Keeps s0 (State.linkClear s b) := by
  unfold State.linkClear
  grind [← Keeps.foldl, ← Keeps.foldl1, ← Keeps.mk', ← State.portCount_keeps, ← State.emptyPort_keeps, ← State.modBlock_keeps]

theorem State.linkReset_keeps {s0 : State} {s : State} (h_s : Keeps s0 s) (b : Nat) :
        Keeps s0 (State.linkReset s b) := by
  unfold State.linkReset
  grind [← Keeps.foldl, ← Keeps.foldl1, ← Keeps.mk', ← State.restartWait_keeps, ← State.setPortState_keeps, ← State.linkClear_keeps]

theorem State.sendFlit_keeps {s0 : State} {s : State} (h_s : Keeps s0 s) (b : Nat) (start : Nat) (shared : Nat) (payload : List
    Byte) (ends : (Option Nat)) :
        Keeps s0 (State.sendFlit s b start shared payload ends) := by
  unfold State.sendFlit
  grind [← Keeps.foldl, ← Keeps.foldl1, ← Keeps.mk', ← State.tally_keeps, ← State.transmit_keeps, ← State.setBlock_keeps]

theorem State.sendIdle_keeps {s0 : State} {s : State} (h_s : Keeps s0 s) (b : Nat) :
        Keeps s0 (State.sendIdle s b) := by
  unfold State.sendIdle
  grind [← Keeps.foldl, ← Keeps.foldl1, ← Keeps.mk', ← State.sendFlit_keeps]

theorem State.linkHold_keeps {s0 : State} {s : State} (h_s : Keeps s0 s) (b : Nat) :
        Keeps s0 (State.linkHold s b) := by
  unfold State.linkHold
  grind [← Keeps.foldl, ← Keeps.foldl1, ← Keeps.mk', ← State.linkReset_keeps, ← State.setBlock_keeps, ← State.restartWait_keeps, ←
    State.setPortState_keeps]

theorem State.flushDown_keeps {s0 : State} {s : State} (h_s : Keeps s0 s) (p : Nat) :
        Keeps s0 (State.flushDown s p) := by
  unfold State.flushDown
  grind [← Keeps.foldl, ← Keeps.foldl1, ← Keeps.mk', ← State.heftFlush_keeps]

theorem State.blockDown_keeps {s0 : State} {s : State} (h_s : Keeps s0 s) (b : Nat) :
        Keeps s0 (State.blockDown s b) := by
  unfold State.blockDown
  grind [← Keeps.foldl, ← Keeps.foldl1, ← Keeps.mk', ← State.linkClear_keeps, ← State.emptyPort_keeps, ← State.flushDown_keeps, ←
    State.modBlock_keeps]

theorem State.blockStart_keeps {s0 : State} {s : State} (h_s : Keeps s0 s) (b : Nat) :
        Keeps s0 (State.blockStart s b) := by
  unfold State.blockStart
  grind [← Keeps.foldl, ← Keeps.foldl1, ← Keeps.mk', ← State.modBlock_keeps, ← State.restartWait_keeps, ← State.setPortState_keeps]

theorem State.flockDown_keeps {s0 : State} {s : State} (h_s : Keeps s0 s) (p : Nat) :
        Keeps s0 (State.flockDown s p) := by
  unfold State.flockDown
  grind [← Keeps.foldl, ← Keeps.foldl1, ← Keeps.mk', ← State.setPortState_keeps, ← State.flushDown_keeps, ← State.dropPort_keeps, ←
    State.portCount_keeps, ← State.modBlock_keeps]

theorem State.sendFrameFlits_keeps {s0 : State} {s : State} (h_s : Keeps s0 s) (b : Nat) (bytes : List Byte) (shared : Bool) :
        Keeps s0 (State.sendFrameFlits s b bytes shared) := by
  unfold State.sendFrameFlits
  grind [← Keeps.foldl, ← Keeps.foldl1, ← Keeps.mk', ← State.sendFlit_keeps]

/-! ### MusterLog -/

theorem State.freeSeg_keeps {s0 : State} {s : State} (h_s : Keeps s0 s) (i : Nat) :
        Keeps s0 (State.freeSeg s i) := by
  unfold State.freeSeg
  grind [← Keeps.foldl, ← Keeps.foldl1, ← Keeps.mk']

theorem State.logRoom_keeps {s0 : State} {s : State} (h_s : Keeps s0 s) (stack : Nat) (dest : Nat) (size : Nat) :
        ∀ t_, State.logRoom s stack dest size = some t_ → Keeps s0 t_ := by
  unfold State.logRoom
  grind [← Keeps.foldl, ← Keeps.foldl1, ← Keeps.mk', ← State.raise_keeps, ← State.count_keeps, ← State.freeSeg_keeps]

theorem State.logAppend_keeps {s0 : State} {s : State} (h_s : Keeps s0 s) (stack : Nat) (dest : Nat) (kind : Nat) (frame : List
    Byte) :
        Keeps s0 (State.logAppend s stack dest kind frame) := by
  unfold State.logAppend
  grind [← Keeps.foldl, ← Keeps.foldl1, ← Keeps.mk', ← State.tally_keeps]

/-! ### Egress -/

theorem State.fenceBank_keeps {s0 : State} {s : State} (h_s : Keeps s0 s) (g : Nat) (k : Nat) :
        Keeps s0 (State.fenceBank s g k) := by
  unfold State.fenceBank
  grind [← Keeps.foldl, ← Keeps.foldl1, ← Keeps.mk', ← State.setOb_keeps, ← State.setBank_keeps, ← State.raise_keeps]

theorem State.pauseEnd_keeps {s0 : State} {s : State} (h_s : Keeps s0 s) (qid : Nat) :
        Keeps s0 (State.pauseEnd s qid) := by
  unfold State.pauseEnd
  grind [← Keeps.foldl, ← Keeps.foldl1, ← Keeps.mk', ← State.modEq_keeps]

theorem State.writeQcfg_keeps {s0 : State} {s : State} (h_s : Keeps s0 s) (qid : Nat) (v : Nat) :
        Keeps s0 (State.writeQcfg s qid v).1 := by
  unfold State.writeQcfg
  grind [← Keeps.foldl, ← Keeps.foldl1, ← Keeps.mk', ← State.setRow_keeps, ← State.modEq_keeps, ← State.pauseEnd_keeps]

theorem State.writePortCfg_keeps {s0 : State} {s : State} (h_s : Keeps s0 s) (d : Nat) (v : Nat) :
        Keeps s0 (State.writePortCfg s d v).1 := by
  unfold State.writePortCfg
  grind [← Keeps.foldl, ← Keeps.foldl1, ← Keeps.mk', ← State.modEp_keeps, ← State.setRow_keeps]

theorem State.writeGate_keeps {s0 : State} {s : State} (h_s : Keeps s0 s) (d : Nat) (v : Nat) :
        Keeps s0 (State.writeGate s d v).1 := by
  unfold State.writeGate
  grind [← Keeps.foldl, ← Keeps.foldl1, ← Keeps.mk', ← State.setRow_keeps, ← State.modEp_keeps]

theorem State.writePfc_keeps {s0 : State} {s : State} (h_s : Keeps s0 s) (r : Nat) (v : Nat) :
        Keeps s0 (State.writePfc s r v).1 := by
  unfold State.writePfc
  grind [← Keeps.foldl, ← Keeps.foldl1, ← Keeps.mk', ← State.setRow_keeps, ← State.pfcUpdate_keeps]

theorem State.qrecAppend_keeps {s0 : State} {s : State} (h_s : Keeps s0 s) (r : Nat) :
        Keeps s0 (State.qrecAppend s r) := by
  unfold State.qrecAppend
  grind [← Keeps.foldl, ← Keeps.foldl1, ← Keeps.mk', ← State.hbmWrite_keeps, ← State.setOb_keeps, ← State.count_keeps]

theorem State.qrecAll_keeps {s0 : State} {s : State} (h_s : Keeps s0 s) (bell : Nat) :
        Keeps s0 (State.qrecAll s bell) := by
  unfold State.qrecAll
  grind [← Keeps.foldl, ← Keeps.foldl1, ← Keeps.mk', ← State.setRow_keeps, ← State.qrecAppend_keeps, ← State.modEq_keeps]

theorem State.tellProducer_keeps {s0 : State} {s : State} (h_s : Keeps s0 s) (f : Frame) (status : Nat) :
        Keeps s0 (State.tellProducer s f status) := by
  unfold State.tellProducer
  grind [← Keeps.foldl, ← Keeps.foldl1, ← Keeps.mk', ← State.emit_keeps]

theorem State.flockQuiet_keeps {s0 : State} {s : State} (h_s : Keeps s0 s) (b : Nat) :
        Keeps s0 (State.flockQuiet s b) := by
  unfold State.flockQuiet
  grind [← Keeps.foldl, ← Keeps.foldl1, ← Keeps.mk', ← State.flockDown_keeps]

theorem State.departQueue_keeps {s0 : State} {s : State} (h_s : Keeps s0 s) (qid : Nat) (id : Nat) (len : Nat) (sojourn : Nat) :
        Keeps s0 (State.departQueue s qid id len sojourn) := by
  unfold State.departQueue
  grind [← Keeps.foldl, ← Keeps.foldl1, ← Keeps.mk', ← State.modEq_keeps]

theorem execQueueConfigWrite_keeps {s0 : State} (who : Path) (qid : Fin 12480) (v : BitVec 128) {s : State} (h_s : Keeps s0 s) :
        ∀ t_, execQueueConfigWrite who qid v s = .next t_ → Keeps s0 t_ := by
  unfold execQueueConfigWrite
  grind [← Keeps.foldl, ← Keeps.foldl1, ← Keeps.mk', ← State.access_keeps, ← State.writeQcfg_keeps, Keeps1]

theorem State.headDrop_keeps {s0 : State} {s : State} (h_s : Keeps s0 s) (qid : Nat) :
        ∀ t_, State.headDrop s qid = some t_ → Keeps s0 t_ := by
  unfold State.headDrop
  grind [← Keeps.foldl, ← Keeps.foldl1, ← Keeps.mk', ← State.vcCount_keeps, ← State.dropFrom_keeps, ← State.raise_keeps, ←
    State.count_keeps, ← State.tellProducer_keeps, ← State.fwdDrop_keeps]

theorem State.headDrops_keeps {s0 : State} {s : State} (h_s : Keeps s0 s) (qid : Nat) (x2 : Nat) :
        Keeps s0 (State.headDrops s qid x2) := by
  induction x2 generalizing s with
  | zero => exact h_s
  | succ n ih =>
    unfold State.headDrops
    split
    · rename_i t e; exact ih (State.headDrop_keeps h_s _ t e)
    · exact h_s

theorem execLaunchTimeDue_keeps {s0 : State} (qid : Fin 12480) {s : State} (h_s : Keeps s0 s) :
        ∀ t_, execLaunchTimeDue qid s = .next t_ → Keeps s0 t_ := by
  unfold execLaunchTimeDue
  grind [← Keeps.foldl, ← Keeps.foldl1, ← Keeps.mk', live, ← State.advanceDev_keeps]

theorem State.sprayNumber_keeps {s0 : State} {s : State} (h_s : Keeps s0 s) (k : Nat) :
        Keeps s0 (State.sprayNumber s k).1 := by
  unfold State.sprayNumber
  grind [← Keeps.foldl, ← Keeps.foldl1, ← Keeps.mk']

theorem State.unchoose_keeps {s0 : State} {s : State} (h_s : Keeps s0 s) (d : Nat) (x : Chosen) :
        Keeps s0 (State.unchoose s d x) := by
  unfold State.unchoose
  grind [← Keeps.foldl, ← Keeps.foldl1, ← Keeps.mk', ← State.modEq_keeps, ← State.modEp_keeps]

theorem State.takeTokens_keeps {s0 : State} {s : State} (h_s : Keeps s0 s) (x : Chosen) :
        Keeps s0 (State.takeTokens s x) := by
  unfold State.takeTokens
  grind [← Keeps.foldl, ← Keeps.foldl1, ← Keeps.mk', ← State.modEq_keeps, ← State.modEp_keeps]

theorem State.markHead_keeps {s0 : State} {s : State} (h_s : Keeps s0 s) (qid : Nat) (f : Frame) :
        Keeps s0 (State.markHead s qid f).1 := by
  unfold State.markHead
  grind [← Keeps.foldl, ← Keeps.foldl1, ← Keeps.mk', ← State.tally_keeps, ← State.count_keeps, ← State.modEq_keeps]

theorem State.sprayHdr_keeps {s0 : State} {s : State} (h_s : Keeps s0 s) (h : Nat) :
        Keeps s0 (State.sprayHdr s h).1 := by
  unfold State.sprayHdr
  grind [← Keeps.foldl, ← Keeps.foldl1, ← Keeps.mk', ← State.sprayNumber_keeps]

theorem State.transparent_keeps {s0 : State} {s : State} (h_s : Keeps s0 s) (d : Nat) (f : Frame) (p : Parsed) :
        Keeps s0 (State.transparent s d f p).1 := by
  unfold State.transparent
  grind [← Keeps.foldl, ← Keeps.foldl1, ← Keeps.mk', ← State.count_keeps]

theorem State.departBytes_keeps {s0 : State} {s : State} (h_s : Keeps s0 s) (d : Nat) (f : Frame) :
        Keeps s0 (State.departBytes s d f).1 := by
  unfold State.departBytes
  grind [← Keeps.foldl, ← Keeps.foldl1, ← Keeps.mk', ← State.sprayHdr_keeps, ← State.transparent_keeps, ← State.raise_keeps, ←
    State.count_keeps]

theorem State.chargeCredit_keeps {s0 : State} {s : State} (h_s : Keeps s0 s) (b : Nat) (vc : Nat) (n : Nat) :
        Keeps s0 (State.chargeCredit s b vc n).1 := by
  unfold State.chargeCredit
  grind [← Keeps.foldl, ← Keeps.foldl1, ← Keeps.mk', ← State.setBlock_keeps]

theorem State.heavyCount_keeps {s0 : State} {s : State} (h_s : Keeps s0 s) (d : Nat) (h : Nat) (len : Nat) :
        Keeps s0 (State.heavyCount s d h len) := by
  unfold State.heavyCount
  grind [← Keeps.foldl, ← Keeps.foldl1, ← Keeps.mk']

theorem State.depart_keeps {s0 : State} {s : State} (h_s : Keeps s0 s) (x : Chosen) (logged : Option (Nat × Nat)) :
        Keeps s0 (State.depart s x logged) := by
  unfold State.depart
  repeat' split
  all_goals grind (splits := 20) (gen := 20) (ematch := 20) [← Keeps.foldl, ← Keeps.foldl1, ← Keeps.mk', ← State.departQueue_keeps,
    ← State.takeTokens_keeps, ← State.markHead_keeps, ← State.departBytes_keeps, ← State.chargeCredit_keeps, ←
    State.heavyCount_keeps, ← State.holdCount_keeps, ← State.vcCount_keeps, ← State.logAppend_keeps, ← State.modEp_keeps]

theorem State.tellPeer_keeps {s0 : State} {s : State} (h_s : Keeps s0 s) (d : Nat) :
        Keeps s0 (State.tellPeer s d) := by
  unfold State.tellPeer
  grind [← Keeps.foldl, ← Keeps.foldl1, ← Keeps.mk', ← State.sendIdle_keeps]

theorem State.departureStart_keeps {s0 : State} {s : State} (h_s : Keeps s0 s) (d : Nat) :
        Keeps s0 (State.departureStart s d) := by
  unfold State.departureStart
  repeat' split
  all_goals grind (splits := 20) (gen := 20) (ematch := 20) [← Keeps.foldl, ← Keeps.foldl1, ← Keeps.mk', ← State.unchoose_keeps,
    State.logRoom_keeps, ← State.depart_keeps, ← State.tellPeer_keeps]

theorem State.nearUe_keeps {s0 : State} {s : State} (h_s : Keeps s0 s) (g : Nat) (k : Nat) :
        Keeps s0 (State.nearUe s g k) := by
  unfold State.nearUe
  grind [← Keeps.foldl, ← Keeps.foldl1, ← Keeps.mk', ← State.raise_keeps, ← State.setBank_keeps, ← State.fenceBank_keeps]

theorem State.checkRead_keeps {s0 : State} {s : State} (h_s : Keeps s0 s) (id : Nat) (g : Nat) (bank : Nat) (ecc : Nat) (crcOk :
    Bool) :
        Keeps s0 (State.checkRead s id g bank ecc crcOk) := by
  unfold State.checkRead
  grind [← Keeps.foldl, ← Keeps.foldl1, ← Keeps.mk', ← State.nearUe_keeps, ← State.raise_keeps, ← State.poisonCopy_keeps, ←
    State.countPoison_keeps]

theorem State.departEnd_keeps {s0 : State} {s : State} (h_s : Keeps s0 s) (d : Nat) (x : Departing) :
        Keeps s0 (State.departEnd s d x) := by
  unfold State.departEnd
  repeat' split
  all_goals grind (splits := 20) (gen := 20) (ematch := 20) [← Keeps.foldl, ← Keeps.foldl1, ← Keeps.mk', ← State.raise_keeps, ←
    State.count_keeps, ← State.emit_keeps, ← State.sendFrameFlits_keeps, ← State.transmit_keeps, ← State.tally_keeps, ←
    State.unlink_keeps, ← State.modEp_keeps, ← State.flockQuiet_keeps, ← State.ingress_keeps]

theorem State.readDepart_keeps {s0 : State} {s : State} (h_s : Keeps s0 s) (d : Nat) (bank : Nat) (ecc : Nat) (crcOk : Bool) :
        Keeps s0 (State.readDepart s d bank ecc crcOk) := by
  unfold State.readDepart
  grind [← Keeps.foldl, ← Keeps.foldl1, ← Keeps.mk', ← State.checkRead_keeps, ← State.cutCells_keeps, ← State.uncharge_keeps, ←
    State.modEp_keeps, ← State.freeCells_keeps, ← State.departEnd_keeps]

theorem State.readEvict_keeps {s0 : State} {s : State} (h_s : Keeps s0 s) (qid : Nat) (i : Nat) (bank : Nat) (ecc : Nat) (crcOk :
    Bool) :
        Keeps s0 (State.readEvict s qid i bank ecc crcOk) := by
  unfold State.readEvict
  grind [← Keeps.foldl, ← Keeps.foldl1, ← Keeps.mk', ← State.checkRead_keeps]

theorem State.readTransfer_keeps {s0 : State} {s : State} (h_s : Keeps s0 s) (id : Nat) (bank : Nat) (ecc : Nat) (crcOk : Bool) :
        Keeps s0 (State.readTransfer s id bank ecc crcOk) := by
  unfold State.readTransfer
  grind [← Keeps.foldl, ← Keeps.foldl1, ← Keeps.mk', ← State.checkRead_keeps, ← State.setCopy_keeps, ← State.inputSweep_keeps]

theorem execCellRead_keeps {s0 : State} (use : CellUse) (crcOk : Bool) (ecc : Fin 3) (bank : Fin 12) {s : State} (h_s : Keeps s0 s)
    :
        ∀ t_, execCellRead use crcOk ecc bank s = .next t_ → Keeps s0 t_ := by
  unfold execCellRead
  grind [← Keeps.foldl, ← Keeps.foldl1, ← Keeps.mk', live, ← State.readDepart_keeps, ← State.readEvict_keeps, ←
    State.readTransfer_keeps]

theorem State.rr0_keeps {s0 : State} {s : State} (h_s : Keeps s0 s) (d : Nat) (lvl : Nat) (e : List (Nat × Nat)) :
        Keeps s0 (State.rr0 s d lvl e).1 := by
  unfold State.rr0
  grind [← Keeps.foldl, ← Keeps.foldl1, ← Keeps.mk', ← State.modEp_keeps]

theorem State.drrLoop_keeps {s0 : State} {s : State} (h_s : Keeps s0 s) (d : Nat) (lvl : Nat) (w : List (Nat × Nat)) (q : Nat) (x5 :
    Nat) :
        Keeps s0 (State.drrLoop s d lvl w q x5).1 := by
  induction x5 generalizing s q with
  | zero => exact h_s
  | succ n ih =>
    unfold State.drrLoop
    extract_lets q
    split
    · exact ih h_s _
    · split
      · exact (h_s.mk' _ _ _ _ _ _ _ _ _ _ _ _ _ _).mk' _ _ _ _ _ _ _ _ _ _ _ _ _ _
      · exact ih (h_s.mk' _ _ _ _ _ _ _ _ _ _ _ _ _ _) _

theorem State.drr_keeps {s0 : State} {s : State} (h_s : Keeps s0 s) (d : Nat) (lvl : Nat) (w : List (Nat × Nat)) :
        Keeps s0 (State.drr s d lvl w).1 := by
  unfold State.drr
  grind [← Keeps.foldl, ← Keeps.foldl1, ← Keeps.mk', ← State.modEq_keeps, ← State.drrLoop_keeps]

theorem State.nextFrame_keeps {s0 : State} {s : State} (h_s : Keeps s0 s) (d : Nat) (e : List (Nat × Nat)) (x3 : Nat) :
        Keeps s0 (State.nextFrame s d e x3).1 := by
  induction x3 generalizing s with
  | zero => exact h_s
  | succ n ih =>
    unfold State.nextFrame
    extract_lets here w
    split
    · exact State.drr_keeps h_s _ _ _
    · split
      · exact State.rr0_keeps h_s _ _ _
      · exact ih h_s

theorem execQrecRingWriteFault_keeps {s0 : State} {s : State} (h_s : Keeps s0 s) :
        ∀ t_, execQrecRingWriteFault s = .next t_ → Keeps s0 t_ := by
  unfold execQrecRingWriteFault
  grind [← Keeps.foldl, ← Keeps.foldl1, ← Keeps.mk', live, ← State.raise_keeps, ← State.setOb_keeps]

theorem State.qrecLate_keeps {s0 : State} {s : State} (h_s : Keeps s0 s) :
        Keeps s0 (State.qrecLate s) := by
  unfold State.qrecLate
  grind [← Keeps.foldl, ← Keeps.foldl1, ← Keeps.mk', ← State.hbmWrite_keeps]

theorem State.refillAll_keeps {s0 : State} {s : State} (h_s : Keeps s0 s) :
        Keeps s0 (State.refillAll s) := by
  unfold State.refillAll
  grind [← Keeps.foldl, ← Keeps.foldl1, ← Keeps.mk', ← State.modEq_keeps, ← State.modEp_keeps]

theorem execTokenBucketRefill_keeps {s0 : State} {s : State} (h_s : Keeps s0 s) :
        ∀ t_, execTokenBucketRefill s = .next t_ → Keeps s0 t_ := by
  unfold execTokenBucketRefill
  grind [← Keeps.foldl, ← Keeps.foldl1, ← Keeps.mk', live, ← State.refillAll_keeps]

theorem execMusterLogEntryAccepted_keeps {s0 : State} (d : Fin 1040) {s : State} (h_s : Keeps s0 s) :
        ∀ t_, execMusterLogEntryAccepted d s = .next t_ → Keeps s0 t_ := by
  unfold execMusterLogEntryAccepted
  grind [← Keeps.foldl, ← Keeps.foldl1, ← Keeps.mk', live, ← State.modEp_keeps]

theorem State.pfcReceive_keeps {s0 : State} {s : State} (h_s : Keeps s0 s) (port : Nat) (enable : Nat) (quanta : Nat) :
        Keeps s0 (State.pfcReceive s port enable quanta) := by
  unfold State.pfcReceive
  grind [← Keeps.foldl, ← Keeps.foldl1, ← Keeps.mk', ← State.count_keeps, ← State.pauseEnd_keeps, ← State.modEq_keeps]

theorem execPfcFrameReceive_keeps {s0 : State} (port : Fin 1024) (enable : BitVec 8) (quanta : BitVec 128) {s : State} (h_s : Keeps
    s0 s) :
        ∀ t_, execPfcFrameReceive port enable quanta s = .next t_ → Keeps s0 t_ := by
  unfold execPfcFrameReceive
  grind [← Keeps.foldl, ← Keeps.foldl1, ← Keeps.mk', live, ← State.pfcReceive_keeps]

theorem execFrameDepartureStart_keeps {s0 : State} (d : Fin 1040) {s : State} (h_s : Keeps s0 s) :
        ∀ t_, execFrameDepartureStart d s = .next t_ → Keeps s0 t_ := by
  unfold execFrameDepartureStart
  grind [← Keeps.foldl, ← Keeps.foldl1, ← Keeps.mk', live, ← State.departureStart_keeps]

theorem execPfcXoffRepeat_keeps {s0 : State} (port : Fin 1024) (prio : Fin 8) {s : State} (h_s : Keeps s0 s) :
        ∀ t_, execPfcXoffRepeat port prio s = .next t_ → Keeps s0 t_ := by
  unfold execPfcXoffRepeat
  grind [← Keeps.foldl, ← Keeps.foldl1, ← Keeps.mk', live, ← State.advanceTo_keeps, ← State.tally_keeps, ← State.transmit_keeps, ←
    State.modEp_keeps]

theorem execPfcPauseExpire_keeps {s0 : State} (qid : Fin 12480) {s : State} (h_s : Keeps s0 s) :
        ∀ t_, execPfcPauseExpire qid s = .next t_ → Keeps s0 t_ := by
  unfold execPfcPauseExpire
  grind [← Keeps.foldl, ← Keeps.foldl1, ← Keeps.mk', live, ← State.pauseEnd_keeps, ← State.advanceTo_keeps]

theorem execBellSlotOpen_keeps {s0 : State} {s : State} (h_s : Keeps s0 s) :
        ∀ t_, execBellSlotOpen s = .next t_ → Keeps s0 t_ := by
  unfold execBellSlotOpen
  grind [← Keeps.foldl, ← Keeps.foldl1, ← Keeps.mk', live, ← State.advanceDev_keeps]

theorem execPfcWatchdogExpire_keeps {s0 : State} (qid : Fin 12480) {s : State} (h_s : Keeps s0 s) :
        ∀ t_, execPfcWatchdogExpire qid s = .next t_ → Keeps s0 t_ := by
  unfold execPfcWatchdogExpire
  grind [← Keeps.foldl, ← Keeps.foldl1, ← Keeps.mk', live, ← State.advanceTo_keeps, ← State.raise_keeps, ← State.count_keeps, ←
    State.modEq_keeps]

theorem State.choose_keeps {s0 : State} {s : State} (h_s : Keeps s0 s) (qid : Nat) :
        Keeps s0 (State.choose s qid) := by
  unfold State.choose
  grind [← Keeps.foldl, ← Keeps.foldl1, ← Keeps.mk', ← State.modEp_keeps]

theorem State.select_keeps {s0 : State} {s : State} (h_s : Keeps s0 s) (d : Nat) :
        Keeps s0 (State.select s d) := by
  unfold State.select
  repeat' split
  all_goals grind (splits := 20) (gen := 20) (ematch := 20) [← Keeps.foldl, ← Keeps.foldl1, ← Keeps.mk', ← State.headDrops_keeps, ←
    State.nextFrame_keeps, ← State.choose_keeps, ← State.raise_keeps, ← State.count_keeps, ← State.modEq_keeps]

theorem execEgressSelect_keeps {s0 : State} (d : Fin 1040) {s : State} (h_s : Keeps s0 s) :
        ∀ t_, execEgressSelect d s = .next t_ → Keeps s0 t_ := by
  unfold execEgressSelect
  grind [← Keeps.foldl, ← Keeps.foldl1, ← Keeps.mk', live, ← State.select_keeps]

end Sys2Proof.Machine
end

