-- ==== Sys2Proof/Laws/Keeps3.lean ====
section
/-!
SUPPORT. What the operations of Links, Forwarding keep (`Keeps`), one lemma per operation.
-/

namespace Sys2Proof.Machine

set_option Elab.async false

/-! ### Links -/

theorem State.takeCredit_keeps {s0 : State} {s : State} (h_s : Keeps s0 s) (b : Nat) (field : Nat) :
        ∀ t_, State.takeCredit s b field = some t_ → Keeps s0 t_ := by
  unfold State.takeCredit
  grind [← Keeps.foldl, ← Keeps.foldl1, ← Keeps.mk', ← State.setBlock_keeps]

theorem State.creditError_keeps {s0 : State} {s : State} (h_s : Keeps s0 s) (b : Nat) :
        Keeps s0 (State.creditError s b) := by
  unfold State.creditError
  grind [← Keeps.foldl, ← Keeps.foldl1, ← Keeps.mk', ← State.linkReset_keeps, ← State.portErr_keeps, ← State.portCount_keeps]

theorem State.quiesceDone_keeps {s0 : State} {s : State} (h_s : Keeps s0 s) (b : Nat) :
        Keeps s0 (State.quiesceDone s b) := by
  unfold State.quiesceDone
  grind [← Keeps.foldl, ← Keeps.foldl1, ← Keeps.mk', ← State.modBlock_keeps, ← State.restartWait_keeps, ← State.setPortState_keeps]

theorem State.resend_keeps {s0 : State} {s : State} (h_s : Keeps s0 s) (b : Nat) :
        Keeps s0 (State.resend s b) := by
  unfold State.resend
  grind [← Keeps.foldl, ← Keeps.foldl1, ← Keeps.mk', ← State.tally_keeps, ← State.transmit_keeps]

theorem State.replayLink_keeps {s0 : State} {s : State} (h_s : Keeps s0 s) (b : Nat) :
        Keeps s0 (State.replayLink s b) := by
  unfold State.replayLink
  grind [← Keeps.foldl, ← Keeps.foldl1, ← Keeps.mk', ← State.linkHold_keeps, ← State.portErr_keeps, ← State.resend_keeps, ←
    State.setBlock_keeps, ← State.portCount_keeps]

theorem State.takeAck_keeps {s0 : State} {s : State} (h_s : Keeps s0 s) (b : Nat) (ack : Nat) (nak : Bool) :
        Keeps s0 (State.takeAck s b ack nak) := by
  unfold State.takeAck
  grind [← Keeps.foldl, ← Keeps.foldl1, ← Keeps.mk', ← State.setBlock_keeps, ← State.sendIdle_keeps, ← State.replayLink_keeps]

theorem State.frameArrives_keeps {s0 : State} {s : State} (h_s : Keeps s0 s) (b : Nat) (bytes : List Byte) (shared : Bool) :
        Keeps s0 (State.frameArrives s b bytes shared) := by
  unfold State.frameArrives
  grind [← Keeps.foldl, ← Keeps.foldl1, ← Keeps.mk', ← State.creditError_keeps, ← State.ingress_keeps, ← State.setBlock_keeps]

theorem State.chunk_keeps {s0 : State} {s : State} (h_s : Keeps s0 s) (b : Nat) (c : List Byte) (start : Bool) (shared : Bool) :
        Keeps s0 (State.chunk s b c start shared) := by
  unfold State.chunk
  grind [← Keeps.foldl, ← Keeps.foldl1, ← Keeps.mk', ← State.frameArrives_keeps, ← State.setBlock_keeps]

theorem State.chunks_keeps {s0 : State} {s : State} (h_s : Keeps s0 s) (b : Nat) (start : Nat) (shared : Nat) (payload : List Byte)
    :
        Keeps s0 (State.chunks s b start shared payload) := by
  unfold State.chunks
  grind [← Keeps.foldl, ← Keeps.foldl1, ← Keeps.mk', ← State.chunk_keeps]

theorem State.flitDeliver_keeps {s0 : State} {s : State} (h_s : Keeps s0 s) (b : Nat) (h : Nat) (payload : List Byte) :
        Keeps s0 (State.flitDeliver s b h payload) := by
  unfold State.flitDeliver
  extract_lets s1
  have k1 : Keeps s0 s1 := State.modBlock_keeps h_s _ _
  split
  · exact State.creditError_keeps k1 _
  · rename_i t e
    have k2 := State.takeCredit_keeps k1 _ _ _ e
    split
    · exact State.creditError_keeps k2 _
    · rename_i u e'
      exact State.quiesceDone_keeps (State.takeAck_keeps (State.chunks_keeps (State.takeCredit_keeps k2 _ _ _ e') _ _ _ _) _ _ _) _

theorem State.skewRun_keeps {s0 : State} {s : State} (h_s : Keeps s0 s) (b : Nat) (x2 : Nat) :
        Keeps s0 (State.skewRun s b x2) := by
  induction x2 generalizing s with
  | zero => exact h_s
  | succ n ih =>
    unfold State.skewRun
    extract_lets x
    split
    · extract_lets s1
      have k1 : Keeps s0 s1 := State.setBlock_keeps h_s _ _
      split
      · exact ih (State.flitDeliver_keeps k1 _ _ _)
      · exact k1
    · exact h_s

theorem State.disarm_keeps {s0 : State} {s : State} (h_s : Keeps s0 s) (b : Nat) :
        Keeps s0 (State.disarm s b) := by
  unfold State.disarm
  grind [← Keeps.foldl, ← Keeps.foldl1, ← Keeps.mk', ← State.modBlock_keeps]

theorem State.setModl_keeps {s0 : State} {s : State} (h_s : Keeps s0 s) (b : Nat) (i : Nat) (x : Module) :
        Keeps s0 (State.setModl s b i x) := by
  unfold State.setModl
  grind [← Keeps.foldl, ← Keeps.foldl1, ← Keeps.mk', ← State.modBlock_keeps]

theorem State.writePollMs_keeps {s0 : State} {s : State} (h_s : Keeps s0 s) (b : Nat) (v : Nat) :
        Keeps s0 (State.writePollMs s b v).1 := by
  unfold State.writePollMs
  grind [← Keeps.foldl, ← Keeps.foldl1, ← Keeps.mk', ← State.setOb_keeps, ← State.setModl_keeps]

theorem State.writeHpWindow_keeps {s0 : State} {s : State} (h_s : Keeps s0 s) (v : Nat) :
        Keeps s0 (State.writeHpWindow s v).1 := by
  unfold State.writeHpWindow
  grind [← Keeps.foldl, ← Keeps.foldl1, ← Keeps.mk', ← State.setOb_keeps]

theorem State.heavyReport_keeps {s0 : State} {s : State} (h_s : Keeps s0 s) :
        Keeps s0 (State.heavyReport s) := by
  unfold State.heavyReport
  grind [← Keeps.foldl, ← Keeps.foldl1, ← Keeps.mk', ← State.setRow_keeps, ← State.count_keeps, ← State.event_keeps]

theorem State.heavyClose_keeps {s0 : State} {s : State} (h_s : Keeps s0 s) :
        Keeps s0 (State.heavyClose s) := by
  unfold State.heavyClose
  grind [← Keeps.foldl, ← Keeps.foldl1, ← Keeps.mk', ← State.heavyReport_keeps]

theorem State.flockRetrain_keeps {s0 : State} {s : State} (h_s : Keeps s0 s) (p : Nat) :
        Keeps s0 (State.flockRetrain s p) := by
  unfold State.flockRetrain
  grind [← Keeps.foldl, ← Keeps.foldl1, ← Keeps.mk', ← State.cutDeparture_keeps, ← State.flockDown_keeps, ← State.portCount_keeps]

theorem State.retrain_keeps {s0 : State} {s : State} (h_s : Keeps s0 s) (b : Nat) (v : Nat) :
        Keeps s0 (State.retrain s b v).1 := by
  unfold State.retrain
  grind [← Keeps.foldl, ← Keeps.foldl1, ← Keeps.mk', ← State.quiesceDone_keeps, ← State.modBlock_keeps, ← State.setPortState_keeps,
    ← State.linkReset_keeps, ← State.flockQuiet_keeps, ← State.flockRetrain_keeps]

theorem State.arm_keeps {s0 : State} {s : State} (h_s : Keeps s0 s) (b : Nat) :
        Keeps s0 (State.arm s b).1 := by
  unfold State.arm
  grind [← Keeps.foldl, ← Keeps.foldl1, ← Keeps.mk', ← State.raise_keeps, ← State.linkReset_keeps, ← State.count_keeps, ←
    State.modBlock_keeps]

theorem State.presetOp_keeps {s0 : State} {s : State} (h_s : Keeps s0 s) (op : Nat) (b : Nat) (slot : Nat) :
        Keeps s0 (State.presetOp s op b slot).1 := by
  unfold State.presetOp
  grind [← Keeps.foldl, ← Keeps.foldl1, ← Keeps.mk', ← State.setOb_keeps, ← State.setRow_keeps]

theorem State.moduleAbsent_keeps {s0 : State} {s : State} (h_s : Keeps s0 s) (b : Nat) (i : Nat) :
        Keeps s0 (State.moduleAbsent s b i) := by
  unfold State.moduleAbsent
  grind [← Keeps.foldl, ← Keeps.foldl1, ← Keeps.mk', ← State.setOb_keeps, ← State.setModl_keeps, ← State.portErr_keeps, ←
    State.linkHold_keeps]

theorem State.busFree_keeps {s0 : State} {s : State} (h_s : Keeps s0 s) (bus : Nat) :
        Keeps s0 (State.busFree s bus) := by
  unfold State.busFree
  grind [← Keeps.foldl, ← Keeps.foldl1, ← Keeps.mk', ← State.emit_keeps]

theorem State.modAccess_keeps {s0 : State} {s : State} (h_s : Keeps s0 s) (b : Nat) (i : Nat) (k : Nat) :
        Keeps s0 (State.modAccess s b i k) := by
  unfold State.modAccess
  grind [← Keeps.foldl, ← Keeps.foldl1, ← Keeps.mk', ← State.emit_keeps, ← State.busFree_keeps]

theorem State.moduleNoApp_keeps {s0 : State} {s : State} (h_s : Keeps s0 s) (b : Nat) (i : Nat) :
        Keeps s0 (State.moduleNoApp s b i) := by
  unfold State.moduleNoApp
  grind [← Keeps.foldl, ← Keeps.foldl1, ← Keeps.mk', ← State.setModl_keeps, ← State.portErr_keeps, ← State.modAccess_keeps]

theorem State.moduleRun_keeps {s0 : State} {s : State} (h_s : Keeps s0 s) (b : Nat) (i : Nat) :
        Keeps s0 (State.moduleRun s b i) := by
  unfold State.moduleRun
  grind [← Keeps.foldl, ← Keeps.foldl1, ← Keeps.mk', ← State.modAccess_keeps, ← State.setOb_keeps, ← State.setModl_keeps]

theorem State.moduleStart_keeps {s0 : State} {s : State} (h_s : Keeps s0 s) (b : Nat) (i : Nat) (a : ModuleAnswer) :
        Keeps s0 (State.moduleStart s b i a) := by
  unfold State.moduleStart
  grind [← Keeps.foldl, ← Keeps.foldl1, ← Keeps.mk', ← State.moduleAbsent_keeps, ← State.modAccess_keeps, ← State.moduleNoApp_keeps,
     ← State.moduleRun_keeps]

theorem execPortRetrainQuiesce_keeps {s0 : State} (who : Path) (b : Fin 128) {s : State} (h_s : Keeps s0 s) :
        ∀ t_, execPortRetrainQuiesce who b s = .next t_ → Keeps s0 t_ := by
  unfold execPortRetrainQuiesce
  grind [← Keeps.foldl, ← Keeps.foldl1, ← Keeps.mk', ← State.access_keeps, ← State.retrain_keeps, Keeps1]

theorem State.loadCredits_keeps {s0 : State} {s : State} (h_s : Keeps s0 s) (b : Nat) (rec : Nat) :
        Keeps s0 (State.loadCredits s b rec) := by
  unfold State.loadCredits
  grind [← Keeps.foldl, ← Keeps.foldl1, ← Keeps.mk', ← State.setOb_keeps, ← State.modBlock_keeps]

theorem State.linkCheck_keeps {s0 : State} {s : State} (h_s : Keeps s0 s) (b : Nat) (rec : Nat) :
        Keeps s0 (State.linkCheck s b rec).1 := by
  unfold State.linkCheck
  grind [← Keeps.foldl, ← Keeps.foldl1, ← Keeps.mk', ← State.raise_keeps, ← State.count_keeps]

theorem State.presetStore_keeps {s0 : State} {s : State} (h_s : Keeps s0 s) (b : Nat) (rec : Nat) :
        Keeps s0 (State.presetStore s b rec) := by
  unfold State.presetStore
  grind [← Keeps.foldl, ← Keeps.foldl1, ← Keeps.mk', ← State.raise_keeps, ← State.count_keeps, ← State.setRow_keeps]

theorem State.helloUp_keeps {s0 : State} {s : State} (h_s : Keeps s0 s) (b : Nat) (rec : Nat) :
        Keeps s0 (State.helloUp s b rec) := by
  unfold State.helloUp
  repeat' split
  all_goals grind (splits := 20) (gen := 20) (ematch := 20) [← Keeps.foldl, ← Keeps.foldl1, ← Keeps.mk', ← State.modBlock_keeps, ←
    State.resend_keeps, ← State.portCount_keeps, ← State.loadCredits_keeps, ← State.linkCheck_keeps, ← State.count_keeps, ←
    State.setPortState_keeps, ← State.portErr_keeps, ← State.disarm_keeps, ← State.presetStore_keeps]

theorem execQuiesceTimeout_keeps {s0 : State} (b : Fin 128) {s : State} (h_s : Keeps s0 s) :
        ∀ t_, execQuiesceTimeout b s = .next t_ → Keeps s0 t_ := by
  unfold execQuiesceTimeout
  grind [← Keeps.foldl, ← Keeps.foldl1, ← Keeps.mk', live, ← State.linkReset_keeps, ← State.advanceTo_keeps]

theorem execModulePoll_keeps {s0 : State} (b : Fin 128) (i : Fin 2) (answer : Option (BitVec 13)) {s : State} (h_s : Keeps s0 s) :
        ∀ t_, execModulePoll b i answer s = .next t_ → Keeps s0 t_ := by
  unfold execModulePoll
  grind [← Keeps.foldl, ← Keeps.foldl1, ← Keeps.mk', live, ← State.modAccess_keeps, ← State.advanceTo_keeps, ← State.setModl_keeps,
    ← State.setOb_keeps, ← State.moduleAbsent_keeps]

theorem State.flitNak_keeps {s0 : State} {s : State} (h_s : Keeps s0 s) (b : Nat) :
        Keeps s0 (State.flitNak s b) := by
  unfold State.flitNak
  grind [← Keeps.foldl, ← Keeps.foldl1, ← Keeps.mk', ← State.sendIdle_keeps, ← State.modBlock_keeps]

theorem execLossOfSignal_keeps {s0 : State} (b : Fin 128) (lane : Fin 8) {s : State} (h_s : Keeps s0 s) :
        ∀ t_, execLossOfSignal b lane s = .next t_ → Keeps s0 t_ := by
  unfold execLossOfSignal
  grind [← Keeps.foldl, ← Keeps.foldl1, ← Keeps.mk', live, ← State.modBlock_keeps, ← State.portErr_keeps, ← State.linkReset_keeps, ←
     State.linkHold_keeps, ← State.setPortState_keeps, ← State.restartWait_keeps]

theorem execModuleDataPathActivated_keeps {s0 : State} (b : Fin 128) (i : Fin 2) (state : BitVec 11) {s : State} (h_s : Keeps s0 s)
    :
        ∀ t_, execModuleDataPathActivated b i state s = .next t_ → Keeps s0 t_ := by
  unfold execModuleDataPathActivated
  grind [← Keeps.foldl, ← Keeps.foldl1, ← Keeps.mk', live, ← State.setOb_keeps, ← State.setModl_keeps]

theorem State.flitAhead_keeps {s0 : State} {s : State} (h_s : Keeps s0 s) (b : Nat) (h : Nat) (payload : List Byte) (d : Nat) :
        Keeps s0 (State.flitAhead s b h payload d) := by
  unfold State.flitAhead
  grind [← Keeps.foldl, ← Keeps.foldl1, ← Keeps.mk', ← State.flitNak_keeps, ← State.setBlock_keeps]

theorem State.advertise_keeps {s0 : State} {s : State} (h_s : Keeps s0 s) (b : Nat) :
        Keeps s0 (State.advertise s b) := by
  unfold State.advertise
  grind [← Keeps.foldl, ← Keeps.foldl1, ← Keeps.mk', ← State.modBlock_keeps]

theorem State.helloSend_keeps {s0 : State} {s : State} (h_s : Keeps s0 s) (b : Nat) :
        Keeps s0 (State.helloSend s b) := by
  unfold State.helloSend
  grind [← Keeps.foldl, ← Keeps.foldl1, ← Keeps.mk', ← State.advertise_keeps, ← State.transmit_keeps, ← State.modBlock_keeps]

theorem execModuleReadyTimeout_keeps {s0 : State} (b : Fin 128) (i : Fin 2) {s : State} (h_s : Keeps s0 s) :
        ∀ t_, execModuleReadyTimeout b i s = .next t_ → Keeps s0 t_ := by
  unfold execModuleReadyTimeout
  grind [← Keeps.foldl, ← Keeps.foldl1, ← Keeps.mk', live, ← State.setModl_keeps, ← State.advanceTo_keeps]

theorem State.countFec_keeps {s0 : State} {s : State} (h_s : Keeps s0 s) (b : Nat) (errs : Nat) :
        Keeps s0 (State.countFec s b errs) := by
  unfold State.countFec
  grind [← Keeps.foldl, ← Keeps.foldl1, ← Keeps.mk', ← State.tally_keeps, ← State.holdCount_keeps, ← State.portCount_keeps]

theorem State.toLock_keeps {s0 : State} {s : State} (h_s : Keeps s0 s) (b : Nat) :
        Keeps s0 (State.toLock s b) := by
  unfold State.toLock
  grind [← Keeps.foldl, ← Keeps.foldl1, ← Keeps.mk', ← State.setPortState_keeps, ← State.modBlock_keeps]

theorem execLaneTrainComplete_keeps {s0 : State} (b : Fin 128) (lane : Fin 8) (snr : BitVec 16) (lanes : BitVec 224) {s : State}
    (h_s : Keeps s0 s) :
        ∀ t_, execLaneTrainComplete b lane snr lanes s = .next t_ → Keeps s0 t_ := by
  unfold execLaneTrainComplete
  grind [← Keeps.foldl, ← Keeps.foldl1, ← Keeps.mk', live, ← State.setRow_keeps, ← State.modBlock_keeps, ← State.toLock_keeps]

theorem execCircPresetDelete_keeps {s0 : State} (who : Path) (b : Fin 128) (slot : Fin 64) {s : State} (h_s : Keeps s0 s) :
        ∀ t_, execCircPresetDelete who b slot s = .next t_ → Keeps s0 t_ := by
  unfold execCircPresetDelete
  grind [← Keeps.foldl, ← Keeps.foldl1, ← Keeps.mk', ← State.access_keeps, ← State.presetOp_keeps, Keeps1]

theorem execCircArm_keeps {s0 : State} (who : Path) (b : Fin 128) {s : State} (h_s : Keeps s0 s) :
        ∀ t_, execCircArm who b s = .next t_ → Keeps s0 t_ := by
  unfold execCircArm
  grind [← Keeps.foldl, ← Keeps.foldl1, ← Keeps.mk', ← State.access_keeps, ← State.arm_keeps, Keeps1]

theorem State.resumeFails_keeps {s0 : State} {s : State} (h_s : Keeps s0 s) (b : Nat) (rec : Nat) :
        Keeps s0 (State.resumeFails s b rec) := by
  unfold State.resumeFails
  grind [← Keeps.foldl, ← Keeps.foldl1, ← Keeps.mk', ← State.setPortState_keeps, ← State.modBlock_keeps, ← State.linkClear_keeps]

theorem State.helloDone_keeps {s0 : State} {s : State} (h_s : Keeps s0 s) (b : Nat) (rec : Nat) :
        Keeps s0 (State.helloDone s b rec) := by
  unfold State.helloDone
  repeat' split
  all_goals grind (splits := 20) (gen := 20) (ematch := 20) [← Keeps.foldl, ← Keeps.foldl1, ← Keeps.mk', ← State.setOb_keeps, ←
    State.resumeFails_keeps, ← State.helloUp_keeps]

theorem State.helloReceive_keeps {s0 : State} {s : State} (h_s : Keeps s0 s) (b : Nat) (rec : Nat) :
        Keeps s0 (State.helloReceive s b rec) := by
  unfold State.helloReceive
  grind [← Keeps.foldl, ← Keeps.foldl1, ← Keeps.mk', ← State.setOb_keeps, ← State.linkReset_keeps, ← State.linkHold_keeps, ←
    State.modBlock_keeps, ← State.helloDone_keeps]

theorem State.flitReceive_keeps {s0 : State} {s : State} (h_s : Keeps s0 s) (b : Nat) (h : Nat) (payload : List Byte) (errs : Nat) :
        Keeps s0 (State.flitReceive s b h payload errs) := by
  have k := State.countFec_keeps h_s b errs
  unfold State.flitReceive
  split
  · exact h_s
  · split
    · exact State.transmit_keeps h_s _ _
    · extract_lets t type d u
      split
      · exact k
      · split
        · exact State.flitNak_keeps (State.portErr_keeps k _ _ _) _
        · split
          · exact State.flitNak_keeps (State.portErr_keeps (State.portCount_keeps k _ _ _) _ _ _) _
          · split
            · exact k
            · split
              · exact State.helloReceive_keeps k _ _
              · split
                · exact State.portCount_keeps k _ _ _
                · split
                  · exact State.skewRun_keeps (State.flitDeliver_keeps k _ _ _) _ _
                  · split
                    · exact State.flitAhead_keeps k _ _ _ _
                    · exact k

theorem execFlockLinkDown_keeps {s0 : State} (port : Fin 1024) {s : State} (h_s : Keeps s0 s) :
        ∀ t_, execFlockLinkDown port s = .next t_ → Keeps s0 t_ := by
  unfold execFlockLinkDown
  grind [← Keeps.foldl, ← Keeps.foldl1, ← Keeps.mk', live, ← State.flockDown_keeps]

theorem execBringupTimeout_keeps {s0 : State} (b : Fin 128) {s : State} (h_s : Keeps s0 s) :
        ∀ t_, execBringupTimeout b s = .next t_ → Keeps s0 t_ := by
  unfold execBringupTimeout
  grind [← Keeps.foldl, ← Keeps.foldl1, ← Keeps.mk', live, ← State.portErr_keeps, ← State.portCount_keeps, ← State.advanceTo_keeps,
    ← State.setPortState_keeps, ← State.restartWait_keeps]

theorem execHelloReceive_keeps {s0 : State} (b : Fin 128) (rec : BitVec 1024) {s : State} (h_s : Keeps s0 s) :
        ∀ t_, execHelloReceive b rec s = .next t_ → Keeps s0 t_ := by
  unfold execHelloReceive
  grind [← Keeps.foldl, ← Keeps.foldl1, ← Keeps.mk', live, ← State.helloReceive_keeps]

theorem execModulePathWrite_keeps {s0 : State} (who : Path) (b : Fin 128) (i : Fin 2) (v : BitVec 32) (a : ModuleAnswer) {s : State}
    (h_s : Keeps s0 s) :
        ∀ t_, execModulePathWrite who b i v a s = .next t_ → Keeps s0 t_ := by
  unfold execModulePathWrite
  grind [← Keeps.foldl, ← Keeps.foldl1, ← Keeps.mk', ← State.access_keeps, ← okay_keeps, ← State.setOb_keeps, ←
    State.moduleStart_keeps, ← State.setModl_keeps, Keeps1]

theorem execCodewordLock_keeps {s0 : State} (b : Fin 128) (lane : Fin 8) (skewOk : Bool) {s : State} (h_s : Keeps s0 s) :
        ∀ t_, execCodewordLock b lane skewOk s = .next t_ → Keeps s0 t_ := by
  unfold execCodewordLock
  grind [← Keeps.foldl, ← Keeps.foldl1, ← Keeps.mk', live, ← State.modBlock_keeps, ← State.setPortState_keeps, ←
    State.advertise_keeps]

theorem execHelloSend_keeps {s0 : State} (b : Fin 128) {s : State} (h_s : Keeps s0 s) :
        ∀ t_, execHelloSend b s = .next t_ → Keeps s0 t_ := by
  unfold execHelloSend
  grind [← Keeps.foldl, ← Keeps.foldl1, ← Keeps.mk', live, ← State.helloSend_keeps]

theorem execLaneSignalDetect_keeps {s0 : State} (b : Fin 128) (lane : Fin 8) {s : State} (h_s : Keeps s0 s) :
        ∀ t_, execLaneSignalDetect b lane s = .next t_ → Keeps s0 t_ := by
  unfold execLaneSignalDetect
  grind [← Keeps.foldl, ← Keeps.foldl1, ← Keeps.mk', live, ← State.tryTrain_keeps, ← State.modBlock_keeps]

theorem execModuleRetry_keeps {s0 : State} (b : Fin 128) (i : Fin 2) (a : ModuleAnswer) {s : State} (h_s : Keeps s0 s) :
        ∀ t_, execModuleRetry b i a s = .next t_ → Keeps s0 t_ := by
  unfold execModuleRetry
  grind [← Keeps.foldl, ← Keeps.foldl1, ← Keeps.mk', live, ← State.moduleStart_keeps, ← State.advanceTo_keeps]

theorem execFlockHoldExpire_keeps {s0 : State} (port : Fin 1024) {s : State} (h_s : Keeps s0 s) :
        ∀ t_, execFlockHoldExpire port s = .next t_ → Keeps s0 t_ := by
  unfold execFlockHoldExpire
  grind [← Keeps.foldl, ← Keeps.foldl1, ← Keeps.mk', live, ← State.modBlock_keeps, ← State.advanceTo_keeps, ← State.dropPort_keeps,
    ← State.portCount_keeps]

theorem execFlitReceive_keeps {s0 : State} (b : Fin 128) (header : BitVec 160) (payload : List Byte) (errs : BitVec 10) {s : State}
    (h_s : Keeps s0 s) :
        ∀ t_, execFlitReceive b header payload errs s = .next t_ → Keeps s0 t_ := by
  unfold execFlitReceive
  grind [← Keeps.foldl, ← Keeps.foldl1, ← Keeps.mk', live, ← State.flitReceive_keeps]

theorem execHoldExpire_keeps {s0 : State} (b : Fin 128) {s : State} (h_s : Keeps s0 s) :
        ∀ t_, execHoldExpire b s = .next t_ → Keeps s0 t_ := by
  unfold execHoldExpire
  grind [← Keeps.foldl, ← Keeps.foldl1, ← Keeps.mk', live, ← State.linkClear_keeps, ← State.portErr_keeps, ← State.advanceTo_keeps,
    ← State.setPortState_keeps]

theorem execPortRetrainNow_keeps {s0 : State} (who : Path) (b : Fin 128) {s : State} (h_s : Keeps s0 s) :
        ∀ t_, execPortRetrainNow who b s = .next t_ → Keeps s0 t_ := by
  unfold execPortRetrainNow
  grind [← Keeps.foldl, ← Keeps.foldl1, ← Keeps.mk', ← State.access_keeps, ← State.retrain_keeps, Keeps1]

theorem execCircArmTimeout_keeps {s0 : State} (b : Fin 128) {s : State} (h_s : Keeps s0 s) :
        ∀ t_, execCircArmTimeout b s = .next t_ → Keeps s0 t_ := by
  unfold execCircArmTimeout
  grind [← Keeps.foldl, ← Keeps.foldl1, ← Keeps.mk', live, ← State.modBlock_keeps, ← State.disarm_keeps, ← State.advanceTo_keeps, ←
    State.raise_keeps, ← State.count_keeps]

theorem execCircPresetPin_keeps {s0 : State} (who : Path) (b : Fin 128) (slot : Fin 64) {s : State} (h_s : Keeps s0 s) :
        ∀ t_, execCircPresetPin who b slot s = .next t_ → Keeps s0 t_ := by
  unfold execCircPresetPin
  grind [← Keeps.foldl, ← Keeps.foldl1, ← Keeps.mk', ← State.access_keeps, ← State.presetOp_keeps, Keeps1]

theorem execCodewordLockLoss_keeps {s0 : State} (b : Fin 128) (lane : Fin 8) {s : State} (h_s : Keeps s0 s) :
        ∀ t_, execCodewordLockLoss b lane s = .next t_ → Keeps s0 t_ := by
  unfold execCodewordLockLoss
  grind [← Keeps.foldl, ← Keeps.foldl1, ← Keeps.mk', live, ← State.modBlock_keeps, ← State.linkHold_keeps, ←
    State.setPortState_keeps, ← State.restartWait_keeps]

theorem execFlockLinkUp_keeps {s0 : State} (port : Fin 1024) {s : State} (h_s : Keeps s0 s) :
        ∀ t_, execFlockLinkUp port s = .next t_ → Keeps s0 t_ := by
  unfold execFlockLinkUp
  grind [← Keeps.foldl, ← Keeps.foldl1, ← Keeps.mk', live, ← State.modBlock_keeps, ← State.setPortState_keeps]

theorem execHeavyPairWindowClose_keeps {s0 : State} {s : State} (h_s : Keeps s0 s) :
        ∀ t_, execHeavyPairWindowClose s = .next t_ → Keeps s0 t_ := by
  unfold execHeavyPairWindowClose
  grind [← Keeps.foldl, ← Keeps.foldl1, ← Keeps.mk', live, ← State.heavyClose_keeps]

theorem execPresetAdaptDone_keeps {s0 : State} (b : Fin 128) (reached : BitVec 128 × BitVec 1792) {s : State} (h_s : Keeps s0 s)
    :
        ∀ t_, execPresetAdaptDone b reached s = .next t_ → Keeps s0 t_ := by
  unfold execPresetAdaptDone
  grind [← Keeps.foldl, ← Keeps.foldl1, ← Keeps.mk', live, ← State.advanceTo_keeps, ← State.setRow_keeps, ← State.modBlock_keeps, ←
    State.toLock_keeps, ← State.raise_keeps, ← State.count_keeps]

theorem execCircDisarm_keeps {s0 : State} (who : Path) (b : Fin 128) {s : State} (h_s : Keeps s0 s) :
        ∀ t_, execCircDisarm who b s = .next t_ → Keeps s0 t_ := by
  unfold execCircDisarm
  grind [← Keeps.foldl, ← Keeps.foldl1, ← Keeps.mk', ← State.access_keeps, ← okay_keeps, ← State.disarm_keeps, Keeps1]

theorem execCircHpWindowWrite_keeps {s0 : State} (who : Path) (v : BitVec 32) {s : State} (h_s : Keeps s0 s) :
        ∀ t_, execCircHpWindowWrite who v s = .next t_ → Keeps s0 t_ := by
  unfold execCircHpWindowWrite
  grind [← Keeps.foldl, ← Keeps.foldl1, ← Keeps.mk', ← State.access_keeps, ← State.writeHpWindow_keeps, Keeps1]

theorem execCircPresetUnpin_keeps {s0 : State} (who : Path) (b : Fin 128) (slot : Fin 64) {s : State} (h_s : Keeps s0 s) :
        ∀ t_, execCircPresetUnpin who b slot s = .next t_ → Keeps s0 t_ := by
  unfold execCircPresetUnpin
  grind [← Keeps.foldl, ← Keeps.foldl1, ← Keeps.mk', ← State.access_keeps, ← State.presetOp_keeps, Keeps1]

theorem execAckTimeoutReplay_keeps {s0 : State} (b : Fin 128) {s : State} (h_s : Keeps s0 s) :
        ∀ t_, execAckTimeoutReplay b s = .next t_ → Keeps s0 t_ := by
  unfold execAckTimeoutReplay
  grind [← Keeps.foldl, ← Keeps.foldl1, ← Keeps.mk', live, ← State.replayLink_keeps, ← State.advanceTo_keeps]

/-! ### Forwarding -/

theorem State.routeFlip_keeps {s0 : State} {s : State} (h_s : Keeps s0 s) (p : Nat) (n48 : Nat) :
        Keeps s0 (State.routeFlip s p n48).1 := by
  unfold State.routeFlip
  extract_lets b
  clear_value b
  split
  · exact h_s
  · exact h_s.mk' _ _ _ _ _ _ _ _ _ _ _ _ _ _

theorem State.writeAgeShift_keeps {s0 : State} {s : State} (h_s : Keeps s0 s) (v : Nat) :
        Keeps s0 (State.writeAgeShift s v).1 := by
  unfold State.writeAgeShift
  grind [← Keeps.foldl, ← Keeps.foldl1, ← Keeps.mk', ← State.heftRestamp_keeps, ← State.setOb_keeps]

theorem State.fwdRowWrite_keeps {s0 : State} {s : State} (h_s : Keeps s0 s) (oid : Nat) (row : Nat) (v : Nat) :
        Keeps s0 (State.fwdRowWrite s oid row v).1 := by
  unfold State.fwdRowWrite
  grind [← Keeps.foldl, ← Keeps.foldl1, ← Keeps.mk', ← State.setRow_keeps]

theorem State.holdWrite_keeps {s0 : State} {s : State} (h_s : Keeps s0 s) (p : Nat) (v : Nat) :
        Keeps s0 (State.holdWrite s p v).1 := by
  unfold State.holdWrite
  grind [← Keeps.foldl, ← Keeps.foldl1, ← Keeps.mk', ← State.setRow_keeps, ← State.pfcUpdate_keeps, ← State.issueKept_keeps]

theorem State.flipApply_keeps {s0 : State} {s : State} (h_s : Keeps s0 s) (p : Nat) :
        Keeps s0 (State.flipApply s p) := by
  unfold State.flipApply
  grind [← Keeps.foldl, ← Keeps.foldl1, ← Keeps.mk', ← State.setRow_keeps]

theorem State.snapTake_keeps {s0 : State} {s : State} (h_s : Keeps s0 s) (p : Nat) (b : Nat) :
        Keeps s0 (State.snapTake s p b) := by
  unfold State.snapTake
  grind [← Keeps.foldl, ← Keeps.foldl1, ← Keeps.mk', ← State.setRow_keeps]

theorem State.lpmAdd_keeps {s0 : State} {s : State} (h_s : Keeps s0 s) (v6 : Bool) (plen : Nat) (pasture : Nat) (nh : Nat) (pfx :
    Nat) :
        Keeps s0 (State.lpmAdd s v6 plen pasture nh pfx).1 := by
  unfold State.lpmAdd
  grind [← Keeps.foldl, ← Keeps.foldl1, ← Keeps.mk', ← State.raise_keeps]

theorem State.lpmDelete_keeps {s0 : State} {s : State} (h_s : Keeps s0 s) (v6 : Bool) (plen : Nat) (pasture : Nat) (pfx : Nat) :
        Keeps s0 (State.lpmDelete s v6 plen pasture pfx).1 := by
  unfold State.lpmDelete
  grind [← Keeps.foldl, ← Keeps.foldl1, ← Keeps.mk']

theorem State.routeSnap_keeps {s0 : State} {s : State} (h_s : Keeps s0 s) (p : Nat) (n48 : Nat) :
        Keeps s0 (State.routeSnap s p n48).1 := by
  unfold State.routeSnap
  extract_lets b
  clear_value b
  split
  · exact h_s
  · exact (State.setRow_keeps h_s _ _ _).mk' _ _ _ _ _ _ _ _ _ _ _ _ _ _

theorem State.flipCancel_keeps {s0 : State} {s : State} (h_s : Keeps s0 s) (p : Nat) :
        Keeps s0 (State.flipCancel s p).1 := by
  unfold State.flipCancel
  grind [← Keeps.foldl, ← Keeps.foldl1, ← Keeps.mk']

theorem execRouteFailoverClear_keeps {s0 : State} (who : Path) (v : BitVec 32) {s : State} (h_s : Keeps s0 s) :
        ∀ t_, execRouteFailoverClear who v s = .next t_ → Keeps s0 t_ := by
  unfold execRouteFailoverClear
  grind [← Keeps.foldl, ← Keeps.foldl1, ← Keeps.mk', ← State.access_keeps, ← okay_keeps, ← State.setOb_keeps, Keeps1]

theorem execRouteFlip_keeps {s0 : State} (who : Path) (pasture : Fin 4096) (bell : BitVec 48) {s : State} (h_s : Keeps s0 s) :
        ∀ t_, execRouteFlip who pasture bell s = .next t_ → Keeps s0 t_ := by
  have k : ∀ s, Keeps s0 s → Keeps1 s0 (s.routeFlip pasture.val bell.toNat) := fun s h => State.routeFlip_keeps h _ _
  unfold execRouteFlip
  intro t_ e
  cases e
  exact State.access_keeps h_s _ _ _ k

theorem execRouteSnap_keeps {s0 : State} (who : Path) (pasture : Fin 4096) (bell : BitVec 48) {s : State} (h_s : Keeps s0 s) :
        ∀ t_, execRouteSnap who pasture bell s = .next t_ → Keeps s0 t_ := by
  have k : ∀ s, Keeps s0 s → Keeps1 s0 (s.routeSnap pasture.val bell.toNat) := fun s h => State.routeSnap_keeps h _ _
  unfold execRouteSnap
  intro t_ e
  cases e
  exact State.access_keeps h_s _ _ _ k

theorem execRouteHoldWrite_keeps {s0 : State} (who : Path) (pasture : Fin 4096) (v : BitVec 8) {s : State} (h_s : Keeps s0 s) :
        ∀ t_, execRouteHoldWrite who pasture v s = .next t_ → Keeps s0 t_ := by
  unfold execRouteHoldWrite
  grind [← Keeps.foldl, ← Keeps.foldl1, ← Keeps.mk', ← State.access_keeps, ← State.holdWrite_keeps, Keeps1]

theorem State.setFifo_keeps {s0 : State} {s : State} (h_s : Keeps s0 s) (b : Nat) (n : Nat) :
        Keeps s0 (State.setFifo s b n) := by
  unfold State.setFifo
  grind [← Keeps.foldl, ← Keeps.foldl1, ← Keeps.mk', ← State.setBlock_keeps, ← State.pfcUpdateBlock_keeps]

theorem execIngressFrame_keeps {s0 : State} (port : Fin 1024) (bytes : List Byte) (fcsOk : Bool) (fifo : Fin 257) {s : State} (h_s :
    Keeps s0 s) :
        ∀ t_, execIngressFrame port bytes fcsOk fifo s = .next t_ → Keeps s0 t_ := by
  unfold execIngressFrame
  grind [← Keeps.foldl, ← Keeps.foldl1, ← Keeps.mk', live, ← State.transmit_keeps, ← State.ingress_keeps, ← State.setFifo_keeps]

theorem execLpmDelete_keeps {s0 : State} (who : Path) (v6 : Bool) (plen : BitVec 8) (pasture : Fin 4096) (pfx : BitVec 128) {s :
    State} (h_s : Keeps s0 s) :
        ∀ t_, execLpmDelete who v6 plen pasture pfx s = .next t_ → Keeps s0 t_ := by
  unfold execLpmDelete
  grind [← Keeps.foldl, ← Keeps.foldl1, ← Keeps.mk', ← State.access_keeps, ← State.lpmDelete_keeps, Keeps1]

theorem State.heftCmd_keeps {s0 : State} {s : State} (h_s : Keeps s0 s) (who : Path) (opcode : Nat) (mask : Nat) (e : Nat) :
        Keeps s0 (State.heftCmd s who opcode mask e) := by
  unfold State.heftCmd
  grind [← Keeps.foldl, ← Keeps.foldl1, ← Keeps.mk', ← State.access_keeps, State.heftOp_keeps, Keeps1]

theorem execHeftFlushPasture_keeps {s0 : State} (who : Path) (mask : BitVec 4) (pasture : Fin 4096) {s : State} (h_s : Keeps s0 s) :
        ∀ t_, execHeftFlushPasture who mask pasture s = .next t_ → Keeps s0 t_ := by
  unfold execHeftFlushPasture
  grind [← Keeps.foldl, ← Keeps.foldl1, ← Keeps.mk', ← State.heftCmd_keeps]

theorem execHeftAgeShiftWrite_keeps {s0 : State} (who : Path) (v : BitVec 8) {s : State} (h_s : Keeps s0 s) :
        ∀ t_, execHeftAgeShiftWrite who v s = .next t_ → Keeps s0 t_ := by
  unfold execHeftAgeShiftWrite
  grind [← Keeps.foldl, ← Keeps.foldl1, ← Keeps.mk', ← State.access_keeps, ← State.writeAgeShift_keeps, Keeps1]

theorem execRouteSnapTake_keeps {s0 : State} (pasture : Fin 4096) {s : State} (h_s : Keeps s0 s) :
        ∀ t_, execRouteSnapTake pasture s = .next t_ → Keeps s0 t_ := by
  unfold execRouteSnapTake
  grind [← Keeps.foldl, ← Keeps.foldl1, ← Keeps.mk', live, ← State.snapTake_keeps]

theorem execRouteFlipCancel_keeps {s0 : State} (who : Path) (pasture : Fin 4096) {s : State} (h_s : Keeps s0 s) :
        ∀ t_, execRouteFlipCancel who pasture s = .next t_ → Keeps s0 t_ := by
  unfold execRouteFlipCancel
  grind [← Keeps.foldl, ← Keeps.foldl1, ← Keeps.mk', ← State.access_keeps, ← State.flipCancel_keeps, Keeps1]

theorem execRouteFlipApply_keeps {s0 : State} (pasture : Fin 4096) {s : State} (h_s : Keeps s0 s) :
        ∀ t_, execRouteFlipApply pasture s = .next t_ → Keeps s0 t_ := by
  unfold execRouteFlipApply
  grind [← Keeps.foldl, ← Keeps.foldl1, ← Keeps.mk', live, ← State.flipApply_keeps]

theorem execHeftFlushAll_keeps {s0 : State} (who : Path) (mask : BitVec 4) {s : State} (h_s : Keeps s0 s) :
        ∀ t_, execHeftFlushAll who mask s = .next t_ → Keeps s0 t_ := by
  unfold execHeftFlushAll
  grind [← Keeps.foldl, ← Keeps.foldl1, ← Keeps.mk', ← State.heftCmd_keeps]

theorem execReorderTimeout_keeps {s0 : State} (src : Fin 512) (cls : Fin 8) {s : State} (h_s : Keeps s0 s) :
        ∀ t_, execReorderTimeout src cls s = .next t_ → Keeps s0 t_ := by
  unfold execReorderTimeout
  grind [← Keeps.foldl, ← Keeps.foldl1, ← Keeps.mk', live, ← State.advanceTo_keeps, ← State.reorderExpire_keeps]

theorem execLpmAdd_keeps {s0 : State} (who : Path) (v6 : Bool) (plen : BitVec 8) (pasture : Fin 4096) (nh : Fin 65536) (pfx : BitVec
    128) {s : State} (h_s : Keeps s0 s) :
        ∀ t_, execLpmAdd who v6 plen pasture nh pfx s = .next t_ → Keeps s0 t_ := by
  unfold execLpmAdd
  grind [← Keeps.foldl, ← Keeps.foldl1, ← Keeps.mk', ← State.access_keeps, ← State.lpmAdd_keeps, Keeps1]

theorem execHeftInsertStatic_keeps {s0 : State} (who : Path) (mask : BitVec 4) (e : BitVec 128) {s : State} (h_s : Keeps s0 s) :
        ∀ t_, execHeftInsertStatic who mask e s = .next t_ → Keeps s0 t_ := by
  unfold execHeftInsertStatic
  grind [← Keeps.foldl, ← Keeps.foldl1, ← Keeps.mk', ← State.heftCmd_keeps]

theorem execHeftInsert_keeps {s0 : State} (die : Fin 4) {s : State} (h_s : Keeps s0 s) :
        ∀ t_, execHeftInsert die s = .next t_ → Keeps s0 t_ := by
  unfold execHeftInsert
  grind [← Keeps.foldl, ← Keeps.foldl1, ← Keeps.mk', live, ← State.heftLearn_keeps]

theorem execHeftAgeSweep_keeps {s0 : State} (die : Fin 4) {s : State} (h_s : Keeps s0 s) :
        ∀ t_, execHeftAgeSweep die s = .next t_ → Keeps s0 t_ := by
  unfold execHeftAgeSweep
  grind [← Keeps.foldl, ← Keeps.foldl1, ← Keeps.mk', live, ← State.heftSweep_keeps]

theorem execHeftReqPop_keeps {s0 : State} (die : Fin 4) {s : State} (h_s : Keeps s0 s) :
        ∀ t_, execHeftReqPop die s = .next t_ → Keeps s0 t_ := by
  unfold execHeftReqPop
  grind [← Keeps.foldl, ← Keeps.foldl1, ← Keeps.mk', readable, ← State.emit_keeps, ← State.heftPop_keeps]

theorem execHeftDelete_keeps {s0 : State} (who : Path) (mask : BitVec 4) (e : BitVec 128) {s : State} (h_s : Keeps s0 s) :
        ∀ t_, execHeftDelete who mask e s = .next t_ → Keeps s0 t_ := by
  unfold execHeftDelete
  grind [← Keeps.foldl, ← Keeps.foldl1, ← Keeps.mk', ← State.heftCmd_keeps]

theorem execHeftFlushPort_keeps {s0 : State} (who : Path) (mask : BitVec 4) (dev : Fin 512) (port : Fin 1024) {s : State} (h_s :
    Keeps s0 s) :
        ∀ t_, execHeftFlushPort who mask dev port s = .next t_ → Keeps s0 t_ := by
  unfold execHeftFlushPort
  grind [← Keeps.foldl, ← Keeps.foldl1, ← Keeps.mk', ← State.heftCmd_keeps]

theorem execHeftStashRetry_keeps {s0 : State} (who : Path) (mask : BitVec 4) {s : State} (h_s : Keeps s0 s) :
        ∀ t_, execHeftStashRetry who mask s = .next t_ → Keeps s0 t_ := by
  unfold execHeftStashRetry
  grind [← Keeps.foldl, ← Keeps.foldl1, ← Keeps.mk', ← State.heftCmd_keeps]

theorem execForwardingTableWrite_keeps {s0 : State} (who : Path) (table : Fin 6) (row : Nat) (v : BitVec 768) {s : State} (h_s :
    Keeps s0 s) :
        ∀ t_, execForwardingTableWrite who table row v s = .next t_ → Keeps s0 t_ := by
  unfold execForwardingTableWrite
  grind [← Keeps.foldl, ← Keeps.foldl1, ← Keeps.mk', ← State.access_keeps, ← State.fwdRowWrite_keeps, Keeps1]

end Sys2Proof.Machine
end

