-- ==== Sys2Proof/Laws/Keeps4.lean ====
section
/-!
SUPPORT. What the operations of CollOps, Translate, CommonOps, Coll, Rings keep (`Keeps`), one lemma per operation.
-/

namespace Sys2Proof.Machine

set_option Elab.async false

/-! ### CollOps -/

theorem State.setInst_keeps {s0 : State} {s : State} (h_s : Keeps s0 s) (id : Nat) (c : CInst) :
        Keeps s0 (State.setInst s id c) := by
  unfold State.setInst
  grind [← Keeps.foldl, ← Keeps.foldl1, ← Keeps.mk']

theorem State.collPost_keeps {s0 : State} {s : State} (h_s : Keeps s0 s) (id : Nat) (k : Nat) (stage : Nat) (n : Nat) (rmode : Nat)
    (fmt : Nat) (sc : Int) (feeds : List (List Acc)) :
        Keeps s0 (State.collPost s id k stage n rmode fmt sc feeds) := by
  unfold State.collPost
  grind [← Keeps.foldl, ← Keeps.foldl1, ← Keeps.mk', ← State.setInst_keeps]

theorem State.collSend_keeps {s0 : State} {s : State} (h_s : Keeps s0 s) (paddock : Nat) (r : Nat) (op : Nat) (dev : Nat) (srcPort :
    Nat) (h : Nat) (data : PBytes) :
        Keeps s0 (State.collSend s paddock r op dev srcPort h data) := by
  unfold State.collSend
  grind [← Keeps.foldl, ← Keeps.foldl1, ← Keeps.mk', ← State.produce_keeps]

theorem State.collRun_keeps {s0 : State} {s : State} (h_s : Keeps s0 s) (r : Nat) (op : Nat) (ax : Nat) (dir : Nat) (paddock : Nat)
    (srcPort : Nat) (h : Nat) (data : PBytes) :
        Keeps s0 (State.collRun s r op ax dir paddock srcPort h data) := by
  unfold State.collRun
  grind [← Keeps.foldl, ← Keeps.foldl1, ← Keeps.mk', ← State.collSend_keeps]

theorem State.collSpread_keeps {s0 : State} {s : State} (h_s : Keeps s0 s) (r : Nat) (op : Nat) (via : Nat) (dir : Nat) (paddock :
    Nat) (srcPort : Nat) (mk : Nat → Nat) (data : PBytes) :
        Keeps s0 (State.collSpread s r op via dir paddock srcPort mk data) := by
  unfold State.collSpread
  grind [← Keeps.foldl, ← Keeps.foldl1, ← Keeps.mk', ← State.collRun_keeps]

theorem State.collToMember_keeps {s0 : State} {s : State} (h_s : Keeps s0 s) (paddock : Nat) (r : Nat) (op : Nat) (j : Nat) (h :
    Nat) (data : PBytes) :
        Keeps s0 (State.collToMember s paddock r op j h data) := by
  unfold State.collToMember
  grind [← Keeps.foldl, ← Keeps.foldl1, ← Keeps.mk', ← State.penEnter_keeps]

theorem State.collOut_keeps {s0 : State} {s : State} (h_s : Keeps s0 s) (id : Nat) (k : Nat) (j : Nat) (data : PBytes) (rflags :
    Nat) :
        Keeps s0 (State.collOut s id k j data rflags) := by
  unfold State.collOut
  grind [← Keeps.foldl, ← Keeps.foldl1, ← Keeps.mk', ← State.collToMember_keeps]

theorem State.collDeliver_keeps {s0 : State} {s : State} (h_s : Keeps s0 s) (id : Nat) (k : Nat) :
        Keeps s0 (State.collDeliver s id k) := by
  unfold State.collDeliver
  grind [← Keeps.foldl, ← Keeps.foldl1, ← Keeps.mk', ← State.collSpread_keeps, ← State.collOut_keeps, ← State.setInst_keeps]

theorem State.collIssueChunk_keeps {s0 : State} {s : State} (h_s : Keeps s0 s) (id : Nat) (k : Nat) :
        Keeps s0 (State.collIssueChunk s id k) := by
  unfold State.collIssueChunk
  grind [← Keeps.foldl, ← Keeps.foldl1, ← Keeps.mk', ← State.collPost_keeps, ← State.setInst_keeps, ← State.collDeliver_keeps]

theorem State.collGrant_keeps {s0 : State} {s : State} (h_s : Keeps s0 s) (id : Nat) (again : Bool) :
        Keeps s0 (State.collGrant s id again) := by
  unfold State.collGrant
  grind [← Keeps.foldl, ← Keeps.foldl1, ← Keeps.mk', ← State.collToMember_keeps, ← State.setInst_keeps]

theorem State.collNote_keeps {s0 : State} {s : State} (h_s : Keeps s0 s) (row : Nat) (seq : Nat) (code : Nat) :
        Keeps s0 (State.collNote s row seq code) := by
  unfold State.collNote
  dsimp only
  repeat' split
  all_goals grind (splits := 40) (gen := 40) (ematch := 40) [← Keeps.foldl, ← Keeps.foldl1, ← Keeps.mk', ← State.collSend_keeps]

theorem State.sendSteps_keeps {s0 : State} {s : State} (h_s : Keeps s0 s) (id : Nat) (k : Nat) (ax : Nat) :
        Keeps s0 (State.sendSteps s id k ax) := by
  unfold State.sendSteps
  grind [← Keeps.foldl, ← Keeps.foldl1, ← Keeps.mk', ← State.tally_keeps, ← State.collSend_keeps]

theorem State.collUp_keeps {s0 : State} {s : State} (h_s : Keeps s0 s) (id : Nat) (k : Nat) (x3 : Nat) :
        Keeps s0 (State.collUp s id k x3) := by
  induction x3 generalizing s with
  | zero => exact h_s
  | succ n ih =>
    unfold State.collUp
    extract_lets c r x
    split
    · exact h_s
    · split
      · exact ih (State.setInst_keeps h_s _ _)
      · split
        · exact State.setInst_keeps (State.sendSteps_keeps h_s _ _ _) _ _
        · exact h_s

theorem State.collStepDone_keeps {s0 : State} {s : State} (h_s : Keeps s0 s) (id : Nat) (code : Nat) (op : Op) :
        Keeps s0 (State.collStepDone s id code op) := by
  unfold State.collStepDone
  grind [← Keeps.foldl, ← Keeps.foldl1, ← Keeps.mk', ← State.setInst_keeps, ← State.collGrant_keeps, ← State.collUp_keeps, ←
    State.sendSteps_keeps]

theorem State.dropInst_keeps {s0 : State} {s : State} (h_s : Keeps s0 s) (id : Nat) :
        Keeps s0 (State.dropInst s id) := by
  unfold State.dropInst
  grind [← Keeps.foldl, ← Keeps.foldl1, ← Keeps.mk']

theorem State.collStale_keeps {s0 : State} {s : State} (h_s : Keeps s0 s) :
        Keeps s0 (State.collStale s) := by
  unfold State.collStale
  grind [← Keeps.foldl, ← Keeps.foldl1, ← Keeps.mk', ← State.raise_keeps, ← State.count_keeps]

theorem State.collStray_keeps {s0 : State} {s : State} (h_s : Keeps s0 s) :
        Keeps s0 (State.collStray s) := by
  unfold State.collStray
  grind [← Keeps.foldl, ← Keeps.foldl1, ← Keeps.mk', ← State.raise_keeps, ← State.count_keeps]

/-! ### Translate -/

theorem State.faultRecord_keeps {s0 : State} {s : State} (h_s : Keeps s0 s) (unit : Nat) (addr : Nat) (src : Nat) (op : Nat) (kind :
    Nat) (mirror : Bool) :
        Keeps s0 (State.faultRecord s unit addr src op kind mirror) := by
  unfold State.faultRecord
  grind [← Keeps.foldl, ← Keeps.foldl1, ← Keeps.mk', ← State.raise_keeps, ← State.count_keeps, ← State.event_keeps]

theorem State.commonFaultBits_keeps {s0 : State} {s : State} (h_s : Keeps s0 s) (f : TFault) :
        Keeps s0 (State.commonFaultBits s f) := by
  unfold State.commonFaultBits
  grind [← Keeps.foldl, ← Keeps.foldl1, ← Keeps.mk', ← State.raise_keeps, ← State.count_keeps]

theorem State.tlbUse_keeps {s0 : State} {s : State} (h_s : Keeps s0 s) (u : Nat) (mirror : Bool) (pasture : Nat) (off : Nat) (entry
    : Nat) (giant : Bool) :
        Keeps s0 (State.tlbUse s u mirror pasture off entry giant) := by
  unfold State.tlbUse
  grind [← Keeps.foldl, ← Keeps.foldl1, ← Keeps.mk']

theorem State.hbmWriteP_keeps {s0 : State} {s : State} (h_s : Keeps s0 s) (a : Nat) (l : PBytes) :
        Keeps s0 (State.hbmWriteP s a l) := by
  unfold State.hbmWriteP
  grind [← Keeps.foldl, ← Keeps.foldl1, ← Keeps.mk', ← State.hbmWrite_keeps]

theorem State.tlbDrop_keeps {s0 : State} {s : State} (h_s : Keeps s0 s) (v : Inval) :
        Keeps s0 (State.tlbDrop s v) := by
  unfold State.tlbDrop
  grind [← Keeps.foldl, ← Keeps.foldl1, ← Keeps.mk']

/-! ### CommonOps -/

theorem State.dropCreq_keeps {s0 : State} {s : State} (h_s : Keeps s0 s) (id : Nat) :
        Keeps s0 (State.dropCreq s id) := by
  unfold State.dropCreq
  grind [← Keeps.foldl, ← Keeps.foldl1, ← Keeps.mk']

theorem State.answer_keeps {s0 : State} {s : State} (h_s : Keeps s0 s) (q : CReq) (status : Nat) (rflags : Nat) (done : Nat)
    (faultOff : Nat) (data : List Byte) (poison : Bool) (mlost : Bool) :
        Keeps s0 (State.answer s q status rflags done faultOff data poison mlost) := by
  unfold State.answer
  grind [← Keeps.foldl, ← Keeps.foldl1, ← Keeps.mk', ← State.send_keeps]

theorem State.unprealloc_keeps {s0 : State} {s : State} (h_s : Keeps s0 s) (qid : Nat) (n : Nat) :
        Keeps s0 (State.unprealloc s qid n) := by
  unfold State.unprealloc
  grind [← Keeps.foldl, ← Keeps.foldl1, ← Keeps.mk']

theorem State.prealloc_keeps {s0 : State} {s : State} (h_s : Keeps s0 s) (qid : Nat) (n : Nat) :
        ∀ t_, State.prealloc s qid n = some t_ → Keeps s0 t_ := by
  unfold State.prealloc
  grind [← Keeps.foldl, ← Keeps.foldl1, ← Keeps.mk']

theorem State.setCreq_keeps {s0 : State} {s : State} (h_s : Keeps s0 s) (id : Nat) (q : CReq) :
        Keeps s0 (State.setCreq s id q) := by
  unfold State.setCreq
  grind [← Keeps.foldl, ← Keeps.foldl1, ← Keeps.mk']

theorem State.startReq_keeps {s0 : State} {s : State} (h_s : Keeps s0 s) (id : Nat) :
        Keeps s0 (State.startReq s id) := by
  unfold State.startReq
  grind [← Keeps.foldl, ← Keeps.foldl1, ← Keeps.mk', ← State.setCreq_keeps, ← State.dropCreq_keeps, ← State.answer_keeps]

theorem State.failReq_keeps {s0 : State} {s : State} (h_s : Keeps s0 s) (id : Nat) (f : TFault) (j : Nat) (off : Nat) :
        Keeps s0 (State.failReq s id f j off) := by
  unfold State.failReq
  grind [← Keeps.foldl, ← Keeps.foldl1, ← Keeps.mk', ← State.commonFaultBits_keeps, ← State.faultRecord_keeps, ←
    State.dropCreq_keeps, ← State.answer_keeps]

theorem State.holdReq_keeps {s0 : State} {s : State} (h_s : Keeps s0 s) (id : Nat) :
        Keeps s0 (State.holdReq s id) := by
  unfold State.holdReq
  grind [← Keeps.foldl, ← Keeps.foldl1, ← Keeps.mk', ← State.tally_keeps, ← State.count_keeps, ← State.setCreq_keeps]

theorem State.checkReq_keeps {s0 : State} {s : State} (h_s : Keeps s0 s) (id : Nat) :
        Keeps s0 (State.checkReq s id) := by
  unfold State.checkReq
  grind [← Keeps.foldl, ← Keeps.foldl1, ← Keeps.mk', ← State.failReq_keeps, ← State.setCreq_keeps, ← State.holdReq_keeps, ←
    State.dropCreq_keeps, ← State.answer_keeps, ← State.startReq_keeps]

theorem State.tlbMiss_keeps {s0 : State} {s : State} (h_s : Keeps s0 s) (u : Nat) :
        Keeps s0 (State.tlbMiss s u) := by
  unfold State.tlbMiss
  grind [← Keeps.foldl, ← Keeps.foldl1, ← Keeps.mk', ← State.tally_keeps, ← State.holdCount_keeps, ← State.count_keeps]

theorem State.tlbTouch_keeps {s0 : State} {s : State} (h_s : Keeps s0 s) (mirror : Bool) (pasture : Nat) (off : Nat) :
        Keeps s0 (State.tlbTouch s mirror pasture off) := by
  unfold State.tlbTouch
  grind [← Keeps.foldl, ← Keeps.foldl1, ← Keeps.mk', ← State.tlbUse_keeps, ← State.tlbMiss_keeps]

theorem State.translateReq_keeps {s0 : State} {s : State} (h_s : Keeps s0 s) (id : Nat) :
        Keeps s0 (State.translateReq s id) := by
  unfold State.translateReq
  grind [← Keeps.foldl, ← Keeps.foldl1, ← Keeps.mk', ← State.checkReq_keeps, ← State.tlbTouch_keeps, ← State.tlbUse_keeps, ←
    State.setCreq_keeps, ← State.tlbMiss_keeps]

theorem State.admitReq_keeps {s0 : State} {s : State} (h_s : Keeps s0 s) (id : Nat) :
        Keeps s0 (State.admitReq s id) := by
  unfold State.admitReq
  grind [← Keeps.foldl, ← Keeps.foldl1, ← Keeps.mk', ← State.dropCreq_keeps, ← State.answer_keeps, ← State.faultRecord_keeps, ←
    State.raise_keeps, ← State.translateReq_keeps]

theorem State.wakeReqs_keeps {s0 : State} {s : State} (h_s : Keeps s0 s) :
        Keeps s0 (State.wakeReqs s) := by
  unfold State.wakeReqs
  grind [← Keeps.foldl, ← Keeps.foldl1, ← Keeps.mk', ← State.startReq_keeps, ← State.admitReq_keeps]

theorem State.setLost_keeps {s0 : State} {s : State} (h_s : Keeps s0 s) (pasture : Nat) (off : Nat) (v : Bool) :
        Keeps s0 (State.setLost s pasture off v) := by
  unfold State.setLost
  grind [← Keeps.foldl, ← Keeps.foldl1, ← Keeps.mk', ← State.hbmWrite_keeps]

theorem State.mirrorLost_keeps {s0 : State} {s : State} (h_s : Keeps s0 s) (pasture : Nat) (off : Nat) :
        Keeps s0 (State.mirrorLost s pasture off) := by
  unfold State.mirrorLost
  grind [← Keeps.foldl, ← Keeps.foldl1, ← Keeps.mk', ← State.raise_keeps, ← State.count_keeps, ← State.setLost_keeps]

theorem State.sendMirror_keeps {s0 : State} {s : State} (h_s : Keeps s0 s) (owner : MirrorFor) (pasture : Nat) (off : Nat) (hpa :
    Nat) (n : Nat) :
        Keeps s0 (State.sendMirror s owner pasture off hpa n) := by
  unfold State.sendMirror
  grind [← Keeps.foldl, ← Keeps.foldl1, ← Keeps.mk', ← State.send_keeps, ← State.tally_keeps, ← State.count_keeps]

theorem State.mirrorWrite_keeps {s0 : State} {s : State} (h_s : Keeps s0 s) (owner : MirrorFor) (pasture : Nat) (off : Nat) (hpa :
    Nat) (n : Nat) :
        Keeps s0 (State.mirrorWrite s owner pasture off hpa n).1 := by
  unfold State.mirrorWrite
  grind [← Keeps.foldl, ← Keeps.foldl1, ← Keeps.mk', ← State.mirrorLost_keeps, ← State.sendMirror_keeps]

theorem State.mirrorOf_keeps {s0 : State} {s : State} (h_s : Keeps s0 s) (owner : MirrorFor) (pasture : Nat) (off : Nat) (hpa : Nat)
    (n : Nat) :
        Keeps s0 (State.mirrorOf s owner pasture off hpa n).1 := by
  unfold State.mirrorOf
  grind [← Keeps.foldl, ← Keeps.foldl1, ← Keeps.mk', ← State.mirrorWrite_keeps]

theorem State.requestMirrored_keeps {s0 : State} {s : State} (h_s : Keeps s0 s) (id : Nat) :
        Keeps s0 (State.requestMirrored s id) := by
  unfold State.requestMirrored
  grind [← Keeps.foldl, ← Keeps.foldl1, ← Keeps.mk', ← State.wakeReqs_keeps, ← State.dropCreq_keeps, ← State.answer_keeps]

theorem State.recheckHeld_keeps {s0 : State} {s : State} (h_s : Keeps s0 s) (p : Bool → Nat → Nat → Bool) :
        Keeps s0 (State.recheckHeld s p) := by
  unfold State.recheckHeld
  grind [← Keeps.foldl, ← Keeps.foldl1, ← Keeps.mk', ← State.wakeReqs_keeps, ← State.translateReq_keeps]

/-! ### Coll -/

theorem State.writeMaxFrame_keeps {s0 : State} {s : State} (h_s : Keeps s0 s) (b : Nat) (v : Nat) :
        Keeps s0 (State.writeMaxFrame s b v).1 := by
  unfold State.writeMaxFrame
  grind [← Keeps.foldl, ← Keeps.foldl1, ← Keeps.mk', ← State.setOb_keeps]

theorem State.collIssue_keeps {s0 : State} {s : State} (h_s : Keeps s0 s) :
        Keeps s0 (State.collIssue s) := by
  unfold State.collIssue
  grind [← Keeps.foldl, ← Keeps.foldl1, ← Keeps.mk', ← State.collIssueChunk_keeps, ← State.collGrant_keeps]

theorem State.collAdmit_keeps {s0 : State} {s : State} (h_s : Keeps s0 s) (x1 : Nat) :
        Keeps s0 (State.collAdmit s x1) := by
  induction x1 generalizing s with
  | zero => exact h_s
  | succ n ih =>
    have off : ∀ b, Keeps s0 { s with coll := { s.coll with blocked := b } } := fun b => h_s.mk' _ _ _ _ _ _ _ _ _ _ _ _ _ _
    unfold State.collAdmit
    split
    · exact off _
    · split
      · exact off _
      · split
        · extract_lets c s1
          have k : Keeps s0 s1 := off _
          clear_value s1
          split
          · exact k
          · exact State.collNote_keeps (State.raise_keeps k _ _ _ _ _ _) _ _ _
        · split
          · exact off _
          · extract_lets cells t
            have ht : ∀ u, t = some u → Keeps s0 u := by
              intro u e
              simp only [t] at e
              split at e
              · cases e
              · rename_i v w; exact State.prealloc_keeps (State.prealloc_keeps h_s _ _ _ w) _ _ _ e
            clear_value t
            split
            · exact State.raise_keeps (State.count_keeps (off _) _ _ _) _ _ _ _ _ _
            · exact ih (State.collGrant_keeps (State.count_keeps (State.setInst_keeps (ht _ rfl) _ _) _ _ _) _ _)

theorem State.collTick_keeps {s0 : State} {s : State} (h_s : Keeps s0 s) :
        Keeps s0 (State.collTick s) := by
  unfold State.collTick
  grind [← Keeps.foldl, ← Keeps.foldl1, ← Keeps.mk', ← State.collIssue_keeps, ← State.collAdmit_keeps]

theorem State.collHold_keeps {s0 : State} {s : State} (h_s : Keeps s0 s) (f : Nat) :
        Keeps s0 (State.collHold s f) := by
  unfold State.collHold
  grind [← Keeps.foldl, ← Keeps.foldl1, ← Keeps.mk', ← State.setInst_keeps, ← State.collSend_keeps, ← State.collNote_keeps]

theorem State.collUnhold_keeps {s0 : State} {s : State} (h_s : Keeps s0 s) (f : Nat) :
        Keeps s0 (State.collUnhold s f) := by
  unfold State.collUnhold
  grind [← Keeps.foldl, ← Keeps.foldl1, ← Keeps.mk', ← State.setInst_keeps]

theorem State.collFree_keeps {s0 : State} {s : State} (h_s : Keeps s0 s) (id : Nat) :
        Keeps s0 (State.collFree s id) := by
  unfold State.collFree
  grind [← Keeps.foldl, ← Keeps.foldl1, ← Keeps.mk', ← State.dropInst_keeps, ← State.unprealloc_keeps]

theorem State.collFinish_keeps {s0 : State} {s : State} (h_s : Keeps s0 s) (id : Nat) (status : Nat) (aborted : Bool) :
        Keeps s0 (State.collFinish s id status aborted) := by
  unfold State.collFinish
  grind [← Keeps.foldl, ← Keeps.foldl1, ← Keeps.mk', ← State.collToMember_keeps, ← State.setRow_keeps, ← State.event_keeps, ←
    State.collFree_keeps]

theorem State.collUnrecov_keeps {s0 : State} {s : State} (h_s : Keeps s0 s) (f : Nat) :
        Keeps s0 (State.collUnrecov s f) := by
  unfold State.collUnrecov
  grind [← Keeps.foldl, ← Keeps.foldl1, ← Keeps.mk', ← State.collFinish_keeps, ← State.count_keeps]

theorem State.commCreate_keeps {s0 : State} {s : State} (h_s : Keeps s0 s) (r : Nat) :
        Keeps s0 (State.commCreate s r).1 := by
  unfold State.commCreate
  dsimp only
  generalize (if r.testBit 39 then 1 else 0) = needs
  split
  · exact h_s
  · split
    · exact State.raise_keeps (State.setOb_keeps h_s _ _) _ _ _ _ _ _
    · exact State.setOb_keeps (State.setRow_keeps h_s _ _ _) _ _

theorem State.commDelete_keeps {s0 : State} {s : State} (h_s : Keeps s0 s) (id : Nat) :
        Keeps s0 (State.commDelete s id).1 := by
  unfold State.commDelete
  grind [← Keeps.foldl, ← Keeps.foldl1, ← Keeps.mk', ← State.setOb_keeps, ← State.setRow_keeps]

theorem State.commOp_keeps {s0 : State} {s : State} (h_s : Keeps s0 s) (data : List Byte) :
        Keeps s0 (State.commOp s data).1 := by
  unfold State.commOp
  grind [← Keeps.foldl, ← Keeps.foldl1, ← Keeps.mk', ← State.commCreate_keeps, ← State.commDelete_keeps]

theorem State.collFenced_keeps {s0 : State} {s : State} (h_s : Keeps s0 s) (p : CInst → Bool) :
        Keeps s0 (State.collFenced s p) := by
  unfold State.collFenced
  grind [← Keeps.foldl, ← Keeps.foldl1, ← Keeps.mk', ← State.collNote_keeps, ← State.raise_keeps]

theorem State.takeStart_keeps {s0 : State} {s : State} (h_s : Keeps s0 s) (row : Nat) (seq : Nat) (start : Nat) (post : Nat)
    (replayed : Bool) :
        Keeps s0 (State.takeStart s row seq start post replayed) := by
  unfold State.takeStart
  repeat' split
  all_goals grind (splits := 20) (gen := 20) (ematch := 20) [← Keeps.foldl, ← Keeps.foldl1, ← Keeps.mk', ← State.collStale_keeps, ←
    State.collNote_keeps, ← State.raise_keeps, ← State.setInst_keeps, ← State.collFinish_keeps, ← State.count_keeps, ←
    State.tally_keeps]

theorem State.floodStart_keeps {s0 : State} {s : State} (h_s : Keeps s0 s) (e : LeadEntry) (start : Nat) :
        Keeps s0 (State.floodStart s e start) := by
  unfold State.floodStart
  grind [← Keeps.foldl, ← Keeps.foldl1, ← Keeps.mk', ← State.collSpread_keeps, ← State.takeStart_keeps]

theorem execCollPostReceive_keeps {s0 : State} (bytes : List Byte) {s : State} (h_s : Keeps s0 s) :
        ∀ t_, execCollPostReceive bytes s = .next t_ → Keeps s0 t_ := by
  unfold execCollPostReceive
  repeat' split
  all_goals grind (splits := 20) (gen := 20) (ematch := 20) [← Keeps.foldl, ← Keeps.foldl1, ← Keeps.mk', live, ←
    State.collStray_keeps, ← State.collToMember_keeps, ← State.collNote_keeps, ← State.raise_keeps, ← State.collGrant_keeps, ←
    State.collSend_keeps]

theorem State.startReceive_keeps {s0 : State} {s : State} (h_s : Keeps s0 s) (bytes : List Byte) (replayed : Bool) :
        Keeps s0 (State.startReceive s bytes replayed) := by
  unfold State.startReceive
  grind [← Keeps.foldl, ← Keeps.foldl1, ← Keeps.mk', ← State.collStray_keeps, ← State.collSpread_keeps, ← State.takeStart_keeps]

theorem State.leadAdvance_keeps {s0 : State} {s : State} (h_s : Keeps s0 s) (comm : Nat) :
        Keeps s0 (State.leadAdvance s comm) := by
  unfold State.leadAdvance
  grind [← Keeps.foldl, ← Keeps.foldl1, ← Keeps.mk', ← State.floodStart_keeps]

theorem State.takeAbort_keeps {s0 : State} {s : State} (h_s : Keeps s0 s) (row : Nat) (seq : Nat) (start : Nat) (status : Nat)
    (reissue : Bool) :
        Keeps s0 (State.takeAbort s row seq start status reissue) := by
  unfold State.takeAbort
  grind [← Keeps.foldl, ← Keeps.foldl1, ← Keeps.mk', ← State.collFree_keeps, ← State.collFinish_keeps, ← State.count_keeps, ←
    State.setInst_keeps, ← State.collStale_keeps]

theorem State.floodAbort_keeps {s0 : State} {s : State} (h_s : Keeps s0 s) (row : Nat) (seq : Nat) (start : Nat) (status : Nat)
    (reissue : Bool) :
        Keeps s0 (State.floodAbort s row seq start status reissue) := by
  unfold State.floodAbort
  grind [← Keeps.foldl, ← Keeps.foldl1, ← Keeps.mk', ← State.collSpread_keeps, ← State.takeAbort_keeps]

theorem State.leadDrop_keeps {s0 : State} {s : State} (h_s : Keeps s0 s) (comm : Nat) (seq : Nat) :
        Keeps s0 (State.leadDrop s comm seq) := by
  unfold State.leadDrop
  grind [← Keeps.foldl, ← Keeps.foldl1, ← Keeps.mk']

theorem State.leadNote_keeps {s0 : State} {s : State} (h_s : Keeps s0 s) (row : Nat) (seq : Nat) (code : Nat) :
        Keeps s0 (State.leadNote s row seq code) := by
  unfold State.leadNote
  grind [← Keeps.foldl, ← Keeps.foldl1, ← Keeps.mk', ← State.collStale_keeps, ← State.leadAdvance_keeps, ← State.floodAbort_keeps, ←
     State.leadDrop_keeps, ← State.count_keeps, ← State.floodStart_keeps, ← State.collStray_keeps]

theorem execCollCommDelete_keeps {s0 : State} (who : Path) (id : BitVec 16) {s : State} (h_s : Keeps s0 s) :
        ∀ t_, execCollCommDelete who id s = .next t_ → Keeps s0 t_ := by
  unfold execCollCommDelete
  grind [← Keeps.foldl, ← Keeps.foldl1, ← Keeps.mk', ← State.access_keeps, ← State.commDelete_keeps, Keeps1]

theorem State.collFor_keeps {s0 : State} {s : State} (h_s : Keeps s0 s) (bytes : List Byte) :
        ∀ t_, State.collFor s bytes = .error t_ → Keeps s0 t_ := by
  unfold State.collFor
  grind [← Keeps.foldl, ← Keeps.foldl1, ← Keeps.mk', ← State.collStray_keeps, ← State.collStale_keeps]

theorem State.collMismatch_keeps {s0 : State} {s : State} (h_s : Keeps s0 s) (row : Nat) (seq : Nat) :
        Keeps s0 (State.collMismatch s row seq) := by
  unfold State.collMismatch
  grind [← Keeps.foldl, ← Keeps.foldl1, ← Keeps.mk', ← State.collNote_keeps, ← State.raise_keeps, ← State.count_keeps]

theorem execCollInReceive_keeps {s0 : State} (bytes : List Byte) {s : State} (h_s : Keeps s0 s) :
        ∀ t_, execCollInReceive bytes s = .next t_ → Keeps s0 t_ := by
  unfold execCollInReceive
  grind [← Keeps.foldl, ← Keeps.foldl1, ← Keeps.mk', live, State.collFor_keeps, ← State.collStray_keeps, ← State.collMismatch_keeps,
     ← State.raise_keeps, ← State.count_keeps, ← State.setInst_keeps]

theorem execCollAbortReceive_keeps {s0 : State} (bytes : List Byte) {s : State} (h_s : Keeps s0 s) :
        ∀ t_, execCollAbortReceive bytes s = .next t_ → Keeps s0 t_ := by
  unfold execCollAbortReceive
  grind [← Keeps.foldl, ← Keeps.foldl1, ← Keeps.mk', live, ← State.collStray_keeps, ← State.collSpread_keeps, ←
    State.leadAdvance_keeps, ← State.takeAbort_keeps]

theorem execCollResultReceive_keeps {s0 : State} (bytes : List Byte) {s : State} (h_s : Keeps s0 s) :
        ∀ t_, execCollResultReceive bytes s = .next t_ → Keeps s0 t_ := by
  unfold execCollResultReceive
  grind [← Keeps.foldl, ← Keeps.foldl1, ← Keeps.mk', live, State.collFor_keeps, ← State.collMismatch_keeps, ← State.collStray_keeps,
     ← State.setInst_keeps]

theorem execCollPostFwdReceive_keeps {s0 : State} (bytes : List Byte) {s : State} (h_s : Keeps s0 s) :
        ∀ t_, execCollPostFwdReceive bytes s = .next t_ → Keeps s0 t_ := by
  unfold execCollPostFwdReceive
  grind [← Keeps.foldl, ← Keeps.foldl1, ← Keeps.mk', live, ← State.collStray_keeps, ← State.leadAdvance_keeps]

theorem execCollNoteReceive_keeps {s0 : State} (bytes : List Byte) {s : State} (h_s : Keeps s0 s) :
        ∀ t_, execCollNoteReceive bytes s = .next t_ → Keeps s0 t_ := by
  unfold execCollNoteReceive
  grind [← Keeps.foldl, ← Keeps.foldl1, ← Keeps.mk', live, ← State.collStray_keeps, ← State.leadNote_keeps]

theorem execCollStepReceive_keeps {s0 : State} (bytes : List Byte) {s : State} (h_s : Keeps s0 s) :
        ∀ t_, execCollStepReceive bytes s = .next t_ → Keeps s0 t_ := by
  unfold execCollStepReceive
  grind [← Keeps.foldl, ← Keeps.foldl1, ← Keeps.mk', live, State.collFor_keeps, ← State.collMismatch_keeps, ← State.collStray_keeps,
     ← State.setInst_keeps]

theorem execCollDoneSend_keeps {s0 : State} (slot : Fin 64) {s : State} (h_s : Keeps s0 s) :
        ∀ t_, execCollDoneSend slot s = .next t_ → Keeps s0 t_ := by
  unfold execCollDoneSend
  grind [← Keeps.foldl, ← Keeps.foldl1, ← Keeps.mk', live, ← State.leadAdvance_keeps, ← State.leadDrop_keeps, ←
    State.collFinish_keeps, ← State.count_keeps]

theorem execPortMaxFrameWrite_keeps {s0 : State} (who : Path) (b : Fin 128) (v : BitVec 16) {s : State} (h_s : Keeps s0 s) :
        ∀ t_, execPortMaxFrameWrite who b v s = .next t_ → Keeps s0 t_ := by
  unfold execPortMaxFrameWrite
  grind [← Keeps.foldl, ← Keeps.foldl1, ← Keeps.mk', ← State.access_keeps, ← State.writeMaxFrame_keeps, Keeps1]

theorem execCollTimeout_keeps {s0 : State} (slot : Fin 64) {s : State} (h_s : Keeps s0 s) :
        ∀ t_, execCollTimeout slot s = .next t_ → Keeps s0 t_ := by
  unfold execCollTimeout
  grind [← Keeps.foldl, ← Keeps.foldl1, ← Keeps.mk', live, ← State.advanceDev_keeps, ← State.collNote_keeps, ← State.raise_keeps]

theorem execCollCommCreate_keeps {s0 : State} (who : Path) (r : BitVec 1536) {s : State} (h_s : Keeps s0 s) :
        ∀ t_, execCollCommCreate who r s = .next t_ → Keeps s0 t_ := by
  unfold execCollCommCreate
  grind [← Keeps.foldl, ← Keeps.foldl1, ← Keeps.mk', ← State.access_keeps, ← State.commCreate_keeps, Keeps1]

theorem execCollStartReceive_keeps {s0 : State} (bytes : List Byte) {s : State} (h_s : Keeps s0 s) :
        ∀ t_, execCollStartReceive bytes s = .next t_ → Keeps s0 t_ := by
  unfold execCollStartReceive
  grind [← Keeps.foldl, ← Keeps.foldl1, ← Keeps.mk', live, ← State.startReceive_keeps]

/-! ### Rings -/

theorem State.setRing_keeps {s0 : State} {s : State} (h_s : Keeps s0 s) (dma : Bool) (r : Nat) (x : Ring) :
        Keeps s0 (State.setRing s dma r x) := by
  unfold State.setRing
  grind [← Keeps.foldl, ← Keeps.foldl1, ← Keeps.mk']

theorem State.putRecord_keeps {s0 : State} {s : State} (h_s : Keeps s0 s) (dma : Bool) (r : Nat) (rec : Nat) (irq : Bool) :
        Keeps s0 (State.putRecord s dma r rec irq) := by
  unfold State.putRecord
  grind [← Keeps.foldl, ← Keeps.foldl1, ← Keeps.mk', ← State.setRing_keeps, ← State.hostWrite_keeps, ← State.hbmWrite_keeps, ←
    State.sendVector_keeps, ← State.raise_keeps]

theorem State.stopDmaRing_keeps {s0 : State} {s : State} (h_s : Keeps s0 s) (r : Nat) (status : Nat) :
        Keeps s0 (State.stopDmaRing s r status) := by
  unfold State.stopDmaRing
  grind [← Keeps.foldl, ← Keeps.foldl1, ← Keeps.mk', ← State.setRing_keeps, ← State.raise_keeps, ← State.event_keeps, ←
    State.countIn_keeps]

theorem State.ringMisuse_keeps {s0 : State} {s : State} (h_s : Keeps s0 s) :
        Keeps s0 (State.ringMisuse s) := by
  unfold State.ringMisuse
  grind [← Keeps.foldl, ← Keeps.foldl1, ← Keeps.mk', ← State.raise_keeps, ← State.count_keeps]

theorem State.ringWrite_keeps {s0 : State} {s : State} (h_s : Keeps s0 s) (dma : Bool) (r : Nat) (i : Nat) (v : Nat) (pf : Bool) :
        Keeps s0 (State.ringWrite s dma r i v pf) := by
  unfold State.ringWrite
  grind [← Keeps.foldl, ← Keeps.foldl1, ← Keeps.mk', ← State.ringMisuse_keeps, ← State.setRing_keeps]

theorem State.fetch_keeps {s0 : State} {s : State} (h_s : Keeps s0 s) (dma : Bool) (r : Nat) :
        Keeps s0 (State.fetch s dma r) := by
  unfold State.fetch
  grind [← Keeps.foldl, ← Keeps.foldl1, ← Keeps.mk', ← State.setRing_keeps]

end Sys2Proof.Machine
end

