-- ==== Sys2Proof/Laws/Keeps5.lean ====
section
/-!
SUPPORT. What the operations of DroveRun, DroveBeat, Common keep (`Keeps`), one lemma per operation.
-/

namespace Sys2Proof.Machine

set_option Elab.async false

/-! ### DroveRun -/

theorem State.setTileMap_keeps {s0 : State} {s : State} (h_s : Keeps s0 s) (m : List Nat) :
        Keeps s0 (State.setTileMap s m) := by
  unfold State.setTileMap
  grind [← Keeps.foldl, ← Keeps.foldl1, ← Keeps.mk', ← State.setRow_keeps, ← State.setOb_keeps]

theorem State.setSlots_keeps {s0 : State} {s : State} (h_s : Keeps s0 s) (l : List Nat) :
        Keeps s0 (State.setSlots s l) := by
  unfold State.setSlots
  grind [← Keeps.foldl, ← Keeps.foldl1, ← Keeps.mk', ← State.setTileMap_keeps]

theorem State.unmapTile_keeps {s0 : State} {s : State} (h_s : Keeps s0 s) (t : Nat) :
        Keeps s0 (State.unmapTile s t) := by
  unfold State.unmapTile
  grind [← Keeps.foldl, ← Keeps.foldl1, ← Keeps.mk', ← State.setSlots_keeps]

theorem State.setOctx_keeps {s0 : State} {s : State} (h_s : Keeps s0 s) (c : Nat) (x : OpCtx) :
        Keeps s0 (State.setOctx s c x) := by
  unfold State.setOctx
  grind [← Keeps.foldl, ← Keeps.foldl1, ← Keeps.mk']

theorem State.modOctx_keeps {s0 : State} {s : State} (h_s : Keeps s0 s) (c : Nat) (f : OpCtx → OpCtx) :
        Keeps s0 (State.modOctx s c f) := by
  unfold State.modOctx
  grind [← Keeps.foldl, ← Keeps.foldl1, ← Keeps.mk', ← State.setOctx_keeps]

theorem State.endOctx_keeps {s0 : State} {s : State} (h_s : Keeps s0 s) (c : Nat) (status : Nat) :
        Keeps s0 (State.endOctx s c status) := by
  unfold State.endOctx
  grind [← Keeps.foldl, ← Keeps.foldl1, ← Keeps.mk', ← State.modOctx_keeps]

theorem State.unsuspend_keeps {s0 : State} {s : State} (h_s : Keeps s0 s) (c : Nat) :
        Keeps s0 (State.unsuspend s c) := by
  unfold State.unsuspend
  grind [← Keeps.foldl, ← Keeps.foldl1, ← Keeps.mk', ← State.modOctx_keeps, ← State.setRow_keeps, ← State.setRing_keeps]

theorem State.setTile_keeps {s0 : State} {s : State} (h_s : Keeps s0 s) (t : Nat) (v : Nat) :
        Keeps s0 (State.setTile s t v) := by
  unfold State.setTile
  grind [← Keeps.foldl, ← Keeps.foldl1, ← Keeps.mk', ← State.setRow_keeps]

theorem State.resaveAll_keeps {s0 : State} {s : State} (h_s : Keeps s0 s) :
        Keeps s0 (State.resaveAll s) := by
  unfold State.resaveAll
  grind [← Keeps.foldl, ← Keeps.foldl1, ← Keeps.mk']

theorem State.rejoin_keeps {s0 : State} {s : State} (h_s : Keeps s0 s) (t : Nat) :
        Keeps s0 (State.rejoin s t) := by
  unfold State.rejoin
  grind [← Keeps.foldl, ← Keeps.foldl1, ← Keeps.mk', ← State.setSlots_keeps, ← State.setTile_keeps, ← State.resaveAll_keeps]

theorem State.clearRows_keeps {s0 : State} {s : State} (h_s : Keeps s0 s) (oid : Nat) (lo : Nat) (n : Nat) :
        Keeps s0 (State.clearRows s oid lo n) := by
  exact h_s.dropObjs _

theorem State.fenceLog_keeps {s0 : State} {s : State} (h_s : Keeps s0 s) (kind : Nat) (unitKind : Nat) (unit : Nat) :
        Keeps s0 (State.fenceLog s kind unitKind unit) := by
  unfold State.fenceLog
  grind [← Keeps.foldl, ← Keeps.foldl1, ← Keeps.mk', ← State.event_keeps, ← State.errLog_keeps]

theorem State.opCount_keeps {s0 : State} {s : State} (h_s : Keeps s0 s) (o : Op) (rejected : Bool) :
        Keeps s0 (State.opCount s o rejected) := by
  unfold State.opCount
  grind [← Keeps.foldl, ← Keeps.foldl1, ← Keeps.mk', ← State.countIn_keeps, ← State.raise_keeps]

theorem State.opEnd_keeps {s0 : State} {s : State} (h_s : Keeps s0 s) (o : Op) (rejected : Bool) (lost : Bool) :
        Keeps s0 (State.opEnd s o rejected lost) := by
  unfold State.opEnd
  grind [← Keeps.foldl, ← Keeps.foldl1, ← Keeps.mk', ← State.opCount_keeps, ← State.setRing_keeps, ← State.putRecord_keeps, ←
    State.send_keeps, ← State.wakeReqs_keeps, ← State.dropCreq_keeps, ← State.answer_keeps, ← State.collStepDone_keeps, ←
    State.tally_keeps, ← State.collNote_keeps]

theorem State.tileStat_keeps {s0 : State} {s : State} (h_s : Keeps s0 s) (p : Nat) (lo : Nat) :
        Keeps s0 (State.tileStat s p lo) := by
  unfold State.tileStat
  grind [← Keeps.foldl, ← Keeps.foldl1, ← Keeps.mk', ← State.setReg_keeps]

theorem State.lastErr_keeps {s0 : State} {s : State} (h_s : Keeps s0 s) (kind : Nat) (e : TileEvent) (names : Nat × Nat × Nat)
    (tiled : Bool) :
        Keeps s0 (State.lastErr s kind e names tiled) := by
  unfold State.lastErr
  grind [← Keeps.foldl, ← Keeps.foldl1, ← Keeps.mk', ← State.setBlob_keeps]

theorem State.histCount_keeps {s0 : State} {s : State} (h_s : Keeps s0 s) (t : Nat) (g : Nat) (f : Nat) :
        Keeps s0 (State.histCount s t g f) := by
  unfold State.histCount
  grind [← Keeps.foldl, ← Keeps.foldl1, ← Keeps.mk', ← State.setRow_keeps]

theorem State.dropTile_keeps {s0 : State} {s : State} (h_s : Keeps s0 s) (t : Nat) :
        Keeps s0 (State.dropTile s t) := by
  unfold State.dropTile
  grind [← Keeps.foldl, ← Keeps.foldl1, ← Keeps.mk', ← State.resaveAll_keeps, ← State.raise_keeps, ← State.unmapTile_keeps]

theorem State.fenceTile_keeps {s0 : State} {s : State} (h_s : Keeps s0 s) (t : Nat) :
        Keeps s0 (State.fenceTile s t) := by
  unfold State.fenceTile
  grind [← Keeps.foldl, ← Keeps.foldl1, ← Keeps.mk', ← State.fenceLog_keeps, ← State.raise_keeps, ← State.setTile_keeps, ←
    State.dropTile_keeps, ← State.setSlots_keeps]

theorem State.condemnTile_keeps {s0 : State} {s : State} (h_s : Keeps s0 s) (t : Nat) (twice : Bool) :
        Keeps s0 (State.condemnTile s t twice) := by
  unfold State.condemnTile
  grind [← Keeps.foldl, ← Keeps.foldl1, ← Keeps.mk']

theorem State.sentinelFail_keeps {s0 : State} {s : State} (h_s : Keeps s0 s) (e : TileEvent) :
        Keeps s0 (State.sentinelFail s e) := by
  unfold State.sentinelFail
  grind [← Keeps.foldl, ← Keeps.foldl1, ← Keeps.mk', ← State.lastErr_keeps, ← State.raise_keeps, ← State.count_keeps, ←
    State.histCount_keeps, ← State.fenceTile_keeps, ← State.condemnTile_keeps]

theorem State.splitMember_keeps {s0 : State} {s : State} (h_s : Keeps s0 s) (c : Nat) (k : Nat) :
        ∀ t_, State.splitMember s c k = some t_ → Keeps s0 t_.1 := by
  unfold State.splitMember
  grind [← Keeps.foldl, ← Keeps.foldl1, ← Keeps.mk', ← State.setOctx_keeps]

theorem State.putOut_keeps {s0 : State} {s : State} (h_s : Keeps s0 s) (ue : List Nat) (w : OutWrite) :
        Keeps s0 (State.putOut s ue w) := by
  unfold State.putOut
  grind [← Keeps.foldl, ← Keeps.foldl1, ← Keeps.mk', ← State.hbmWriteP_keeps, ← State.modOctx_keeps, ← State.mirrorOf_keeps]

theorem State.writeOut_keeps {s0 : State} {s : State} (h_s : Keeps s0 s) (h : Nat) (ue : List Nat) :
        Keeps s0 (State.writeOut s h ue) := by
  unfold State.writeOut
  grind [← Keeps.foldl, ← Keeps.foldl1, ← Keeps.mk', ← State.putOut_keeps]

theorem State.freeOctx_keeps {s0 : State} {s : State} (h_s : Keeps s0 s) (c : Nat) :
        Keeps s0 (State.freeOctx s c) := by
  unfold State.freeOctx
  grind [← Keeps.foldl, ← Keeps.foldl1, ← Keeps.mk']

theorem State.tileEvent_keeps {s0 : State} {s : State} (h_s : Keeps s0 s) (names : Nat × Nat × Nat) (e : TileEvent) (kind : Nat) :
        Keeps s0 (State.tileEvent s names e kind) := by
  unfold State.tileEvent
  grind [← Keeps.foldl, ← Keeps.foldl1, ← Keeps.mk', ← State.lastErr_keeps, ← State.tileStat_keeps, ← State.count_keeps, ←
    State.histCount_keeps, ← State.raise_keeps]

theorem State.switchDone_keeps {s0 : State} {s : State} (h_s : Keeps s0 s) (t : Nat) :
        Keeps s0 (State.switchDone s t) := by
  unfold State.switchDone
  grind [← Keeps.foldl, ← Keeps.foldl1, ← Keeps.mk', ← State.count_keeps, ← State.setTileMap_keeps, ← State.setTile_keeps]

theorem State.opFault_keeps {s0 : State} {s : State} (h_s : Keeps s0 s) (c : Nat) (k : Nat) (status : Nat) (kind : Nat) (off : Nat)
    (space : Nat) :
        Keeps s0 (State.opFault s c k status kind off space) := by
  unfold State.opFault
  split
  · exact h_s
  · rename_i s' c' e
    have k : Keeps s0 s' := State.splitMember_keeps h_s _ _ _ e
    clear e
    extract_lets x o unit s1 s2 suspend o2 s3 s4 s5
    have k1 : Keeps s0 s1 := by
      show Keeps s0 (if _ then _ else _)
      split
      · exact State.faultRecord_keeps (State.commonFaultBits_keeps k _) _ _ _ _ _ _
      · exact k
    have k2 : Keeps s0 s2 := by
      show Keeps s0 (if _ then _ else _)
      split
      · exact State.raise_keeps k1 _ _ _ _ _ _
      · exact k1
    clear_value s1 s2
    have k5 : Keeps s0 s5 := State.raise_keeps (State.setRow_keeps (State.setOctx_keeps k2 _ _) _ _ _) _ _ _ _ _ _
    clear_value s5
    split
    · split
      · exact State.event_keeps (State.setRing_keeps k5 _ _ _) _ _ _ _
      · exact k5
    · exact State.setOctx_keeps k2 _ _

theorem State.writeOutAll_keeps {s0 : State} {s : State} (h_s : Keeps s0 s) :
        Keeps s0 (State.writeOutAll s) := by
  unfold State.writeOutAll
  grind [← Keeps.foldl, ← Keeps.foldl1, ← Keeps.mk', ← State.writeOut_keeps]

theorem State.fencesDue_keeps {s0 : State} {s : State} (h_s : Keeps s0 s) :
        Keeps s0 (State.fencesDue s) := by
  unfold State.fencesDue
  grind [← Keeps.foldl, ← Keeps.foldl1, ← Keeps.mk', ← State.fenceTile_keeps]

theorem State.stagedBad_keeps {s0 : State} {s : State} (h_s : Keeps s0 s) (ue : List Nat) :
        Keeps s0 (State.stagedBad s ue) := by
  unfold State.stagedBad
  grind [← Keeps.foldl, ← Keeps.foldl1, ← Keeps.mk', ← State.modOctx_keeps]

theorem State.accBad_keeps {s0 : State} {s : State} (h_s : Keeps s0 s) (kind : Nat) (e : AccError) :
        Keeps s0 (State.accBad s kind e) := by
  unfold State.accBad
  grind [← Keeps.foldl, ← Keeps.foldl1, ← Keeps.mk', ← State.tileEvent_keeps, ← State.modOctx_keeps]

theorem State.opStop_keeps {s0 : State} {s : State} (h_s : Keeps s0 s) (c : Nat) (k : Nat) (bounds : Bool) (pos : Nat) :
        Keeps s0 (State.opStop s c k bounds pos) := by
  unfold State.opStop
  split
  · exact h_s
  · rename_i s' c' e
    have k : Keeps s0 s' := State.splitMember_keeps h_s _ _ _ e
    extract_lets x o
    split
    · exact State.raise_keeps (State.setOctx_keeps k _ _) _ _ _ _ _ _
    · exact State.raise_keeps (State.setOctx_keeps k _ _) _ _ _ _ _ _

/-! ### DroveBeat -/

theorem State.droveRoll_keeps {s0 : State} {s : State} (h_s : Keeps s0 s) :
        Keeps s0 (State.droveRoll s) := by
  unfold State.droveRoll
  grind [← Keeps.foldl, ← Keeps.foldl1, ← Keeps.mk']

theorem State.writeTempBins_keeps {s0 : State} {s : State} (h_s : Keeps s0 s) (v : Nat) :
        Keeps s0 (State.writeTempBins s v).1 := by
  unfold State.writeTempBins
  grind [← Keeps.foldl, ← Keeps.foldl1, ← Keeps.mk', ← State.setRow_keeps, ← State.clearRows_keeps]

theorem State.remoteRefuse_keeps {s0 : State} {s : State} (h_s : Keeps s0 s) :
        Keeps s0 (State.remoteRefuse s) := by
  unfold State.remoteRefuse
  grind [← Keeps.foldl, ← Keeps.foldl1, ← Keeps.mk', ← State.opEnd_keeps]

theorem State.droveFenceDevice_keeps {s0 : State} {s : State} (h_s : Keeps s0 s) :
        Keeps s0 (State.droveFenceDevice s) := by
  unfold State.droveFenceDevice
  repeat' split
  all_goals grind (splits := 20) (gen := 20) (ematch := 20) [← Keeps.foldl, ← Keeps.foldl1, ← Keeps.mk', ← State.droveRoll_keeps, ←
    State.endOctx_keeps, ← State.unsuspend_keeps, ← State.opEnd_keeps, ← State.setRing_keeps, ← State.raise_keeps, ←
    State.remoteRefuse_keeps]

theorem State.tileFence_keeps {s0 : State} {s : State} (h_s : Keeps s0 s) (t : Nat) :
        Keeps s0 (State.tileFence s t) := by
  unfold State.tileFence
  grind [← Keeps.foldl, ← Keeps.foldl1, ← Keeps.mk']

theorem State.tileSwitch_keeps {s0 : State} {s : State} (h_s : Keeps s0 s) (t : Nat) :
        Keeps s0 (State.tileSwitch s t) := by
  unfold State.tileSwitch
  grind [← Keeps.foldl, ← Keeps.foldl1, ← Keeps.mk', ← State.setSlots_keeps]

theorem State.tileCmd_keeps {s0 : State} {s : State} (h_s : Keeps s0 s) (t : Nat) (cmd : Nat) :
        Keeps s0 (State.tileCmd s t cmd).1 := by
  unfold State.tileCmd
  grind [← Keeps.foldl, ← Keeps.foldl1, ← Keeps.mk', ← State.tileFence_keeps, ← State.tileSwitch_keeps]

theorem State.droveFencePaddock_keeps {s0 : State} {s : State} (h_s : Keeps s0 s) (p : Nat) :
        Keeps s0 (State.droveFencePaddock s p) := by
  unfold State.droveFencePaddock
  grind [← Keeps.foldl, ← Keeps.foldl1, ← Keeps.mk', ← State.droveRoll_keeps, ← State.setTile_keeps, ← State.setSlots_keeps, ←
    State.endOctx_keeps, ← State.unsuspend_keeps, ← State.raise_keeps]

theorem State.droveStop_keeps {s0 : State} {s : State} (h_s : Keeps s0 s) :
        Keeps s0 (State.droveStop s) := by
  unfold State.droveStop
  grind [← Keeps.foldl, ← Keeps.foldl1, ← Keeps.mk', ← State.remoteRefuse_keeps]

theorem execDroveTileFence_keeps {s0 : State} (who : Path) (t : BitVec 8) {s : State} (h_s : Keeps s0 s) :
        ∀ t_, execDroveTileFence who t s = .next t_ → Keeps s0 t_ := by
  unfold execDroveTileFence
  grind [← Keeps.foldl, ← Keeps.foldl1, ← Keeps.mk', ← State.access_keeps, ← State.tileCmd_keeps, Keeps1]

theorem execWriteOutComplete_keeps {s0 : State} (half : Fin 2) (ue : List Nat) {s : State} (h_s : Keeps s0 s) :
        ∀ t_, execWriteOutComplete half ue s = .next t_ → Keeps s0 t_ := by
  unfold execWriteOutComplete
  grind [← Keeps.foldl, ← Keeps.foldl1, ← Keeps.mk', live, ← State.writeOut_keeps]

theorem State.droveGate_keeps {s0 : State} {s : State} (h_s : Keeps s0 s) :
        Keeps s0 (State.droveGate s) := by
  unfold State.droveGate
  grind [← Keeps.foldl, ← Keeps.foldl1, ← Keeps.mk', ← State.resaveAll_keeps, ← State.droveStop_keeps]

theorem execSentinelDue_keeps {s0 : State} {s : State} (h_s : Keeps s0 s) :
        ∀ t_, execSentinelDue s = .next t_ → Keeps s0 t_ := by
  unfold execSentinelDue
  dsimp only
  repeat' split
  all_goals grind (splits := 40) (gen := 40) (ematch := 40) [← Keeps.foldl, ← Keeps.foldl1, ← Keeps.mk', live, ←
    State.advanceDev_keeps]

theorem State.preempt_keeps {s0 : State} {s : State} (h_s : Keeps s0 s) (c : Nat) :
        Keeps s0 (State.preempt s c) := by
  unfold State.preempt
  grind [← Keeps.foldl, ← Keeps.foldl1, ← Keeps.mk', ← State.count_keeps, ← State.modOctx_keeps]

theorem State.droveUngate_keeps {s0 : State} {s : State} (h_s : Keeps s0 s) :
        Keeps s0 (State.droveUngate s) := by
  unfold State.droveUngate
  grind [← Keeps.foldl, ← Keeps.foldl1, ← Keeps.mk']

theorem execDroveTileSentinel_keeps {s0 : State} (who : Path) (t : BitVec 8) {s : State} (h_s : Keeps s0 s) :
        ∀ t_, execDroveTileSentinel who t s = .next t_ → Keeps s0 t_ := by
  unfold execDroveTileSentinel
  grind [← Keeps.foldl, ← Keeps.foldl1, ← Keeps.mk', ← State.access_keeps, ← State.tileCmd_keeps, Keeps1]

theorem State.moveEvents_keeps {s0 : State} {s : State} (h_s : Keeps s0 s) (names : Nat × Nat × Nat) (events : List TileEvent) :
        Keeps s0 (State.moveEvents s names events) := by
  unfold State.moveEvents
  grind [← Keeps.foldl, ← Keeps.foldl1, ← Keeps.mk', ← State.tileEvent_keeps, ← State.raise_keeps]

theorem State.prepare_keeps {s0 : State} {s : State} (h_s : Keeps s0 s) (c : Nat) :
        Keeps s0 (State.prepare s c) := by
  unfold State.prepare
  grind [← Keeps.foldl, ← Keeps.foldl1, ← Keeps.mk', ← State.preempt_keeps, ← State.modOctx_keeps]

theorem State.give_keeps {s0 : State} {s : State} (h_s : Keeps s0 s) (h : Holder) :
        Keeps s0 (State.give s h) := by
  unfold State.give
  grind [← Keeps.foldl, ← Keeps.foldl1, ← Keeps.mk']

theorem State.runBeat_keeps {s0 : State} {s : State} (h_s : Keeps s0 s) (c : Nat) (units : Nat) (ue : List Nat) :
        Keeps s0 (State.runBeat s c units ue).1 := by
  unfold State.runBeat
  grind [← Keeps.foldl, ← Keeps.foldl1, ← Keeps.mk', ← State.count_keeps, ← State.writeOutAll_keeps]

theorem State.dyingEnd_keeps {s0 : State} {s : State} (h_s : Keeps s0 s) :
        Keeps s0 (State.dyingEnd s) := by
  unfold State.dyingEnd
  grind [← Keeps.foldl, ← Keeps.foldl1, ← Keeps.mk', ← State.endOctx_keeps]

theorem State.takeTurn_keeps {s0 : State} {s : State} (h_s : Keeps s0 s) (c : Nat) :
        Keeps s0 (State.takeTurn s c) := by
  unfold State.takeTurn
  grind [← Keeps.foldl, ← Keeps.foldl1, ← Keeps.mk']

theorem State.sentinelBeat_keeps {s0 : State} {s : State} (h_s : Keeps s0 s) :
        Keeps s0 (State.sentinelBeat s) := by
  unfold State.sentinelBeat
  grind [← Keeps.foldl, ← Keeps.foldl1, ← Keeps.mk']

theorem State.floorCount_keeps {s0 : State} {s : State} (h_s : Keeps s0 s) (cls : Nat) :
        Keeps s0 (State.floorCount s cls) := by
  unfold State.floorCount
  grind [← Keeps.foldl, ← Keeps.foldl1, ← Keeps.mk']

theorem State.opBeat_keeps {s0 : State} {s : State} (h_s : Keeps s0 s) (c : Nat) :
        Keeps s0 (State.opBeat s c) := by
  unfold State.opBeat
  grind [← Keeps.foldl, ← Keeps.foldl1, ← Keeps.mk', ← State.count_keeps, ← State.writeOut_keeps, ← State.give_keeps, ←
    State.modOctx_keeps, ← State.floorCount_keeps]

theorem State.giveBeat_keeps {s0 : State} {s : State} (h_s : Keeps s0 s) :
        Keeps s0 (State.giveBeat s) := by
  unfold State.giveBeat
  grind [← Keeps.foldl, ← Keeps.foldl1, ← Keeps.mk', ← State.give_keeps, ← State.setTile_keeps, ← State.count_keeps, ←
    State.dropTile_keeps, ← State.prepare_keeps, ← State.takeTurn_keeps, ← State.sentinelBeat_keeps, ← State.opBeat_keeps]

theorem execBeatStart_keeps {s0 : State} {s : State} (h_s : Keeps s0 s) :
        ∀ t_, execBeatStart s = .next t_ → Keeps s0 t_ := by
  unfold execBeatStart
  dsimp only
  repeat' split
  all_goals grind (splits := 40) (gen := 40) (ematch := 40) [← Keeps.foldl, ← Keeps.foldl1, ← Keeps.mk', live, ←
    State.advanceDev_keeps, ← State.fencesDue_keeps, ← State.dyingEnd_keeps, ← State.droveStop_keeps, ← State.giveBeat_keeps]

theorem execDroveTempBinsWrite_keeps {s0 : State} (who : Path) (v : BitVec 56) {s : State} (h_s : Keeps s0 s) :
        ∀ t_, execDroveTempBinsWrite who v s = .next t_ → Keeps s0 t_ := by
  unfold execDroveTempBinsWrite
  grind [← Keeps.foldl, ← Keeps.foldl1, ← Keeps.mk', ← State.access_keeps, ← State.writeTempBins_keeps, Keeps1]

theorem execDroveTileUnfence_keeps {s0 : State} (who : Path) (t : BitVec 8) {s : State} (h_s : Keeps s0 s) :
        ∀ t_, execDroveTileUnfence who t s = .next t_ → Keeps s0 t_ := by
  unfold execDroveTileUnfence
  grind [← Keeps.foldl, ← Keeps.foldl1, ← Keeps.mk', ← State.access_keeps, ← State.tileCmd_keeps, Keeps1]

theorem State.commitOps_keeps {s0 : State} {s : State} (h_s : Keeps s0 s) (c : Nat) (b : CtxBeat) :
        Keeps s0 (State.commitOps s c b) := by
  unfold State.commitOps
  extract_lets old s1 h dr s2 s3 s4 worked s5 s6 s7
  have h1 : Keeps s0 s1 := State.modOctx_keeps h_s _ _
  clear_value s1
  have h2 : Keeps s0 s2 := h1.mk' _ _ _ _ _ _ _ _ _ _ _ _ _ _
  have h3 : Keeps s0 s3 := State.tally_keeps (State.count_keeps h2 _ _ _) _ _ _
  have h4 : Keeps s0 s4 := Keeps.foldl h3 (fun s t h => State.tally_keeps h _ _ _)
  clear_value s4
  have h5 : Keeps s0 s5 := Keeps.foldl h4 (fun s x h => by
    split
    · exact State.countIn_keeps h _ _ _ _
    · exact h)
  clear_value s5
  have h6 : Keeps s0 s6 := by
    show Keeps s0 (if _ then _ else _)
    split
    · exact State.raise_keeps h5 _ _ _ _ _ _
    · exact h5
  clear_value s6
  have h7 : Keeps s0 s7 := by
    show Keeps s0 (if _ then _ else _)
    split
    · exact State.raise_keeps h6 _ _ _ _ _ _
    · exact h6
  clear_value s7
  split
  · exact State.draw_keeps h7
  · exact h7

theorem State.condemn_keeps {s0 : State} {s : State} (h_s : Keeps s0 s) (c : Nat) (b : CtxBeat) (tiles : List Nat) (retry : Bool) :
        Keeps s0 (State.condemn s c b tiles retry) := by
  unfold State.condemn
  grind [← Keeps.foldl, ← Keeps.foldl1, ← Keeps.mk', ← State.count_keeps, ← State.tally_keeps, ← State.condemnTile_keeps, ←
    State.tileStat_keeps, ← State.modOctx_keeps, ← State.raise_keeps, ← State.endOctx_keeps]

theorem State.stopMember_keeps {s0 : State} {s : State} (h_s : Keeps s0 s) (c : Nat) (k : Nat) (e : Stop) (space : Nat) :
        Keeps s0 (State.stopMember s c k e space) := by
  unfold State.stopMember
  grind [← Keeps.foldl, ← Keeps.foldl1, ← Keeps.mk', ← State.count_keeps, ← State.opFault_keeps, ← State.opStop_keeps]

theorem State.opBeatEnd_keeps {s0 : State} {s : State} (h_s : Keeps s0 s) (c : Nat) (units : Nat) (events : List TileEvent) (ue :
    List Nat) (bad : List AccError) :
        Keeps s0 (State.opBeatEnd s c units events ue bad) := by
  unfold State.opBeatEnd
  repeat' split
  all_goals grind (splits := 20) (gen := 20) (ematch := 20) [← Keeps.foldl, ← Keeps.foldl1, ← Keeps.mk', ← State.histCount_keeps, ←
    State.accBad_keeps, ← State.raise_keeps, ← State.runBeat_keeps, ← State.tileEvent_keeps, ← State.condemn_keeps, ←
    State.stopMember_keeps, ← State.commitOps_keeps]

theorem execDroveTileSwitch_keeps {s0 : State} (who : Path) (t : BitVec 8) {s : State} (h_s : Keeps s0 s) :
        ∀ t_, execDroveTileSwitch who t s = .next t_ → Keeps s0 t_ := by
  unfold execDroveTileSwitch
  grind [← Keeps.foldl, ← Keeps.foldl1, ← Keeps.mk', ← State.access_keeps, ← State.tileCmd_keeps, Keeps1]

theorem State.droveOverruns_keeps {s0 : State} {s : State} (h_s : Keeps s0 s) :
        Keeps s0 (State.droveOverruns s).1 := by
  unfold State.droveOverruns
  grind [← Keeps.foldl, ← Keeps.foldl1, ← Keeps.mk', ← State.raise_keeps, ← State.count_keeps]

theorem State.moveEnd_keeps {s0 : State} {s : State} (h_s : Keeps s0 s) (c : Nat) (hbmError : Bool) :
        Keeps s0 (State.moveEnd s c hbmError) := by
  unfold State.moveEnd
  grind [← Keeps.foldl, ← Keeps.foldl1, ← Keeps.mk', ← State.modOctx_keeps, ← State.lastErr_keeps, ← State.raise_keeps, ←
    State.count_keeps]

theorem State.lostWords_keeps {s0 : State} {s : State} (h_s : Keeps s0 s) (bad : List AccError) :
        Keeps s0 (State.lostWords s bad) := by
  unfold State.lostWords
  grind [← Keeps.foldl, ← Keeps.foldl1, ← Keeps.mk', ← State.raise_keeps, ← State.accBad_keeps]

theorem execBeatCommit_keeps {s0 : State} (units : Nat) (events : List TileEvent) (ue : List Nat) (bad : List AccError) {s : State}
    (h_s : Keeps s0 s) :
        ∀ t_, execBeatCommit units events ue bad s = .next t_ → Keeps s0 t_ := by
  unfold execBeatCommit
  grind [← Keeps.foldl, ← Keeps.foldl1, ← Keeps.mk', live, ← State.give_keeps, ← State.opBeatEnd_keeps, ← State.moveEnd_keeps, ←
    State.lostWords_keeps, ← State.moveEvents_keeps, ← State.histCount_keeps, ← State.tileEvent_keeps, ← State.sentinelFail_keeps, ←
     State.setTile_keeps, ← State.rejoin_keeps, ← State.switchDone_keeps, ← State.stagedBad_keeps]

/-! ### Common -/

theorem State.slotFreed_keeps {s0 : State} {s : State} (h_s : Keeps s0 s) (k : Nat) :
        Keeps s0 (State.slotFreed s k) := by
  unfold State.slotFreed
  grind [← Keeps.foldl, ← Keeps.foldl1, ← Keeps.mk', ← State.unprealloc_keeps]

theorem State.setJob_keeps {s0 : State} {s : State} (h_s : Keeps s0 s) (r : Nat) (j : DmaJob) :
        Keeps s0 (State.setJob s r j) := by
  unfold State.setJob
  grind [← Keeps.foldl, ← Keeps.foldl1, ← Keeps.mk']

theorem State.dmaEnd_keeps {s0 : State} {s : State} (h_s : Keeps s0 s) (r : Nat) :
        Keeps s0 (State.dmaEnd s r) := by
  unfold State.dmaEnd
  grind [← Keeps.foldl, ← Keeps.foldl1, ← Keeps.mk', ← State.putRecord_keeps, ← State.setJob_keeps, ← State.countIn_keeps, ←
    State.stopDmaRing_keeps]

theorem State.dmaFault_keeps {s0 : State} {s : State} (h_s : Keeps s0 s) (r : Nat) (status : Nat) (addr : Nat) :
        Keeps s0 (State.dmaFault s r status addr) := by
  unfold State.dmaFault
  grind [← Keeps.foldl, ← Keeps.foldl1, ← Keeps.mk', ← State.setJob_keeps]

theorem State.jobAcked_keeps {s0 : State} {s : State} (h_s : Keeps s0 s) (r : Nat) :
        Keeps s0 (State.jobAcked s r) := by
  unfold State.jobAcked
  grind [← Keeps.foldl, ← Keeps.foldl1, ← Keeps.mk']

theorem State.dmaWrote_keeps {s0 : State} {s : State} (h_s : Keeps s0 s) (r : Nat) (n : Nat) :
        Keeps s0 (State.dmaWrote s r n) := by
  unfold State.dmaWrote
  grind [← Keeps.foldl, ← Keeps.foldl1, ← Keeps.mk', ← State.tally_keeps, ← State.jobAcked_keeps, ← State.setJob_keeps]

theorem State.dmaBlocked_keeps {s0 : State} {s : State} (h_s : Keeps s0 s) (r : Nat) (addr : Nat) (x : DmaReach) :
        Keeps s0 (State.dmaBlocked s r addr x) := by
  unfold State.dmaBlocked
  grind [← Keeps.foldl, ← Keeps.foldl1, ← Keeps.mk', ← State.setJob_keeps, ← State.dmaFault_keeps, ← State.faultRecord_keeps, ←
    State.commonFaultBits_keeps]

theorem State.dmaRequest_keeps {s0 : State} {s : State} (h_s : Keeps s0 s) (r : Nat) (op : Nat) (dev : Nat) (addr : Nat) (n : Nat)
    (data : PBytes) :
        ∀ t_, State.dmaRequest s r op dev addr n data = some t_ → Keeps s0 t_ := by
  unfold State.dmaRequest
  grind [← Keeps.foldl, ← Keeps.foldl1, ← Keeps.mk', State.prealloc_keeps, ← State.setJob_keeps, ← State.send_keeps]

theorem State.dmaRead_keeps {s0 : State} {s : State} (h_s : Keeps s0 s) (r : Nat) :
        Keeps s0 (State.dmaRead s r) := by
  unfold State.dmaRead
  dsimp only
  repeat' split
  all_goals grind [← Keeps.foldl, ← Keeps.foldl1, ← Keeps.mk', ← State.setJob_keeps, ← State.dmaFault_keeps, ← State.tlbTouch_keeps,
     ← State.dmaBlocked_keeps, State.dmaRequest_keeps, ← Keeps.getD]

theorem State.dmaWriteOut_keeps {s0 : State} {s : State} (h_s : Keeps s0 s) (r : Nat) (l : PBytes) :
        Keeps s0 (State.dmaWriteOut s r l) := by
  unfold State.dmaWriteOut
  dsimp only
  repeat' split
  all_goals grind [← Keeps.foldl, ← Keeps.foldl1, ← Keeps.mk', ← State.dmaWrote_keeps, ← State.hostWrite_keeps, ←
    State.hbmWriteP_keeps, ← State.dmaFault_keeps, ← State.mirrorOf_keeps, ← State.setJob_keeps, ← State.tlbTouch_keeps, ←
    State.dmaBlocked_keeps, State.dmaRequest_keeps, ← Keeps.getD]

theorem State.dmaPump_keeps {s0 : State} {s : State} (h_s : Keeps s0 s) (r : Nat) (x2 : Nat) :
        Keeps s0 (State.dmaPump s r x2) := by
  induction x2 generalizing s with
  | zero => exact h_s
  | succ n ih =>
    unfold State.dmaPump
    extract_lets j
    split
    · exact h_s
    · rename_i s1 k _
      have h1 : Keeps s0 s1 := by
        show Keeps s0 (match j.buf with | none => _ | some l => _)
        split
        · exact State.dmaRead_keeps h_s _
        · exact State.dmaWriteOut_keeps h_s _ _
      clear_value s1
      split
      · exact h1
      · exact ih h1

theorem State.slotAnswered_keeps {s0 : State} {s : State} (h_s : Keeps s0 s) (k : Nat) (status : Nat) (poison : Bool) (mlost : Bool)
    (data : List Byte) (off : Nat) :
        Keeps s0 (State.slotAnswered s k status poison mlost data off) := by
  unfold State.slotAnswered
  grind [← Keeps.foldl, ← Keeps.foldl1, ← Keeps.mk', ← State.slotFreed_keeps, ← State.setJob_keeps, ← State.dmaFault_keeps, ←
    State.dmaWrote_keeps, ← State.dmaPump_keeps]

theorem State.requestsFail_keeps {s0 : State} {s : State} (h_s : Keeps s0 s) (dev : Nat) :
        Keeps s0 (State.requestsFail s dev) := by
  unfold State.requestsFail
  grind [← Keeps.foldl, ← Keeps.foldl1, ← Keeps.mk', ← State.slotAnswered_keeps]

theorem State.resyncSkip_keeps {s0 : State} {s : State} (h_s : Keeps s0 s) (x1 : List (Nat × List Nat)) :
        Keeps s0 (State.resyncSkip s x1) := by
  induction x1 generalizing s with
  | nil => unfold State.resyncSkip; exact h_s.mk' _ _ _ _ _ _ _ _ _ _ _ _ _ _
  | cons x rest ih =>
    obtain ⟨p, os⟩ := x
    unfold State.resyncSkip
    extract_lets left s1
    have k1 : Keeps s0 s1 := State.count_keeps h_s _ _ _
    split
    · exact ih k1
    · exact k1.mk' _ _ _ _ _ _ _ _ _ _ _ _ _ _

theorem State.resyncPump_keeps {s0 : State} {s : State} (h_s : Keeps s0 s) :
        Keeps s0 (State.resyncPump s) := by
  unfold State.resyncPump
  grind [← Keeps.foldl, ← Keeps.foldl1, ← Keeps.mk', ← State.resyncSkip_keeps, ← State.sendMirror_keeps, ← State.setOb_keeps]

theorem State.resyncPage_keeps {s0 : State} {s : State} (h_s : Keeps s0 s) (good : Bool) :
        Keeps s0 (State.resyncPage s good) := by
  unfold State.resyncPage
  grind [← Keeps.foldl, ← Keeps.foldl1, ← Keeps.mk', ← State.setLost_keeps, ← State.count_keeps, ← State.recheckHeld_keeps, ←
    State.resyncPump_keeps]

theorem State.resyncAck_keeps {s0 : State} {s : State} (h_s : Keeps s0 s) (good : Bool) :
        Keeps s0 (State.resyncAck s good) := by
  unfold State.resyncAck
  grind [← Keeps.foldl, ← Keeps.foldl1, ← Keeps.mk', ← State.resyncPage_keeps, ← State.resyncPump_keeps]

theorem State.mirrorEnd_keeps {s0 : State} {s : State} (h_s : Keeps s0 s) (id : Nat) (good : Bool) :
        Keeps s0 (State.mirrorEnd s id good) := by
  unfold State.mirrorEnd
  grind [← Keeps.foldl, ← Keeps.foldl1, ← Keeps.mk', ← State.count_keeps, ← State.mirrorLost_keeps, ← State.requestMirrored_keeps, ←
     State.setCreq_keeps, ← State.jobAcked_keeps, ← State.resyncAck_keeps]

theorem State.mirrorsFail_keeps {s0 : State} {s : State} (h_s : Keeps s0 s) :
        Keeps s0 (State.mirrorsFail s) := by
  unfold State.mirrorsFail
  grind [← Keeps.foldl, ← Keeps.foldl1, ← Keeps.mk', ← State.mirrorEnd_keeps]

theorem State.buddyLost_keeps {s0 : State} {s : State} (h_s : Keeps s0 s) :
        Keeps s0 (State.buddyLost s) := by
  unfold State.buddyLost
  grind [← Keeps.foldl, ← Keeps.foldl1, ← Keeps.mk', ← State.mirrorLost_keeps, ← State.mirrorsFail_keeps]

theorem State.inval_keeps {s0 : State} {s : State} (h_s : Keeps s0 s) (l : List Byte) :
        Keeps s0 (State.inval s l).1 := by
  unfold State.inval
  grind [← Keeps.foldl, ← Keeps.foldl1, ← Keeps.mk', ← State.tlbDrop_keeps, ← State.setOb_keeps]

theorem State.resync_keeps {s0 : State} {s : State} (h_s : Keeps s0 s) (p : Nat) :
        Keeps s0 (State.resync s p) := by
  unfold State.resync
  grind [← Keeps.foldl, ← Keeps.foldl1, ← Keeps.mk', ← State.setOb_keeps, ← State.resyncPump_keeps]

theorem State.resyncCmd_keeps {s0 : State} {s : State} (h_s : Keeps s0 s) (p : Nat) :
        Keeps s0 (State.resyncCmd s p).1 := by
  unfold State.resyncCmd
  grind [← Keeps.foldl, ← Keeps.foldl1, ← Keeps.mk', ← State.resync_keeps]

theorem State.dmaCmd_keeps {s0 : State} {s : State} (h_s : Keeps s0 s) (r : Nat) (cmd : Nat) :
        Keeps s0 (State.dmaCmd s r cmd).1 := by
  unfold State.dmaCmd
  grind [← Keeps.foldl, ← Keeps.foldl1, ← Keeps.mk', ← State.setRing_keeps]

theorem execCommonFaultPop_keeps {s0 : State} {s : State} (h_s : Keeps s0 s) :
        ∀ t_, execCommonFaultPop s = .next t_ → Keeps s0 t_ := by
  unfold execCommonFaultPop
  grind [← Keeps.foldl, ← Keeps.foldl1, ← Keeps.mk', readable, ← State.emit_keeps]

theorem State.lostRecord_keeps {s0 : State} {s : State} (h_s : Keeps s0 s) (rec : Nat) :
        Keeps s0 (State.lostRecord s rec) := by
  unfold State.lostRecord
  grind [← Keeps.foldl, ← Keeps.foldl1, ← Keeps.mk', ← State.setOb_keeps, ← State.hbmWrite_keeps]

theorem State.lostWalk_keeps {s0 : State} {s : State} (h_s : Keeps s0 s) (st : Nat) :
        Keeps s0 (State.lostWalk s st) := by
  unfold State.lostWalk
  grind [← Keeps.foldl, ← Keeps.foldl1, ← Keeps.mk', ← State.lostRecord_keeps]

theorem execLostWalk_keeps {s0 : State} {s : State} (h_s : Keeps s0 s) :
        ∀ t_, execLostWalk s = .next t_ → Keeps s0 t_ := by
  unfold execLostWalk
  grind [← Keeps.foldl, ← Keeps.foldl1, ← Keeps.mk', live, ← State.lostWalk_keeps]

theorem State.accessDone_keeps {s0 : State} {s : State} (h_s : Keeps s0 s) (id : Nat) (ue : Bool) :
        Keeps s0 (State.accessDone s id ue) := by
  unfold State.accessDone
  grind [← Keeps.foldl, ← Keeps.foldl1, ← Keeps.mk', ← State.wakeReqs_keeps, ← State.dropCreq_keeps, ← State.answer_keeps, ←
    State.hbmWrite_keeps, ← State.mirrorWrite_keeps, ← State.setCreq_keeps, ← State.requestMirrored_keeps]

theorem execCommonHbmAccessComplete_keeps {s0 : State} (unit : Fin 16) (nth : Fin 4096) (ue : Bool) {s : State} (h_s : Keeps s0 s) :
        ∀ t_, execCommonHbmAccessComplete unit nth ue s = .next t_ → Keeps s0 t_ := by
  unfold execCommonHbmAccessComplete
  grind [← Keeps.foldl, ← Keeps.foldl1, ← Keeps.mk', live, ← State.accessDone_keeps]

theorem State.dmaWake_keeps {s0 : State} {s : State} (h_s : Keeps s0 s) :
        Keeps s0 (State.dmaWake s) := by
  unfold State.dmaWake
  grind [← Keeps.foldl, ← Keeps.foldl1, ← Keeps.mk', ← State.dmaPump_keeps]

theorem execCommonResponseReceive_keeps {s0 : State} (paddock : Fin 16) (bytes : List Byte) {s : State} (h_s : Keeps s0 s) :
        ∀ t_, execCommonResponseReceive paddock bytes s = .next t_ → Keeps s0 t_ := by
  unfold execCommonResponseReceive
  grind [← Keeps.foldl, ← Keeps.foldl1, ← Keeps.mk', live, ← State.count_keeps, ← State.slotAnswered_keeps]

theorem State.slotTimeout_keeps {s0 : State} {s : State} (h_s : Keeps s0 s) (k : Nat) :
        Keeps s0 (State.slotTimeout s k) := by
  unfold State.slotTimeout
  grind [← Keeps.foldl, ← Keeps.foldl1, ← Keeps.mk', ← State.raise_keeps, ← State.slotFreed_keeps, ← State.setJob_keeps, ←
    State.dmaFault_keeps, ← State.dmaPump_keeps]

theorem execDmaRingDisable_keeps {s0 : State} (who : Path) (r : Fin 64) {s : State} (h_s : Keeps s0 s) :
        ∀ t_, execDmaRingDisable who r s = .next t_ → Keeps s0 t_ := by
  unfold execDmaRingDisable
  grind [← Keeps.foldl, ← Keeps.foldl1, ← Keeps.mk', ← State.access_keeps, ← State.dmaCmd_keeps, Keeps1]

theorem execMirrorTimeout_keeps {s0 : State} (id : Nat) {s : State} (h_s : Keeps s0 s) :
        ∀ t_, execMirrorTimeout id s = .next t_ → Keeps s0 t_ := by
  unfold execMirrorTimeout
  grind [← Keeps.foldl, ← Keeps.foldl1, ← Keeps.mk', live, ← State.mirrorEnd_keeps, ← State.advanceTo_keeps]

theorem execCommonRequestTimeout_keeps {s0 : State} (paddock : Fin 16) (slot : Fin 1024) {s : State} (h_s : Keeps s0 s) :
        ∀ t_, execCommonRequestTimeout paddock slot s = .next t_ → Keeps s0 t_ := by
  unfold execCommonRequestTimeout
  grind [← Keeps.foldl, ← Keeps.foldl1, ← Keeps.mk', live, ← State.slotTimeout_keeps, ← State.advanceTo_keeps]

theorem execLostWalkDone_keeps {s0 : State} {s : State} (h_s : Keeps s0 s) :
        ∀ t_, execLostWalkDone s = .next t_ → Keeps s0 t_ := by
  unfold execLostWalkDone
  grind [← Keeps.foldl, ← Keeps.foldl1, ← Keeps.mk', live, ← State.event_keeps, ← State.setOb_keeps]

theorem State.walkDone_keeps {s0 : State} {s : State} (h_s : Keeps s0 s) (u : Nat) :
        Keeps s0 (State.walkDone s u) := by
  unfold State.walkDone
  grind [← Keeps.foldl, ← Keeps.foldl1, ← Keeps.mk', ← State.checkReq_keeps, ← State.tlbUse_keeps, ← State.failReq_keeps]

theorem execCommonWalkComplete_keeps {s0 : State} (unit : Fin 16) {s : State} (h_s : Keeps s0 s) :
        ∀ t_, execCommonWalkComplete unit s = .next t_ → Keeps s0 t_ := by
  unfold execCommonWalkComplete
  grind [← Keeps.foldl, ← Keeps.foldl1, ← Keeps.mk', live, ← State.walkDone_keeps]

theorem execDmaRingRestart_keeps {s0 : State} (who : Path) (r : Fin 64) {s : State} (h_s : Keeps s0 s) :
        ∀ t_, execDmaRingRestart who r s = .next t_ → Keeps s0 t_ := by
  unfold execDmaRingRestart
  grind [← Keeps.foldl, ← Keeps.foldl1, ← Keeps.mk', ← State.access_keeps, ← State.dmaCmd_keeps, Keeps1]

theorem execCommonInval_keeps {s0 : State} (who : Path) (data : List Byte) {s : State} (h_s : Keeps s0 s) :
        ∀ t_, execCommonInval who data s = .next t_ → Keeps s0 t_ := by
  unfold execCommonInval
  grind [← Keeps.foldl, ← Keeps.foldl1, ← Keeps.mk', ← State.access_keeps, ← State.inval_keeps, Keeps1]

theorem execCommonHoldExpire_keeps {s0 : State} (w : HoldWaiter) {s : State} (h_s : Keeps s0 s) :
        ∀ t_, execCommonHoldExpire w s = .next t_ → Keeps s0 t_ := by
  unfold execCommonHoldExpire
  grind [← Keeps.foldl, ← Keeps.foldl1, ← Keeps.mk', live, ← State.count_keeps, ← State.advanceTo_keeps, ← State.wakeReqs_keeps, ←
    State.dropCreq_keeps, ← State.answer_keeps, ← State.dmaFault_keeps]

theorem execDmaTransferComplete_keeps {s0 : State} (r : Fin 64) {s : State} (h_s : Keeps s0 s) :
        ∀ t_, execDmaTransferComplete r s = .next t_ → Keeps s0 t_ := by
  unfold execDmaTransferComplete
  grind [← Keeps.foldl, ← Keeps.foldl1, ← Keeps.mk', live, ← State.dmaEnd_keeps, ← State.dmaPump_keeps]

theorem execCommonResync_keeps {s0 : State} (who : Path) (pasture : Fin 4096) {s : State} (h_s : Keeps s0 s) :
        ∀ t_, execCommonResync who pasture s = .next t_ → Keeps s0 t_ := by
  unfold execCommonResync
  grind [← Keeps.foldl, ← Keeps.foldl1, ← Keeps.mk', ← State.access_keeps, ← State.resyncCmd_keeps, Keeps1]

theorem State.takeReq_keeps {s0 : State} {s : State} (h_s : Keeps s0 s) (sink : Nat) (bytes : List Byte) :
        Keeps s0 (State.takeReq s sink bytes) := by
  unfold State.takeReq
  repeat' split
  all_goals grind (splits := 20) (gen := 20) (ematch := 20) [← Keeps.foldl, ← Keeps.foldl1, ← Keeps.mk', ← State.tally_keeps, ←
    State.count_keeps, ← State.setCreq_keeps, ← State.admitReq_keeps]

theorem execCommonRequestReceive_keeps {s0 : State} (paddock : Fin 16) (bytes : List Byte) {s : State} (h_s : Keeps s0 s) :
        ∀ t_, execCommonRequestReceive paddock bytes s = .next t_ → Keeps s0 t_ := by
  unfold execCommonRequestReceive
  grind [← Keeps.foldl, ← Keeps.foldl1, ← Keeps.mk', live, ← State.takeReq_keeps]

theorem execDmaDescriptorStart_keeps {s0 : State} (r : Fin 64) {s : State} (h_s : Keeps s0 s) :
        ∀ t_, execDmaDescriptorStart r s = .next t_ → Keeps s0 t_ := by
  unfold execDmaDescriptorStart
  grind [← Keeps.foldl, ← Keeps.foldl1, ← Keeps.mk', live, ← State.setRing_keeps, ← State.dmaEnd_keeps, ← State.setJob_keeps, ←
    State.dmaPump_keeps]

theorem execMirrorAckReceive_keeps {s0 : State} (bytes : List Byte) {s : State} (h_s : Keeps s0 s) :
        ∀ t_, execMirrorAckReceive bytes s = .next t_ → Keeps s0 t_ := by
  unfold execMirrorAckReceive
  grind [← Keeps.foldl, ← Keeps.foldl1, ← Keeps.mk', live, ← State.mirrorEnd_keeps]

theorem execCommonInvalComplete_keeps {s0 : State} {s : State} (h_s : Keeps s0 s) :
        ∀ t_, execCommonInvalComplete s = .next t_ → Keeps s0 t_ := by
  unfold execCommonInvalComplete
  grind [← Keeps.foldl, ← Keeps.foldl1, ← Keeps.mk', live, ← State.raise_keeps, ← State.setOb_keeps, ← State.dmaWake_keeps, ←
    State.recheckHeld_keeps]

end Sys2Proof.Machine
end

