-- ==== Sys2Proof/Laws/Keeps6.lean ====
section
/-!
SUPPORT. What the operations of DroveCmds, Muster, Fence, MusterCmds keep (`Keeps`), one lemma per operation.
-/

namespace Sys2Proof.Machine

set_option Elab.async false

/-! ### DroveCmds -/

theorem State.waitOver_keeps {s0 : State} {s : State} (h_s : Keeps s0 s) (w : RemoteWait) :
        Keeps s0 (State.waitOver s w) := by
  unfold State.waitOver
  grind [← Keeps.foldl, ← Keeps.foldl1, ← Keeps.mk', ← State.unprealloc_keeps]

theorem State.waitsFail_keeps {s0 : State} {s : State} (h_s : Keeps s0 s) (dev : Nat) :
        Keeps s0 (State.waitsFail s dev) := by
  unfold State.waitsFail
  grind [← Keeps.foldl, ← Keeps.foldl1, ← Keeps.mk', ← State.putRecord_keeps, ← State.waitOver_keeps]

theorem State.suspCmd_keeps {s0 : State} {s : State} (h_s : Keeps s0 s) (c : Nat) (cmd : Nat) :
        Keeps s0 (State.suspCmd s c cmd).1 := by
  unfold State.suspCmd
  grind [← Keeps.foldl, ← Keeps.foldl1, ← Keeps.mk', ← State.unsuspend_keeps, ← State.endOctx_keeps]

theorem State.enterCtx_keeps {s0 : State} {s : State} (h_s : Keeps s0 s) (c : Nat) (ops : List Op) (cls : Nat) (queue : Nat) :
        Keeps s0 (State.enterCtx s c ops cls queue) := by
  unfold State.enterCtx
  grind [← Keeps.foldl, ← Keeps.foldl1, ← Keeps.mk', ← State.count_keeps]

theorem State.admitRemote_keeps {s0 : State} {s : State} (h_s : Keeps s0 s) (dev : Nat) :
        Keeps s0 (State.admitRemote s dev) := by
  unfold State.admitRemote
  grind [← Keeps.foldl, ← Keeps.foldl1, ← Keeps.mk', ← State.opEnd_keeps, ← State.enterCtx_keeps]

theorem execDroveSuspAbort_keeps {s0 : State} (who : Path) (c : Fin 256) {s : State} (h_s : Keeps s0 s) :
        ∀ t_, execDroveSuspAbort who c s = .next t_ → Keeps s0 t_ := by
  unfold execDroveSuspAbort
  grind [← Keeps.foldl, ← Keeps.foldl1, ← Keeps.mk', ← State.access_keeps, ← State.suspCmd_keeps, Keeps1]

theorem State.ringReg_keeps {s0 : State} {s : State} (h_s : Keeps s0 s) (who : RingWriter) (dma : Bool) (r : Nat) (i : Nat) (v :
    Nat) :
        Keeps s0 (State.ringReg s who dma r i v) := by
  unfold State.ringReg
  grind [← Keeps.foldl, ← Keeps.foldl1, ← Keeps.mk', ← State.ringWrite_keeps, ← State.setRing_keeps]

theorem State.hostStop_keeps {s0 : State} {s : State} (h_s : Keeps s0 s) (dma : Bool) (r : Nat) (f : HostFault) :
        Keeps s0 (State.hostStop s dma r f) := by
  unfold State.hostStop
  grind [← Keeps.foldl, ← Keeps.foldl1, ← Keeps.mk', ← State.stopDmaRing_keeps, ← State.event_keeps, ← State.setRing_keeps]

theorem execRemoteRequestReceive_keeps {s0 : State} (paddock : Fin 16) (bytes : List Byte) {s : State} (h_s : Keeps s0 s) :
        ∀ t_, execRemoteRequestReceive paddock bytes s = .next t_ → Keeps s0 t_ := by
  unfold execRemoteRequestReceive
  grind [← Keeps.foldl, ← Keeps.foldl1, ← Keeps.mk', live, ← State.opEnd_keeps]

theorem State.ctxEnd_keeps {s0 : State} {s : State} (h_s : Keeps s0 s) (c : Nat) (lost : Bool) :
        Keeps s0 (State.ctxEnd s c lost) := by
  unfold State.ctxEnd
  grind [← Keeps.foldl, ← Keeps.foldl1, ← Keeps.mk', ← State.opEnd_keeps, ← State.freeOctx_keeps]

theorem execRemoteTimeout_keeps {s0 : State} (n : Nat) {s : State} (h_s : Keeps s0 s) :
        ∀ t_, execRemoteTimeout n s = .next t_ → Keeps s0 t_ := by
  unfold execRemoteTimeout
  grind [← Keeps.foldl, ← Keeps.foldl1, ← Keeps.mk', live, ← State.raise_keeps, ← State.waitOver_keeps, ← State.advanceTo_keeps, ←
    State.putRecord_keeps]

theorem State.hostFault_keeps {s0 : State} {s : State} (h_s : Keeps s0 s) (f : HostFault) :
        Keeps s0 (State.hostFault s f) := by
  unfold State.hostFault
  grind [← Keeps.foldl, ← Keeps.foldl1, ← Keeps.mk', ← State.raise_keeps, ← State.tally_keeps, ← State.count_keeps]

theorem execOperationComplete_keeps {s0 : State} (c : Fin 256) {s : State} (h_s : Keeps s0 s) :
        ∀ t_, execOperationComplete c s = .next t_ → Keeps s0 t_ := by
  unfold execOperationComplete
  grind [← Keeps.foldl, ← Keeps.foldl1, ← Keeps.mk', live, ← State.ctxEnd_keeps]

theorem execRemoteResponseReceive_keeps {s0 : State} (paddock : Fin 16) (bytes : List Byte) {s : State} (h_s : Keeps s0 s) :
        ∀ t_, execRemoteResponseReceive paddock bytes s = .next t_ → Keeps s0 t_ := by
  unfold execRemoteResponseReceive
  grind [← Keeps.foldl, ← Keeps.foldl1, ← Keeps.mk', live, ← State.raise_keeps, ← State.count_keeps, ← State.waitOver_keeps, ←
    State.hostWrite_keeps, ← State.hbmWrite_keeps, ← State.putRecord_keeps]

theorem State.sendRemote_keeps {s0 : State} {s : State} (h_s : Keeps s0 s) (r : Nat) (d : Nat) :
        ∀ t_, State.sendRemote s r d = some t_ → Keeps s0 t_ := by
  unfold State.sendRemote
  grind [← Keeps.foldl, ← Keeps.foldl1, ← Keeps.mk', State.prealloc_keeps, ← State.send_keeps]

theorem State.admitRing_keeps {s0 : State} {s : State} (h_s : Keeps s0 s) (r : Nat) :
        Keeps s0 (State.admitRing s r) := by
  unfold State.admitRing
  extract_lets x owner
  split
  · exact h_s
  · split
    · exact State.opEnd_keeps (State.setRing_keeps h_s _ _ _) _ _ _
    · split
      · exact Keeps.getD h_s (fun t e => State.sendRemote_keeps (State.setRing_keeps h_s _ _ _) _ _ t e)
      · split
        · exact h_s
        · split
          · exact State.enterCtx_keeps (State.setRing_keeps h_s _ _ _) _ _ _ _
          · exact h_s

theorem execDroveSuspResume_keeps {s0 : State} (who : Path) (c : Fin 256) {s : State} (h_s : Keeps s0 s) :
        ∀ t_, execDroveSuspResume who c s = .next t_ → Keeps s0 t_ := by
  unfold execDroveSuspResume
  grind [← Keeps.foldl, ← Keeps.foldl1, ← Keeps.mk', ← State.access_keeps, ← State.suspCmd_keeps, Keeps1]

theorem execDroveRingConfigWrite_keeps {s0 : State} (who : RingWriter) (dma : Bool) (r : Fin 64) (i : Fin 8) (v : BitVec 64) {s :
    State} (h_s : Keeps s0 s) :
        ∀ t_, execDroveRingConfigWrite who dma r i v s = .next t_ → Keeps s0 t_ := by
  unfold execDroveRingConfigWrite
  grind [← Keeps.foldl, ← Keeps.foldl1, ← Keeps.mk', live, ← State.ringReg_keeps]

theorem execDroveSqDoorbell_keeps {s0 : State} (who : RingWriter) (dma : Bool) (r : Fin 64) (tail : BitVec 16) {s : State} (h_s :
    Keeps s0 s) :
        ∀ t_, execDroveSqDoorbell who dma r tail s = .next t_ → Keeps s0 t_ := by
  unfold execDroveSqDoorbell
  grind [← Keeps.foldl, ← Keeps.foldl1, ← Keeps.mk', live, ← State.tally_keeps, ← State.ringReg_keeps]

theorem State.admitDrover_keeps {s0 : State} {s : State} (h_s : Keeps s0 s) :
        Keeps s0 (State.admitDrover s) := by
  unfold State.admitDrover
  grind [← Keeps.foldl, ← Keeps.foldl1, ← Keeps.mk', ← State.opEnd_keeps, ← State.enterCtx_keeps]

theorem execDroveAdmit_keeps {s0 : State} (from_ : AdmitFrom) {s : State} (h_s : Keeps s0 s) :
        ∀ t_, execDroveAdmit from_ s = .next t_ → Keeps s0 t_ := by
  unfold execDroveAdmit
  grind [← Keeps.foldl, ← Keeps.foldl1, ← Keeps.mk', live, ← State.admitRing_keeps, ← State.admitRemote_keeps, ←
    State.admitDrover_keeps]

theorem execHostAccessFault_keeps {s0 : State} (dma : Bool) (r : Fin 64) (use : HostUse) (f : HostFault) {s : State} (h_s : Keeps s0
    s) :
        ∀ t_, execHostAccessFault dma r use f s = .next t_ → Keeps s0 t_ := by
  unfold execHostAccessFault
  repeat' split
  all_goals grind (splits := 20) (gen := 20) (ematch := 20) [← Keeps.foldl, ← Keeps.foldl1, ← Keeps.mk', live, ←
    State.hostFault_keeps, ← State.setRing_keeps, ← State.draw_keeps, ← State.putRecord_keeps, ← State.hostStop_keeps, ←
    State.dmaFault_keeps, ← State.setJob_keeps, ← State.ctxEnd_keeps]

theorem execDescriptorFetch_keeps {s0 : State} (dma : Bool) (r : Fin 64) {s : State} (h_s : Keeps s0 s) :
        ∀ t_, execDescriptorFetch dma r s = .next t_ → Keeps s0 t_ := by
  unfold execDescriptorFetch
  grind [← Keeps.foldl, ← Keeps.foldl1, ← Keeps.mk', live, ← State.fetch_keeps]

/-! ### Muster -/

theorem State.ctrlTry_keeps {s0 : State} {s : State} (h_s : Keeps s0 s) (b : Nat) (op : Nat) (payload : List Byte) :
        Keeps s0 (State.ctrlTry s b op payload).1 := by
  unfold State.ctrlTry
  grind [← Keeps.foldl, ← Keeps.foldl1, ← Keeps.mk', ← State.sendCtrl_keeps]

theorem State.floodTo_keeps {s0 : State} {s : State} (h_s : Keeps s0 s) (dsts : List Nat) (op : Nat) (payload : List Byte) :
        Keeps s0 (State.floodTo s dsts op payload).1 := by
  unfold State.floodTo
  grind [← Keeps.foldl, ← Keeps.foldl1, ← Keeps.mk', ← State.ctrlTry_keeps, ← State.raise_keeps, ← State.count_keeps]

theorem State.floodKeep_keeps {s0 : State} {s : State} (h_s : Keeps s0 s) (k : FloodSeen) :
        Keeps s0 (State.floodKeep s k) := by
  unfold State.floodKeep
  grind [← Keeps.foldl, ← Keeps.foldl1, ← Keeps.mk']

theorem State.floodIssue_keeps {s0 : State} {s : State} (h_s : Keeps s0 s) (op : Nat) (dev : Nat) (hops : Nat) (serial : Nat) (bell
    : Nat) (arg : Nat) (tail : (List Byte)) :
        Keeps s0 (State.floodIssue s op dev hops serial bell arg tail) := by
  unfold State.floodIssue
  grind [← Keeps.foldl, ← Keeps.foldl1, ← Keeps.mk', ← State.floodTo_keeps, ← State.floodKeep_keeps]

theorem State.floodOwn_keeps {s0 : State} {s : State} (h_s : Keeps s0 s) (op : Nat) (dev : Nat) (serial : Nat) (arg : Nat) :
        Keeps s0 (State.floodOwn s op dev serial arg) := by
  unfold State.floodOwn
  grind [← Keeps.foldl, ← Keeps.foldl1, ← Keeps.mk', ← State.floodIssue_keeps]

theorem State.setDevState_keeps {s0 : State} {s : State} (h_s : Keeps s0 s) (f : Nat) (st : Nat) :
        Keeps s0 (State.setDevState s f st) := by
  unfold State.setDevState
  grind [← Keeps.foldl, ← Keeps.foldl1, ← Keeps.mk', ← State.setRow_keeps]

theorem State.flushBacklog_keeps {s0 : State} {s : State} (h_s : Keeps s0 s) (p : Nat) :
        Keeps s0 (State.flushBacklog s p) := by
  unfold State.flushBacklog
  grind [← Keeps.foldl, ← Keeps.foldl1, ← Keeps.mk']

theorem State.flushPort_keeps {s0 : State} {s : State} (h_s : Keeps s0 s) (p : Nat) :
        Keeps s0 (State.flushPort s p).1 := by
  unfold State.flushPort
  grind [← Keeps.foldl, ← Keeps.foldl1, ← Keeps.mk', ← State.flushBacklog_keeps, ← State.tellProducer_keeps, ←
    State.purgeCopy_keeps, ← State.setCopy_keeps, ← State.leaveVoqs_keeps, ← State.dropFrom_keeps, ← State.dropPort_keeps]

theorem State.setDevNotice_keeps {s0 : State} {s : State} (h_s : Keeps s0 s) (f : Nat) (st : Nat) (bell : Nat) (serial : Nat) :
        Keeps s0 (State.setDevNotice s f st bell serial) := by
  unfold State.setDevNotice
  grind [← Keeps.foldl, ← Keeps.foldl1, ← Keeps.mk', ← State.setRow_keeps]

theorem State.unsuspect_keeps {s0 : State} {s : State} (h_s : Keeps s0 s) (f : Nat) :
        Keeps s0 (State.unsuspect s f) := by
  unfold State.unsuspect
  grind [← Keeps.foldl, ← Keeps.foldl1, ← Keeps.mk', ← State.setDevState_keeps]

theorem State.failover_keeps {s0 : State} {s : State} (h_s : Keeps s0 s) (f : Nat) :
        Keeps s0 (State.failover s f) := by
  unfold State.failover
  grind [← Keeps.foldl, ← Keeps.foldl1, ← Keeps.mk', ← State.flushPort_keeps, ← State.vcCount_keeps, ← State.setOb_keeps]

theorem State.musterHold_keeps {s0 : State} {s : State} (h_s : Keeps s0 s) (f : Nat) :
        Keeps s0 (State.musterHold s f) := by
  unfold State.musterHold
  grind [← Keeps.foldl, ← Keeps.foldl1, ← Keeps.mk', ← State.collHold_keeps, ← State.collNote_keeps, ← State.raise_keeps]

theorem State.loseDevice_keeps {s0 : State} {s : State} (h_s : Keeps s0 s) (f : Nat) (st : Nat) (bell : Nat) (serial : Nat) :
        Keeps s0 (State.loseDevice s f st bell serial) := by
  unfold State.loseDevice
  repeat' split
  all_goals grind (splits := 20) (gen := 20) (ematch := 20) [← Keeps.foldl, ← Keeps.foldl1, ← Keeps.mk', ← State.setDevNotice_keeps,
     ← State.unsuspect_keeps, ← State.failover_keeps, ← State.waitsFail_keeps, ← State.requestsFail_keeps, ← State.buddyLost_keeps,
    ← State.musterHold_keeps, ← State.errLog_keeps, ← State.event_keeps]

theorem State.resumed_keeps {s0 : State} {s : State} (h_s : Keeps s0 s) (f : Nat) (serial : Nat) :
        Keeps s0 (State.resumed s f serial) := by
  unfold State.resumed
  grind [← Keeps.foldl, ← Keeps.foldl1, ← Keeps.mk', ← State.setRow_keeps, ← State.event_keeps, ← State.count_keeps, ←
    State.collUnhold_keeps]

theorem State.floodResumed_keeps {s0 : State} {s : State} (h_s : Keeps s0 s) :
        Keeps s0 (State.floodResumed s) := by
  unfold State.floodResumed
  grind [← Keeps.foldl, ← Keeps.foldl1, ← Keeps.mk', ← State.resumed_keeps, ← State.floodOwn_keeps]

theorem State.endHeld_keeps {s0 : State} {s : State} (h_s : Keeps s0 s) (f : Nat) :
        Keeps s0 (State.endHeld s f) := by
  unfold State.endHeld
  repeat' split
  all_goals grind (splits := 20) (gen := 20) (ematch := 20) [← Keeps.foldl, ← Keeps.foldl1, ← Keeps.mk', ← State.raise_keeps, ←
    State.setDevState_keeps, ← State.collUnrecov_keeps, ← State.event_keeps, ← State.count_keeps]

theorem State.floodUnrecov_keeps {s0 : State} {s : State} (h_s : Keeps s0 s) (g : Nat) :
        Keeps s0 (State.floodUnrecov s g) := by
  unfold State.floodUnrecov
  grind [← Keeps.foldl, ← Keeps.foldl1, ← Keeps.mk', ← State.floodResumed_keeps, ← State.endHeld_keeps, ← State.floodOwn_keeps]

theorem State.recovCheck_keeps {s0 : State} {s : State} (h_s : Keeps s0 s) (shown : List Nat) :
        Keeps s0 (State.recovCheck s shown) := by
  unfold State.recovCheck
  grind [← Keeps.foldl, ← Keeps.foldl1, ← Keeps.mk', ← State.floodUnrecov_keeps, ← State.floodResumed_keeps]

theorem State.noticeRecord_keeps {s0 : State} {s : State} (h_s : Keeps s0 s) (f : Nat) (serial : Nat) (bell : Nat) :
        Keeps s0 (State.noticeRecord s f serial bell) := by
  unfold State.noticeRecord
  grind [← Keeps.foldl, ← Keeps.foldl1, ← Keeps.mk', ← State.loseDevice_keeps, ← State.recovCheck_keeps, ← State.raise_keeps, ←
    State.count_keeps]

theorem State.heartbeats_keeps {s0 : State} {s : State} (h_s : Keeps s0 s) :
        Keeps s0 (State.heartbeats s) := by
  unfold State.heartbeats
  grind [← Keeps.foldl, ← Keeps.foldl1, ← Keeps.mk', ← State.ctrlTry_keeps]

theorem execHeartbeatReceive_keeps {s0 : State} (b : Fin 128) (bytes : List Byte) {s : State} (h_s : Keeps s0 s) :
        ∀ t_, execHeartbeatReceive b bytes s = .next t_ → Keeps s0 t_ := by
  unfold execHeartbeatReceive
  grind [← Keeps.foldl, ← Keeps.foldl1, ← Keeps.mk', live, ← State.tally_keeps, ← State.count_keeps, ← State.unsuspect_keeps]

/-! ### Fence -/

theorem State.dropPen_keeps {s0 : State} {s : State} (h_s : Keeps s0 s) (b : Nat) :
        Keeps s0 (State.dropPen s b).1 := by
  unfold State.dropPen
  grind [← Keeps.foldl, ← Keeps.foldl1, ← Keeps.mk', ← State.setBacklog_keeps, ← State.purgeCopy_keeps]

theorem State.markBlock_keeps {s0 : State} {s : State} (h_s : Keeps s0 s) (b : Nat) (v : Bool) :
        Keeps s0 (State.markBlock s b v) := by
  unfold State.markBlock
  grind [← Keeps.foldl, ← Keeps.foldl1, ← Keeps.mk', ← State.setOb_keeps]

theorem State.blockFence_keeps {s0 : State} {s : State} (h_s : Keeps s0 s) (b : Nat) :
        Keeps s0 (State.blockFence s b) := by
  unfold State.blockFence
  repeat' split
  all_goals grind (splits := 20) (gen := 20) (ematch := 20) [← Keeps.foldl, ← Keeps.foldl1, ← Keeps.mk', ← State.fenceLog_keeps, ←
    State.dropPen_keeps, ← State.portCount_keeps, ← State.flushPort_keeps, ← State.portErr_keeps, ← State.blockDown_keeps, ←
    State.disarm_keeps, ← State.markBlock_keeps, ← State.setPortState_keeps]

theorem State.deviceFence_keeps {s0 : State} {s : State} (h_s : Keeps s0 s) :
        Keeps s0 (State.deviceFence s) := by
  unfold State.deviceFence
  grind [← Keeps.foldl, ← Keeps.foldl1, ← Keeps.mk', ← State.fenceLog_keeps, ← State.setOb_keeps, ← State.blockFence_keeps, ←
    State.droveFenceDevice_keeps]

theorem State.logLost_keeps {s0 : State} {s : State} (h_s : Keeps s0 s) (st : Nat) :
        Keeps s0 (State.logLost s st) := by
  unfold State.logLost
  grind [← Keeps.foldl, ← Keeps.foldl1, ← Keeps.mk']

theorem State.stackFence_keeps {s0 : State} {s : State} (h_s : Keeps s0 s) (st : Nat) :
        Keeps s0 (State.stackFence s st) := by
  unfold State.stackFence
  repeat' split
  all_goals grind (splits := 20) (gen := 20) (ematch := 20) [← Keeps.foldl, ← Keeps.foldl1, ← Keeps.mk', ← State.fenceLog_keeps, ←
    State.droveRoll_keeps, ← State.setOb_keeps, ← State.slotFree_keeps, ← State.blockFence_keeps, ← State.raise_keeps, ←
    State.logLost_keeps, ← State.collFenced_keeps]

theorem State.paddockShut_keeps {s0 : State} {s : State} (h_s : Keeps s0 s) (p : Nat) :
        Keeps s0 (State.paddockShut s p) := by
  unfold State.paddockShut
  grind [← Keeps.foldl, ← Keeps.foldl1, ← Keeps.mk', ← State.flushPort_keeps, ← State.dropPen_keeps, ← State.dropCreq_keeps, ←
    State.answer_keeps]

theorem State.paddockFence_keeps {s0 : State} {s : State} (h_s : Keeps s0 s) (p : Nat) :
        Keeps s0 (State.paddockFence s p) := by
  unfold State.paddockFence
  repeat' split
  all_goals grind (splits := 20) (gen := 20) (ematch := 20) [← Keeps.foldl, ← Keeps.foldl1, ← Keeps.mk', ← State.fenceLog_keeps, ←
    State.setOb_keeps, ← State.blockFence_keeps, ← State.stackFence_keeps, ← State.droveFencePaddock_keeps, ← State.setBank_keeps, ←
     State.paddockShut_keeps, ← State.setRow_keeps, ← State.collFenced_keeps]

theorem State.fenceCmd_keeps {s0 : State} {s : State} (h_s : Keeps s0 s) (op : Nat) (kind : Nat) (unit : Nat) :
        Keeps s0 (State.fenceCmd s op kind unit).1 := by
  unfold State.fenceCmd
  grind [← Keeps.foldl, ← Keeps.foldl1, ← Keeps.mk', ← State.blockFence_keeps, ← State.stackFence_keeps, ← State.paddockFence_keeps,
     ← State.deviceFence_keeps, ← State.blockStart_keeps, ← State.markBlock_keeps, ← State.setOb_keeps]

theorem execFenceStack_keeps {s0 : State} (who : Option Path) (st : BitVec 8) {s : State} (h_s : Keeps s0 s) :
        ∀ t_, execFenceStack who st s = .next t_ → Keeps s0 t_ := by
  unfold execFenceStack
  grind [← Keeps.foldl, ← Keeps.foldl1, ← Keeps.mk', ← State.access_keeps, ← State.fenceCmd_keeps, ← State.stackFence_keeps, Keeps1]

theorem execFencePaddock_keeps {s0 : State} (who : Path) (p : BitVec 8) {s : State} (h_s : Keeps s0 s) :
        ∀ t_, execFencePaddock who p s = .next t_ → Keeps s0 t_ := by
  unfold execFencePaddock
  grind [← Keeps.foldl, ← Keeps.foldl1, ← Keeps.mk', ← State.access_keeps, ← State.fenceCmd_keeps, Keeps1]

theorem execFenceDevice_keeps {s0 : State} (who : Path) {s : State} (h_s : Keeps s0 s) :
        ∀ t_, execFenceDevice who s = .next t_ → Keeps s0 t_ := by
  unfold execFenceDevice
  grind [← Keeps.foldl, ← Keeps.foldl1, ← Keeps.mk', ← State.access_keeps, ← State.fenceCmd_keeps, Keeps1]

theorem execFenceBlock_keeps {s0 : State} (who : Path) (b : BitVec 8) {s : State} (h_s : Keeps s0 s) :
        ∀ t_, execFenceBlock who b s = .next t_ → Keeps s0 t_ := by
  unfold execFenceBlock
  grind [← Keeps.foldl, ← Keeps.foldl1, ← Keeps.mk', ← State.access_keeps, ← State.fenceCmd_keeps, Keeps1]

theorem execUnfenceBlock_keeps {s0 : State} (who : Path) (b : BitVec 8) {s : State} (h_s : Keeps s0 s) :
        ∀ t_, execUnfenceBlock who b s = .next t_ → Keeps s0 t_ := by
  unfold execUnfenceBlock
  grind [← Keeps.foldl, ← Keeps.foldl1, ← Keeps.mk', ← State.access_keeps, ← State.fenceCmd_keeps, Keeps1]

/-! ### MusterCmds -/

theorem State.announceAbsence_keeps {s0 : State} {s : State} (h_s : Keeps s0 s) (a : Nat) :
        Keeps s0 (State.announceAbsence s a) := by
  unfold State.announceAbsence
  grind [← Keeps.foldl, ← Keeps.foldl1, ← Keeps.mk', ← State.floodOwn_keeps]

theorem State.noticeTake_keeps {s0 : State} {s : State} (h_s : Keeps s0 s) (f : Nat) (serial : Nat) (bell : Nat) :
        Keeps s0 (State.noticeTake s f serial bell) := by
  unfold State.noticeTake
  grind [← Keeps.foldl, ← Keeps.foldl1, ← Keeps.mk', ← State.deviceFence_keeps, ← State.raise_keeps, ← State.noticeRecord_keeps]

theorem State.voteCheck_keeps {s0 : State} {s : State} (h_s : Keeps s0 s) (f : Nat) :
        Keeps s0 (State.voteCheck s f) := by
  unfold State.voteCheck
  grind [← Keeps.foldl, ← Keeps.foldl1, ← Keeps.mk', ← State.noticeTake_keeps, ← State.floodOwn_keeps]

theorem State.sendSuspect_keeps {s0 : State} {s : State} (h_s : Keeps s0 s) (f : Nat) :
        Keeps s0 (State.sendSuspect s f) := by
  unfold State.sendSuspect
  grind [← Keeps.foldl, ← Keeps.foldl1, ← Keeps.mk', ← State.floodIssue_keeps]

theorem State.suspect_keeps {s0 : State} {s : State} (h_s : Keeps s0 s) (f : Nat) :
        Keeps s0 (State.suspect s f) := by
  unfold State.suspect
  grind [← Keeps.foldl, ← Keeps.foldl1, ← Keeps.mk', ← State.setDevState_keeps, ← State.voteCheck_keeps, ← State.sendSuspect_keeps,
    ← State.count_keeps]

theorem State.musterTick_keeps {s0 : State} {s : State} (h_s : Keeps s0 s) :
        Keeps s0 (State.musterTick s) := by
  unfold State.musterTick
  grind [← Keeps.foldl, ← Keeps.foldl1, ← Keeps.mk', ← State.suspect_keeps, ← State.heartbeats_keeps]

theorem State.declareFailed_keeps {s0 : State} {s : State} (h_s : Keeps s0 s) (f : Nat) :
        Keeps s0 (State.declareFailed s f) := by
  unfold State.declareFailed
  grind [← Keeps.foldl, ← Keeps.foldl1, ← Keeps.mk', ← State.noticeTake_keeps]

theorem State.sendReplay_keeps {s0 : State} {s : State} (h_s : Keeps s0 s) (f : Nat) :
        Keeps s0 (State.sendReplay s f) := by
  unfold State.sendReplay
  grind [← Keeps.foldl, ← Keeps.foldl1, ← Keeps.mk', ← State.send_keeps]

theorem State.musterResume_keeps {s0 : State} {s : State} (h_s : Keeps s0 s) (f : Nat) :
        Keeps s0 (State.musterResume s f) := by
  unfold State.musterResume
  grind [← Keeps.foldl, ← Keeps.foldl1, ← Keeps.mk', ← State.setDevState_keeps, ← State.recovCheck_keeps, ← State.sendReplay_keeps]

theorem State.musterCmd_keeps {s0 : State} {s : State} (h_s : Keeps s0 s) (op : Nat) (f : Nat) (a : Nat) :
        Keeps s0 (State.musterCmd s op f a).1 := by
  unfold State.musterCmd
  grind [← Keeps.foldl, ← Keeps.foldl1, ← Keeps.mk', ← State.declareFailed_keeps, ← State.musterResume_keeps, ←
    State.floodUnrecov_keeps, ← State.announceAbsence_keeps, ← State.setOb_keeps]

theorem execMusterResume_keeps {s0 : State} (who : Path) (f : BitVec 16) {s : State} (h_s : Keeps s0 s) :
        ∀ t_, execMusterResume who f s = .next t_ → Keeps s0 t_ := by
  unfold execMusterResume
  grind [← Keeps.foldl, ← Keeps.foldl1, ← Keeps.mk', ← State.access_keeps, ← State.musterCmd_keeps, Keeps1]

theorem execMusterDeclareUnrecoverable_keeps {s0 : State} (who : Path) (f : BitVec 16) {s : State} (h_s : Keeps s0 s) :
        ∀ t_, execMusterDeclareUnrecoverable who f s = .next t_ → Keeps s0 t_ := by
  unfold execMusterDeclareUnrecoverable
  grind [← Keeps.foldl, ← Keeps.foldl1, ← Keeps.mk', ← State.access_keeps, ← State.musterCmd_keeps, Keeps1]

theorem execFloodRepeat_keeps {s0 : State} {s : State} (h_s : Keeps s0 s) :
        ∀ t_, execFloodRepeat s = .next t_ → Keeps s0 t_ := by
  unfold execFloodRepeat
  grind [← Keeps.foldl, ← Keeps.foldl1, ← Keeps.mk', live, ← State.floodIssue_keeps]

theorem State.absentTake_keeps {s0 : State} {s : State} (h_s : Keeps s0 s) (f : Nat) (serial : Nat) (bell : Nat) (a : Nat) :
        Keeps s0 (State.absentTake s f serial bell a) := by
  unfold State.absentTake
  grind [← Keeps.foldl, ← Keeps.foldl1, ← Keeps.mk', ← State.count_keeps, ← State.loseDevice_keeps]

theorem execAbsenceExpire_keeps {s0 : State} (f : Fin 512) {s : State} (h_s : Keeps s0 s) :
        ∀ t_, execAbsenceExpire f s = .next t_ → Keeps s0 t_ := by
  unfold execAbsenceExpire
  grind [← Keeps.foldl, ← Keeps.foldl1, ← Keeps.mk', live, ← State.raise_keeps]

theorem State.featuresTake_keeps {s0 : State} {s : State} (h_s : Keeps s0 s) (dev : Nat) (v : Nat) :
        Keeps s0 (State.featuresTake s dev v) := by
  unfold State.featuresTake
  grind [← Keeps.foldl, ← Keeps.foldl1, ← Keeps.mk', ← State.setRow_keeps, ← State.event_keeps, ← State.raise_keeps, ←
    State.count_keeps]

theorem State.floodTake_keeps {s0 : State} {s : State} (h_s : Keeps s0 s) (op : Nat) (dev : Nat) (origin : Nat) (serial : Nat) (bell
    : Nat) (arg : Nat) (tail : List Byte) :
        Keeps s0 (State.floodTake s op dev origin serial bell arg tail) := by
  unfold State.floodTake
  grind [← Keeps.foldl, ← Keeps.foldl1, ← Keeps.mk', ← State.voteCheck_keeps, ← State.noticeTake_keeps, ← State.absentTake_keeps, ←
    State.resumed_keeps, ← State.endHeld_keeps, ← State.featuresTake_keeps]

theorem State.floodReceive_keeps {s0 : State} {s : State} (h_s : Keeps s0 s) (b : Nat) (bytes : List Byte) :
        Keeps s0 (State.floodReceive s b bytes) := by
  unfold State.floodReceive
  grind [← Keeps.foldl, ← Keeps.foldl1, ← Keeps.mk', ← State.floodTo_keeps, ← State.floodKeep_keeps, ← State.floodTake_keeps]

theorem execFloodFrameReceive_keeps {s0 : State} (b : Fin 128) (bytes : List Byte) {s : State} (h_s : Keeps s0 s) :
        ∀ t_, execFloodFrameReceive b bytes s = .next t_ → Keeps s0 t_ := by
  unfold execFloodFrameReceive
  grind [← Keeps.foldl, ← Keeps.foldl1, ← Keeps.mk', live, ← State.floodReceive_keeps]

theorem execReplayRestart_keeps {s0 : State} (f : Fin 512) {s : State} (h_s : Keeps s0 s) :
        ∀ t_, execReplayRestart f s = .next t_ → Keeps s0 t_ := by
  unfold execReplayRestart
  grind [← Keeps.foldl, ← Keeps.foldl1, ← Keeps.mk', live, ← State.sendReplay_keeps]

theorem State.droverTakes_keeps {s0 : State} {s : State} (h_s : Keeps s0 s) (frame : List Byte) :
        Keeps s0 (State.droverTakes s frame) := by
  unfold State.droverTakes
  grind [← Keeps.foldl, ← Keeps.foldl1, ← Keeps.mk', ← State.startReceive_keeps, execCollResultReceive_keeps,
    execCollAbortReceive_keeps, execCollPostFwdReceive_keeps, execCollNoteReceive_keeps, execCollStepReceive_keeps]

theorem execLogEndReceive_keeps {s0 : State} (bytes : List Byte) {s : State} (h_s : Keeps s0 s) :
        ∀ t_, execLogEndReceive bytes s = .next t_ → Keeps s0 t_ := by
  unfold execLogEndReceive
  grind [← Keeps.foldl, ← Keeps.foldl1, ← Keeps.mk', live, ← State.recovCheck_keeps]

theorem State.replayWrite_keeps {s0 : State} {s : State} (h_s : Keeps s0 s) (l : List Byte) :
        Keeps s0 (State.replayWrite s l) := by
  unfold State.replayWrite
  grind [← Keeps.foldl, ← Keeps.foldl1, ← Keeps.mk', ← State.hbmWrite_keeps]

theorem execLogEntryReceive_keeps {s0 : State} (bytes : List Byte) {s : State} (h_s : Keeps s0 s) :
        ∀ t_, execLogEntryReceive bytes s = .next t_ → Keeps s0 t_ := by
  unfold execLogEntryReceive
  grind [← Keeps.foldl, ← Keeps.foldl1, ← Keeps.mk', live, ← State.count_keeps, ← State.replayWrite_keeps, ←
    State.droverTakes_keeps]

theorem execLogSegmentFree_keeps {s0 : State} {s : State} (h_s : Keeps s0 s) :
        ∀ t_, execLogSegmentFree s = .next t_ → Keeps s0 t_ := by
  unfold execLogSegmentFree
  grind [← Keeps.foldl, ← Keeps.foldl1, ← Keeps.mk', live, ← State.freeSeg_keeps]

theorem execSuspectRepeat_keeps {s0 : State} (f : Fin 512) {s : State} (h_s : Keeps s0 s) :
        ∀ t_, execSuspectRepeat f s = .next t_ → Keeps s0 t_ := by
  unfold execSuspectRepeat
  grind [← Keeps.foldl, ← Keeps.foldl1, ← Keeps.mk', live, ← State.voteCheck_keeps, ← State.sendSuspect_keeps]

theorem execVoteExpire_keeps {s0 : State} {s : State} (h_s : Keeps s0 s) :
        ∀ t_, execVoteExpire s = .next t_ → Keeps s0 t_ := by
  unfold execVoteExpire
  grind [← Keeps.foldl, ← Keeps.foldl1, ← Keeps.mk', live]

theorem execReplayTimeout_keeps {s0 : State} {s : State} (h_s : Keeps s0 s) :
        ∀ t_, execReplayTimeout s = .next t_ → Keeps s0 t_ := by
  unfold execReplayTimeout
  grind [← Keeps.foldl, ← Keeps.foldl1, ← Keeps.mk', live, ← State.raise_keeps, ← State.advanceTo_keeps]

theorem execMusterDeclareFailed_keeps {s0 : State} (who : Path) (f : BitVec 16) {s : State} (h_s : Keeps s0 s) :
        ∀ t_, execMusterDeclareFailed who f s = .next t_ → Keeps s0 t_ := by
  unfold execMusterDeclareFailed
  grind [← Keeps.foldl, ← Keeps.foldl1, ← Keeps.mk', ← State.access_keeps, ← State.musterCmd_keeps, Keeps1]

theorem execMusterAnnounceAbsence_keeps {s0 : State} (who : Path) (ticks : BitVec 32) {s : State} (h_s : Keeps s0 s) :
        ∀ t_, execMusterAnnounceAbsence who ticks s = .next t_ → Keeps s0 t_ := by
  unfold execMusterAnnounceAbsence
  grind [← Keeps.foldl, ← Keeps.foldl1, ← Keeps.mk', ← State.access_keeps, ← State.musterCmd_keeps, Keeps1]

theorem execSuspect_keeps {s0 : State} (f : Fin 512) {s : State} (h_s : Keeps s0 s) :
        ∀ t_, execSuspect f s = .next t_ → Keeps s0 t_ := by
  unfold execSuspect
  grind [← Keeps.foldl, ← Keeps.foldl1, ← Keeps.mk', live, ← State.suspect_keeps]

end Sys2Proof.Machine
end

