-- ==== Sys2Proof/Laws/Keeps7.lean ====
section
/-!
SUPPORT. What the operations of Pcie, Reset, Observe, Bell keep (`Keeps`), one lemma per operation.
-/

namespace Sys2Proof.Machine

set_option Elab.async false

/-! ### Pcie -/

theorem execEventRaise_keeps {s0 : State} (kind : Fin 13) (f : Fin 33) (unit : BitVec 16) (arg : BitVec 32) {s : State} (h_s : Keeps
    s0 s) :
        ∀ t_, execEventRaise kind f unit arg s = .next t_ → Keeps s0 t_ := by
  unfold execEventRaise
  grind [← Keeps.foldl, ← Keeps.foldl1, ← Keeps.mk', awake, ← State.event_keeps]

theorem State.pcieUp_keeps {s0 : State} {s : State} (h_s : Keeps s0 s) (rate : Nat) (width : Nat) :
        Keeps s0 (State.pcieUp s rate width) := by
  unfold State.pcieUp
  grind [← Keeps.foldl, ← Keeps.foldl1, ← Keeps.mk']

theorem State.bar2Bad_keeps {s0 : State} {s : State} (h_s : Keeps s0 s) :
        Keeps s0 (State.bar2Bad s) := by
  unfold State.bar2Bad
  grind [← Keeps.foldl, ← Keeps.foldl1, ← Keeps.mk', ← State.raise_keeps, ← State.count_keeps]

theorem State.writeBar2_keeps {s0 : State} {s : State} (h_s : Keeps s0 s) (v : Nat) :
        Keeps s0 (State.writeBar2 s v) := by
  unfold State.writeBar2
  grind [← Keeps.foldl, ← Keeps.foldl1, ← Keeps.mk', ← State.bar2Bad_keeps, ← State.setReg_keeps]

theorem State.writeOwner_keeps {s0 : State} {s : State} (h_s : Keeps s0 s) (k : Nat) (v : Nat) :
        Keeps s0 (State.writeOwner s k v) := by
  unfold State.writeOwner
  grind [← Keeps.foldl, ← Keeps.foldl1, ← Keeps.mk', ← State.setReg_keeps, ← State.raise_keeps, ← State.count_keeps]

theorem State.msixSet_keeps {s0 : State} {s : State} (h_s : Keeps s0 s) (f : Nat) (v : Nat) (e : Nat) :
        Keeps s0 (State.msixSet s f v e) := by
  unfold State.msixSet
  grind [← Keeps.foldl, ← Keeps.foldl1, ← Keeps.mk', ← State.setFn_keeps, ← State.sendVector_keeps]

theorem execMsixUnmask_keeps {s0 : State} (f : Fin 33) (v : Fin 2048) {s : State} (h_s : Keeps s0 s) :
        ∀ t_, execMsixUnmask f v s = .next t_ → Keeps s0 t_ := by
  unfold execMsixUnmask
  grind [← Keeps.foldl, ← Keeps.foldl1, ← Keeps.mk', awake, ← State.msixSet_keeps]

theorem execPerstRelease_keeps {s0 : State} (rate : Fin 7) (width : Fin 5) {s : State} (h_s : Keeps s0 s) :
        ∀ t_, execPerstRelease rate width s = .next t_ → Keeps s0 t_ := by
  unfold execPerstRelease
  grind [← Keeps.foldl, ← Keeps.foldl1, ← Keeps.mk', ← State.pcieUp_keeps]

theorem execRingOwnerWrite_keeps {s0 : State} (k : Fin 96) (v : BitVec 64) {s : State} (h_s : Keeps s0 s) :
        ∀ t_, execRingOwnerWrite k v s = .next t_ → Keeps s0 t_ := by
  unfold execRingOwnerWrite
  grind [← Keeps.foldl, ← Keeps.foldl1, ← Keeps.mk', awake, ← State.writeOwner_keeps]

theorem State.evqHead_keeps {s0 : State} {s : State} (h_s : Keeps s0 s) (f : Nat) (v : Nat) :
        Keeps s0 (State.evqHead s f v) := by
  unfold State.evqHead
  grind [← Keeps.foldl, ← Keeps.foldl1, ← Keeps.mk', ← State.setFn_keeps]

theorem State.ringAbort_keeps {s0 : State} {s : State} (h_s : Keeps s0 s) (dma : Bool) (r : Nat) :
        Keeps s0 (State.ringAbort s dma r).1 := by
  unfold State.ringAbort
  grind [← Keeps.foldl, ← Keeps.foldl1, ← Keeps.mk', ← State.setJob_keeps, ← State.setRing_keeps, ← State.endOctx_keeps, ←
    State.unsuspend_keeps]

theorem State.flr_keeps {s0 : State} {s : State} (h_s : Keeps s0 s) (f : Nat) :
        Keeps s0 (State.flr s f) := by
  unfold State.flr
  grind [← Keeps.foldl, ← Keeps.foldl1, ← Keeps.mk', ← State.ringAbort_keeps, ← State.setFn_keeps, ← State.raise_keeps, ←
    State.count_keeps]

theorem State.hostReset_keeps {s0 : State} {s : State} (h_s : Keeps s0 s) :
        Keeps s0 (State.hostReset s) := by
  have k : ∀ t, Keeps s0 t → Keeps s0 { t with regs := t.regs.filter (fun x => decide (x.1 < 0x1E0000 ∨ 0x1E0600 ≤ x.1)), pcie := {
    t.pcie with numVfs := 0, vfEnable := false, doe := none, bar2Log := 36 } } := fun t h =>
    (h.dropRegs _).mk' _ _ _ _ _ _ _ _ _ _ _ _ _ _
  exact k _ (Keeps.foldl h_s (fun s f k => State.flr_keeps k f))

theorem execDoeAbort_keeps {s0 : State} {s : State} (h_s : Keeps s0 s) :
        ∀ t_, execDoeAbort s = .next t_ → Keeps s0 t_ := by
  unfold execDoeAbort
  grind [← Keeps.foldl, ← Keeps.foldl1, ← Keeps.mk', awake]

theorem execDoeObjectReceive_keeps {s0 : State} (m : List Byte) {s : State} (h_s : Keeps s0 s) :
        ∀ t_, execDoeObjectReceive m s = .next t_ → Keeps s0 t_ := by
  unfold execDoeObjectReceive
  grind [← Keeps.foldl, ← Keeps.foldl1, ← Keeps.mk', awake, ← State.emit_keeps]

theorem execPcieHotReset_keeps {s0 : State} {s : State} (h_s : Keeps s0 s) :
        ∀ t_, execPcieHotReset s = .next t_ → Keeps s0 t_ := by
  unfold execPcieHotReset
  grind [← Keeps.foldl, ← Keeps.foldl1, ← Keeps.mk', ← State.hostReset_keeps]

theorem execPerstAssert_keeps {s0 : State} {s : State} (h_s : Keeps s0 s) :
        ∀ t_, execPerstAssert s = .next t_ → Keeps s0 t_ := by
  unfold execPerstAssert
  dsimp only
  repeat' split
  all_goals grind (splits := 40) (gen := 40) (ematch := 40) [← Keeps.foldl, ← Keeps.foldl1, ← Keeps.mk', ← State.hostReset_keeps, ←
    State.setOb_keeps]

theorem State.bar2_keeps {s0 : State} {s : State} (h_s : Keeps s0 s) (off : Nat) (n : Nat) (data : Option (List Byte)) (bad : Bool)
    :
        Keeps s0 (State.bar2 s off n data bad) := by
  unfold State.bar2
  grind [← Keeps.foldl, ← Keeps.foldl1, ← Keeps.mk', ← State.emit_keeps, ← State.bar2Bad_keeps, ← State.raise_keeps, ←
    State.count_keeps, ← State.hbmWrite_keeps]

theorem execBar2Access_keeps {s0 : State} (off : BitVec 36) (n : Fin 4097) (data : Option (List Byte)) (bad : Bool) {s : State} (h_s
    : Keeps s0 s) :
        ∀ t_, execBar2Access off n data bad s = .next t_ → Keeps s0 t_ := by
  unfold execBar2Access
  grind [← Keeps.foldl, ← Keeps.foldl1, ← Keeps.mk', awake, ← State.bar2_keeps]

theorem execFunctionLevelReset_keeps {s0 : State} (f : Fin 33) {s : State} (h_s : Keeps s0 s) :
        ∀ t_, execFunctionLevelReset f s = .next t_ → Keeps s0 t_ := by
  unfold execFunctionLevelReset
  grind [← Keeps.foldl, ← Keeps.foldl1, ← Keeps.mk', awake, ← State.flr_keeps]

theorem execEvqHeadWrite_keeps {s0 : State} (f : Fin 33) (v : BitVec 64) {s : State} (h_s : Keeps s0 s) :
        ∀ t_, execEvqHeadWrite f v s = .next t_ → Keeps s0 t_ := by
  unfold execEvqHeadWrite
  grind [← Keeps.foldl, ← Keeps.foldl1, ← Keeps.mk', awake, ← State.evqHead_keeps]

theorem execBar2BaseWrite_keeps {s0 : State} (v : BitVec 64) {s : State} (h_s : Keeps s0 s) :
        ∀ t_, execBar2BaseWrite v s = .next t_ → Keeps s0 t_ := by
  unfold execBar2BaseWrite
  grind [← Keeps.foldl, ← Keeps.foldl1, ← Keeps.mk', awake, ← State.writeBar2_keeps]

/-! ### Reset -/

theorem State.discards_keeps {s0 : State} {s : State} (h_s : Keeps s0 s) (n : Nat) :
        Keeps s0 (State.discards s n) := by
  unfold State.discards
  grind [← Keeps.foldl, ← Keeps.foldl1, ← Keeps.mk', ← State.raise_keeps, ← State.count_keeps]

theorem State.clearPv_keeps {s0 : State} {s : State} (h_s : Keeps s0 s) (lo : Nat) (hi : Nat) :
        Keeps s0 (State.clearPv s lo hi) := by
  unfold State.clearPv
  extract_lets pv
  exact (h_s.dropObjs _).dropBlobs _

theorem State.resetPort_keeps {s0 : State} {s : State} (h_s : Keeps s0 s) (b : Nat) :
        Keeps s0 (State.resetPort s b) := by
  unfold State.resetPort
  repeat' split
  all_goals grind (splits := 20) (gen := 20) (ematch := 20) [← Keeps.foldl, ← Keeps.foldl1, ← Keeps.mk', ← State.dropPen_keeps, ←
    State.discards_keeps, ← State.portCount_keeps, ← State.blockDown_keeps, ← State.disarm_keeps, ← State.draw_keeps, ←
    State.clearPv_keeps, ← State.setBlock_keeps, ← State.setReg_keeps, ← State.modEp_keeps, ← State.modEq_keeps, ←
    State.setPortState_keeps, ← State.blockStart_keeps]

theorem State.resetTile_keeps {s0 : State} {s : State} (h_s : Keeps s0 s) (t : Nat) :
        Keeps s0 (State.resetTile s t) := by
  unfold State.resetTile
  grind [← Keeps.foldl, ← Keeps.foldl1, ← Keeps.mk', ← State.droveRoll_keeps, ← State.unmapTile_keeps, ← State.endOctx_keeps, ←
    State.unsuspend_keeps, ← State.rejoin_keeps, ← State.discards_keeps]

theorem State.resetTu_keeps {s0 : State} {s : State} (h_s : Keeps s0 s) (p : Nat) :
        Keeps s0 (State.resetTu s p) := by
  unfold State.resetTu
  grind [← Keeps.foldl, ← Keeps.foldl1, ← Keeps.mk', ← State.dropCreq_keeps, ← State.answer_keeps, ← State.setReg_keeps, ←
    State.discards_keeps]

theorem State.resetDma_keeps {s0 : State} {s : State} (h_s : Keeps s0 s) (p : Nat) :
        Keeps s0 (State.resetDma s p) := by
  unfold State.resetDma
  repeat' split
  all_goals grind (splits := 20) (gen := 20) (ematch := 20) [← Keeps.foldl, ← Keeps.foldl1, ← Keeps.mk', ← State.slotFreed_keeps, ←
    State.dmaEnd_keeps, ← State.setJob_keeps, ← State.stopDmaRing_keeps, ← State.putRecord_keeps, ← State.setRing_keeps, ←
    State.discards_keeps]

theorem State.resetStack_keeps {s0 : State} {s : State} (h_s : Keeps s0 s) (st : Nat) :
        Keeps s0 (State.resetStack s st) := by
  unfold State.resetStack
  grind [← Keeps.foldl, ← Keeps.foldl1, ← Keeps.mk', ← State.dropCreq_keeps, ← State.answer_keeps, ← State.discards_keeps]

theorem State.blockReset_keeps {s0 : State} {s : State} (h_s : Keeps s0 s) (kind : Nat) (unit : Nat) :
        Keeps s0 (State.blockReset s kind unit) := by
  unfold State.blockReset
  grind [← Keeps.foldl, ← Keeps.foldl1, ← Keeps.mk', ← State.count_keeps, ← State.resetPort_keeps, ← State.resetTile_keeps, ←
    State.resetTu_keeps, ← State.resetDma_keeps, ← State.resetStack_keeps]

theorem State.reachReset_keeps {s0 : State} {s : State} (h_s : Keeps s0 s) (w : Nat) :
        Keeps s0 (State.reachReset s w) := by
  unfold State.reachReset
  extract_lets h ds4 kp pw t
  have hh : s.tablesOk = true → Memory.wf h.1 = true := by
    intro k
    rw [State.tablesOk_iff] at k
    simp only [h, State.hbmAfter]
    split
    · rfl
    · split
      · exact k.2.2.2.1
      · exact TMap.wf_filter k.2.2.2.1 _
  have k : Keeps s0 t := by
    refine h_s.trans ⟨fun k => ?_, rfl, Nat.le_refl _, Nat.le_succ _, List.suffix_refl _⟩
    have hm := hh k
    rw [State.tablesOk_iff] at *
    exact ⟨TMap.wf_filter k.1 _, TMap.wf_filter k.2.1 _, rfl, hm, k.2.2.2.2⟩
  clear_value t
  split
  · exact State.setOb_keeps k _ _
  · exact k

theorem State.assertReset_keeps {s0 : State} {s : State} (h_s : Keeps s0 s) (src : ResetSource) (w : Nat) (cause : Nat) (row : Nat)
    (announced : Bool) :
        Keeps s0 (State.assertReset s src w cause row announced) := by
  unfold State.assertReset
  grind [← Keeps.foldl, ← Keeps.foldl1, ← Keeps.mk', ← State.reachReset_keeps, ← State.setOb_keeps, ← State.count_keeps, ←
    State.raise_keeps]

theorem State.rstCmd_keeps {s0 : State} {s : State} (h_s : Keeps s0 s) (op : Nat) (announce : Bool) (kind : Nat) (arg : Nat) :
        Keeps s0 (State.rstCmd s op announce kind arg).1 := by
  unfold State.rstCmd
  grind [← Keeps.foldl, ← Keeps.foldl1, ← Keeps.mk', ← State.setOb_keeps, ← State.blockReset_keeps, ← State.count_keeps, ←
    State.announceAbsence_keeps, ← State.assertReset_keeps]

theorem execRstCmdBlock_keeps {s0 : State} (who : Path) (kind : BitVec 8) (unit : BitVec 32) {s : State} (h_s : Keeps s0 s) :
        ∀ t_, execRstCmdBlock who kind unit s = .next t_ → Keeps s0 t_ := by
  unfold execRstCmdBlock
  grind [← Keeps.foldl, ← Keeps.foldl1, ← Keeps.mk', ← State.access_keeps, ← State.rstCmd_keeps, Keeps1]

theorem State.bellCatch_keeps {s0 : State} {s : State} (h_s : Keeps s0 s) :
        Keeps s0 (State.bellCatch s) := by
  unfold State.bellCatch
  grind [← Keeps.foldl, ← Keeps.foldl1, ← Keeps.mk']

theorem State.measureStrap_keeps {s0 : State} {s : State} (h_s : Keeps s0 s) (samples : Nat) :
        Keeps s0 (State.measureStrap s samples) := by
  unfold State.measureStrap
  grind [← Keeps.foldl, ← Keeps.foldl1, ← Keeps.mk', ← State.setOb_keeps, ← State.raise_keeps]

theorem State.layoutTake_keeps {s0 : State} {s : State} (h_s : Keeps s0 s) :
        Keeps s0 (State.layoutTake s) := by
  unfold State.layoutTake
  grind [← Keeps.foldl, ← Keeps.foldl1, ← Keeps.mk', ← State.setOb_keeps]

theorem State.modulesDue_keeps {s0 : State} {s : State} (h_s : Keeps s0 s) (b : Nat) :
        Keeps s0 (State.modulesDue s b) := by
  unfold State.modulesDue
  grind [← Keeps.foldl, ← Keeps.foldl1, ← Keeps.mk', ← State.setModl_keeps]

theorem State.comeOut_keeps {s0 : State} {s : State} (h_s : Keeps s0 s) (rate : Nat) (width : Nat) :
        Keeps s0 (State.comeOut s rate width) := by
  unfold State.comeOut
  repeat' split
  all_goals grind (splits := 20) (gen := 20) (ematch := 20) [← Keeps.foldl, ← Keeps.foldl1, ← Keeps.mk', ← State.foldRelease_keeps,
    ← State.bellCatch_keeps, ← State.layoutTake_keeps, ← State.modulesDue_keeps, ← State.blockStart_keeps, ← State.pcieUp_keeps]

theorem State.releaseReset_keeps {s0 : State} {s : State} (h_s : Keeps s0 s) (src : ResetSource) (samples : Nat) (rate : Nat) (width
    : Nat) :
        Keeps s0 (State.releaseReset s src samples rate width) := by
  unfold State.releaseReset
  grind [← Keeps.foldl, ← Keeps.foldl1, ← Keeps.mk', ← State.measureStrap_keeps, ← State.comeOut_keeps]

theorem execRstCmdWarm_keeps {s0 : State} (who : Path) (announce : Bool) (ticks : BitVec 32) {s : State} (h_s : Keeps s0 s) :
        ∀ t_, execRstCmdWarm who announce ticks s = .next t_ → Keeps s0 t_ := by
  unfold execRstCmdWarm
  grind [← Keeps.foldl, ← Keeps.foldl1, ← Keeps.mk', ← State.access_keeps, ← State.rstCmd_keeps, Keeps1]

theorem execRstCmdCold_keeps {s0 : State} (who : Path) (announce : Bool) (ticks : BitVec 32) {s : State} (h_s : Keeps s0 s) :
        ∀ t_, execRstCmdCold who announce ticks s = .next t_ → Keeps s0 t_ := by
  unfold execRstCmdCold
  grind [← Keeps.foldl, ← Keeps.foldl1, ← Keeps.mk', ← State.access_keeps, ← State.rstCmd_keeps, Keeps1]

theorem execRefclkCoreLoss_keeps {s0 : State} {s : State} (h_s : Keeps s0 s) :
        ∀ t_, execRefclkCoreLoss s = .next t_ → Keeps s0 t_ := by
  unfold execRefclkCoreLoss
  grind [← Keeps.foldl, ← Keeps.foldl1, ← Keeps.mk', ← State.raise_keeps, ← State.assertReset_keeps]

theorem execResetRelease_keeps {s0 : State} (src : ResetSource) (samples : BitVec 48) (rate : Fin 7) (width : Fin 5) {s : State}
    (h_s : Keeps s0 s) :
        ∀ t_, execResetRelease src samples rate width s = .next t_ → Keeps s0 t_ := by
  unfold execResetRelease
  grind [← Keeps.foldl, ← Keeps.foldl1, ← Keeps.mk', ← State.releaseReset_keeps]

theorem execColdResetPin_keeps {s0 : State} {s : State} (h_s : Keeps s0 s) :
        ∀ t_, execColdResetPin s = .next t_ → Keeps s0 t_ := by
  unfold execColdResetPin
  grind [← Keeps.foldl, ← Keeps.foldl1, ← Keeps.mk', ← State.assertReset_keeps]

theorem execAuxClkLoss_keeps {s0 : State} {s : State} (h_s : Keeps s0 s) :
        ∀ t_, execAuxClkLoss s = .next t_ → Keeps s0 t_ := by
  unfold execAuxClkLoss
  grind [← Keeps.foldl, ← Keeps.foldl1, ← Keeps.mk', ← State.raise_keeps, ← State.assertReset_keeps]

theorem execPowerOnReset_keeps {s0 : State} (samples : BitVec 48) (rate : Fin 7) (width : Fin 5) {s : State} (h_s : Keeps s0 s) :
        ∀ t_, execPowerOnReset samples rate width s = .next t_ → Keeps s0 t_ := by
  unfold execPowerOnReset
  grind [← Keeps.foldl, ← Keeps.foldl1, ← Keeps.mk', ← State.releaseReset_keeps, ← State.assertReset_keeps]

theorem execBlockReset_keeps {s0 : State} (kind : Fin 6) (unit : Fin 144) {s : State} (h_s : Keeps s0 s) :
        ∀ t_, execBlockReset kind unit s = .next t_ → Keeps s0 t_ := by
  unfold execBlockReset
  grind [← Keeps.foldl, ← Keeps.foldl1, ← Keeps.mk', live, ← State.blockReset_keeps]

theorem execWarmResetPin_keeps {s0 : State} {s : State} (h_s : Keeps s0 s) :
        ∀ t_, execWarmResetPin s = .next t_ → Keeps s0 t_ := by
  unfold execWarmResetPin
  grind [← Keeps.foldl, ← Keeps.foldl1, ← Keeps.mk', ← State.assertReset_keeps]

/-! ### Observe -/

theorem State.writeQrecBase_keeps {s0 : State} {s : State} (h_s : Keeps s0 s) (v : Nat) :
        Keeps s0 (State.writeQrecBase s v).1 := by
  unfold State.writeQrecBase
  grind [← Keeps.foldl, ← Keeps.foldl1, ← Keeps.mk', ← State.setOb_keeps]

theorem State.writeQrecSize_keeps {s0 : State} {s : State} (h_s : Keeps s0 s) (v : Nat) :
        Keeps s0 (State.writeQrecSize s v).1 := by
  unfold State.writeQrecSize
  grind [← Keeps.foldl, ← Keeps.foldl1, ← Keeps.mk', ← State.setOb_keeps]

theorem State.snapshot_keeps {s0 : State} {s : State} (h_s : Keeps s0 s) (why : Nat) :
        Keeps s0 (State.snapshot s why) := by
  unfold State.snapshot
  grind [← Keeps.foldl, ← Keeps.foldl1, ← Keeps.mk', ← State.setBlob_keeps, ← State.raise_keeps, ← State.count_keeps]

theorem State.tallyTick_keeps {s0 : State} {s : State} (h_s : Keeps s0 s) (old : Nat) (n : Nat) :
        Keeps s0 (State.tallyTick s old n) := by
  unfold State.tallyTick
  grind [← Keeps.foldl, ← Keeps.foldl1, ← Keeps.mk', ← State.snapshot_keeps]

theorem State.ctrClear_keeps {s0 : State} {s : State} (h_s : Keeps s0 s) (n : Nat) :
        Keeps s0 (State.ctrClear s n) := by
  unfold State.ctrClear
  grind [← Keeps.foldl, ← Keeps.foldl1, ← Keeps.mk', ← State.setCtr_keeps]

theorem State.pairClear_keeps {s0 : State} {s : State} (h_s : Keeps s0 s) (n : Nat) :
        Keeps s0 (State.pairClear s n) := by
  unfold State.pairClear
  grind [← Keeps.foldl, ← Keeps.foldl1, ← Keeps.mk', ← State.ctrClear_keeps]

theorem State.writeTallyCfg_keeps {s0 : State} {s : State} (h_s : Keeps s0 s) (n : Nat) (v : Nat) :
        Keeps s0 (State.writeTallyCfg s n v).1 := by
  unfold State.writeTallyCfg
  grind [← Keeps.foldl, ← Keeps.foldl1, ← Keeps.mk', ← State.pairClear_keeps, ← State.setRow_keeps]

theorem State.writeTallyRing_keeps {s0 : State} {s : State} (h_s : Keeps s0 s) (size : Bool) (v : Nat) :
        Keeps s0 (State.writeTallyRing s size v).1 := by
  unfold State.writeTallyRing
  grind [← Keeps.foldl, ← Keeps.foldl1, ← Keeps.mk', ← State.setOb_keeps]

theorem State.writeFleeceRing_keeps {s0 : State} {s : State} (h_s : Keeps s0 s) (size : Bool) (v : Nat) :
        Keeps s0 (State.writeFleeceRing s size v).1 := by
  unfold State.writeFleeceRing
  grind [← Keeps.foldl, ← Keeps.foldl1, ← Keeps.mk', ← State.setOb_keeps]

theorem State.writeSample_keeps {s0 : State} {s : State} (h_s : Keeps s0 s) (p : Nat) (v : Nat) :
        Keeps s0 (State.writeSample s p v).1 := by
  unfold State.writeSample
  grind [← Keeps.foldl, ← Keeps.foldl1, ← Keeps.mk', ← State.setRow_keeps]

theorem State.tallyClear_keeps {s0 : State} {s : State} (h_s : Keeps s0 s) (v : Nat) :
        Keeps s0 (State.tallyClear s v).1 := by
  unfold State.tallyClear
  grind [← Keeps.foldl, ← Keeps.foldl1, ← Keeps.mk']

theorem State.snapAt_keeps {s0 : State} {s : State} (h_s : Keeps s0 s) (n48 : Nat) :
        Keeps s0 (State.snapAt s n48).1 := by
  unfold State.snapAt
  grind [← Keeps.foldl, ← Keeps.foldl1, ← Keeps.mk']

theorem State.snapNow_keeps {s0 : State} {s : State} (h_s : Keeps s0 s) :
        Keeps s0 (State.snapNow s).1 := by
  unfold State.snapNow
  grind [← Keeps.foldl, ← Keeps.foldl1, ← Keeps.mk']

theorem State.histClear_keeps {s0 : State} {s : State} (h_s : Keeps s0 s) (t : Nat) :
        Keeps s0 (State.histClear s t).1 := by
  unfold State.histClear
  grind [← Keeps.foldl, ← Keeps.foldl1, ← Keeps.mk', ← State.clearRows_keeps]

theorem State.fleeceCapture_keeps {s0 : State} {s : State} (h_s : Keeps s0 s) (v : Nat) :
        Keeps s0 (State.fleeceCapture s v).1 := by
  unfold State.fleeceCapture
  grind [← Keeps.foldl, ← Keeps.foldl1, ← Keeps.mk']

theorem execTallyCfgWrite_keeps {s0 : State} (who : Path) (n : Fin 8192) (v : BitVec 64) {s : State} (h_s : Keeps s0 s) :
        ∀ t_, execTallyCfgWrite who n v s = .next t_ → Keeps s0 t_ := by
  unfold execTallyCfgWrite
  grind [← Keeps.foldl, ← Keeps.foldl1, ← Keeps.mk', ← State.access_keeps, ← State.writeTallyCfg_keeps, Keeps1]

theorem execTallyRingEntryWritten_keeps {s0 : State} (fault : Bool) {s : State} (h_s : Keeps s0 s) :
        ∀ t_, execTallyRingEntryWritten fault s = .next t_ → Keeps s0 t_ := by
  unfold execTallyRingEntryWritten
  grind [← Keeps.foldl, ← Keeps.foldl1, ← Keeps.mk', live, ← State.raise_keeps, ← State.setOb_keeps, ← State.hbmWrite_keeps]

theorem State.sampled_keeps {s0 : State} {s : State} (h_s : Keeps s0 s) (port : Nat) (point : Nat) :
        Keeps s0 (State.sampled s port point).1 := by
  unfold State.sampled
  grind [← Keeps.foldl, ← Keeps.foldl1, ← Keeps.mk', ← State.draw_keeps]

theorem State.capture_keeps {s0 : State} {s : State} (h_s : Keeps s0 s) (die : Nat) (c : Capture) :
        Keeps s0 (State.capture s die c) := by
  unfold State.capture
  grind [← Keeps.foldl, ← Keeps.foldl1, ← Keeps.mk', ← State.raise_keeps, ← State.count_keeps]

theorem State.capturePoint_keeps {s0 : State} {s : State} (h_s : Keeps s0 s) (point : Nat) (port : Nat) (queue : Nat) (pasture :
    Nat) (frame : List Byte) (why : List (Nat × Nat)) :
        Keeps s0 (State.capturePoint s point port queue pasture frame why) := by
  unfold State.capturePoint
  extract_lets smp s1 k burst trig best cmd on cause b1 b2 ob s2 s3 mine ob' s4 die
  have k1 : Keeps s0 s1 := State.sampled_keeps h_s _ _
  split
  · exact k1
  · clear_value cause best b2 s1
    have k2 : Keeps s0 s2 := k1.mk' _ _ _ _ _ _ _ _ _ _ _ _ _ _
    have k3 : Keeps s0 s3 := by
      show Keeps s0 (if _ then _ else _)
      split
      · exact State.count_keeps k2 _ _ _
      · exact k2
    clear_value s3
    split
    · exact k3
    · extract_lets info
      have k4 : Keeps s0 s4 := by
        show Keeps s0 (if _ then _ else _)
        split
        · exact k3.mk' _ _ _ _ _ _ _ _ _ _ _ _ _ _
        · exact k3
      clear_value s4
      exact State.capture_keeps k4 _ _

theorem State.aclSpent_keeps {s0 : State} {s : State} (h_s : Keeps s0 s) (point : Nat) (port : Nat) (frame : List Byte) :
        Keeps s0 (State.aclSpent s point port frame) := by
  unfold State.aclSpent
  grind [← Keeps.foldl, ← Keeps.foldl1, ← Keeps.mk']

theorem execFleeceCapturePoint_keeps {s0 : State} (point : Fin 3) (port : Fin 1040) (queue : Fin 16) (pasture : Fin 4096) (frame :
    List Byte) (why : List (Fin 64 × BitVec 32)) {s : State} (h_s : Keeps s0 s) :
        ∀ t_, execFleeceCapturePoint point port queue pasture frame why s = .next t_ → Keeps s0 t_ := by
  unfold execFleeceCapturePoint
  grind [← Keeps.foldl, ← Keeps.foldl1, ← Keeps.mk', live, ← State.capturePoint_keeps, ← State.aclSpent_keeps]

theorem State.tallyRead_keeps {s0 : State} {s : State} (h_s : Keeps s0 s) (n : Nat) :
        Keeps s0 (State.tallyRead s n) := by
  unfold State.tallyRead
  grind [← Keeps.foldl, ← Keeps.foldl1, ← Keeps.mk', ← State.setReg_keeps, ← State.emit_keeps]

theorem execTallyLowRead_keeps {s0 : State} (n : Fin 8192) {s : State} (h_s : Keeps s0 s) :
        ∀ t_, execTallyLowRead n s = .next t_ → Keeps s0 t_ := by
  unfold execTallyLowRead readable
  intro t_ e
  split at e
  · cases e; exact h_s
  · split at e
    · cases e; exact State.emit_keeps h_s _
    · cases e; exact State.tallyRead_keeps h_s _

theorem execTallySnapshot_keeps {s0 : State} {s : State} (h_s : Keeps s0 s) :
        ∀ t_, execTallySnapshot s = .next t_ → Keeps s0 t_ := by
  unfold execTallySnapshot
  grind [← Keeps.foldl, ← Keeps.foldl1, ← Keeps.mk', live, ← State.snapshot_keeps, ← State.advanceTo_keeps]

theorem execFleeceCapture_keeps {s0 : State} (who : Path) (v : BitVec 16) {s : State} (h_s : Keeps s0 s) :
        ∀ t_, execFleeceCapture who v s = .next t_ → Keeps s0 t_ := by
  unfold execFleeceCapture
  grind [← Keeps.foldl, ← Keeps.foldl1, ← Keeps.mk', ← State.access_keeps, ← State.fleeceCapture_keeps, Keeps1]

theorem execTallyHistClear_keeps {s0 : State} (who : Path) (t : BitVec 8) {s : State} (h_s : Keeps s0 s) :
        ∀ t_, execTallyHistClear who t s = .next t_ → Keeps s0 t_ := by
  unfold execTallyHistClear
  grind [← Keeps.foldl, ← Keeps.foldl1, ← Keeps.mk', ← State.access_keeps, ← State.histClear_keeps, Keeps1]

theorem execTallyClear_keeps {s0 : State} (who : Path) (v : BitVec 32) {s : State} (h_s : Keeps s0 s) :
        ∀ t_, execTallyClear who v s = .next t_ → Keeps s0 t_ := by
  unfold execTallyClear
  grind [← Keeps.foldl, ← Keeps.foldl1, ← Keeps.mk', ← State.access_keeps, ← State.tallyClear_keeps, Keeps1]

theorem execFleeceRecordWritten_keeps {s0 : State} (die : Fin 4) (fault : Bool) {s : State} (h_s : Keeps s0 s) :
        ∀ t_, execFleeceRecordWritten die fault s = .next t_ → Keeps s0 t_ := by
  unfold execFleeceRecordWritten
  grind [← Keeps.foldl, ← Keeps.foldl1, ← Keeps.mk', live, ← State.raise_keeps, ← State.setOb_keeps, ← State.hbmWrite_keeps]

theorem execTallySnapNow_keeps {s0 : State} (who : Path) {s : State} (h_s : Keeps s0 s) :
        ∀ t_, execTallySnapNow who s = .next t_ → Keeps s0 t_ := by
  unfold execTallySnapNow
  grind [← Keeps.foldl, ← Keeps.foldl1, ← Keeps.mk', ← State.access_keeps, ← State.snapNow_keeps, Keeps1]

theorem execTallySnapAt_keeps {s0 : State} (who : Path) (bell : BitVec 48) {s : State} (h_s : Keeps s0 s) :
        ∀ t_, execTallySnapAt who bell s = .next t_ → Keeps s0 t_ := by
  unfold execTallySnapAt
  grind [← Keeps.foldl, ← Keeps.foldl1, ← Keeps.mk', ← State.access_keeps, ← State.snapAt_keeps, Keeps1]

theorem execFleeceSampleWrite_keeps {s0 : State} (who : Path) (p : Fin 1024) (v : BitVec 64) {s : State} (h_s : Keeps s0 s) :
        ∀ t_, execFleeceSampleWrite who p v s = .next t_ → Keeps s0 t_ := by
  unfold execFleeceSampleWrite
  grind [← Keeps.foldl, ← Keeps.foldl1, ← Keeps.mk', ← State.access_keeps, ← State.writeSample_keeps, Keeps1]

/-! ### Bell -/

theorem State.writePeriodNext_keeps {s0 : State} {s : State} (h_s : Keeps s0 s) (v : Nat) :
        Keeps s0 (State.writePeriodNext s v).1 := by
  unfold State.writePeriodNext
  grind [← Keeps.foldl, ← Keeps.foldl1, ← Keeps.mk', ← State.setOb_keeps]

theorem State.writeBudget_keeps {s0 : State} {s : State} (h_s : Keeps s0 s) (c : Nat) (v : Nat) :
        Keeps s0 (State.writeBudget s c v).1 := by
  unfold State.writeBudget
  grind [← Keeps.foldl, ← Keeps.foldl1, ← Keeps.mk', ← State.setRow_keeps]

theorem State.writeBellOrigin_keeps {s0 : State} {s : State} (h_s : Keeps s0 s) (v : Nat) :
        Keeps s0 (State.writeBellOrigin s v).1 := by
  unfold State.writeBellOrigin
  grind [← Keeps.foldl, ← Keeps.foldl1, ← Keeps.mk', ← State.setOb_keeps]

theorem State.stileEvent_keeps {s0 : State} {s : State} (h_s : Keeps s0 s) (k : Nat) :
        Keeps s0 (State.stileEvent s k) := by
  unfold State.stileEvent
  grind [← Keeps.foldl, ← Keeps.foldl1, ← Keeps.mk', ← State.holdCount_keeps, ← State.count_keeps]

theorem State.stileTick_keeps {s0 : State} {s : State} (h_s : Keeps s0 s) :
        Keeps s0 (State.stileTick s) := by
  unfold State.stileTick
  grind [← Keeps.foldl, ← Keeps.foldl1, ← Keeps.mk', ← State.stileEvent_keeps]

theorem State.featTake_keeps {s0 : State} {s : State} (h_s : Keeps s0 s) (p : Nat) :
        Keeps s0 (State.featTake s p) := by
  unfold State.featTake
  grind [← Keeps.foldl, ← Keeps.foldl1, ← Keeps.mk', ← State.setRow_keeps]

theorem State.routeTick_keeps {s0 : State} {s : State} (h_s : Keeps s0 s) :
        Keeps s0 (State.routeTick s) := by
  unfold State.routeTick
  grind [← Keeps.foldl, ← Keeps.foldl1, ← Keeps.mk', ← State.flipApply_keeps, ← State.snapTake_keeps, ← State.featTake_keeps]

theorem State.foldTick_keeps {s0 : State} {s : State} (h_s : Keeps s0 s) :
        Keeps s0 (State.foldTick s) := by
  unfold State.foldTick
  grind [← Keeps.foldl, ← Keeps.foldl1, ← Keeps.mk', ← State.raise_keeps]

theorem State.timeSyncs_keeps {s0 : State} {s : State} (h_s : Keeps s0 s) :
        Keeps s0 (State.timeSyncs s) := by
  unfold State.timeSyncs
  grind [← Keeps.foldl, ← Keeps.foldl1, ← Keeps.mk', ← State.count_keeps, ← State.sendCtrl_keeps]

theorem State.sweepTick_keeps {s0 : State} {s : State} (h_s : Keeps s0 s) :
        Keeps s0 (State.sweepTick s) := by
  unfold State.sweepTick
  grind [← Keeps.foldl, ← Keeps.foldl1, ← Keeps.mk', ← State.heftSweep_keeps, ← State.heavyClose_keeps, ← State.modEp_keeps]

theorem State.raiseTick_keeps {s0 : State} {s : State} (h_s : Keeps s0 s) (n : Nat) :
        Keeps s0 (State.raiseTick s n) := by
  unfold State.raiseTick
  repeat' split
  all_goals grind (splits := 20) (gen := 20) (ematch := 20) [← Keeps.foldl, ← Keeps.foldl1, ← Keeps.mk', ← State.raise_keeps, ←
    State.count_keeps, ← State.tally_keeps, ← State.stileTick_keeps, ← State.qrecAll_keeps, ← State.tallyTick_keeps, ←
    State.routeTick_keeps, ← State.foldTick_keeps, ← State.collTick_keeps, ← State.timeSyncs_keeps, ← State.musterTick_keeps, ←
    State.sweepTick_keeps]

theorem State.stepTicks_keeps {s0 : State} {s : State} (h_s : Keeps s0 s) :
        Keeps s0 (State.stepTicks s) := by
  unfold State.stepTicks
  grind [← Keeps.foldl, ← Keeps.foldl1, ← Keeps.mk', ← State.raiseTick_keeps]

theorem State.writeBellBase_keeps {s0 : State} {s : State} (h_s : Keeps s0 s) (v : Nat) :
        Keeps s0 (State.writeBellBase s v).1 := by
  unfold State.writeBellBase
  grind [← Keeps.foldl, ← Keeps.foldl1, ← Keeps.mk', ← State.setOb_keeps, ← State.stepTicks_keeps]

theorem State.bellSwitch_keeps {s0 : State} {s : State} (h_s : Keeps s0 s) (v : Nat) :
        Keeps s0 (State.bellSwitch s v).1 := by
  unfold State.bellSwitch
  grind [← Keeps.foldl, ← Keeps.foldl1, ← Keeps.mk']

theorem State.missReset_keeps {s0 : State} {s : State} (h_s : Keeps s0 s) :
        Keeps s0 (State.missReset s) := by
  unfold State.missReset
  grind [← Keeps.foldl, ← Keeps.foldl1, ← Keeps.mk']

theorem State.startsLate_keeps {s0 : State} {s : State} (h_s : Keeps s0 s) :
        Keeps s0 (State.startsLate s) := by
  unfold State.startsLate
  grind [← Keeps.foldl, ← Keeps.foldl1, ← Keeps.mk', ← State.collNote_keeps, ← State.raise_keeps, ← State.tally_keeps, ←
    State.count_keeps]

theorem State.cancelBell_keeps {s0 : State} {s : State} (h_s : Keeps s0 s) :
        Keeps s0 (State.cancelBell s) := by
  unfold State.cancelBell
  grind [← Keeps.foldl, ← Keeps.foldl1, ← Keeps.mk', ← State.raise_keeps, ← State.count_keeps]

theorem execPeriodSwitch_keeps {s0 : State} {s : State} (h_s : Keeps s0 s) :
        ∀ t_, execPeriodSwitch s = .next t_ → Keeps s0 t_ := by
  unfold execPeriodSwitch
  dsimp only
  repeat' split
  all_goals grind (splits := 40) (gen := 40) (ematch := 40) [← Keeps.foldl, ← Keeps.foldl1, ← Keeps.mk', live, ←
    State.advanceDev_keeps, ← State.setOb_keeps, ← State.startsLate_keeps, ← State.cancelBell_keeps, ← State.count_keeps, ←
    State.heftRestamp_keeps, ← State.missReset_keeps, ← State.stepTicks_keeps, ← State.heavyReport_keeps]

theorem execBellSwitch_keeps {s0 : State} (who : Path) (v : BitVec 64) {s : State} (h_s : Keeps s0 s) :
        ∀ t_, execBellSwitch who v s = .next t_ → Keeps s0 t_ := by
  unfold execBellSwitch
  grind [← Keeps.foldl, ← Keeps.foldl1, ← Keeps.mk', ← State.access_keeps, ← State.bellSwitch_keeps, Keeps1]

theorem State.overrun_keeps {s0 : State} {s : State} (h_s : Keeps s0 s) (c : Nat) (late : Nat) :
        Keeps s0 (State.overrun s c late) := by
  unfold State.overrun
  repeat' split
  all_goals grind (splits := 20) (gen := 20) (ematch := 20) [← Keeps.foldl, ← Keeps.foldl1, ← Keeps.mk', ← State.tally_keeps, ←
    State.count_keeps, ← State.setBlob_keeps, ← State.raise_keeps, ← State.qrecLate_keeps]

theorem execBellBaseWrite_keeps {s0 : State} (who : Path) (v : BitVec 64) {s : State} (h_s : Keeps s0 s) :
        ∀ t_, execBellBaseWrite who v s = .next t_ → Keeps s0 t_ := by
  unfold execBellBaseWrite
  grind [← Keeps.foldl, ← Keeps.foldl1, ← Keeps.mk', ← State.access_keeps, ← State.writeBellBase_keeps, Keeps1]

theorem execBellTick_keeps {s0 : State} {s : State} (h_s : Keeps s0 s) :
        ∀ t_, execBellTick s = .next t_ → Keeps s0 t_ := by
  unfold execBellTick
  grind [← Keeps.foldl, ← Keeps.foldl1, ← Keeps.mk', live, ← State.stepTicks_keeps, ← State.advanceDev_keeps]

theorem execBellOverrun_keeps {s0 : State} (c : Fin 8) (late : BitVec 32) {s : State} (h_s : Keeps s0 s) :
        ∀ t_, execBellOverrun c late s = .next t_ → Keeps s0 t_ := by
  unfold execBellOverrun
  grind [← Keeps.foldl, ← Keeps.foldl1, ← Keeps.mk', live, ← State.droveOverruns_keeps, ← State.overrun_keeps]

end Sys2Proof.Machine
end

