-- ==== Sys2Proof/Laws/Keeps8.lean ====
section
/-!
SUPPORT. What the operations of Control, Oxpin, Ports, Time keep (`Keeps`), one lemma per operation.
-/

namespace Sys2Proof.Machine

set_option Elab.async false

/-! ### Control -/

theorem State.wdtStart_keeps {s0 : State} {s : State} (h_s : Keeps s0 s) :
        Keeps s0 (State.wdtStart s) := by
  unfold State.wdtStart
  grind [← Keeps.foldl, ← Keeps.foldl1, ← Keeps.mk']

theorem State.setFw_keeps {s0 : State} {s : State} (h_s : Keeps s0 s) (v : Nat) :
        Keeps s0 (State.setFw s v) := by
  unfold State.setFw
  grind [← Keeps.foldl, ← Keeps.foldl1, ← Keeps.mk', ← State.event_keeps, ← State.setOb_keeps]

theorem State.coresStart_keeps {s0 : State} {s : State} (h_s : Keeps s0 s) :
        Keeps s0 (State.coresStart s) := by
  unfold State.coresStart
  grind [← Keeps.foldl, ← Keeps.foldl1, ← Keeps.mk', ← State.wdtStart_keeps, ← State.setFw_keeps, ← State.setRow_keeps]

theorem State.fwPush_keeps {s0 : State} {s : State} (h_s : Keeps s0 s) (len : Nat) :
        Keeps s0 (State.fwPush s len).1 := by
  unfold State.fwPush
  grind [← Keeps.foldl, ← Keeps.foldl1, ← Keeps.mk', ← State.setFw_keeps]

theorem execFwPush_keeps {s0 : State} (who : Path) (len : BitVec 64) {s : State} (h_s : Keeps s0 s) :
        ∀ t_, execFwPush who len s = .next t_ → Keeps s0 t_ := by
  unfold execFwPush
  grind [← Keeps.foldl, ← Keeps.foldl1, ← Keeps.mk', ← State.access_keeps, ← State.fwPush_keeps, Keeps1]

theorem State.writeWdt_keeps {s0 : State} {s : State} (h_s : Keeps s0 s) (v : Nat) :
        Keeps s0 (State.writeWdt s v).1 := by
  unfold State.writeWdt
  grind [← Keeps.foldl, ← Keeps.foldl1, ← Keeps.mk', ← State.wdtStart_keeps, ← State.setOb_keeps]

theorem State.writeAccept_keeps {s0 : State} {s : State} (h_s : Keeps s0 s) (v : Nat) :
        Keeps s0 (State.writeAccept s v).1 := by
  unfold State.writeAccept
  grind [← Keeps.foldl, ← Keeps.foldl1, ← Keeps.mk', ← State.setOb_keeps]

theorem State.featApply_keeps {s0 : State} {s : State} (h_s : Keeps s0 s) (p : Nat) (n : Nat) (v : Nat) :
        Keeps s0 (State.featApply s p n v).1 := by
  unfold State.featApply
  grind [← Keeps.foldl, ← Keeps.foldl1, ← Keeps.mk', ← State.setOb_keeps]

theorem State.coresFrom_keeps {s0 : State} {s : State} (h_s : Keeps s0 s) (was : Nat) (v : Nat) :
        Keeps s0 (State.coresFrom s was v) := by
  unfold State.coresFrom
  grind [← Keeps.foldl, ← Keeps.foldl1, ← Keeps.mk', ← State.setRow_keeps]

theorem State.fwFail_keeps {s0 : State} {s : State} (h_s : Keeps s0 s) (n : Nat) :
        Keeps s0 (State.fwFail s n) := by
  unfold State.fwFail
  grind [← Keeps.foldl, ← Keeps.foldl1, ← Keeps.mk', ← State.setFw_keeps, ← State.setOb_keeps, ← State.raise_keeps, ←
    State.emit_keeps]

theorem State.fwRestart_keeps {s0 : State} {s : State} (h_s : Keeps s0 s) :
        Keeps s0 (State.fwRestart s) := by
  unfold State.fwRestart
  grind [← Keeps.foldl, ← Keeps.foldl1, ← Keeps.mk', ← State.setFw_keeps, ← State.coresFrom_keeps, ← State.coresStart_keeps, ←
    State.fwFail_keeps]

theorem State.criotteCmd_keeps {s0 : State} {s : State} (h_s : Keeps s0 s) (v : Nat) :
        Keeps s0 (State.criotteCmd s v).1 := by
  unfold State.criotteCmd
  grind [← Keeps.foldl, ← Keeps.foldl1, ← Keeps.mk', ← State.coresFrom_keeps, ← State.setOb_keeps, ← State.fwRestart_keeps]

theorem execFeaturesFlood_keeps {s0 : State} {s : State} (h_s : Keeps s0 s) :
        ∀ t_, execFeaturesFlood s = .next t_ → Keeps s0 t_ := by
  unfold execFeaturesFlood
  grind [← Keeps.foldl, ← Keeps.foldl1, ← Keeps.mk', live, ← State.floodIssue_keeps, ← State.featuresTake_keeps]

theorem State.fwLoad_keeps {s0 : State} {s : State} (h_s : Keeps s0 s) (h : List Byte) (sigs : List Byte) (payload : List Byte) :
        Keeps s0 (State.fwLoad s h sigs payload) := by
  unfold State.fwLoad
  repeat' split
  all_goals grind (splits := 20) (gen := 20) (ematch := 20) [← Keeps.foldl, ← Keeps.foldl1, ← Keeps.mk', ← State.hbmWrite_keeps, ←
    State.setOb_keeps, ← State.setBlob_keeps, ← State.setFw_keeps]

theorem State.fwJudge_keeps {s0 : State} {s : State} (h_s : Keeps s0 s) (len : Nat) (h : List Byte) (sigs : List Byte) (payload :
    List Byte) :
        Keeps s0 (State.fwJudge s len h sigs payload) := by
  unfold State.fwJudge
  grind [← Keeps.foldl, ← Keeps.foldl1, ← Keeps.mk', ← State.setOb_keeps, ← State.coresStart_keeps, ← State.fwLoad_keeps, ←
    State.fwFail_keeps]

theorem execFwVerifyDone_keeps {s0 : State} {s : State} (h_s : Keeps s0 s) :
        ∀ t_, execFwVerifyDone s = .next t_ → Keeps s0 t_ := by
  unfold execFwVerifyDone
  grind [← Keeps.foldl, ← Keeps.foldl1, ← Keeps.mk', live, ← State.fwJudge_keeps]

theorem execFeatApply_keeps {s0 : State} (who : Path) (p : BitVec 16) (n : BitVec 64) (v : BitVec 256) {s : State} (h_s : Keeps s0
    s) :
        ∀ t_, execFeatApply who p n v s = .next t_ → Keeps s0 t_ := by
  unfold execFeatApply
  grind [← Keeps.foldl, ← Keeps.foldl1, ← Keeps.mk', ← State.access_keeps, ← State.featApply_keeps, Keeps1]

theorem execCriotteWdtKick_keeps {s0 : State} (who : Path) {s : State} (h_s : Keeps s0 s) :
        ∀ t_, execCriotteWdtKick who s = .next t_ → Keeps s0 t_ := by
  unfold execCriotteWdtKick
  grind [← Keeps.foldl, ← Keeps.foldl1, ← Keeps.mk', ← State.access_keeps, ← okay_keeps, ← State.wdtStart_keeps, Keeps1]

theorem execFwReady_keeps {s0 : State} (who : Path) {s : State} (h_s : Keeps s0 s) :
        ∀ t_, execFwReady who s = .next t_ → Keeps s0 t_ := by
  unfold execFwReady
  grind [← Keeps.foldl, ← Keeps.foldl1, ← Keeps.mk', ← State.access_keeps, ← okay_keeps, Keeps1]

theorem State.bootAck_keeps {s0 : State} {s : State} (h_s : Keeps s0 s) :
        Keeps s0 (State.bootAck s) := by
  unfold State.bootAck
  grind [← Keeps.foldl, ← Keeps.foldl1, ← Keeps.mk', ← State.emit_keeps]

theorem execBootEnd_keeps {s0 : State} (bytes : List Byte) {s : State} (h_s : Keeps s0 s) :
        ∀ t_, execBootEnd bytes s = .next t_ → Keeps s0 t_ := by
  unfold execBootEnd
  grind [← Keeps.foldl, ← Keeps.foldl1, ← Keeps.mk', ← State.setFw_keeps, ← State.bootAck_keeps]

theorem execBootData_keeps {s0 : State} (bytes : List Byte) {s : State} (h_s : Keeps s0 s) :
        ∀ t_, execBootData bytes s = .next t_ → Keeps s0 t_ := by
  unfold execBootData
  grind [← Keeps.foldl, ← Keeps.foldl1, ← Keeps.mk', ← State.setFw_keeps, ← State.hbmWrite_keeps, ← State.bootAck_keeps]

theorem execFeatApplyTake_keeps {s0 : State} (p : Fin 4096) {s : State} (h_s : Keeps s0 s) :
        ∀ t_, execFeatApplyTake p s = .next t_ → Keeps s0 t_ := by
  unfold execFeatApplyTake
  grind [← Keeps.foldl, ← Keeps.foldl1, ← Keeps.mk', live, ← State.featTake_keeps]

theorem execCriotteRestart_keeps {s0 : State} (who : Path) {s : State} (h_s : Keeps s0 s) :
        ∀ t_, execCriotteRestart who s = .next t_ → Keeps s0 t_ := by
  unfold execCriotteRestart
  grind [← Keeps.foldl, ← Keeps.foldl1, ← Keeps.mk', ← State.access_keeps, ← State.criotteCmd_keeps, Keeps1]

theorem execFeatAcceptWrite_keeps {s0 : State} (who : Path) (v : BitVec 256) {s : State} (h_s : Keeps s0 s) :
        ∀ t_, execFeatAcceptWrite who v s = .next t_ → Keeps s0 t_ := by
  unfold execFeatAcceptWrite
  grind [← Keeps.foldl, ← Keeps.foldl1, ← Keeps.mk', ← State.access_keeps, ← State.writeAccept_keeps, Keeps1]

theorem execBootReqSend_keeps {s0 : State} {s : State} (h_s : Keeps s0 s) :
        ∀ t_, execBootReqSend s = .next t_ → Keeps s0 t_ := by
  unfold execBootReqSend
  grind [← Keeps.foldl, ← Keeps.foldl1, ← Keeps.mk', ← State.advanceTo_keeps, ← State.emit_keeps]

theorem execCriotteHalt_keeps {s0 : State} (who : Path) {s : State} (h_s : Keeps s0 s) :
        ∀ t_, execCriotteHalt who s = .next t_ → Keeps s0 t_ := by
  unfold execCriotteHalt
  grind [← Keeps.foldl, ← Keeps.foldl1, ← Keeps.mk', ← State.access_keeps, ← State.criotteCmd_keeps, Keeps1]

theorem execCriotteWdtExpire_keeps {s0 : State} {s : State} (h_s : Keeps s0 s) :
        ∀ t_, execCriotteWdtExpire s = .next t_ → Keeps s0 t_ := by
  unfold execCriotteWdtExpire
  grind [← Keeps.foldl, ← Keeps.foldl1, ← Keeps.mk', live, ← State.advanceTo_keeps, ← State.count_keeps, ← State.coresFrom_keeps, ←
    State.errLog_keeps, ← State.raise_keeps, ← State.event_keeps]

theorem execBootDataSilence_keeps {s0 : State} {s : State} (h_s : Keeps s0 s) :
        ∀ t_, execBootDataSilence s = .next t_ → Keeps s0 t_ := by
  unfold execBootDataSilence
  grind [← Keeps.foldl, ← Keeps.foldl1, ← Keeps.mk', ← State.setFw_keeps, ← State.advanceTo_keeps]

/-! ### Oxpin -/

theorem State.setSession_keeps {s0 : State} {s : State} (h_s : Keeps s0 s) (i : Nat) (x : Option Session) :
        Keeps s0 (State.setSession s i x) := by
  unfold State.setSession
  grind [← Keeps.foldl, ← Keeps.foldl1, ← Keeps.mk', ← State.setRow_keeps]

theorem State.closeSession_keeps {s0 : State} {s : State} (h_s : Keeps s0 s) (i : Nat) :
        Keeps s0 (State.closeSession s i) := by
  unfold State.closeSession
  grind [← Keeps.foldl, ← Keeps.foldl1, ← Keeps.mk', ← State.setSession_keeps]

theorem State.writeKey_keeps {s0 : State} {s : State} (h_s : Keeps s0 s) (k : Nat) (v : Nat) :
        Keeps s0 (State.writeKey s k v).1 := by
  unfold State.writeKey
  grind [← Keeps.foldl, ← Keeps.foldl1, ← Keeps.mk', ← State.setRow_keeps, ← State.closeSession_keeps]

theorem State.oxpinClose_keeps {s0 : State} {s : State} (h_s : Keeps s0 s) (i : Nat) :
        Keeps s0 (State.oxpinClose s i).1 := by
  unfold State.oxpinClose
  grind [← Keeps.foldl, ← Keeps.foldl1, ← Keeps.mk', ← State.closeSession_keeps]

theorem execOxpinSlotUnlock_keeps {s0 : State} (k : Fin 8) {s : State} (h_s : Keeps s0 s) :
        ∀ t_, execOxpinSlotUnlock k s = .next t_ → Keeps s0 t_ := by
  unfold execOxpinSlotUnlock
  grind [← Keeps.foldl, ← Keeps.foldl1, ← Keeps.mk', ← State.advanceTo_keeps]

theorem execOxpinIdleTimeout_keeps {s0 : State} (i : Fin 8) {s : State} (h_s : Keeps s0 s) :
        ∀ t_, execOxpinIdleTimeout i s = .next t_ → Keeps s0 t_ := by
  unfold execOxpinIdleTimeout
  grind [← Keeps.foldl, ← Keeps.foldl1, ← Keeps.mk', ← State.count_keeps, ← State.closeSession_keeps, ← State.advanceTo_keeps]

theorem State.oxTake_keeps {s0 : State} {s : State} (h_s : Keeps s0 s) (type : Nat) (m : List Byte) (kept : Session → Bool) :
        Keeps s0 (State.oxTake s type m kept).1 := by
  unfold State.oxTake
  grind [← Keeps.foldl, ← Keeps.foldl1, ← Keeps.mk', ← State.raise_keeps, ← State.count_keeps, ← State.setSession_keeps]

theorem State.oxSend_keeps {s0 : State} {s : State} (h_s : Keeps s0 s) (field : Bool) (i : Nat) (x : Session) (type : Nat) (payload
    : List Byte) :
        Keeps s0 (State.oxSend s field i x type payload).1 := by
  unfold State.oxSend
  grind [← Keeps.foldl, ← Keeps.foldl1, ← Keeps.mk', ← State.emit_keeps, ← State.setSession_keeps]

theorem State.proofFailed_keeps {s0 : State} {s : State} (h_s : Keeps s0 s) (k : Nat) :
        Keeps s0 (State.proofFailed s k) := by
  unfold State.proofFailed
  grind [← Keeps.foldl, ← Keeps.foldl1, ← Keeps.mk', ← State.raise_keeps, ← State.count_keeps, ← State.errLog_keeps]

theorem State.oxPlain_keeps {s0 : State} {s : State} (h_s : Keeps s0 s) (field : Bool) (type : Nat) (session : Nat) (payload : List
    Byte) :
        Keeps s0 (State.oxPlain s field type session payload) := by
  unfold State.oxPlain
  grind [← Keeps.foldl, ← Keeps.foldl1, ← Keeps.mk', ← State.emit_keeps]

theorem State.openRefuse_keeps {s0 : State} {s : State} (h_s : Keeps s0 s) (field : Bool) (status : Nat) (full : Bool) :
        Keeps s0 (State.openRefuse s field status full) := by
  unfold State.openRefuse
  grind [← Keeps.foldl, ← Keeps.foldl1, ← Keeps.mk', ← State.count_keeps, ← State.raise_keeps, ← State.oxPlain_keeps]

theorem execOxpinOpenReq_keeps {s0 : State} (field : Bool) (m : List Byte) {s : State} (h_s : Keeps s0 s) :
        ∀ t_, execOxpinOpenReq field m s = .next t_ → Keeps s0 t_ := by
  unfold execOxpinOpenReq
  grind [← Keeps.foldl, ← Keeps.foldl1, ← Keeps.mk', ← State.openRefuse_keeps, ← State.draw_keeps, ← State.oxPlain_keeps]

theorem execMgmtArpNdEcho_keeps {s0 : State} (l : List Byte) {s : State} (h_s : Keeps s0 s) :
        ∀ t_, execMgmtArpNdEcho l s = .next t_ → Keeps s0 t_ := by
  unfold execMgmtArpNdEcho
  grind [← Keeps.foldl, ← Keeps.foldl1, ← Keeps.mk', ← State.emit_keeps]

theorem execOxpinCloseMessage_keeps {s0 : State} (m : List Byte) {s : State} (h_s : Keeps s0 s) :
        ∀ t_, execOxpinCloseMessage m s = .next t_ → Keeps s0 t_ := by
  unfold execOxpinCloseMessage
  grind [← Keeps.foldl, ← Keeps.foldl1, ← Keeps.mk', ← State.oxTake_keeps, ← State.closeSession_keeps]

theorem execOxpinOpenExpire_keeps {s0 : State} {s : State} (h_s : Keeps s0 s) :
        ∀ t_, execOxpinOpenExpire s = .next t_ → Keeps s0 t_ := by
  unfold execOxpinOpenExpire
  grind [← Keeps.foldl, ← Keeps.foldl1, ← Keeps.mk', ← State.advanceTo_keeps, ← State.count_keeps]

theorem execOxpinKeyWrite_keeps {s0 : State} (who : Path) (k : Fin 8) (v : BitVec 320) {s : State} (h_s : Keeps s0 s) :
        ∀ t_, execOxpinKeyWrite who k v s = .next t_ → Keeps s0 t_ := by
  unfold execOxpinKeyWrite
  grind [← Keeps.foldl, ← Keeps.foldl1, ← Keeps.mk', ← State.access_keeps, ← State.writeKey_keeps, Keeps1]

theorem execOxpinOpenProof_keeps {s0 : State} (field : Bool) (m : List Byte) {s : State} (h_s : Keeps s0 s) :
        ∀ t_, execOxpinOpenProof field m s = .next t_ → Keeps s0 t_ := by
  unfold execOxpinOpenProof
  repeat' split
  all_goals grind (splits := 20) (gen := 20) (ematch := 20) [← Keeps.foldl, ← Keeps.foldl1, ← Keeps.mk', ← State.oxPlain_keeps, ←
    State.raise_keeps, ← State.count_keeps, ← State.proofFailed_keeps, ← State.setSession_keeps]

theorem execOxpinSpdm_keeps {s0 : State} (field : Bool) (m : List Byte) {s : State} (h_s : Keeps s0 s) :
        ∀ t_, execOxpinSpdm field m s = .next t_ → Keeps s0 t_ := by
  unfold execOxpinSpdm
  grind [← Keeps.foldl, ← Keeps.foldl1, ← Keeps.mk', ← State.oxTake_keeps, ← State.oxSend_keeps]

theorem execOxpinClose_keeps {s0 : State} (who : Path) (i : BitVec 8) {s : State} (h_s : Keeps s0 s) :
        ∀ t_, execOxpinClose who i s = .next t_ → Keeps s0 t_ := by
  unfold execOxpinClose
  grind [← Keeps.foldl, ← Keeps.foldl1, ← Keeps.mk', ← State.access_keeps, ← State.oxpinClose_keeps, Keeps1]

/-! ### Ports -/

theorem State.writePlacement_keeps {s0 : State} {s : State} (h_s : Keeps s0 s) (e : Nat) (v : Nat) :
        Keeps s0 (State.writePlacement s e v).1 := by
  unfold State.writePlacement
  grind [← Keeps.foldl, ← Keeps.foldl1, ← Keeps.mk', ← State.setOb_keeps, ← State.modBlock_keeps, ← State.linkHold_keeps]

theorem State.writeFarSize_keeps {s0 : State} {s : State} (h_s : Keeps s0 s) (v : Nat) :
        Keeps s0 (State.writeFarSize s v).1 := by
  unfold State.writeFarSize
  grind [← Keeps.foldl, ← Keeps.foldl1, ← Keeps.mk', ← State.setOb_keeps]

theorem State.writeThr_keeps {s0 : State} {s : State} (h_s : Keeps s0 s) (oid : Nat) (row : Nat) (v : Nat) :
        Keeps s0 (State.writeThr s oid row v).1 := by
  unfold State.writeThr
  grind [← Keeps.foldl, ← Keeps.foldl1, ← Keeps.mk', ← State.setRow_keeps]

theorem State.pfcDefault_keeps {s0 : State} {s : State} (h_s : Keeps s0 s) (b : Nat) :
        Keeps s0 (State.pfcDefault s b) := by
  unfold State.pfcDefault
  grind [← Keeps.foldl, ← Keeps.foldl1, ← Keeps.mk', ← State.setRow_keeps]

theorem State.raiseReserves_keeps {s0 : State} {s : State} (h_s : Keeps s0 s) (b : Nat) :
        Keeps s0 (State.raiseReserves s b) := by
  unfold State.raiseReserves
  grind [← Keeps.foldl, ← Keeps.foldl1, ← Keeps.mk', ← State.setRow_keeps]

theorem State.writeRole_keeps {s0 : State} {s : State} (h_s : Keeps s0 s) (b : Nat) (v : Nat) :
        Keeps s0 (State.writeRole s b v).1 := by
  unfold State.writeRole
  grind [← Keeps.foldl, ← Keeps.foldl1, ← Keeps.mk', ← State.disarm_keeps, ← State.blockDown_keeps, ← State.pfcDefault_keeps, ←
    State.setOb_keeps, ← State.raiseReserves_keeps, ← State.setReg_keeps, ← State.blockStart_keeps]

theorem State.writeSplit_keeps {s0 : State} {s : State} (h_s : Keeps s0 s) (b : Nat) (rate : Bool) (v : Nat) :
        Keeps s0 (State.writeSplit s b rate v).1 := by
  unfold State.writeSplit
  grind [← Keeps.foldl, ← Keeps.foldl1, ← Keeps.mk', ← State.disarm_keeps, ← State.blockDown_keeps, ← State.pfcDefault_keeps, ←
    State.setOb_keeps, ← State.blockStart_keeps]

theorem State.writeVcRsv_keeps {s0 : State} {s : State} (h_s : Keeps s0 s) (b : Nat) (v : Nat) (n : Nat) :
        Keeps s0 (State.writeVcRsv s b v n).1 := by
  unfold State.writeVcRsv
  grind [← Keeps.foldl, ← Keeps.foldl1, ← Keeps.mk', ← State.setRow_keeps]

theorem State.writePool_keeps {s0 : State} {s : State} (h_s : Keeps s0 s) (b : Nat) (v : Nat) :
        Keeps s0 (State.writePool s b v).1 := by
  unfold State.writePool
  grind [← Keeps.foldl, ← Keeps.foldl1, ← Keeps.mk', ← State.setOb_keeps]

theorem execPortRoleWrite_keeps {s0 : State} (who : Path) (b : Fin 128) (v : BitVec 8) {s : State} (h_s : Keeps s0 s) :
        ∀ t_, execPortRoleWrite who b v s = .next t_ → Keeps s0 t_ := by
  unfold execPortRoleWrite
  grind [← Keeps.foldl, ← Keeps.foldl1, ← Keeps.mk', ← State.access_keeps, ← State.writeRole_keeps, Keeps1]

theorem execPortPoolMibWrite_keeps {s0 : State} (who : Path) (b : Fin 128) (v : BitVec 16) {s : State} (h_s : Keeps s0 s) :
        ∀ t_, execPortPoolMibWrite who b v s = .next t_ → Keeps s0 t_ := by
  unfold execPortPoolMibWrite
  grind [← Keeps.foldl, ← Keeps.foldl1, ← Keeps.mk', ← State.access_keeps, ← State.writePool_keeps, Keeps1]

theorem execPlacementWrite_keeps {s0 : State} (who : Path) (e : Fin 8) (v : BitVec 32) {s : State} (h_s : Keeps s0 s) :
        ∀ t_, execPlacementWrite who e v s = .next t_ → Keeps s0 t_ := by
  unfold execPlacementWrite
  grind [← Keeps.foldl, ← Keeps.foldl1, ← Keeps.mk', ← State.access_keeps, ← State.writePlacement_keeps, Keeps1]

theorem execPortSplitWrite_keeps {s0 : State} (who : Path) (b : Fin 128) (rate : Bool) (v : BitVec 8) {s : State} (h_s : Keeps s0 s)
    :
        ∀ t_, execPortSplitWrite who b rate v s = .next t_ → Keeps s0 t_ := by
  unfold execPortSplitWrite
  grind [← Keeps.foldl, ← Keeps.foldl1, ← Keeps.mk', ← State.access_keeps, ← State.writeSplit_keeps, Keeps1]

theorem execFoldFarSizeWrite_keeps {s0 : State} (who : Path) (v : BitVec 16) {s : State} (h_s : Keeps s0 s) :
        ∀ t_, execFoldFarSizeWrite who v s = .next t_ → Keeps s0 t_ := by
  unfold execFoldFarSizeWrite
  grind [← Keeps.foldl, ← Keeps.foldl1, ← Keeps.mk', ← State.access_keeps, ← State.writeFarSize_keeps, Keeps1]

/-! ### Time -/

theorem State.ppsGate_keeps {s0 : State} {s : State} (h_s : Keeps s0 s) :
        Keeps s0 (State.ppsGate s) := by
  unfold State.ppsGate
  grind [← Keeps.foldl, ← Keeps.foldl1, ← Keeps.mk']

theorem State.retrim_keeps {s0 : State} {s : State} (h_s : Keeps s0 s) :
        Keeps s0 (State.retrim s) := by
  unfold State.retrim
  grind [← Keeps.foldl, ← Keeps.foldl1, ← Keeps.mk']

theorem State.domSwitch_keeps {s0 : State} {s : State} (h_s : Keeps s0 s) (x : Nat) :
        Keeps s0 (State.domSwitch s x) := by
  unfold State.domSwitch
  grind [← Keeps.foldl, ← Keeps.foldl1, ← Keeps.mk', ← State.count_keeps, ← State.setOb_keeps, ← State.ppsGate_keeps, ←
    State.retrim_keeps]

theorem State.writeSel_keeps {s0 : State} {s : State} (h_s : Keeps s0 s) (v : Nat) :
        Keeps s0 (State.writeSel s v).1 := by
  unfold State.writeSel
  grind [← Keeps.foldl, ← Keeps.foldl1, ← Keeps.mk', ← State.domSwitch_keeps]

theorem State.writePpsEn_keeps {s0 : State} {s : State} (h_s : Keeps s0 s) (v : Nat) :
        Keeps s0 (State.writePpsEn s v).1 := by
  unfold State.writePpsEn
  grind [← Keeps.foldl, ← Keeps.foldl1, ← Keeps.mk', ← State.ppsGate_keeps, ← State.setOb_keeps]

theorem State.modDomain_keeps {s0 : State} {s : State} (h_s : Keeps s0 s) (x : Nat) (f : Domain → Domain) :
        Keeps s0 (State.modDomain s x f) := by
  unfold State.modDomain
  grind [← Keeps.foldl, ← Keeps.foldl1, ← Keeps.mk']

theorem State.setDomState_keeps {s0 : State} {s : State} (h_s : Keeps s0 s) (x : Nat) (v : Nat) :
        Keeps s0 (State.setDomState s x v) := by
  unfold State.setDomState
  grind [← Keeps.foldl, ← Keeps.foldl1, ← Keeps.mk', ← State.setOb_keeps, ← State.ppsGate_keeps, ← State.retrim_keeps]

theorem State.domLeave_keeps {s0 : State} {s : State} (h_s : Keeps s0 s) (x : Nat) (v : Nat) :
        Keeps s0 (State.domLeave s x v) := by
  unfold State.domLeave
  dsimp only
  repeat' split
  all_goals grind (splits := 40) (gen := 40) (ematch := 40) [← Keeps.foldl, ← Keeps.foldl1, ← Keeps.mk', ← State.modDomain_keeps, ←
    State.setDomState_keeps, ← State.setOb_keeps, ← State.raise_keeps, ← State.domSwitch_keeps]

theorem State.domRestart_keeps {s0 : State} {s : State} (h_s : Keeps s0 s) (x : Nat) :
        Keeps s0 (State.domRestart s x) := by
  unfold State.domRestart
  dsimp only
  repeat' split
  all_goals grind (splits := 40) (gen := 40) (ematch := 40) [← Keeps.foldl, ← Keeps.foldl1, ← Keeps.mk', ← State.modDomain_keeps, ←
    State.domLeave_keeps, ← State.setOb_keeps, ← State.setDomState_keeps]

theorem State.writeDom_keeps {s0 : State} {s : State} (h_s : Keeps s0 s) (x : Nat) (e : Nat) (v : Nat) :
        Keeps s0 (State.writeDom s x e v).1 := by
  unfold State.writeDom
  grind [← Keeps.foldl, ← Keeps.foldl1, ← Keeps.mk', ← State.setOb_keeps, ← State.domRestart_keeps]

theorem State.writeBwthPort_keeps {s0 : State} {s : State} (h_s : Keeps s0 s) (p : Nat) (v : Nat) :
        Keeps s0 (State.writeBwthPort s p v).1 := by
  unfold State.writeBwthPort
  grind [← Keeps.foldl, ← Keeps.foldl1, ← Keeps.mk', ← State.setRow_keeps]

theorem State.stepTime_keeps {s0 : State} {s : State} (h_s : Keeps s0 s) (d : Nat) :
        Keeps s0 (State.stepTime s d) := by
  unfold State.stepTime
  grind [← Keeps.foldl, ← Keeps.foldl1, ← Keeps.mk', ← State.raise_keeps, ← State.count_keeps, ← State.stepTicks_keeps]

theorem State.bwthSet_keeps {s0 : State} {s : State} (h_s : Keeps s0 s) (v : Nat) :
        Keeps s0 (State.bwthSet s v).1 := by
  unfold State.bwthSet
  grind [← Keeps.foldl, ← Keeps.foldl1, ← Keeps.mk', ← State.modDomain_keeps, ← State.stepTime_keeps]

theorem execPpsOutFall_keeps {s0 : State} {s : State} (h_s : Keeps s0 s) :
        ∀ t_, execPpsOutFall s = .next t_ → Keeps s0 t_ := by
  unfold execPpsOutFall
  grind [← Keeps.foldl, ← Keeps.foldl1, ← Keeps.mk', awake, ← State.advanceTo_keeps]

theorem State.acquireStep_keeps {s0 : State} {s : State} (h_s : Keeps s0 s) :
        Keeps s0 (State.acquireStep s) := by
  unfold State.acquireStep
  grind [← Keeps.foldl, ← Keeps.foldl1, ← Keeps.mk', ← State.stepTime_keeps]

theorem State.domSample_keeps {s0 : State} {s : State} (h_s : Keeps s0 s) (x : Nat) (e : Int) :
        Keeps s0 (State.domSample s x e) := by
  unfold State.domSample
  grind [← Keeps.foldl, ← Keeps.foldl1, ← Keeps.mk', ← State.setDomState_keeps, ← State.modDomain_keeps, ← State.acquireStep_keeps,
    ← State.retrim_keeps]

theorem execPpsInEdge_keeps {s0 : State} {s : State} (h_s : Keeps s0 s) :
        ∀ t_, execPpsInEdge s = .next t_ → Keeps s0 t_ := by
  unfold execPpsInEdge
  grind [← Keeps.foldl, ← Keeps.foldl1, ← Keeps.mk', awake, ← State.count_keeps, ← State.setBlob_keeps, ← State.setOb_keeps, ←
    State.domSample_keeps]

theorem execPpsOutRise_keeps {s0 : State} {s : State} (h_s : Keeps s0 s) :
        ∀ t_, execPpsOutRise s = .next t_ → Keeps s0 t_ := by
  unfold execPpsOutRise
  grind [← Keeps.foldl, ← Keeps.foldl1, ← Keeps.mk', awake, ← State.advanceDev_keeps]

theorem State.timeSyncTake_keeps {s0 : State} {s : State} (h_s : Keeps s0 s) (b : Nat) (p : Nat) :
        Keeps s0 (State.timeSyncTake s b p) := by
  unfold State.timeSyncTake
  dsimp only
  repeat' split
  all_goals grind (splits := 40) (gen := 40) (ematch := 40) [← Keeps.foldl, ← Keeps.foldl1, ← Keeps.mk', ← State.count_keeps, ←
    State.raise_keeps, ← State.domSample_keeps, ← State.setOb_keeps]

theorem execTimeSyncReceive_keeps {s0 : State} (b : Fin 128) (bytes : List Byte) {s : State} (h_s : Keeps s0 s) :
        ∀ t_, execTimeSyncReceive b bytes s = .next t_ → Keeps s0 t_ := by
  unfold execTimeSyncReceive
  grind [← Keeps.foldl, ← Keeps.foldl1, ← Keeps.mk', live, ← State.timeSyncTake_keeps]

theorem execStileFifoOverrun_keeps {s0 : State} (cls : Fin 16) {s : State} (h_s : Keeps s0 s) :
        ∀ t_, execStileFifoOverrun cls s = .next t_ → Keeps s0 t_ := by
  unfold execStileFifoOverrun
  grind [← Keeps.foldl, ← Keeps.foldl1, ← Keeps.mk', live, ← State.raise_keeps, ← State.holdCount_keeps, ← State.count_keeps]

theorem execPpsInMissing_keeps {s0 : State} {s : State} (h_s : Keeps s0 s) :
        ∀ t_, execPpsInMissing s = .next t_ → Keeps s0 t_ := by
  unfold execPpsInMissing
  grind [← Keeps.foldl, ← Keeps.foldl1, ← Keeps.mk', awake, ← State.advanceTo_keeps, ← State.raise_keeps, ← State.count_keeps]

theorem execBwthSet_keeps {s0 : State} (who : Path) (v : BitVec 112) {s : State} (h_s : Keeps s0 s) :
        ∀ t_, execBwthSet who v s = .next t_ → Keeps s0 t_ := by
  unfold execBwthSet
  grind [← Keeps.foldl, ← Keeps.foldl1, ← Keeps.mk', ← State.access_keeps, ← State.bwthSet_keeps, Keeps1]

theorem execDomainSampleLoss_keeps {s0 : State} (x : Fin 2) {s : State} (h_s : Keeps s0 s) :
        ∀ t_, execDomainSampleLoss x s = .next t_ → Keeps s0 t_ := by
  unfold execDomainSampleLoss
  grind [← Keeps.foldl, ← Keeps.foldl1, ← Keeps.mk', awake, ← State.domLeave_keeps, ← State.advanceTo_keeps]

theorem execBwthTimeRead_keeps {s0 : State} {s : State} (h_s : Keeps s0 s) :
        ∀ t_, execBwthTimeRead s = .next t_ → Keeps s0 t_ := by
  unfold execBwthTimeRead
  grind [← Keeps.foldl, ← Keeps.foldl1, ← Keeps.mk', awake, ← State.emit_keeps]

theorem execBwthSelWrite_keeps {s0 : State} (who : Path) (v : BitVec 8) {s : State} (h_s : Keeps s0 s) :
        ∀ t_, execBwthSelWrite who v s = .next t_ → Keeps s0 t_ := by
  unfold execBwthSelWrite
  grind [← Keeps.foldl, ← Keeps.foldl1, ← Keeps.mk', ← State.access_keeps, ← State.writeSel_keeps, Keeps1]

end Sys2Proof.Machine
end

