-- ==== Sys2Proof/Laws/Keeps9.lean ====
section
/-!
SUPPORT. What the operations of Power, Objects, Dictionary, Ptp keep (`Keeps`), one lemma per operation.
-/

namespace Sys2Proof.Machine

set_option Elab.async false

/-! ### Power -/

theorem State.writeGpioCfg_keeps {s0 : State} {s : State} (h_s : Keeps s0 s) (i : Nat) (v : Nat) :
        Keeps s0 (State.writeGpioCfg s i v).1 := by
  unfold State.writeGpioCfg
  grind [← Keeps.foldl, ← Keeps.foldl1, ← Keeps.mk', ← State.setRow_keeps]

theorem State.writeGpioOut_keeps {s0 : State} {s : State} (h_s : Keeps s0 s) (v : Nat) :
        Keeps s0 (State.writeGpioOut s v).1 := by
  unfold State.writeGpioOut
  grind [← Keeps.foldl, ← Keeps.foldl1, ← Keeps.mk', ← State.setOb_keeps]

theorem State.pwrCmd_keeps {s0 : State} {s : State} (h_s : Keeps s0 s) (who : Path) (t : Nat) :
        Keeps s0 (State.pwrCmd s who t).1 := by
  unfold State.pwrCmd
  grind [← Keeps.foldl, ← Keeps.foldl1, ← Keeps.mk', ← State.setOb_keeps]

theorem State.gateBlock_keeps {s0 : State} {s : State} (h_s : Keeps s0 s) (b : Nat) (v : Bool) :
        Keeps s0 (State.gateBlock s b v) := by
  unfold State.gateBlock
  grind [← Keeps.foldl, ← Keeps.foldl1, ← Keeps.mk', ← State.setOb_keeps]

theorem State.gateTile_keeps {s0 : State} {s : State} (h_s : Keeps s0 s) (t : Nat) :
        Keeps s0 (State.gateTile s t) := by
  unfold State.gateTile
  grind [← Keeps.foldl, ← Keeps.foldl1, ← Keeps.mk', ← State.setTile_keeps, ← State.resaveAll_keeps, ← State.unmapTile_keeps]

theorem State.stackAsleep_keeps {s0 : State} {s : State} (h_s : Keeps s0 s) (st : Nat) :
        Keeps s0 (State.stackAsleep s st) := by
  unfold State.stackAsleep
  grind [← Keeps.foldl, ← Keeps.foldl1, ← Keeps.mk', ← State.setOb_keeps]

theorem State.gateStack_keeps {s0 : State} {s : State} (h_s : Keeps s0 s) (st : Nat) :
        Keeps s0 (State.gateStack s st) := by
  unfold State.gateStack
  grind [← Keeps.foldl, ← Keeps.foldl1, ← Keeps.mk', ← State.setOb_keeps, ← State.stackAsleep_keeps]

theorem State.gatePaddock_keeps {s0 : State} {s : State} (h_s : Keeps s0 s) (p : Nat) :
        Keeps s0 (State.gatePaddock s p) := by
  unfold State.gatePaddock
  grind [← Keeps.foldl, ← Keeps.foldl1, ← Keeps.mk', ← State.paddockShut_keeps, ← State.gateBlock_keeps, ← State.gateTile_keeps, ←
    State.setOb_keeps]

theorem State.ungateTile_keeps {s0 : State} {s : State} (h_s : Keeps s0 s) (t : Nat) :
        Keeps s0 (State.ungateTile s t) := by
  unfold State.ungateTile
  grind [← Keeps.foldl, ← Keeps.foldl1, ← Keeps.mk']

theorem State.ungateStack_keeps {s0 : State} {s : State} (h_s : Keeps s0 s) (st : Nat) :
        Keeps s0 (State.ungateStack s st) := by
  unfold State.ungateStack
  grind [← Keeps.foldl, ← Keeps.foldl1, ← Keeps.mk', ← State.setOb_keeps]

theorem State.ungatePaddock_keeps {s0 : State} {s : State} (h_s : Keeps s0 s) (p : Nat) :
        Keeps s0 (State.ungatePaddock s p) := by
  unfold State.ungatePaddock
  grind [← Keeps.foldl, ← Keeps.foldl1, ← Keeps.mk', ← State.gateBlock_keeps, ← State.ungateTile_keeps, ← State.ungateStack_keeps, ←
     State.setOb_keeps]

theorem State.pwrGate_keeps {s0 : State} {s : State} (h_s : Keeps s0 s) (op : Nat) (kind : Nat) (u : Nat) :
        Keeps s0 (State.pwrGate s op kind u).1 := by
  unfold State.pwrGate
  grind [← Keeps.foldl, ← Keeps.foldl1, ← Keeps.mk', ← State.setOb_keeps, ← State.gateBlock_keeps, ← State.gateTile_keeps, ←
    State.gateStack_keeps, ← State.gatePaddock_keeps, ← State.blockStart_keeps, ← State.ungateTile_keeps, ← State.ungateStack_keeps,
     ← State.ungatePaddock_keeps]

theorem State.eachBlock_keeps {s0 : State} {s : State} (h_s : Keeps s0 s) (f : State → Nat → State) (k_f : ∀ s n, Keeps s0 s → Keeps
    s0 (f s n)) :
        Keeps s0 (State.eachBlock s f) := by
  unfold State.eachBlock
  grind [← Keeps.foldl, ← Keeps.foldl1, ← Keeps.mk']

theorem State.blockEmpty_keeps {s0 : State} {s : State} (h_s : Keeps s0 s) (b : Nat) :
        Keeps s0 (State.blockEmpty s b) := by
  unfold State.blockEmpty
  grind [← Keeps.foldl, ← Keeps.foldl1, ← Keeps.mk', ← State.dropPen_keeps, ← State.portCount_keeps, ← State.flushPort_keeps, ←
    State.setPortState_keeps, ← State.linkClear_keeps]

theorem State.paddockEmpty_keeps {s0 : State} {s : State} (h_s : Keeps s0 s) (p : Nat) :
        Keeps s0 (State.paddockEmpty s p) := by
  unfold State.paddockEmpty
  grind [← Keeps.foldl, ← Keeps.foldl1, ← Keeps.mk', ← State.dropPen_keeps, ← State.flushPort_keeps]

theorem State.diesDown_keeps {s0 : State} {s : State} (h_s : Keeps s0 s) :
        Keeps s0 (State.diesDown s) := by
  unfold State.diesDown
  extract_lets s1 s2 s3
  have h1 : Keeps s0 s1 := State.eachBlock_keeps h_s _ (fun s n h => State.blockEmpty_keeps h n)
  have h2 : Keeps s0 s2 := Keeps.foldl h1 (fun s p h => State.paddockEmpty_keeps h p)
  have h3 : Keeps s0 s3 := Keeps.foldl h2 (fun s x h => by
    split
    · exact State.domLeave_keeps h _ _
    · exact h)
  clear_value s3
  exact h3.mk' _ _ _ _ _ _ _ _ _ _ _ _ _ _

theorem State.stackGateEnd_keeps {s0 : State} {s : State} (h_s : Keeps s0 s) (st : Nat) :
        Keeps s0 (State.stackGateEnd s st) := by
  unfold State.stackGateEnd
  grind [← Keeps.foldl, ← Keeps.foldl1, ← Keeps.mk', ← State.setOb_keeps, ← State.stackAsleep_keeps, ← State.advanceTo_keeps, ←
    State.raise_keeps]

theorem execStackGateComplete_keeps {s0 : State} (st : Fin 16) {s : State} (h_s : Keeps s0 s) :
        ∀ t_, execStackGateComplete st s = .next t_ → Keeps s0 t_ := by
  unfold execStackGateComplete
  grind [← Keeps.foldl, ← Keeps.foldl1, ← Keeps.mk', live, ← State.stackGateEnd_keeps]

theorem State.elec_keeps {s0 : State} {s : State} (h_s : Keeps s0 s) (row : Nat) (bit : Nat) (unitKind : Nat) (unit : Nat) (each :
    Bool) :
        Keeps s0 (State.elec s row bit unitKind unit each) := by
  unfold State.elec
  grind [← Keeps.foldl, ← Keeps.foldl1, ← Keeps.mk', ← State.count_keeps, ← State.errLog_keeps, ← State.raise_keeps]

theorem State.tripPaddock_keeps {s0 : State} {s : State} (h_s : Keeps s0 s) (p : Nat) :
        Keeps s0 (State.tripPaddock s p) := by
  unfold State.tripPaddock
  grind [← Keeps.foldl, ← Keeps.foldl1, ← Keeps.mk', ← State.stackAsleep_keeps, ← State.gatePaddock_keeps, ←
    State.paddockFence_keeps]

theorem execRefclkSdReturn_keeps {s0 : State} (p : Fin 16) {s : State} (h_s : Keeps s0 s) :
        ∀ t_, execRefclkSdReturn p s = .next t_ → Keeps s0 t_ := by
  unfold execRefclkSdReturn
  grind [← Keeps.foldl, ← Keeps.foldl1, ← Keeps.mk', ← State.restartWait_keeps]

theorem State.blockWake_keeps {s0 : State} {s : State} (h_s : Keeps s0 s) (b : Nat) :
        Keeps s0 (State.blockWake s b) := by
  unfold State.blockWake
  grind [← Keeps.foldl, ← Keeps.foldl1, ← Keeps.mk', ← State.restartWait_keeps, ← State.modBlock_keeps, ← State.setPortState_keeps]

theorem execRefclkDrift_keeps {s0 : State} {s : State} (h_s : Keeps s0 s) :
        ∀ t_, execRefclkDrift s = .next t_ → Keeps s0 t_ := by
  unfold execRefclkDrift
  grind [← Keeps.foldl, ← Keeps.foldl1, ← Keeps.mk', ← State.elec_keeps]

theorem execRailOutOfRange_keeps {s0 : State} (rail : Fin 13) {s : State} (h_s : Keeps s0 s) :
        ∀ t_, execRailOutOfRange rail s = .next t_ → Keeps s0 t_ := by
  unfold execRailOutOfRange
  grind [← Keeps.foldl, ← Keeps.foldl1, ← Keeps.mk', ← State.assertReset_keeps, ← State.elec_keeps]

theorem State.firstStage_keeps {s0 : State} {s : State} (h_s : Keeps s0 s) :
        Keeps s0 (State.firstStage s) := by
  unfold State.firstStage
  grind [← Keeps.foldl, ← Keeps.foldl1, ← Keeps.mk', ← State.tripPaddock_keeps, ← State.setOb_keeps, ← State.raise_keeps]

theorem State.warn_keeps {s0 : State} {s : State} (h_s : Keeps s0 s) :
        Keeps s0 (State.warn s) := by
  unfold State.warn
  grind [← Keeps.foldl, ← Keeps.foldl1, ← Keeps.mk', ← State.raise_keeps, ← State.count_keeps]

theorem State.thermSample_keeps {s0 : State} {s : State} (h_s : Keeps s0 s) (temps : Nat) (rails : Nat) (watts : Nat) :
        Keeps s0 (State.thermSample s temps rails watts) := by
  unfold State.thermSample
  grind [← Keeps.foldl, ← Keeps.foldl1, ← Keeps.mk', ← State.advanceTo_keeps, ← State.setRow_keeps, ← State.firstStage_keeps, ←
    State.warn_keeps]

theorem execRefclkPcieLoss_keeps {s0 : State} {s : State} (h_s : Keeps s0 s) :
        ∀ t_, execRefclkPcieLoss s = .next t_ → Keeps s0 t_ := by
  unfold execRefclkPcieLoss
  grind [← Keeps.foldl, ← Keeps.foldl1, ← Keeps.mk']

theorem execHbmSensorBelow92_keeps {s0 : State} (st : Fin 16) (t : BitVec 16) {s : State} (h_s : Keeps s0 s) :
        ∀ t_, execHbmSensorBelow92 st t s = .next t_ → Keeps s0 t_ := by
  unfold execHbmSensorBelow92
  grind [← Keeps.foldl, ← Keeps.foldl1, ← Keeps.mk', ← State.setRow_keeps]

theorem State.diesUp_keeps {s0 : State} {s : State} (h_s : Keeps s0 s) :
        Keeps s0 (State.diesUp s) := by
  unfold State.diesUp
  exact State.foldRelease_keeps (State.bellCatch_keeps
    ((((h_s.dropObjs _).dropBlobs _).dropRegs _).mk' _ _ _ _ _ _ _ _ _ _ _ _ _ _))

theorem State.powerUp_keeps {s0 : State} {s : State} (h_s : Keeps s0 s) (n : Nat) :
        Keeps s0 (State.powerUp s n) := by
  unfold State.powerUp
  grind [← Keeps.foldl, ← Keeps.foldl1, ← Keeps.mk', ← State.droveUngate_keeps, ← State.fwRestart_keeps, ← State.eachBlock_keeps, ←
    State.blockWake_keeps, ← State.diesUp_keeps]

theorem State.clockGone_keeps {s0 : State} {s : State} (h_s : Keeps s0 s) (b : Nat) :
        Keeps s0 (State.clockGone s b) := by
  unfold State.clockGone
  grind [← Keeps.foldl, ← Keeps.foldl1, ← Keeps.mk', ← State.linkHold_keeps, ← State.restartWait_keeps, ← State.setPortState_keeps,
    ← State.flockDown_keeps]

theorem execSequenceBreak_keeps {s0 : State} (rail : Fin 13) {s : State} (h_s : Keeps s0 s) :
        ∀ t_, execSequenceBreak rail s = .next t_ → Keeps s0 t_ := by
  unfold execSequenceBreak
  grind [← Keeps.foldl, ← Keeps.foldl1, ← Keeps.mk', ← State.elec_keeps, ← State.assertReset_keeps]

theorem State.blockIdle_keeps {s0 : State} {s : State} (h_s : Keeps s0 s) (b : Nat) :
        Keeps s0 (State.blockIdle s b) := by
  unfold State.blockIdle
  grind [← Keeps.foldl, ← Keeps.foldl1, ← Keeps.mk', ← State.restartWait_keeps, ← State.setPortState_keeps, ← State.modBlock_keeps,
    ← State.flockDown_keeps]

theorem State.powerDown_keeps {s0 : State} {s : State} (h_s : Keeps s0 s) (n : Nat) :
        Keeps s0 (State.powerDown s n) := by
  unfold State.powerDown
  grind [← Keeps.foldl, ← Keeps.foldl1, ← Keeps.mk', ← State.droveGate_keeps, ← State.eachBlock_keeps, ← State.blockIdle_keeps, ←
    State.diesDown_keeps]

theorem State.powerMove_keeps {s0 : State} {s : State} (h_s : Keeps s0 s) (t : Nat) :
        Keeps s0 (State.powerMove s t) := by
  unfold State.powerMove
  grind [← Keeps.foldl, ← Keeps.foldl1, ← Keeps.mk', ← State.powerDown_keeps, ← State.setOb_keeps, ← State.powerUp_keeps]

theorem State.powerReached_keeps {s0 : State} {s : State} (h_s : Keeps s0 s) :
        Keeps s0 (State.powerReached s) := by
  unfold State.powerReached
  grind [← Keeps.foldl, ← Keeps.foldl1, ← Keeps.mk', ← State.setOb_keeps]

theorem State.powerStep_keeps {s0 : State} {s : State} (h_s : Keeps s0 s) (late : Bool) :
        Keeps s0 (State.powerStep s late) := by
  unfold State.powerStep
  grind [← Keeps.foldl, ← Keeps.foldl1, ← Keeps.mk', ← State.raise_keeps, ← State.powerMove_keeps, ← State.powerReached_keeps]

theorem State.secondStage_keeps {s0 : State} {s : State} (h_s : Keeps s0 s) :
        Keeps s0 (State.secondStage s) := by
  unfold State.secondStage
  grind [← Keeps.foldl, ← Keeps.foldl1, ← Keeps.mk', ← State.deviceFence_keeps, ← State.stackAsleep_keeps, ←
    State.gatePaddock_keeps, ← State.setOb_keeps, ← State.raise_keeps]

theorem execHbmHot_keeps {s0 : State} (st : Fin 16) (t : BitVec 16) {s : State} (h_s : Keeps s0 s) :
        ∀ t_, execHbmHot st t s = .next t_ → Keeps s0 t_ := by
  unfold execHbmHot
  grind [← Keeps.foldl, ← Keeps.foldl1, ← Keeps.mk', ← State.setRow_keeps, ← State.raise_keeps, ← State.count_keeps]

theorem execPwrUngate_keeps {s0 : State} (who : Path) (kind : BitVec 8) (unit : BitVec 16) {s : State} (h_s : Keeps s0 s) :
        ∀ t_, execPwrUngate who kind unit s = .next t_ → Keeps s0 t_ := by
  unfold execPwrUngate
  grind [← Keeps.foldl, ← Keeps.foldl1, ← Keeps.mk', ← State.access_keeps, ← State.pwrGate_keeps, Keeps1]

theorem execPowerStepDone_keeps {s0 : State} (late : Bool) {s : State} (h_s : Keeps s0 s) :
        ∀ t_, execPowerStepDone late s = .next t_ → Keeps s0 t_ := by
  unfold execPowerStepDone
  grind [← Keeps.foldl, ← Keeps.foldl1, ← Keeps.mk', ← State.powerStep_keeps]

theorem execDeviceThermalTrip_keeps {s0 : State} {s : State} (h_s : Keeps s0 s) :
        ∀ t_, execDeviceThermalTrip s = .next t_ → Keeps s0 t_ := by
  unfold execDeviceThermalTrip
  grind [← Keeps.foldl, ← Keeps.foldl1, ← Keeps.mk', ← State.secondStage_keeps]

theorem execThermalSample_keeps {s0 : State} (temps : BitVec 256) (rails : BitVec 208) (watts : BitVec 272) {s : State} (h_s : Keeps
    s0 s) :
        ∀ t_, execThermalSample temps rails watts s = .next t_ → Keeps s0 t_ := by
  unfold execThermalSample
  grind [← Keeps.foldl, ← Keeps.foldl1, ← Keeps.mk', ← State.thermSample_keeps]

theorem execPwrGate_keeps {s0 : State} (who : Path) (kind : BitVec 8) (unit : BitVec 16) {s : State} (h_s : Keeps s0 s) :
        ∀ t_, execPwrGate who kind unit s = .next t_ → Keeps s0 t_ := by
  unfold execPwrGate
  grind [← Keeps.foldl, ← Keeps.foldl1, ← Keeps.mk', ← State.access_keeps, ← State.pwrGate_keeps, Keeps1]

theorem execPwrCmd_keeps {s0 : State} (who : Path) (target : BitVec 8) {s : State} (h_s : Keeps s0 s) :
        ∀ t_, execPwrCmd who target s = .next t_ → Keeps s0 t_ := by
  unfold execPwrCmd
  grind [← Keeps.foldl, ← Keeps.foldl1, ← Keeps.mk', ← State.access_keeps, ← State.pwrCmd_keeps, Keeps1]

theorem execRefclkSdLoss_keeps {s0 : State} (p : Fin 16) {s : State} (h_s : Keeps s0 s) :
        ∀ t_, execRefclkSdLoss p s = .next t_ → Keeps s0 t_ := by
  unfold execRefclkSdLoss
  grind [← Keeps.foldl, ← Keeps.foldl1, ← Keeps.mk', ← State.clockGone_keeps, ← State.elec_keeps]

/-! ### Objects -/

theorem State.writeVcClass_keeps {s0 : State} {s : State} (h_s : Keeps s0 s) (l : List Nat) :
        Keeps s0 (State.writeVcClass s l).1 := by
  unfold State.writeVcClass
  grind [← Keeps.foldl, ← Keeps.foldl1, ← Keeps.mk', ← State.setRow_keeps]

theorem State.writePlain_keeps {s0 : State} {s : State} (h_s : Keeps s0 s) (oid : Nat) (row : Nat) (v : Nat) :
        Keeps s0 (State.writePlain s oid row v).1 := by
  unfold State.writePlain
  grind [← Keeps.foldl, ← Keeps.foldl1, ← Keeps.mk', ← State.setRow_keeps]

theorem State.writeFwdPort_keeps {s0 : State} {s : State} (h_s : Keeps s0 s) (row : Nat) (v : Nat) :
        Keeps s0 (State.writeFwdPort s row v).1 := by
  unfold State.writeFwdPort
  grind [← Keeps.foldl, ← Keeps.foldl1, ← Keeps.mk', ← State.setRow_keeps, ← State.dropQueue_keeps, ← State.portCount_keeps, ←
    State.pfcUpdate_keeps]

theorem State.writeModPath_keeps {s0 : State} {s : State} (h_s : Keeps s0 s) (oid : Nat) (v : Nat) :
        Keeps s0 (State.writeModPath s oid v).1 := by
  unfold State.writeModPath
  grind [← Keeps.foldl, ← Keeps.foldl1, ← Keeps.mk', ← State.setModl_keeps, ← State.setOb_keeps]

theorem State.writePreset_keeps {s0 : State} {s : State} (h_s : Keeps s0 s) (row : Nat) (v : Nat) :
        Keeps s0 (State.writePreset s row v).1 := by
  unfold State.writePreset
  grind [← Keeps.foldl, ← Keeps.foldl1, ← Keeps.mk', ← State.setRow_keeps]

theorem State.writeSentinel_keeps {s0 : State} {s : State} (h_s : Keeps s0 s) (v : Nat) :
        Keeps s0 (State.writeSentinel s v).1 := by
  unfold State.writeSentinel
  grind [← Keeps.foldl, ← Keeps.foldl1, ← Keeps.mk', ← State.writePlain_keeps]

theorem State.writeTempBin_keeps {s0 : State} {s : State} (h_s : Keeps s0 s) (row : Nat) (v : Nat) :
        Keeps s0 (State.writeTempBin s row v).1 := by
  unfold State.writeTempBin
  grind [← Keeps.foldl, ← Keeps.foldl1, ← Keeps.mk', ← State.writeTempBins_keeps]

theorem State.writeValue_keeps {s0 : State} {s : State} (h_s : Keeps s0 s) (who : Path) (oid : Nat) (row : Nat) (v : Nat) (d :
    ObjDef) :
        Keeps s0 (State.writeValue s who oid row v d).1 := by
  have k : ∀ r ∈ writers1 ++ writers2 ++ writers3, ∀ s oid row v, Keeps s0 s → Keeps1 s0 (r.2 s oid row v) := by
    simp only [writers1, writers2, writers3, List.cons_append, List.nil_append, List.forall_mem_cons, List.not_mem_nil,
      false_implies, implies_true, and_true]
    exact ⟨fun s _ _ _ hs => State.writePlacement_keeps hs _ _,
      fun s _ _ _ hs => State.writePlacement_keeps hs _ _,
      fun s _ _ _ hs => State.writePlacement_keeps hs _ _,
      fun s _ _ _ hs => State.writePlacement_keeps hs _ _,
      fun s _ _ _ hs => State.writePlacement_keeps hs _ _,
      fun s _ _ _ hs => State.writePlacement_keeps hs _ _,
      fun s _ _ _ hs => State.writePlacement_keeps hs _ _,
      fun s _ _ _ hs => State.writeFarSize_keeps hs _,
      fun s _ _ _ hs => State.writeThr_keeps hs _ _ _,
      fun s _ _ _ hs => State.writeThr_keeps hs _ _ _,
      fun s _ _ _ hs => State.writeThr_keeps hs _ _ _,
      fun s _ _ _ hs => State.writeQcfg_keeps hs _ _,
      fun s _ _ _ hs => State.writePortCfg_keeps hs _ _,
      fun s _ _ _ hs => State.writeGate_keeps hs _ _,
      fun s _ _ _ hs => State.writePfc_keeps hs _ _,
      fun s _ _ _ hs => State.writeQrecBase_keeps hs _,
      fun s _ _ _ hs => State.writeQrecSize_keeps hs _,
      fun s _ _ _ hs => State.writeAgeShift_keeps hs _,
      fun s _ _ _ hs => State.fwdRowWrite_keeps hs _ _ _,
      fun s _ _ _ hs => State.fwdRowWrite_keeps hs _ _ _,
      fun s _ _ _ hs => State.fwdRowWrite_keeps hs _ _ _,
      fun s _ _ _ hs => State.fwdRowWrite_keeps hs _ _ _,
      fun s _ _ _ hs => State.fwdRowWrite_keeps hs _ _ _,
      fun s _ _ _ hs => State.fwdRowWrite_keeps hs _ _ _,
      fun s _ _ _ hs => State.writeRole_keeps hs _ _,
      fun s _ _ _ hs => State.writeSplit_keeps hs _ _ _,
      fun s _ _ _ hs => State.writeSplit_keeps hs _ _ _,
      fun s _ _ _ hs => State.writeMaxFrame_keeps hs _ _,
      fun s _ _ _ hs => State.writeVcRsv_keeps hs _ _ _,
      fun s _ _ _ hs => State.writePool_keeps hs _ _,
      fun s _ _ _ hs => State.writePollMs_keeps hs _ _,
      fun s _ _ _ hs => State.writeFwdPort_keeps hs _ _,
      fun s _ _ _ hs => State.writeModPath_keeps hs _ _,
      fun s _ _ _ hs => State.writeModPath_keeps hs _ _,
      fun s _ _ _ hs => State.writeVcClass_keeps hs _,
      fun s _ _ _ hs => State.holdWrite_keeps hs _ _,
      fun s _ _ _ hs => State.writePreset_keeps hs _ _,
      fun s _ _ _ hs => State.writeHpWindow_keeps hs _,
      fun s _ _ _ hs => State.writeSentinel_keeps hs _,
      fun s _ _ _ hs => State.writeTempBin_keeps hs _ _,
      fun s _ _ _ hs => State.writeSel_keeps hs _,
      fun s _ _ _ hs => State.writePpsEn_keeps hs _,
      fun s _ _ _ hs => State.writeDom_keeps hs _ _ _,
      fun s _ _ _ hs => State.writeDom_keeps hs _ _ _,
      fun s _ _ _ hs => State.writeDom_keeps hs _ _ _,
      fun s _ _ _ hs => State.writeDom_keeps hs _ _ _,
      fun s _ _ _ hs => State.writeDom_keeps hs _ _ _,
      fun s _ _ _ hs => State.writeDom_keeps hs _ _ _,
      fun s _ _ _ hs => State.writeDom_keeps hs _ _ _,
      fun s _ _ _ hs => State.writeBwthPort_keeps hs _ _,
      fun s _ _ _ hs => State.writePeriodNext_keeps hs _,
      fun s _ _ _ hs => State.writeBudget_keeps hs _ _,
      fun s _ _ _ hs => State.writeBellOrigin_keeps hs _,
      fun s _ _ _ hs => State.writeBellBase_keeps hs _,
      fun s _ _ _ hs => State.writeWdt_keeps hs _,
      fun s _ _ _ hs => State.writeTallyCfg_keeps hs _ _,
      fun s _ _ _ hs => State.writeTallyRing_keeps hs _ _,
      fun s _ _ _ hs => State.writeTallyRing_keeps hs _ _,
      fun s _ _ _ hs => State.writeFleeceRing_keeps hs _ _,
      fun s _ _ _ hs => State.writeFleeceRing_keeps hs _ _,
      fun s _ _ _ hs => State.writeSample_keeps hs _ _,
      fun s _ _ _ hs => State.writeGpioCfg_keeps hs _ _,
      fun s _ _ _ hs => State.writeGpioOut_keeps hs _,
      fun s _ _ _ hs => State.writeAccept_keeps hs _⟩
  unfold State.writeValue
  repeat' split
  all_goals first
    | exact h_s
    | exact State.setRow_keeps h_s _ _ _
    | exact State.writeKey_keeps h_s _ _
    | exact State.writePlain_keeps h_s _ _ _
    | (rename_i r e; exact k r (List.mem_of_find?_eq_some e) _ _ _ _ h_s)

theorem State.writeRows_keeps {s0 : State} {s : State} (h_s : Keeps s0 s) (who : Path) (oid : Nat) (d : ObjDef) (x4 : List Nat) (x5
    : Nat) (x6 : Nat) :
        Keeps s0 (State.writeRows s who oid d x4 x5 x6).1 := by
  induction x4 generalizing s x5 x6 with
  | nil => exact h_s
  | cons v l ih =>
    unfold State.writeRows
    split
    · exact h_s
    · extract_lets r
      have k : Keeps s0 r.1 := State.writeValue_keeps h_s _ _ _ _ _
      clear_value r
      split
      · exact ih k _ _
      · exact k

theorem State.writeTable_keeps {s0 : State} {s : State} (h_s : Keeps s0 s) (who : Path) (be : Bool) (oid : Nat) (d : ObjDef) (off :
    Nat) (data : List Byte) :
        Keeps s0 (State.writeTable s who be oid d off data).1 := by
  unfold State.writeTable
  grind [← Keeps.foldl, ← Keeps.foldl1, ← Keeps.mk', ← State.writeVcClass_keeps, ← State.writeTempBins_keeps, ←
    State.writeRows_keeps]

theorem State.lpmCmd_keeps {s0 : State} {s : State} (h_s : Keeps s0 s) (l : List Byte) :
        Keeps s0 (State.lpmCmd s l).1 := by
  unfold State.lpmCmd
  grind [← Keeps.foldl, ← Keeps.foldl1, ← Keeps.mk', ← State.lpmAdd_keeps, ← State.lpmDelete_keeps]

theorem State.command_keeps {s0 : State} {s : State} (h_s : Keeps s0 s) (who : Path) (oid : Nat) (l : List Byte) :
        Keeps s0 (State.command s who oid l).1 := by
  have k : ∀ r ∈ commands1 ++ commands2, ∀ s who l, Keeps s0 s → Keeps1 s0 (r.2 s who l) := by
    simp only [commands1, commands2, List.cons_append, List.nil_append, List.forall_mem_cons, List.not_mem_nil,
      false_implies, implies_true, and_true]
    refine ⟨?_,
      fun s _ _ hs => State.lpmCmd_keeps hs _,
      fun s _ _ hs => State.routeFlip_keeps hs _ _,
      fun s _ _ hs => State.routeSnap_keeps hs _ _,
      fun s _ _ hs => State.flipCancel_keeps hs _,
      ?_,
      fun s _ _ hs => State.presetOp_keeps hs _ _ _,
      fun s _ _ hs => State.commOp_keeps hs _,
      fun s _ _ hs => State.inval_keeps hs _,
      fun s _ _ hs => State.resyncCmd_keeps hs _,
      fun s _ _ hs => State.dmaCmd_keeps hs _ _,
      fun s _ _ hs => State.tileCmd_keeps hs _ _,
      fun s _ _ hs => State.suspCmd_keeps hs _ _,
      fun s _ _ hs => State.bwthSet_keeps hs _,
      fun s _ _ hs => State.bellSwitch_keeps hs _,
      fun s _ _ hs => State.musterCmd_keeps hs _ _ _,
      fun s _ _ hs => State.fenceCmd_keeps hs _ _ _,
      fun s _ _ hs => State.featApply_keeps hs _ _ _,
      fun s _ _ hs => State.fwPush_keeps hs _,
      ?_,
      fun s _ _ hs => State.criotteCmd_keeps hs _,
      fun s _ _ hs => State.wdtStart_keeps hs,
      fun s _ _ hs => State.oxpinClose_keeps hs _,
      fun s _ _ hs => State.rstCmd_keeps hs _ _ _ _,
      fun s _ _ hs => State.pwrCmd_keeps hs _ _,
      fun s _ _ hs => State.pwrGate_keeps hs _ _ _,
      fun s _ _ hs => State.tallyClear_keeps hs _,
      fun s _ _ hs => State.snapAt_keeps hs _,
      fun s _ _ hs => State.snapNow_keeps hs,
      fun s _ _ hs => State.histClear_keeps hs _,
      fun s _ _ hs => State.fleeceCapture_keeps hs _⟩
    · intro s _ l hs
      show Keeps1 s0 (match s.heftOp _ _ _ with | some t => _ | none => _)
      split
      · rename_i t e; exact State.heftOp_keeps hs _ _ _ t e
      · exact hs
    · intro s _ l hs
      show Keeps1 s0 (if _ then _ else _)
      split
      · exact State.arm_keeps hs _
      · exact State.disarm_keeps hs _
    · intro s _ l hs
      show Keeps s0 (if _ then _ else _)
      split
      · exact hs.mk' _ _ _ _ _ _ _ _ _ _ _ _ _ _
      · exact hs
  unfold State.command
  split
  · exact State.retrain_keeps h_s _ _
  · split
    · rename_i r e; exact k r (List.mem_of_find?_eq_some e) _ _ _ h_s
    · exact h_s

theorem State.writeString_keeps {s0 : State} {s : State} (h_s : Keeps s0 s) (who : Path) (oid : Nat) (d : ObjDef) (data : List Byte)
    :
        Keeps s0 (State.writeString s who oid d data).1 := by
  unfold State.writeString
  grind [← Keeps.foldl, ← Keeps.foldl1, ← Keeps.mk', ← State.writeValue_keeps, ← State.setBlob_keeps]

/-! ### Dictionary -/

theorem State.readEffect_keeps {s0 : State} {s : State} (h_s : Keeps s0 s) (oid : Nat) :
        Keeps s0 (State.readEffect s oid) := by
  unfold State.readEffect
  grind [← Keeps.foldl, ← Keeps.foldl1, ← Keeps.mk']

theorem State.dictRead_keeps {s0 : State} {s : State} (h_s : Keeps s0 s) (who : Path) (limit : Nat) (oid : Nat) (d : ObjDef) (off :
    Nat) (len : Nat) :
        Keeps s0 (State.dictRead s who limit oid d off len).1 := by
  unfold State.dictRead
  grind [← Keeps.foldl, ← Keeps.foldl1, ← Keeps.mk', ← State.readEffect_keeps]

theorem State.dictWrite_keeps {s0 : State} {s : State} (h_s : Keeps s0 s) (who : Path) (op : Nat) (oid : Nat) (d : ObjDef) (off :
    Nat) (data : List Byte) :
        Keeps s0 (State.dictWrite s who op oid d off data).1 := by
  unfold State.dictWrite
  grind [← Keeps.foldl, ← Keeps.foldl1, ← Keeps.mk', ← State.writeTable_keeps, ← State.command_keeps, ← State.writeString_keeps, ←
    State.writeValue_keeps]

theorem State.served_keeps {s0 : State} {s : State} (h_s : Keeps s0 s) (oid : Nat) :
        Keeps s0 (State.served s oid) := by
  unfold State.served
  grind [← Keeps.foldl, ← Keeps.foldl1, ← Keeps.mk']

theorem State.request_keeps {s0 : State} {s : State} (h_s : Keeps s0 s) (who : Path) (field : Bool) (op : Nat) (oid : Nat) (off :
    Nat) (len : Nat) (data : List Byte) :
        Keeps s0 (State.request s who field op oid off len data).1 := by
  unfold State.request
  grind [← Keeps.foldl, ← Keeps.foldl1, ← Keeps.mk', ← State.count_keeps, ← State.dictRead_keeps, ← State.dictWrite_keeps, ←
    State.served_keeps]

theorem State.requestBytes_keeps {s0 : State} {s : State} (h_s : Keeps s0 s) (who : Path) (field : Bool) (m : List Byte) :
        Keeps s0 (State.requestBytes s who field m).1 := by
  unfold State.requestBytes
  grind [← Keeps.foldl, ← Keeps.foldl1, ← Keeps.mk', ← State.count_keeps, ← State.request_keeps]

theorem State.mailboxGo_keeps {s0 : State} {s : State} (h_s : Keeps s0 s) (f : Nat) :
        Keeps s0 (State.mailboxGo s f) := by
  unfold State.mailboxGo
  grind [← Keeps.foldl, ← Keeps.foldl1, ← Keeps.mk', ← State.raise_keeps, ← State.count_keeps, ← State.requestBytes_keeps, ←
    State.setFn_keeps]

theorem execMailboxGo_keeps {s0 : State} (f : Fin 33) {s : State} (h_s : Keeps s0 s) :
        ∀ t_, execMailboxGo f s = .next t_ → Keeps s0 t_ := by
  unfold execMailboxGo
  grind [← Keeps.foldl, ← Keeps.foldl1, ← Keeps.mk', ← State.mailboxGo_keeps]

theorem execOxpinRequest_keeps {s0 : State} (field : Bool) (m : List Byte) {s : State} (h_s : Keeps s0 s) :
        ∀ t_, execOxpinRequest field m s = .next t_ → Keeps s0 t_ := by
  unfold execOxpinRequest
  repeat' split
  all_goals grind (splits := 20) (gen := 20) (ematch := 20) [← Keeps.foldl, ← Keeps.foldl1, ← Keeps.mk', ← State.oxTake_keeps, ←
    State.emit_keeps, ← State.requestBytes_keeps, ← State.oxSend_keeps, ← State.setSession_keeps]

theorem State.windowBad_keeps {s0 : State} {s : State} (h_s : Keeps s0 s) (write : Bool) :
        Keeps s0 (State.windowBad s write) := by
  unfold State.windowBad
  grind [← Keeps.foldl, ← Keeps.foldl1, ← Keeps.mk', ← State.raise_keeps, ← State.count_keeps]

theorem State.windowWrite_keeps {s0 : State} {s : State} (h_s : Keeps s0 s) (oid : Nat) (half : Option Bool) (v : Nat) :
        Keeps s0 (State.windowWrite s oid half v) := by
  unfold State.windowWrite
  grind [← Keeps.foldl, ← Keeps.foldl1, ← Keeps.mk', ← State.windowBad_keeps, ← State.command_keeps, ← State.writeValue_keeps, ←
    State.served_keeps]

theorem State.windowRead_keeps {s0 : State} {s : State} (h_s : Keeps s0 s) (oid : Nat) (half : Option Bool) :
        Keeps s0 (State.windowRead s oid half) := by
  unfold State.windowRead
  grind [← Keeps.foldl, ← Keeps.foldl1, ← Keeps.mk', ← State.emit_keeps, ← State.windowBad_keeps, ← State.served_keeps, ←
    State.readEffect_keeps]

theorem State.dictCommand_keeps {s0 : State} {s : State} (h_s : Keeps s0 s) (who : Path) (op : Nat) (oid : Nat) (off : Nat) (len :
    Nat) (data : List Byte) :
        Keeps s0 (State.dictCommand s who op oid off len data) := by
  unfold State.dictCommand
  grind [← Keeps.foldl, ← Keeps.foldl1, ← Keeps.mk', ← State.windowRead_keeps, ← State.emit_keeps, ← State.windowBad_keeps, ←
    State.windowWrite_keeps, ← State.request_keeps, ← State.reply_keeps]

theorem execDictionaryCommand_keeps {s0 : State} (who : Path) (idx : BitVec 16) (el : BitVec 8) (off : BitVec 32) (data : List Byte)
    {s : State} (h_s : Keeps s0 s) :
        ∀ t_, execDictionaryCommand who idx el off data s = .next t_ → Keeps s0 t_ := by
  unfold execDictionaryCommand
  grind [← Keeps.foldl, ← Keeps.foldl1, ← Keeps.mk', ← State.dictCommand_keeps]

theorem execObjectServerTimeout_keeps {s0 : State} (who : Path) {s : State} (h_s : Keeps s0 s) :
        ∀ t_, execObjectServerTimeout who s = .next t_ → Keeps s0 t_ := by
  unfold execObjectServerTimeout
  dsimp only
  repeat' split
  all_goals grind (splits := 40) (gen := 40) (ematch := 40) [← Keeps.foldl, ← Keeps.foldl1, ← Keeps.mk', ← State.count_keeps, ←
    State.advanceTo_keeps, ← State.errLog_keeps, ← State.raise_keeps, ← State.setFn_keeps, ← State.reply_keeps]

theorem execObjectWindowUndefinedAccess_keeps {s0 : State} (off : BitVec 27) (size : BitVec 13) (write : Bool) {s : State} (h_s :
    Keeps s0 s) :
        ∀ t_, execObjectWindowUndefinedAccess off size write s = .next t_ → Keeps s0 t_ := by
  unfold execObjectWindowUndefinedAccess
  grind [← Keeps.foldl, ← Keeps.foldl1, ← Keeps.mk', ← State.windowBad_keeps, ← State.emit_keeps]

theorem execObjectWindowWrite_keeps {s0 : State} (idx : BitVec 16) (el : BitVec 8) (half : Option Bool) (v : BitVec 64) {s : State}
    (h_s : Keeps s0 s) :
        ∀ t_, execObjectWindowWrite idx el half v s = .next t_ → Keeps s0 t_ := by
  unfold execObjectWindowWrite
  grind [← Keeps.foldl, ← Keeps.foldl1, ← Keeps.mk', ← State.windowWrite_keeps]

theorem execDictionaryWrite_keeps {s0 : State} (who : Path) (idx : BitVec 16) (el : BitVec 8) (off : BitVec 32) (data : List Byte)
    {s : State} (h_s : Keeps s0 s) :
        ∀ t_, execDictionaryWrite who idx el off data s = .next t_ → Keeps s0 t_ := by
  unfold execDictionaryWrite
  grind [← Keeps.foldl, ← Keeps.foldl1, ← Keeps.mk', ← State.dictCommand_keeps]

theorem execDictionaryRead_keeps {s0 : State} (who : Path) (idx : BitVec 16) (el : BitVec 8) (off : BitVec 32) (len : BitVec 32) {s
    : State} (h_s : Keeps s0 s) :
        ∀ t_, execDictionaryRead who idx el off len s = .next t_ → Keeps s0 t_ := by
  unfold execDictionaryRead
  grind [← Keeps.foldl, ← Keeps.foldl1, ← Keeps.mk', ← State.dictCommand_keeps]

theorem execDictionaryDescribe_keeps {s0 : State} (who : Path) (idx : BitVec 16) (el : BitVec 8) {s : State} (h_s : Keeps s0 s) :
        ∀ t_, execDictionaryDescribe who idx el s = .next t_ → Keeps s0 t_ := by
  unfold execDictionaryDescribe
  grind [← Keeps.foldl, ← Keeps.foldl1, ← Keeps.mk', ← State.dictCommand_keeps]

theorem execMailboxDone_keeps {s0 : State} (f : Fin 33) {s : State} (h_s : Keeps s0 s) :
        ∀ t_, execMailboxDone f s = .next t_ → Keeps s0 t_ := by
  unfold execMailboxDone
  grind [← Keeps.foldl, ← Keeps.foldl1, ← Keeps.mk', ← State.setFn_keeps, ← State.event_keeps, ← State.sendVector_keeps, ←
    State.raise_keeps]

/-! ### Ptp -/

theorem State.modPtp_keeps {s0 : State} {s : State} (h_s : Keeps s0 s) (port : Nat) (x : Nat) (f : PtpPort → PtpPort) :
        Keeps s0 (State.modPtp s port x f) := by
  unfold State.modPtp
  grind [← Keeps.foldl, ← Keeps.foldl1, ← Keeps.mk']

theorem State.ptpSample_keeps {s0 : State} {s : State} (h_s : Keeps s0 s) (port : Nat) (x : Nat) (src : Int) (at_ : Nat) :
        Keeps s0 (State.ptpSample s port x src at_) := by
  unfold State.ptpSample
  grind [← Keeps.foldl, ← Keeps.foldl1, ← Keeps.mk', ← State.domSample_keeps, ← State.setOb_keeps]

theorem State.ptpSyncDone_keeps {s0 : State} {s : State} (h_s : Keeps s0 s) (port : Nat) (x : Nat) (t1 : Int) (t2 : Nat) :
        Keeps s0 (State.ptpSyncDone s port x t1 t2) := by
  unfold State.ptpSyncDone
  grind [← Keeps.foldl, ← Keeps.foldl1, ← Keeps.mk', ← State.modPtp_keeps, ← State.ptpSample_keeps]

theorem State.ptpSend_keeps {s0 : State} {s : State} (h_s : Keeps s0 s) (port : Nat) (x : Nat) (kind : Nat) (seq : Nat) (two : Bool)
    (corr : Nat) (body : List Byte) :
        Keeps s0 (State.ptpSend s port x kind seq two corr body) := by
  unfold State.ptpSend
  grind [← Keeps.foldl, ← Keeps.foldl1, ← Keeps.mk', ← State.emit_keeps, ← State.transmit_keeps, ← State.tally_keeps]

theorem State.ptpPeerDone_keeps {s0 : State} {s : State} (h_s : Keeps s0 s) (port : Nat) (x : Nat) (t1 : Nat) (t4 : Nat) (turn :
    Int) :
        Keeps s0 (State.ptpPeerDone s port x t1 t4 turn) := by
  unfold State.ptpPeerDone
  grind [← Keeps.foldl, ← Keeps.foldl1, ← Keeps.mk', ← State.modPtp_keeps]

theorem State.ptpDelayDone_keeps {s0 : State} {s : State} (h_s : Keeps s0 s) (port : Nat) (x : Nat) (t3 : Nat) (t4 : Int) :
        Keeps s0 (State.ptpDelayDone s port x t3 t4) := by
  unfold State.ptpDelayDone
  grind [← Keeps.foldl, ← Keeps.foldl1, ← Keeps.mk', ← State.ptpSample_keeps, ← State.modPtp_keeps]

theorem State.ptpTake_keeps {s0 : State} {s : State} (h_s : Keeps s0 s) (port : Nat) (x : Nat) (m : List Byte) :
        Keeps s0 (State.ptpTake s port x m) := by
  unfold State.ptpTake
  grind [← Keeps.foldl, ← Keeps.foldl1, ← Keeps.mk', ← State.count_keeps, ← State.modPtp_keeps, ← State.ptpSyncDone_keeps, ←
    State.ptpSend_keeps, ← State.ptpPeerDone_keeps, ← State.ptpDelayDone_keeps]

theorem State.ptpReceive_keeps {s0 : State} {s : State} (h_s : Keeps s0 s) (port : Nat) (event : Bool) (bytes : List Byte) :
        Keeps s0 (State.ptpReceive s port event bytes) := by
  unfold State.ptpReceive
  grind [← Keeps.foldl, ← Keeps.foldl1, ← Keeps.mk', ← State.ingress_keeps, ← State.tally_keeps, ← State.emit_keeps, ←
    State.ptpTake_keeps]

theorem execPtpEventReceive_keeps {s0 : State} (port : Fin 1025) (bytes : List Byte) {s : State} (h_s : Keeps s0 s) :
        ∀ t_, execPtpEventReceive port bytes s = .next t_ → Keeps s0 t_ := by
  unfold execPtpEventReceive
  grind [← Keeps.foldl, ← Keeps.foldl1, ← Keeps.mk', live, ← State.ptpReceive_keeps]

theorem execPtpGeneralMessageReceive_keeps {s0 : State} (port : Fin 1025) (bytes : List Byte) {s : State} (h_s : Keeps s0 s) :
        ∀ t_, execPtpGeneralMessageReceive port bytes s = .next t_ → Keeps s0 t_ := by
  unfold execPtpGeneralMessageReceive
  grind [← Keeps.foldl, ← Keeps.foldl1, ← Keeps.mk', live, ← State.ptpReceive_keeps]

theorem execPtpDelayReqSend_keeps {s0 : State} (port : Fin 1025) (x : Fin 2) {s : State} (h_s : Keeps s0 s) :
        ∀ t_, execPtpDelayReqSend port x s = .next t_ → Keeps s0 t_ := by
  unfold execPtpDelayReqSend
  grind [← Keeps.foldl, ← Keeps.foldl1, ← Keeps.mk', live, ← State.modPtp_keeps, ← State.ptpSend_keeps]

theorem execPtpSyncSend_keeps {s0 : State} (port : Fin 1025) (x : Fin 2) {s : State} (h_s : Keeps s0 s) :
        ∀ t_, execPtpSyncSend port x s = .next t_ → Keeps s0 t_ := by
  unfold execPtpSyncSend
  grind [← Keeps.foldl, ← Keeps.foldl1, ← Keeps.mk', live, ← State.count_keeps, ← State.modPtp_keeps, ← State.ptpSend_keeps]

end Sys2Proof.Machine
end

