-- ==== Sys2Proof/Laws/Keeps10.lean ====
section
/-!
SUPPORT. What the operations of Registers, Safety keep (`Keeps`), one lemma per operation.
-/

namespace Sys2Proof.Machine

set_option Elab.async false

/-! ### Registers -/

theorem State.resetBits_keeps {s0 : State} {s : State} (h_s : Keeps s0 s) (kind : Nat) (first : Nat) (n : Nat) (v : Nat) :
        Keeps s0 (State.resetBits s kind first n v) := by
  unfold State.resetBits
  grind [← Keeps.foldl, ← Keeps.foldl1, ← Keeps.mk', ← State.blockReset_keeps]

theorem State.regWrite_keeps {s0 : State} {s : State} (h_s : Keeps s0 s) (who : RingWriter) (off : Nat) (half : Option Bool) (v :
    Nat) :
        Keeps s0 (State.regWrite s who off half v) := by
  unfold State.regWrite
  extract_lets ones whole low ring
  have kr : ∀ dma i, Keeps s0 (ring dma i) := fun dma i => Keeps.ite (State.ringReg_keeps h_s _ _ _ _ _) h_s
  clear_value ring
  exact .ite (State.setOb_keeps h_s _ _) (.ite (State.setOb_keeps h_s _ _) (.ite (kr _ _) (.ite (kr _ _)
    (.ite (State.writeBar2_keeps h_s _) (.ite (.ite (State.setReg_keeps h_s _ _) h_s) (.ite (.ite (State.writeOwner_keeps h_s _ _)
      h_s)
    (.ite (State.resetBits_keeps h_s _ _ _ _) (.ite (State.resetBits_keeps h_s _ _ _ _) (.ite (State.resetBits_keeps h_s _ _ _ _)
    (.ite (State.resetBits_keeps (State.resetBits_keeps (State.resetBits_keeps h_s _ _ _ _) _ _ _ _) _ _ _ _) h_s))))))))))

theorem State.directBad_keeps {s0 : State} {s : State} (h_s : Keeps s0 s) (write : Bool) :
        Keeps s0 (State.directBad s write) := by
  unfold State.directBad
  grind [← Keeps.foldl, ← Keeps.foldl1, ← Keeps.mk', ← State.raise_keeps, ← State.count_keeps]

theorem State.bar0Write_keeps {s0 : State} {s : State} (h_s : Keeps s0 s) (who : RingWriter) (off : Nat) (half : Option Bool) (v :
    Nat) :
        Keeps s0 (State.bar0Write s who off half v) := by
  unfold State.bar0Write
  repeat' split
  all_goals grind (splits := 20) (gen := 20) (ematch := 20) [← Keeps.foldl, ← Keeps.foldl1, ← Keeps.mk', ← State.regWrite_keeps, ←
    State.directBad_keeps, ← State.windowWrite_keeps]

theorem State.regClear_keeps {s0 : State} {s : State} (h_s : Keeps s0 s) (off : Nat) (half : Option Bool) :
        Keeps s0 (State.regClear s off half) := by
  unfold State.regClear
  dsimp only
  repeat' split
  all_goals grind (splits := 40) (gen := 40) (ematch := 40) [← Keeps.foldl, ← Keeps.foldl1, ← Keeps.mk', ← State.setReg_keeps, ←
    State.heftPop_keeps]

theorem State.regRead_keeps {s0 : State} {s : State} (h_s : Keeps s0 s) (off : Nat) (half : Option Bool) :
        Keeps s0 (State.regRead s off half) := by
  unfold State.regRead
  grind [← Keeps.foldl, ← Keeps.foldl1, ← Keeps.mk', ← State.emit_keeps, ← State.regClear_keeps]

theorem execDirectRegisterUndefinedAccess_keeps {s0 : State} (off : BitVec 26) (size : BitVec 13) (write : Bool) {s : State} (h_s :
    Keeps s0 s) :
        ∀ t_, execDirectRegisterUndefinedAccess off size write s = .next t_ → Keeps s0 t_ := by
  unfold execDirectRegisterUndefinedAccess
  grind [← Keeps.foldl, ← Keeps.foldl1, ← Keeps.mk', awake, ← State.directBad_keeps, ← State.emit_keeps]

theorem State.writeEvqCfg_keeps {s0 : State} {s : State} (h_s : Keeps s0 s) (f : Nat) (v : Nat) :
        Keeps s0 (State.writeEvqCfg s f v) := by
  unfold State.writeEvqCfg
  grind [← Keeps.foldl, ← Keeps.foldl1, ← Keeps.mk', ← State.setFn_keeps]

theorem State.writeMbx_keeps {s0 : State} {s : State} (h_s : Keeps s0 s) (f : Nat) (v : Nat) :
        Keeps s0 (State.writeMbx s f v) := by
  unfold State.writeMbx
  grind [← Keeps.foldl, ← Keeps.foldl1, ← Keeps.mk', ← State.setFn_keeps, ← State.mailboxGo_keeps]

theorem State.bar4Write_keeps {s0 : State} {s : State} (h_s : Keeps s0 s) (f : Nat) (off : Nat) (half : Option Bool) (v : Nat) :
        Keeps s0 (State.bar4Write s f off half v) := by
  unfold State.bar4Write
  extract_lets x whole low n k i
  repeat' split
  all_goals first
    | exact h_s
    | exact State.msixSet_keeps h_s _ _ _
    | exact State.setFn_keeps h_s _ _
    | exact State.writeEvqCfg_keeps h_s _ _
    | exact State.evqHead_keeps h_s _ _
    | exact State.writeMbx_keeps h_s _ _
    | exact State.ringReg_keeps h_s _ _ _ _ _

theorem State.writeVfEnable_keeps {s0 : State} {s : State} (h_s : Keeps s0 s) (on : Bool) :
        Keeps s0 (State.writeVfEnable s on) := by
  unfold State.writeVfEnable
  grind [← Keeps.foldl, ← Keeps.foldl1, ← Keeps.mk', ← State.flr_keeps]

theorem execRegisterWrite_keeps {s0 : State} (a : RegAddr) (half : Option Bool) (v : BitVec 64) {s : State} (h_s : Keeps s0 s) :
        ∀ t_, execRegisterWrite a half v s = .next t_ → Keeps s0 t_ := by
  unfold execRegisterWrite
  grind [← Keeps.foldl, ← Keeps.foldl1, ← Keeps.mk', ← State.bar0Write_keeps, awake, ← State.bar4Write_keeps, ←
    State.writeVfEnable_keeps]

theorem State.bar0Read_keeps {s0 : State} {s : State} (h_s : Keeps s0 s) (off : Nat) (half : Option Bool) :
        Keeps s0 (State.bar0Read s off half) := by
  unfold State.bar0Read
  grind [← Keeps.foldl, ← Keeps.foldl1, ← Keeps.mk', ← State.regRead_keeps, ← State.emit_keeps, ← State.directBad_keeps, ←
    State.windowRead_keeps]

theorem State.bar4Read_keeps {s0 : State} {s : State} (h_s : Keeps s0 s) (f : Nat) (off : Nat) (half : Option Bool) :
        Keeps s0 (State.bar4Read s f off half) := by
  unfold State.bar4Read
  grind [← Keeps.foldl, ← Keeps.foldl1, ← Keeps.mk', ← State.setFn_keeps, ← State.emit_keeps]

theorem execReadClearRegisterRead_keeps {s0 : State} (a : RegAddr) (half : Option Bool) {s : State} (h_s : Keeps s0 s) :
        ∀ t_, execReadClearRegisterRead a half s = .next t_ → Keeps s0 t_ := by
  unfold execReadClearRegisterRead
  grind [← Keeps.foldl, ← Keeps.foldl1, ← Keeps.mk', ← State.bar0Read_keeps, awake, ← State.bar4Read_keeps, ← State.emit_keeps]

/-! ### Safety -/

theorem State.answered_keeps {s0 : State} {s : State} (h_s : Keeps s0 s) (who : Path) (oid : Nat) (status : Nat) :
        Keeps s0 (State.answered s who oid status) := by
  unfold State.answered
  grind [← Keeps.foldl, ← Keeps.foldl1, ← Keeps.mk', ← State.reply_keeps, ← State.served_keeps]

theorem State.taken_keeps {s0 : State} {s : State} (h_s : Keeps s0 s) (who : Path) :
        Keeps s0 (State.taken s who) := by
  unfold State.taken
  grind [← Keeps.foldl, ← Keeps.foldl1, ← Keeps.mk', ← State.count_keeps]

end Sys2Proof.Machine
end

