-- ==== Sys2Proof/Laws/Rest.lean ====
section
/-!
SUPPORT. What errors, events, counting and the passing of time leave alone: the inner state of the blocks, the byte strings, the
registers, power and the queue (`Rest`), and for all but the last of them time itself (`SameTime`).
-/

namespace Sys2Proof.Machine

set_option Elab.async false

/-- The parts of the state that errors, events, counting and the passing of time never change. -/
structure Rest (s t : State) : Prop where
  blobs   : t.blobs = s.blobs
  regs    : t.regs = s.regs
  fold    : t.fold = s.fold
  fwd     : t.fwd = s.fwd
  blocks  : t.blocks = s.blocks
  circ    : t.circ = s.circ
  drove   : t.drove = s.drove
  coll    : t.coll = s.coll
  common  : t.common = s.common
  muster  : t.muster = s.muster
  power   : t.power = s.power
  pending : t.pending = s.pending

theorem Rest.refl (s : State) : Rest s s := by constructor <;> rfl

theorem Rest.trans {a b c : State} (h : Rest a b) (k : Rest b c) : Rest a c := ⟨k.1.trans h.1, k.2.trans h.2, k.3.trans h.3, k.4.trans
    h.4, k.5.trans h.5, k.6.trans h.6, k.7.trans h.7, k.8.trans h.8, k.9.trans h.9, k.10.trans h.10, k.11.trans h.11, k.12.trans h.12⟩

/-- A change of the other fields alone. -/
theorem Rest.mk' {s0 s : State} (h : Rest s0 s) (objs hbm poison host now time ctl pcie obsv out free) :
    Rest s0 { objs := objs, blobs := s.blobs, regs := s.regs, hbm := hbm, poison := poison, host := host
              now := now, time := time, fold := s.fold, fwd := s.fwd, blocks := s.blocks, circ := s.circ
              drove := s.drove, coll := s.coll, common := s.common, muster := s.muster, ctl := ctl, pcie := pcie
              obsv := obsv, power := s.power, out := out, free := free, pending := s.pending } :=
  ⟨h.1, h.2, h.3, h.4, h.5, h.6, h.7, h.8, h.9, h.10, h.11, h.12⟩

theorem Rest.foldl {s0 s : State} {α : Type} {l : List α} {f : State → α → State} (h : Rest s0 s)
    (k : ∀ s a, Rest s0 s → Rest s0 (f s a)) : Rest s0 (l.foldl f s) := by
  induction l generalizing s with
  | nil => exact h
  | cons a l ih => exact ih (k s a h)

theorem State.setRow_rest {s0 s : State} (h : Rest s0 s) (oid row v : Nat) : Rest s0 (s.setRow oid row v) := by
  unfold State.setRow
  exact h.mk' _ _ _ _ _ _ _ _ _ _ _

theorem State.setOb_rest {s0 s : State} (h : Rest s0 s) (oid v : Nat) : Rest s0 (s.setOb oid v) := by
  unfold State.setOb
  grind [← Rest.foldl, ← Rest.mk', ← State.setRow_rest]

theorem State.countIn_rest {s0 s : State} (h : Rest s0 s) (oid row i n : Nat) : Rest s0 (s.countIn oid row i n) := by
  unfold State.countIn
  grind [← Rest.foldl, ← Rest.mk', ← State.setRow_rest]

theorem State.count_rest {s0 s : State} (h : Rest s0 s) (oid row n : Nat) : Rest s0 (s.count oid row n) := by
  unfold State.count
  grind [← Rest.foldl, ← Rest.mk', ← State.countIn_rest]

theorem State.emit_rest {s0 s : State} (h : Rest s0 s) (o : Out) : Rest s0 (s.emit o) := by
  unfold State.emit
  exact h.mk' _ _ _ _ _ _ _ _ _ _ _

theorem State.draw_rest {s0 s : State} (h : Rest s0 s) : Rest s0 (s.draw) := by
  unfold State.draw
  exact h.mk' _ _ _ _ _ _ _ _ _ _ _

theorem State.hbmWrite_rest {s0 s : State} (h : Rest s0 s) (a : Nat) (l : List Byte) (p : Bool) : Rest s0 (s.hbmWrite a l p) := by
  unfold State.hbmWrite
  exact h.mk' _ _ _ _ _ _ _ _ _ _ _

theorem State.hostWrite_rest {s0 s : State} (h : Rest s0 s) (a : Nat) (l : List Byte) : Rest s0 (s.hostWrite a l) := by
  unfold State.hostWrite
  exact h.mk' _ _ _ _ _ _ _ _ _ _ _

theorem State.setFn_rest {s0 s : State} (h : Rest s0 s) (f : Nat) (x : PciFn) : Rest s0 (s.setFn f x) := by
  unfold State.setFn
  exact h.mk' _ _ _ _ _ _ _ _ _ _ _

theorem State.setCtr_rest {s0 s : State} (h : Rest s0 s) (n v : Nat) : Rest s0 (s.setCtr n v) := by
  unfold State.setCtr
  exact h.mk' _ _ _ _ _ _ _ _ _ _ _

theorem State.sendVector_rest {s0 s : State} (h : Rest s0 s) (f v : Nat) : Rest s0 (s.sendVector f v) := by
  unfold State.sendVector
  grind [← Rest.foldl, ← Rest.mk', ← State.count_rest, ← State.setFn_rest, ← State.emit_rest]

theorem State.eventLost_rest {s0 s : State} (h : Rest s0 s) (f : Nat) : Rest s0 (s.eventLost f) := by
  unfold State.eventLost
  grind [← Rest.foldl, ← Rest.mk', ← State.count_rest, ← State.setFn_rest]

theorem State.eventTo_rest {s0 s : State} (h : Rest s0 s) (f kind unit arg : Nat) : Rest s0 (s.eventTo f kind unit arg) := by
  unfold State.eventTo
  grind [← Rest.foldl, ← Rest.mk', ← State.eventLost_rest, ← State.hostWrite_rest, ← State.setFn_rest, ← State.sendVector_rest]

theorem State.eventCore_rest {s0 s : State} (h : Rest s0 s) (kind unit arg : Nat) : Rest s0 (s.eventCore kind unit arg) := by
  unfold State.eventCore
  grind [← Rest.foldl, ← Rest.mk', ← State.hbmWrite_rest]

theorem State.eventQuiet_rest {s0 s : State} (h : Rest s0 s) (fns : List Nat) (kind unit arg : Nat) : Rest s0 (s.eventQuiet fns kind
    unit arg) := by
  unfold State.eventQuiet
  grind [← Rest.foldl, ← Rest.mk', ← State.eventTo_rest, ← State.eventCore_rest]

theorem State.logRaw_rest {s0 s : State} (h : Rest s0 s) (obj bit status unitKind unit detail : Nat) : Rest s0 (s.logRaw obj bit
    status unitKind unit detail) := by
  unfold State.logRaw
  grind [← Rest.foldl, ← Rest.mk', ← State.setRow_rest, ← State.setOb_rest, ← State.eventQuiet_rest]

theorem State.flagRaw_rest {s0 s : State} (h : Rest s0 s) (oid bit status unitKind unit detail : Nat) : Rest s0 (s.flagRaw oid bit
    status unitKind unit detail) := by
  unfold State.flagRaw
  grind [← Rest.foldl, ← Rest.mk', ← State.logRaw_rest, ← State.setOb_rest]

theorem State.errLog_rest {s0 s : State} (h : Rest s0 s) (obj bit status unitKind unit detail : Nat) : Rest s0 (s.errLog obj bit
    status unitKind unit detail) := by
  unfold State.errLog
  grind [← Rest.foldl, ← Rest.mk', ← State.logRaw_rest, ← State.flagRaw_rest]

theorem State.raise_rest {s0 s : State} (h : Rest s0 s) (oid bit status unitKind unit detail : Nat) : Rest s0 (s.raise oid bit status
    unitKind unit detail) := by
  unfold State.raise
  grind [← Rest.foldl, ← Rest.mk', ← State.flagRaw_rest]

theorem State.event_rest {s0 s : State} (h : Rest s0 s) (fns : List Nat) (kind unit arg : Nat) : Rest s0 (s.event fns kind unit arg)
    := by
  unfold State.event
  grind [← Rest.foldl, ← Rest.mk', ← State.eventQuiet_rest, ← State.raise_rest]

theorem State.ctrAdd_rest {s0 s : State} (h : Rest s0 s) (n k : Nat) : Rest s0 (s.ctrAdd n k) := by
  unfold State.ctrAdd
  extract_lets v o s1 w s2
  clear_value v o w
  split
  · exact State.setCtr_rest h _ _
  · split
    · exact State.setCtr_rest (State.setCtr_rest h _ _) _ _
    · have k := State.setCtr_rest h n (ctrMax + v % ctrMax)
      split
      · exact k
      · exact State.raise_rest k _ _ _ _ _ _

theorem State.tally_rest {s0 s : State} (h : Rest s0 s) (e u k : Nat) : Rest s0 (s.tally e u k) := by
  unfold State.tally
  grind [← Rest.foldl, ← Rest.mk', ← State.ctrAdd_rest]

theorem State.tallyTime_rest {s0 s : State} (h : Rest s0 s) (ns : Nat) : Rest s0 (s.tallyTime ns) := by
  unfold State.tallyTime
  grind [← Rest.foldl, ← Rest.mk', ← State.ctrAdd_rest, ← State.draw_rest]

theorem State.portErr_rest {s0 s : State} (h : Rest s0 s) (b bit status : Nat) : Rest s0 (s.portErr b bit status) := by
  unfold State.portErr
  grind [← Rest.foldl, ← Rest.mk', ← State.raise_rest]

theorem State.portCount_rest {s0 s : State} (h : Rest s0 s) (b i n : Nat) : Rest s0 (s.portCount b i n) := by
  unfold State.portCount
  grind [← Rest.foldl, ← Rest.mk', ← State.count_rest]

theorem State.reply_rest {s0 s : State} (h : Rest s0 s) (who : Path) (status done : Nat) (data : List Byte) : Rest s0 (s.reply who
    status done data) := by
  unfold State.reply
  grind [← Rest.foldl, ← Rest.mk', ← State.emit_rest]

theorem State.served_rest {s0 s : State} (h : Rest s0 s) (oid : Nat) : Rest s0 (s.served oid) := by
  unfold State.served
  grind [← Rest.foldl, ← Rest.mk']

theorem State.taken_rest {s0 s : State} (h : Rest s0 s) (who : Path) : Rest s0 (s.taken who) := by
  unfold State.taken
  grind [← Rest.foldl, ← Rest.mk', ← State.count_rest]

theorem State.answered_rest {s0 s : State} (h : Rest s0 s) (who : Path) (oid status : Nat) : Rest s0 (s.answered who oid status) := by
  unfold State.answered
  grind [← Rest.foldl, ← Rest.mk', ← State.served_rest, ← State.reply_rest]

theorem State.transmit_rest {s0 s : State} (h : Rest s0 s) (b : Nat) (o : Out) : Rest s0 (s.transmit b o) := by
  unfold State.transmit
  grind [← Rest.foldl, ← Rest.mk', ← State.emit_rest]

theorem State.advance_rest {s0 s : State} (h : Rest s0 s) (ns : Nat) : Rest s0 (s.advance ns) := by
  unfold State.advance
  extract_lets held stp run s1 ti s2
  have h1 : Rest s0 s1 := State.tallyTime_rest h ns
  have h2 : Rest s0 s2 := h1.mk' _ _ _ _ _ _ _ _ _ _ _
  clear_value s2 held
  split
  · exact h2
  · exact State.raise_rest (State.count_rest h2 _ _ _) _ _ _ _ _ _

theorem State.advanceTo_rest {s0 s : State} (h : Rest s0 s) (t : Nat) : Rest s0 (s.advanceTo t) := by
  unfold State.advanceTo
  split
  · exact h
  · exact State.advance_rest h _

theorem State.advanceDev_rest {s0 s : State} (h : Rest s0 s) (t : Nat) : Rest s0 (s.advanceDev t) := by
  unfold State.advanceDev
  split
  · exact h
  · exact State.advance_rest h _

/-- The oscillator's count and the state of time are as before. -/
structure SameTime (s t : State) : Prop where
  now     : t.now = s.now
  time    : t.time = s.time

theorem SameTime.refl (s : State) : SameTime s s := by constructor <;> rfl

theorem SameTime.trans {a b c : State} (h : SameTime a b) (k : SameTime b c) : SameTime a c := ⟨k.1.trans h.1, k.2.trans h.2⟩

/-- A change of the other fields alone. -/
theorem SameTime.mk' {s0 s : State} (h : SameTime s0 s) (objs blobs regs hbm poison host fold fwd blocks circ drove coll common muster
    ctl pcie obsv power out free pending) :
    SameTime s0 { objs := objs, blobs := blobs, regs := regs, hbm := hbm, poison := poison, host := host
                  now := s.now, time := s.time, fold := fold, fwd := fwd, blocks := blocks, circ := circ
                  drove := drove, coll := coll, common := common, muster := muster, ctl := ctl, pcie := pcie
                  obsv := obsv, power := power, out := out, free := free, pending := pending } :=
  ⟨h.1, h.2⟩

theorem SameTime.foldl {s0 s : State} {α : Type} {l : List α} {f : State → α → State} (h : SameTime s0 s)
    (k : ∀ s a, SameTime s0 s → SameTime s0 (f s a)) : SameTime s0 (l.foldl f s) := by
  induction l generalizing s with
  | nil => exact h
  | cons a l ih => exact ih (k s a h)

theorem State.setRow_sameTime {s0 s : State} (h : SameTime s0 s) (oid row v : Nat) : SameTime s0 (s.setRow oid row v) := by
  unfold State.setRow
  exact h.mk' _ _ _ _ _ _ _ _ _ _ _ _ _ _ _ _ _ _ _ _ _

theorem State.setOb_sameTime {s0 s : State} (h : SameTime s0 s) (oid v : Nat) : SameTime s0 (s.setOb oid v) := by
  unfold State.setOb
  grind [← SameTime.foldl, ← SameTime.mk', ← State.setRow_sameTime]

theorem State.countIn_sameTime {s0 s : State} (h : SameTime s0 s) (oid row i n : Nat) : SameTime s0 (s.countIn oid row i n) := by
  unfold State.countIn
  grind [← SameTime.foldl, ← SameTime.mk', ← State.setRow_sameTime]

theorem State.count_sameTime {s0 s : State} (h : SameTime s0 s) (oid row n : Nat) : SameTime s0 (s.count oid row n) := by
  unfold State.count
  grind [← SameTime.foldl, ← SameTime.mk', ← State.countIn_sameTime]

theorem State.emit_sameTime {s0 s : State} (h : SameTime s0 s) (o : Out) : SameTime s0 (s.emit o) := by
  unfold State.emit
  exact h.mk' _ _ _ _ _ _ _ _ _ _ _ _ _ _ _ _ _ _ _ _ _

theorem State.draw_sameTime {s0 s : State} (h : SameTime s0 s) : SameTime s0 (s.draw) := by
  unfold State.draw
  exact h.mk' _ _ _ _ _ _ _ _ _ _ _ _ _ _ _ _ _ _ _ _ _

theorem State.hbmWrite_sameTime {s0 s : State} (h : SameTime s0 s) (a : Nat) (l : List Byte) (p : Bool) : SameTime s0 (s.hbmWrite a l
    p) := by
  unfold State.hbmWrite
  exact h.mk' _ _ _ _ _ _ _ _ _ _ _ _ _ _ _ _ _ _ _ _ _

theorem State.hostWrite_sameTime {s0 s : State} (h : SameTime s0 s) (a : Nat) (l : List Byte) : SameTime s0 (s.hostWrite a l) := by
  unfold State.hostWrite
  exact h.mk' _ _ _ _ _ _ _ _ _ _ _ _ _ _ _ _ _ _ _ _ _

theorem State.setFn_sameTime {s0 s : State} (h : SameTime s0 s) (f : Nat) (x : PciFn) : SameTime s0 (s.setFn f x) := by
  unfold State.setFn
  exact h.mk' _ _ _ _ _ _ _ _ _ _ _ _ _ _ _ _ _ _ _ _ _

theorem State.setCtr_sameTime {s0 s : State} (h : SameTime s0 s) (n v : Nat) : SameTime s0 (s.setCtr n v) := by
  unfold State.setCtr
  exact h.mk' _ _ _ _ _ _ _ _ _ _ _ _ _ _ _ _ _ _ _ _ _

theorem State.sendVector_sameTime {s0 s : State} (h : SameTime s0 s) (f v : Nat) : SameTime s0 (s.sendVector f v) := by
  unfold State.sendVector
  grind [← SameTime.foldl, ← SameTime.mk', ← State.count_sameTime, ← State.setFn_sameTime, ← State.emit_sameTime]

theorem State.eventLost_sameTime {s0 s : State} (h : SameTime s0 s) (f : Nat) : SameTime s0 (s.eventLost f) := by
  unfold State.eventLost
  grind [← SameTime.foldl, ← SameTime.mk', ← State.count_sameTime, ← State.setFn_sameTime]

theorem State.eventTo_sameTime {s0 s : State} (h : SameTime s0 s) (f kind unit arg : Nat) : SameTime s0 (s.eventTo f kind unit arg) :=
    by
  unfold State.eventTo
  grind [← SameTime.foldl, ← SameTime.mk', ← State.eventLost_sameTime, ← State.hostWrite_sameTime, ← State.setFn_sameTime, ←
      State.sendVector_sameTime]

theorem State.eventCore_sameTime {s0 s : State} (h : SameTime s0 s) (kind unit arg : Nat) : SameTime s0 (s.eventCore kind unit arg) :=
    by
  unfold State.eventCore
  grind [← SameTime.foldl, ← SameTime.mk', ← State.hbmWrite_sameTime]

theorem State.eventQuiet_sameTime {s0 s : State} (h : SameTime s0 s) (fns : List Nat) (kind unit arg : Nat) : SameTime s0
    (s.eventQuiet fns kind unit arg) := by
  unfold State.eventQuiet
  grind [← SameTime.foldl, ← SameTime.mk', ← State.eventTo_sameTime, ← State.eventCore_sameTime]

theorem State.logRaw_sameTime {s0 s : State} (h : SameTime s0 s) (obj bit status unitKind unit detail : Nat) : SameTime s0 (s.logRaw
    obj bit status unitKind unit detail) := by
  unfold State.logRaw
  grind [← SameTime.foldl, ← SameTime.mk', ← State.setRow_sameTime, ← State.setOb_sameTime, ← State.eventQuiet_sameTime]

theorem State.flagRaw_sameTime {s0 s : State} (h : SameTime s0 s) (oid bit status unitKind unit detail : Nat) : SameTime s0 (s.flagRaw
    oid bit status unitKind unit detail) := by
  unfold State.flagRaw
  grind [← SameTime.foldl, ← SameTime.mk', ← State.logRaw_sameTime, ← State.setOb_sameTime]

theorem State.errLog_sameTime {s0 s : State} (h : SameTime s0 s) (obj bit status unitKind unit detail : Nat) : SameTime s0 (s.errLog
    obj bit status unitKind unit detail) := by
  unfold State.errLog
  grind [← SameTime.foldl, ← SameTime.mk', ← State.logRaw_sameTime, ← State.flagRaw_sameTime]

theorem State.raise_sameTime {s0 s : State} (h : SameTime s0 s) (oid bit status unitKind unit detail : Nat) : SameTime s0 (s.raise oid
    bit status unitKind unit detail) := by
  unfold State.raise
  grind [← SameTime.foldl, ← SameTime.mk', ← State.flagRaw_sameTime]

theorem State.event_sameTime {s0 s : State} (h : SameTime s0 s) (fns : List Nat) (kind unit arg : Nat) : SameTime s0 (s.event fns kind
    unit arg) := by
  unfold State.event
  grind [← SameTime.foldl, ← SameTime.mk', ← State.eventQuiet_sameTime, ← State.raise_sameTime]

theorem State.ctrAdd_sameTime {s0 s : State} (h : SameTime s0 s) (n k : Nat) : SameTime s0 (s.ctrAdd n k) := by
  unfold State.ctrAdd
  extract_lets v o s1 w s2
  clear_value v o w
  split
  · exact State.setCtr_sameTime h _ _
  · split
    · exact State.setCtr_sameTime (State.setCtr_sameTime h _ _) _ _
    · have k := State.setCtr_sameTime h n (ctrMax + v % ctrMax)
      split
      · exact k
      · exact State.raise_sameTime k _ _ _ _ _ _

theorem State.tally_sameTime {s0 s : State} (h : SameTime s0 s) (e u k : Nat) : SameTime s0 (s.tally e u k) := by
  unfold State.tally
  grind [← SameTime.foldl, ← SameTime.mk', ← State.ctrAdd_sameTime]

theorem State.tallyTime_sameTime {s0 s : State} (h : SameTime s0 s) (ns : Nat) : SameTime s0 (s.tallyTime ns) := by
  unfold State.tallyTime
  grind [← SameTime.foldl, ← SameTime.mk', ← State.ctrAdd_sameTime, ← State.draw_sameTime]

theorem State.portErr_sameTime {s0 s : State} (h : SameTime s0 s) (b bit status : Nat) : SameTime s0 (s.portErr b bit status) := by
  unfold State.portErr
  grind [← SameTime.foldl, ← SameTime.mk', ← State.raise_sameTime]

theorem State.portCount_sameTime {s0 s : State} (h : SameTime s0 s) (b i n : Nat) : SameTime s0 (s.portCount b i n) := by
  unfold State.portCount
  grind [← SameTime.foldl, ← SameTime.mk', ← State.count_sameTime]

theorem State.reply_sameTime {s0 s : State} (h : SameTime s0 s) (who : Path) (status done : Nat) (data : List Byte) : SameTime s0
    (s.reply who status done data) := by
  unfold State.reply
  grind [← SameTime.foldl, ← SameTime.mk', ← State.emit_sameTime]

theorem State.served_sameTime {s0 s : State} (h : SameTime s0 s) (oid : Nat) : SameTime s0 (s.served oid) := by
  unfold State.served
  grind [← SameTime.foldl, ← SameTime.mk']

theorem State.taken_sameTime {s0 s : State} (h : SameTime s0 s) (who : Path) : SameTime s0 (s.taken who) := by
  unfold State.taken
  grind [← SameTime.foldl, ← SameTime.mk', ← State.count_sameTime]

theorem State.answered_sameTime {s0 s : State} (h : SameTime s0 s) (who : Path) (oid status : Nat) : SameTime s0 (s.answered who oid
    status) := by
  unfold State.answered
  grind [← SameTime.foldl, ← SameTime.mk', ← State.served_sameTime, ← State.reply_sameTime]

theorem State.transmit_sameTime {s0 s : State} (h : SameTime s0 s) (b : Nat) (o : Out) : SameTime s0 (s.transmit b o) := by
  unfold State.transmit
  grind [← SameTime.foldl, ← SameTime.mk', ← State.emit_sameTime]

theorem State.advance_now (s : State) (ns : Nat) : (s.advance ns).now = s.now + ns := by
  have h := State.tallyTime_sameTime (SameTime.refl s) ns
  unfold State.advance
  extract_lets held stp run s1 ti s2
  have h2 : s2.now = s.now + ns := by
    change s1.now + ns = _
    rw [show s1.now = s.now from h.1]
  clear_value s2 held
  split
  · exact h2
  · rw [(State.raise_sameTime (State.count_sameTime (SameTime.refl s2) _ _ _) _ _ _ _ _ _).1, h2]

/-- Time moves on to the moment named, or stays where it has passed it. -/
theorem State.advanceTo_now (s : State) (t : Nat) : (s.advanceTo t).now = max s.now t := by
  unfold State.advanceTo; split
  · omega
  · rw [State.advance_now]; omega

end Sys2Proof.Machine
end

