-- ==== Sys2Proof/Machine/Package.lean ====
section
/-!
DEFINITION. What the package fixes outside the state (R600 to R603, R616 to R620): the supply rails, and the net on every ball.
-/

namespace Sys2Proof.Machine

/-! ### Supply rails (R600, R602, R603) -/

/-- One rail of the supply table: its nominal value and limits in mV, its balls and its group. -/
structure Rail where
  nominal : Nat
  min     : Nat
  max     : Nat
  balls   : Nat
  group   : Nat
  deriving DecidableEq, Repr

/-- The rails in the order of the supply table, VDD_CORE0 to VDD_CORE3 first (R600, R621). -/
def rails : List Rail :=
  List.replicate 4 ⟨720, 698, 742, 513, 4⟩ ++
  [⟨800, 776, 824, 216, 3⟩, ⟨750, 728, 773, 672, 4⟩, ⟨1200, 1164, 1236, 192, 2⟩, ⟨1050, 1019, 1082, 288, 3⟩,
   ⟨700, 679, 721, 648, 4⟩, ⟨1800, 1710, 1890, 36, 2⟩, ⟨800, 760, 840, 16, 1⟩, ⟨1800, 1710, 1890, 8, 1⟩,
   ⟨1800, 1710, 1890, 4, 2⟩]

/-- Whether a rail that reads `mv` is below 90 % or above 110 % of its nominal value (R602). -/
def Rail.out (r : Rail) (mv : Nat) : Bool := decide (10 * mv < 9 * r.nominal ∨ 11 * r.nominal < 10 * mv)

/-! ### The ball map (R616 to R620) -/

/-- A clock input of the package. -/
inductive Clock where
  | core | pcie | aux
  | sd (p : Nat)
  deriving DecidableEq, Repr

/-- The net of a ball; `p` is true on the P ball of a pair. -/
inductive Ball where
  | serdes (rx : Bool) (lane : Nat) (p : Bool)
  | pcie (rx : Bool) (lane : Nat) (p : Bool)
  | mgmt (rx : Bool) (p : Bool)
  | t1s (p : Bool)
  | clock (c : Clock) (p : Bool)
  | rail (r : Nat)
  | sense (r : Nat) (p : Bool)
  | sideband (i : Nat)              -- COLD_RST_N to I3C1_SDA, in the order of row 60
  | gpio (i : Nat)
  | gnd | nc | rsvd
  deriving DecidableEq, Repr

/-- The block in tile (u, v) of a die's SerDes band, counted on its die, if there is one (R617). -/
def tileBlock (u v : Nat) : Option Nat :=
  match u with
  | 0 => if 2 ≤ v then some (v - 2) else none
  | 1 => some (v + 10)
  | _ => if v < 10 then some (v + 22) else none

/-- A ball at local row `i` and column `j` of die `d`'s SerDes band (R617). -/
def bandBall (d i j : Nat) : Ball :=
  match tileBlock (i / 10) (j / 5) with
  | none => if i + j ≤ 7 then .nc else .gnd
  | some k =>
    let a := i % 10
    let c := j % 5
    if a % 5 = 4 ∨ c = 2 then .gnd
    else .serdes (decide (5 ≤ a)) (8 * (32 * d + k) + 2 * (a % 5) + c / 3) (c % 3 == 0)

/-- A ball of an HBM field (R618). -/
def hbmBall (r c : Nat) : Ball :=
  if c % 4 = 1 then .rail 8
  else if c % 8 = 3 then (if r % 9 = 0 then .rail 9 else .rail 7)
  else .gnd

/-- A ball of die `d`'s core field (R619). -/
def coreBall (d r c : Nat) : Ball :=
  if r < 9 then (if c % 3 = 0 then .gnd else if r < 7 then .rail 5 else .rail 6)
  else if c % 4 = 0 then .gnd
  else if r < 11 then .rail 4 else .rail d

/-- A ball of the left I/O field (R620). -/
def leftBall (y x : Nat) : Ball :=
  let lane := fun (row : Nat) => 8 * ((y - row) / 2) + (x - 1) / 3
  if y = 61 then (if x = 11 then .clock .pcie true else if x = 12 then .clock .pcie false else .gnd)
  else if x % 3 = 0 then .gnd
  else if y = 58 ∨ y = 60 then .pcie false (lane 58) (x % 3 == 1)
  else if y = 62 ∨ y = 64 then .pcie true (lane 62) (x % 3 == 1)
  else .gnd

/-- A ball of the right I/O field (R620). -/
def rightBall (y x : Nat) : Ball :=
  match y with
  | 58 => ([(98, .mgmt false true), (99, .mgmt false false), (101, .mgmt true true), (102, .mgmt true false), (104, .t1s true),
      (105, .t1s false), (107, .clock .core true), (108, .clock .core false), (110, .clock .aux true)].lookup x).getD .gnd
  | 59 => if x < 114 then .rail 10 else .rail 11
  | 60 => if x < 102 then .rail 12 else if x < 114 then .sideband (x - 102) else .gnd
  | 62 => if x < 114 then .gpio (x - 98) else .gnd
  | 63 => if x < 114 then .gpio (x - 82) else .gnd
  | _ => .gnd

/-- A ball of column 61 between the bands (R620): the SerDes references, and the sense pins of the core rails. -/
def columnBall (y : Nat) : Ball :=
  let refs := fun (first from_ : Nat) => if y - from_ < 24 ∧ (y - from_) % 3 ≠ 2 ∧ from_ ≤ y then
    some (Ball.clock (.sd (first + (y - from_) / 3)) ((y - from_) % 3 == 0)) else none
  let sense := [(55, 0), (57, 1), (62, 2), (64, 3)].findSome? (fun z =>
    if y = z.1 then some (Ball.sense z.2 true) else if y = z.1 + 1 then some (Ball.sense z.2 false) else none)
  (refs 0 31 <|> refs 8 68 <|> sense).getD .gnd

/-- A ball of row 61 between the I/O fields (R620): sense pins of the other rails, and reserved balls. -/
def rowBall (x : Nat) : Ball :=
  if x < 37 then .sense ([4, 5, 6, 7, 8, 9].getD ((x - 25) / 2) 0) (x % 2 == 1)
  else if 62 ≤ x then .rsvd else .gnd

/-- The net on ball `y`-`x`, rows and columns from 1 to 121, seen from the lid (R616). -/
def ballAt (y x : Nat) : Ball :=
  let right := decide (61 < x)
  let below := decide (61 < y)
  let d := 2 * below.toNat + right.toNat
  if y ≤ 30 ∨ 92 ≤ y then
    if x = 61 then .gnd else bandBall d (if below then 121 - y else y - 1) (if right then 121 - x else x - 1)
  else if 25 ≤ x ∧ x ≤ 97 then
    if y = 61 then rowBall x
    else if x = 61 then columnBall y
    else coreBall d (if below then 91 - y else y - 31) (if right then x - 62 else x - 25)
  else if 58 ≤ y ∧ y ≤ 64 then (if right then rightBall y x else leftBall y x)
  else hbmBall (if below then y - 65 else y - 31) (if right then x - 98 else x - 1)

/-- How many balls `p` holds of. -/
def ballCount (p : Ball → Bool) : Nat :=
  ((List.range 121).map (fun y => ((List.range 121).filter (fun x => p (ballAt (y + 1) (x + 1)))).length)).sum

end Sys2Proof.Machine
end

