-- ==== Sys2Proof/WellFormed.lean ====
section
/-!
DEFINITION. Which commands are well formed: their operands name things that exist. The machine gives every other command a
meaning too, so that no command stops a run.
-/

namespace Sys2Proof

/-- A path names a mailbox of a virtual function by its number, 1 to 32 (R527). -/
def Machine.Path.wf : Machine.Path → Bool
  | .vfMailbox v => v.val != 0
  | _ => true

/-- A register is named by the offset of its eight bytes (R25). -/
def Machine.RegAddr.wf : Machine.RegAddr → Bool
  | .bar0 off => off.toNat % 8 == 0
  | .core off => off.toNat % 8 == 0 && decide (off.toNat < 0x4000000)
  | .bar4 _ off => off.toNat % 8 == 0
  | _ => true

/-- A value written to one half of a register has 32 bits (R529). -/
def halfFits (half : Option Bool) (v : BitVec 64) : Bool := half.isNone || decide (v.toNat < 2 ^ 32)

/-- Whether a command is well formed. -/
def Instr.wf : Instr → Bool
  | .registerWrite a half v => a.wf && halfFits half v
  | .readClearRegisterRead a _ => a.wf
  | .objectWindowWrite _ _ half v => halfFits half v
  | .objectWindowUndefinedAccess _ _ _ => true
  | .directRegisterUndefinedAccess _ _ _ => true
  | .dictionaryRead who _ _ _ _ => who.wf
  | .dictionaryWrite who _ _ _ _ => who.wf
  | .dictionaryCommand who _ _ _ _ => who.wf
  | .dictionaryDescribe who _ _ => who.wf
  | .objectServerTimeout who => who.wf
  | .placementWrite who _ _ => who.wf
  | .portRoleWrite who _ _ => who.wf
  | .portSplitWrite who _ _ _ => who.wf
  | .portPoolMibWrite who _ _ => who.wf
  | .portMaxFrameWrite who _ _ => who.wf
  | .foldFarSizeWrite who _ => who.wf
  | .ingressFrame _ _ _ _ => true
  | .pfcXoffRepeat _ _ => true
  | .voqHeadAdmission _ _ _ => true
  | .admissionRetry _ _ _ => true
  | .reorderTimeout _ _ => true
  | .gateMatch => true
  | .gateTransferWrite _ => true
  | .ridgeRelayForward _ => true
  | .ridgeLinkFence _ => true
  | .cellRead _ _ _ _ => true
  | .evictionAge _ _ => true
  | .evictionOccupancy _ _ => true
  | .evictionWriteAck _ => true
  | .groupFetch _ => true
  | .fetchComplete _ _ => true
  | .egressSelect _ => true
  | .frameDepartureStart _ => true
  | .launchTimeDue _ => true
  | .queueConfigWrite who _ _ => who.wf
  | .pfcFrameReceive _ _ _ => true
  | .pfcPauseExpire _ => true
  | .pfcWatchdogExpire _ => true
  | .qrecRingWriteFault => true
  | .heftInsert _ => true
  | .heftAgeSweep _ => true
  | .heftAgeShiftWrite who _ => who.wf
  | .heftInsertStatic who _ _ => who.wf
  | .heftDelete who _ _ => who.wf
  | .heftFlushPasture who _ _ => who.wf
  | .heftFlushPort who _ _ _ => who.wf
  | .heftFlushAll who _ => who.wf
  | .heftStashRetry who _ => who.wf
  | .heftReqPop _ => true
  | .lpmAdd who _ _ _ _ _ => who.wf
  | .lpmDelete who _ _ _ _ => who.wf
  | .forwardingTableWrite who _ _ _ => who.wf
  | .routeFlip who _ _ => who.wf
  | .routeFlipApply _ => true
  | .routeFlipCancel who _ => who.wf
  | .routeHoldWrite who _ _ => who.wf
  | .routeSnap who _ _ => who.wf
  | .routeSnapTake _ => true
  | .routeFailoverClear who _ => who.wf
  | .laneSignalDetect _ _ => true
  | .laneTrainComplete _ _ _ _ => true
  | .presetAdaptDone _ _ => true
  | .codewordLock _ _ _ => true
  | .helloSend _ => true
  | .helloReceive _ _ => true
  | .bringupTimeout _ => true
  | .flitReceive _ _ _ _ => true
  | .ackTimeoutReplay _ => true
  | .lossOfSignal _ _ => true
  | .holdExpire _ => true
  | .flockLinkDown _ => true
  | .flockHoldExpire _ => true
  | .flockLinkUp _ => true
  | .portRetrainQuiesce who _ => who.wf
  | .portRetrainNow who _ => who.wf
  | .quiesceTimeout _ => true
  | .modulePathWrite who _ _ _ _ => who.wf
  | .moduleReadyTimeout _ _ => true
  | .modulePoll _ _ _ => true
  | .moduleRetry _ _ _ => true
  | .heavyPairWindowClose => true
  | .circHpWindowWrite who _ => who.wf
  | .circArm who _ => who.wf
  | .circDisarm who _ => who.wf
  | .circArmTimeout _ => true
  | .circPresetPin who _ _ => who.wf
  | .circPresetUnpin who _ _ => who.wf
  | .circPresetDelete who _ _ => who.wf
  | .beatStart => true
  | .beatCommit _ _ _ _ => true
  | .writeOutComplete _ _ => true
  | .sentinelDue => true
  | .droveTileFence who _ => who.wf
  | .droveTileUnfence who _ => who.wf
  | .droveTileSwitch who _ => who.wf
  | .droveTileSentinel who _ => who.wf
  | .droveTempBinsWrite who _ => who.wf
  | .droveSqDoorbell _ _ _ _ => true
  | .descriptorFetch _ _ => true
  | .droveAdmit _ => true
  | .operationComplete _ => true
  | .remoteRequestReceive _ _ => true
  | .remoteResponseReceive _ _ => true
  | .remoteTimeout _ => true
  | .droveSuspResume who _ => who.wf
  | .droveSuspAbort who _ => who.wf
  | .droveRingConfigWrite _ _ _ n _ => n.val != 2
  | .hostAccessFault _ _ _ _ => true
  | .collCommCreate who _ => who.wf
  | .collCommDelete who _ => who.wf
  | .collPostReceive _ => true
  | .collPostFwdReceive _ => true
  | .collNoteReceive _ => true
  | .collStartReceive _ => true
  | .collInReceive _ => true
  | .collStepReceive _ => true
  | .collResultReceive _ => true
  | .collDoneSend _ => true
  | .collAbortReceive _ => true
  | .collTimeout _ => true
  | .commonRequestReceive _ _ => true
  | .commonWalkComplete _ => true
  | .commonHbmAccessComplete _ _ _ => true
  | .commonHoldExpire _ => true
  | .mirrorAckReceive _ => true
  | .mirrorTimeout _ => true
  | .commonInval who _ => who.wf
  | .commonInvalComplete => true
  | .commonResync who _ => who.wf
  | .commonResponseReceive _ _ => true
  | .commonRequestTimeout _ _ => true
  | .commonFaultPop => true
  | .lostWalk => true
  | .lostWalkDone => true
  | .dmaDescriptorStart _ => true
  | .dmaTransferComplete _ => true
  | .dmaRingRestart who _ => who.wf
  | .dmaRingDisable who _ => who.wf
  | .bellTick => true
  | .bellOverrun _ _ => true
  | .bellSwitch who _ => who.wf
  | .periodSwitch => true
  | .bellBaseWrite who _ => who.wf
  | .bwthSet who _ => who.wf
  | .bwthSelWrite who _ => who.wf
  | .ptpEventReceive _ _ => true
  | .ptpSyncSend _ _ => true
  | .timeSyncReceive _ _ => true
  | .ppsInEdge => true
  | .ppsInMissing => true
  | .domainSampleLoss _ => true
  | .ppsOutRise => true
  | .ppsOutFall => true
  | .bwthTimeRead => true
  | .stileFifoOverrun cls => decide (cls.val < 12)
  | .heartbeatReceive _ _ => true
  | .suspect _ => true
  | .suspectRepeat _ => true
  | .floodFrameReceive _ _ => true
  | .voteExpire => true
  | .floodRepeat => true
  | .absenceExpire _ => true
  | .logSegmentFree => true
  | .musterDeclareFailed who _ => who.wf
  | .musterResume who _ => who.wf
  | .musterDeclareUnrecoverable who _ => who.wf
  | .musterAnnounceAbsence who _ => who.wf
  | .logEntryReceive _ => true
  | .logEndReceive _ => true
  | .replayRestart _ => true
  | .replayTimeout => true
  | .fenceBlock who _ => who.wf
  | .fenceStack who _ => (who.map Machine.Path.wf).getD true
  | .fencePaddock who _ => who.wf
  | .fenceDevice who => who.wf
  | .unfenceBlock who _ => who.wf
  | .oxpinOpenReq _ _ => true
  | .oxpinOpenProof _ _ => true
  | .oxpinOpenExpire => true
  | .oxpinSlotUnlock _ => true
  | .oxpinRequest _ _ => true
  | .oxpinSpdm _ _ => true
  | .oxpinCloseMessage _ => true
  | .oxpinIdleTimeout _ => true
  | .oxpinClose who _ => who.wf
  | .oxpinKeyWrite who _ _ => who.wf
  | .criotteWdtKick who => who.wf
  | .criotteWdtExpire => true
  | .criotteHalt who => who.wf
  | .criotteRestart who => who.wf
  | .fwPush who _ => who.wf
  | .fwVerifyDone => true
  | .fwReady who => who.wf
  | .bootReqSend => true
  | .bootData _ => true
  | .bootEnd _ => true
  | .bootDataSilence => true
  | .featAcceptWrite who _ => who.wf
  | .featApply who _ _ _ => who.wf
  | .featApplyTake _ => true
  | .featuresFlood => true
  | .mailboxGo _ => true
  | .mailboxDone _ => true
  | .doeObjectReceive _ => true
  | .doeAbort => true
  | .eventRaise kind _ _ _ => kind.val != 0
  | .evqHeadWrite _ _ => true
  | .msixUnmask f v => (f.val == 0 || decide (v.val < 64))
  | .ringOwnerWrite _ _ => true
  | .bar2Access _ _ _ _ => true
  | .bar2BaseWrite _ => true
  | .functionLevelReset _ => true
  | .pcieHotReset => true
  | .perstAssert => true
  | .perstRelease _ _ => true
  | .tallyCfgWrite who _ _ => who.wf
  | .tallyClear who _ => who.wf
  | .tallyLowRead _ => true
  | .tallySnapAt who _ => who.wf
  | .tallySnapNow who => who.wf
  | .tallySnapshot => true
  | .tallyRingEntryWritten _ => true
  | .tallyHistClear who _ => who.wf
  | .fleeceCapturePoint _ _ _ _ _ _ => true
  | .fleeceCapture who _ => who.wf
  | .fleeceSampleWrite who _ _ => who.wf
  | .fleeceRecordWritten _ _ => true
  | .powerOnReset _ _ _ => true
  | .coldResetPin => true
  | .warmResetPin => true
  | .resetRelease _ _ _ _ => true
  | .rstCmdWarm who _ _ => who.wf
  | .rstCmdCold who _ _ => who.wf
  | .rstCmdBlock who _ _ => who.wf
  | .blockReset _ _ => true
  | .refclkCoreLoss => true
  | .auxClkLoss => true
  | .pwrCmd who _ => who.wf
  | .powerStepDone _ => true
  | .pwrGate who _ _ => who.wf
  | .pwrUngate who _ _ => who.wf
  | .stackGateComplete _ => true
  | .thermalSample _ _ _ => true
  | .deviceThermalTrip => true
  | .hbmHot _ _ => true
  | .railOutOfRange _ => true
  | .sequenceBreak _ => true
  | .refclkSdLoss _ => true
  | .refclkSdReturn _ => true
  | .refclkPcieLoss => true
  | .refclkDrift => true
  | .codewordLockLoss _ _ => true
  | .tokenBucketRefill => true
  | .bellSlotOpen => true
  | .ptpDelayReqSend _ _ => true
  | .ptpGeneralMessageReceive _ _ => true
  | .mgmtArpNdEcho _ => true
  | .moduleDataPathActivated _ _ _ => true
  | .hbmSensorBelow92 _ _ => true
  | .musterLogEntryAccepted _ => true

end Sys2Proof
end

