-- ==== Sys2Proof/Tests/Slice0.lean ====
section
/-!
SUPPORT. Tests: each check of well-formedness refuses an ill-formed command; single steps whose results are worked out from the rules by
hand; and, for every statement that has hypotheses, one theorem that shows, clause by clause, a state and operands that meet them.
-/

open Sys2Proof Sys2Proof.Machine

namespace Sys2Proof.Tests

set_option Elab.async false

/-- The state after power-on reset. -/
abbrev s0 : State := State.reset
/-- Both virtual functions and the physical one are there. -/
def sVf : State := { s0 with pcie := { s0.pcie with numVfs := 32, vfEnable := true } }
/-- Block `b` is a reach link whose bring-up stands at `inner` and whose PORT_STATE reads `st`. -/
def sLink (b inner st : Nat) : State :=
  ((s0.setOb (blockOid O.PORT_ROLE b) 3).modBlock b (fun x => { x with inner := inner })).setPortState (8 * b) st
/-- The last VOQ holds one copy. -/
def sVoq (c : Copy) : State :=
  { s0 with fold := { s0.fold with copies := [(1, c)], voqs := [(voqKey 143 1039 7, [1])] } }
/-- A copy for that VOQ, and a lossless one. -/
def cVoq : Copy := { frame := { bytes := List.replicate 64 0, cls := 7 }, input := 143, members := [12479] }
def cKept : Copy := { cVoq with frame := { cVoq.frame with lossless := true } }
/-- The copy's queue is as full as its threshold lets it be. -/
def sFull (c : Copy) : State := ((sVoq c).setRow O.FOLD_THR_QUEUE 12479 0x1F).modEq 12479 (fun q => { q with used := 5 })
/-- The last block is a flock block of eight ports. -/
def sFlock : State := (s0.setOb (blockOid O.PORT_ROLE 127) 1).setOb (blockOid O.PORT_SPLIT 127) 8
/-- One transfer is under way. -/
def sTransfer (x : Transfer) : State := { s0 with fold := { s0.fold with inflight := [x] } }
/-- The last queue holds one cell group; 1 s has passed, and no group is in the near zone. -/
def sGroup (g : CellGroup) : State :=
  let s := ((s0.setOb O.FOLD_HEAD_GUARD 0).setOb O.FOLD_PREFETCH 0).setOb O.FOLD_RESIDENCY_NS 1000
  { s with now := 1000000000,
           fold := { s.fold with copies := [(1, { members := [12479], groups := [127], stored := [0] })], queues := [(12479, { groups := [g] })] } }
/-- The last queue holds one frame. -/
def sQueued (f : Frame) : State :=
  { s0 with fold := { s0.fold with copies := [(1, { frame := f, members := [12479], stage := .queued, written := sectorsOf f.bytes.length })],
                                   queues := [(12479, { frames := [1], groups := [{ cells := [(1, 0)] }] })] } }
/-- A dynamic entry of the Heft: a MAC of pasture 3 behind port 5. -/
def heftEntry : Nat := 0x112233445566 + 3 <<< 48 + 1 <<< 62 + 5 <<< 73
/-- Die 3 knows that entry, in its stash. -/
def sHeft : State := s0.setHeft 3 { stash := [heftEntry] }
/-- The definition of an object that is there. -/
def defOf (oid : Nat) : ObjDef := (objDef oid).getD ⟨0, 0, .u8, .ro, .obs, .obs, .pv, 0, 0⟩
abbrev idxOf (oid : Nat) : BitVec 16 := BitVec.ofNat 16 (oid / 256)
abbrev elOf (oid : Nat) : BitVec 8 := BitVec.ofNat 8 (oid % 256)
/-- A warm reset is asserted. -/
def sWarm : State := { s0 with power := { s0.power with width := 1 } }
/-- An Oxpin message: header, payload and tag. -/
def oxMsg (type session seq : Nat) (payload tag : List Byte) : List Byte :=
  [1] ++ beBytes 1 type ++ [0, 0] ++ beBytes 4 session ++ beBytes 8 seq ++ beBytes 2 payload.length ++ List.replicate 6 0 ++ payload ++ tag

theorem oxMsg_drop (type session seq : Nat) (p t : List Byte) : (oxMsg type session seq p t).drop 24 = p ++ t := by
  simp [oxMsg, beBytes, leBytes]

theorem oxMsg_take (type session seq : Nat) (p t : List Byte) :
    (oxMsg type session seq p t).take 24 = (oxMsg type session seq p []).take 24 := by
  simp [oxMsg, beBytes, leBytes]

theorem oxMsg_len (type session seq : Nat) (p t : List Byte) (h : p.length < 65536) : oxLen (oxMsg type session seq p t) = p.length := by
  simp [oxLen, beAt, oxMsg, beBytes, leBytes, beNum, leNum]
  omega

theorem oxMsg_payload (type session seq : Nat) (p t : List Byte) (h : p.length < 65536) : oxPayload (oxMsg type session seq p t) = p := by
  rw [oxPayload, oxMsg_drop, oxMsg_len _ _ _ _ _ h, List.take_left]

/-- The tag that a message of no payload carries under key `[]`. -/
def oxTag (type session seq : Nat) : List Byte :=
  (beBytes 48 (Config.hmac384 [] ((oxMsg type session seq [] []).take 24 ++ [])).toNat).take 16
/-- A message of no payload with its tag, and one whose tag has a bit of every byte wrong. -/
def oxSigned (type session seq : Nat) : List Byte := oxMsg type session seq [] (oxTag type session seq)
def oxForged (type session seq : Nat) : List Byte := oxMsg type session seq [] ((oxTag type session seq).map (fun b => b ^^^ 1))

theorem oxSigned_mac (type session seq : Nat) :
    (oxSigned type session seq).drop (24 + oxLen (oxSigned type session seq)) =
      (beBytes 48 (Config.hmac384 [] ((oxSigned type session seq).take 24 ++ oxPayload (oxSigned type session seq))).toNat).take 16 := by
  rw [oxSigned, oxMsg_len _ _ _ _ _ (by decide), ← List.drop_drop, oxMsg_drop, List.nil_append, oxMsg_payload _ _ _ _ _ (by decide),
    oxMsg_take]
  rfl

theorem oxForged_mac (type session seq : Nat) :
    (oxForged type session seq).drop (24 + oxLen (oxForged type session seq)) ≠
      (beBytes 48 (Config.hmac384 [] ((oxForged type session seq).take 24 ++ oxPayload (oxForged type session seq))).toNat).take 16 := by
  rw [oxForged, oxMsg_len _ _ _ _ _ (by decide), ← List.drop_drop, oxMsg_drop, List.nil_append, oxMsg_payload _ _ _ _ _ (by decide),
    oxMsg_take]
  show (oxTag type session seq).map (fun b => b ^^^ 1) ≠ oxTag type session seq
  unfold oxTag
  generalize (Config.hmac384 [] ((oxMsg type session seq [] []).take 24 ++ [])).toNat = n
  simp only [beBytes, leBytes, List.reverse_cons, List.reverse_nil, List.nil_append, List.cons_append, List.take, List.map]
  intro h
  have h := (List.cons.inj h).1
  revert h
  generalize BitVec.ofNat 8 _ = b
  revert b
  decide

/-- Session 9 is open in row 7. -/
def ox9 : Session := { ident := 9, rxHigh := 1, kept := [(1, [])] }
def sOx : State := { s0 with ctl := { s0.ctl with sessions := [(7, some ox9)] } }
/-- Device 0 of a placed torus of 2 × 2 × 1. -/
def sPlaced : State :=
  ((((s0.setOb O.FAB_DIM_X 2).setOb (O.FAB_DIM_X + 1) 2).setOb (O.FAB_DIM_X + 2) 1).setOb O.FAB_DEV_NUM 0).setOb O.FAB_PLACED 1
/-- A communicator of one member, flock port 0 of device 0, and a device that has it in its last row. -/
def commRec : Nat :=
  5 + 1 <<< 32 + 2 <<< 40 + 1 <<< 96 + 100 <<< 128 + 1 <<< 160 + (2 ^ 35) <<< 256 + 384 <<< 296
def sMember : State := (sPlaced.setOb (blockOid O.PORT_ROLE 0) 1).setRow O.FEAT_PASTURE_ACTIVE 0 (2 ^ 256 - 1)
def sComm : State := sMember.setRow O.COLL_COMM_TABLE 4095 commRec
/-- A collective frame of that communicator. -/
def collFrame (chunk nseg stage check : Nat) : List Byte :=
  List.replicate 32 0 ++ beBytes 32 (collHdr 5 1 chunk 0 nseg stage 0 0 0 0 0 0 check 0 0) ++ List.replicate 16 0
/-- A collective of it that has started: one INT32 element, in slot 63. -/
def inst1 : CInst := { row := 4095, seq := 1, len := 1, post := 0x0D <<< 115 + 0x0D <<< 110, slot := some 63 }
def sInst : State := sComm.setInst 1 inst1
/-- A move of 16 bytes, and a context of it. -/
def dMove : Nat := 0x0D + 16 <<< 64 + (2 ^ 20) <<< 896
def ctxMove : OpCtx := { ops := [{ desc := dMove, source := 63, origin := .ring 63 }], cls := 3, queue := 63 }
def sOp (h : Holder) : State := { s0 with drove := { s0.drove with ctxs := [(64, ctxMove)], holder := h } }
/-- An enabled ring with one descriptor to fetch. -/
def sRing (dma : Bool) (r base : Nat) : State := s0.setRing dma r { sqBase := base, sqCfg := 0x124, sqTail := 1 }
/-- A Common request whose HBM access is under way. -/
def sReq (q : CReq) : State := { s0 with common := { s0.common with reqs := [(1, q)] } }

theorem ok_of {ε α : Type} {x : Except ε α} {a : α} (h : x.toOption = some a) : x = .ok a := by
  cases x <;> simp_all [Except.toOption]

theorem not_ok {ε α : Type} {x : Except ε α} {y : α} (h : x.toOption.isSome = false) : x ≠ .ok y := by
  intro e; subst e; cases h

/-! ### Well-formedness: each check refuses an ill-formed command -/

theorem test_wf_vf_zero : (Instr.dictionaryDescribe (.vfMailbox 0) 0 1).wf = false := by decide
theorem test_wf_stack_fence_by_vf_zero : (Instr.fenceStack (some (.vfMailbox 0)) 0).wf = false := by decide
theorem test_wf_register_not_aligned : (Instr.readClearRegisterRead (.bar0 4) none).wf = false := by decide
theorem test_wf_core_register_beyond : (Instr.readClearRegisterRead (.core 0x4000000) none).wf = false := by decide
theorem test_wf_page_register_not_aligned : (Instr.registerWrite (.bar4 1 4) none 0).wf = false := by decide
theorem test_wf_half_too_wide : (Instr.registerWrite (.bar0 0x100068) (some false) 0x100000000).wf = false := by decide
theorem test_wf_window_half_too_wide : (Instr.objectWindowWrite 0 1 (some true) 0x100000000).wf = false := by decide
theorem test_wf_ring_register_two : (Instr.droveRingConfigWrite .cores false 0 2 0).wf = false := by decide
theorem test_wf_stile_class : (Instr.stileFifoOverrun 12).wf = false := by decide
theorem test_wf_event_zero : (Instr.eventRaise 0 0 0 0).wf = false := by decide
theorem test_wf_vector_of_vf : (Instr.msixUnmask 1 64).wf = false := by decide
theorem test_wf_some : (Instr.msixUnmask 32 63).wf = true ∧ (Instr.registerWrite (.core 0x3FFFFF8) (some true) 0xFFFFFFFF).wf = true := by
  decide

/-! ### Single steps, their results worked out from the rules by hand -/

/-- The state a command leaves, and the first thing that it sent. -/
def after (c : Instr) (s : State) : State :=
  match exec c s with
  | .next t => t
  | .fault _ => s
  | .refused _ => s

-- R446: the default period is 8.192 µs, code 5 is 65.536 µs
theorem test_bell_periods : s0.period = 8192 ∧ (s0.setOb O.BELL_PERIOD 5).period = 65536 := by decide +kernel

-- R32: FAB_SITE takes 0 to 3; 4 is answered 0x0A and not stored
theorem test_site_out_of_range :
    (after (.placementWrite .pfMailbox 6 4) s0).out.head? = some (.response .pfMailbox 0x0A 0 []) ∧
    (after (.placementWrite .pfMailbox 6 4) s0).ob (O.FAB_DIM_X + 5) = 0 := by decide +kernel

-- R86: a reach pool has 16 to 512 MiB
theorem test_pool_bounds :
    (after (.portPoolMibWrite .pfMailbox 127 512) s0).bob 127 O.PORT_POOL_MIB = 512 ∧
    (after (.portPoolMibWrite .pfMailbox 127 513) s0).out.head? = some (.response .pfMailbox 0x0A 0 []) := by decide +kernel

-- R530: BAR2 stores its bytes in HBM, and a read returns them
theorem test_bar2_write_then_read :
    (after (.bar2Access 64 3 none false) (after (.bar2Access 64 0 (some [1, 2, 3]) false) s0)).out.head? =
      some (.completion 0 false [1, 2, 3]) := by decide +kernel

-- R539: a VF's mailbox is answered 0x02 for an object that is not open to it
theorem test_vf_closed_object :
    (after (.dictionaryRead (.vfMailbox 1) (idxOf O.FAB_DIM_X) (elOf O.FAB_DIM_X) 0 1) sVf).out.head? =
      some (.response (.vfMailbox 1) 0x02 0 []) := by decide +kernel

-- R498, o2800.01: an 8-bit number read big-endian or little-endian is its one byte
theorem test_read_a_number :
    (after (.dictionaryRead .pfMailbox (idxOf O.FAB_DIM_X) (elOf O.FAB_DIM_X) 0 0) (s0.setOb O.FAB_DIM_X 9)).out.head? =
      some (.response .pfMailbox 0 1 [9]) := by decide +kernel

-- R535: an unmasked vector sends its message, a masked one sets its pending bit
theorem test_vectors :
    ((s0.setFn 0 { msix := [(7, 0x1000 + 0xAB <<< 64)] }).sendVector 0 7).out.head? = some (.msix 0 0x1000 0xAB) ∧
    ((s0.sendVector 0 7).fn 0).msixPend.contains 7 = true := by decide +kernel

-- R414: a DMA descriptor of no bytes completes with nothing moved
theorem test_dma_of_no_bytes :
    ((after (.dmaDescriptorStart 63) (s0.setRing true 63 { fetched := [1] })).job 63).live = false ∧
    (after (.dmaDescriptorStart 63) (s0.setRing true 63 { fetched := [1] })).hbm = [] := by decide +kernel

-- R130: a PFC frame on a Fold link is ignored and counted
theorem test_pfc_on_a_link : (after (.pfcFrameReceive 1016 0xFF 0) (sLink 127 4 6)).ob O.PFC_PAUSE_IGNORED = 1 := by decide +kernel

-- R548: chain on an even counter is rejected with 0x0A
theorem test_tally_chain_on_even :
    (after (.tallyCfgWrite .pfMailbox 0 0x80000000) s0).out.head? = some (.response .pfMailbox 0x0A 0 []) := by decide +kernel

-- R578: a lost REFCLK_CORE asserts cold reset, a lost AUX_CLK power-on reset
theorem test_lost_clocks : (after .refclkCoreLoss s0).power.width = 2 ∧ (after .auxClkLoss s0).power.width = 3 := by decide +kernel

-- R577: a warm reset pin asserts warm reset, and its release lets the device out
theorem test_warm_reset : (after (.resetRelease .warmPin 0 0 0) (after .warmResetPin s0)).power.width = 0 := by decide +kernel

-- R616, R617: the spec's example, the balls of lane 301 (port 37.2) and the ground between them
theorem test_balls_of_port_37_2 :
    ballAt 3 86 = .serdes false 300 true ∧ ballAt 3 85 = .serdes false 300 false ∧ ballAt 3 84 = .gnd ∧
    ballAt 3 83 = .serdes false 301 true ∧ ballAt 3 82 = .serdes false 301 false ∧
    ballAt 8 83 = .serdes true 301 true ∧ ballAt 8 82 = .serdes true 301 false := by decide +kernel

-- R620: the table of balls per group
theorem test_ball_count :
    ballCount (fun b => match b with | .serdes .. => true | _ => false) = 4096 ∧
    ballCount (fun b => match b with | .rail _ => true | _ => false) = 4132 ∧
    ballCount (· == .gnd) = 6062 ∧ ballCount (· == .nc) = 144 ∧ ballCount (· == .rsvd) = 36 := by decide +kernel

/-! ### The hypotheses of every statement can be met -/

theorem test_met_StepTakesTheFrontCommand :
    ∃ (c : Instr) (rest : List Instr) (s : State), s.pending = c :: rest :=
  ⟨.beatStart, [.voteExpire], ({ s0 with pending := [.beatStart, .voteExpire] }), by decide +kernel⟩

theorem test_met_StepKeepsCanonicalTables :
    ∃ (s : State) (t : State), s.tablesOk = true ∧ step s = .next t :=
  ⟨({ s0 with pending := [.mailboxDone 0] }), s0, by decide +kernel, rfl⟩

theorem test_met_QueueIsServedInOrder :
    ∃ (s : State) (t : State), step s = .next t :=
  ⟨({ s0 with pending := [.mailboxDone 0, .beatStart] }), ({ s0 with pending := [.beatStart] }), rfl⟩

theorem test_met_ResetReadsDefaults :
    (∃ (f : Fin 33) (r : State × Nat) (s : State), s.Awake ∧ s.fnUp f.val = true ∧ r = ((List.range 48).flatMap (fun r => [(false, r),
      (true, r)])).foldl (fun x y => if x.1.ringOwner y.1 y.2 = f.val then ((x.1.ringAbort y.1 y.2).1, x.2 + (x.1.ringAbort y.1 y.2).2)
      else x) (s, 0)) ∧
    (∃ (s : State), s.pcie.perst = true) ∧
    (∃ (s : State), s.pcie.perst = false ∧ s.pcieOn = true) ∧
    (∃ (s : State), s.pcie.perst = false ∧ s.pcieOn = true) ∧
    (∃ (s : State), s.pcie.perst = true ∧ s.pcieOn = true ∧ s.Awake ∧ s.strap ≠ 8 ∧ s.strap ≠ 9) ∧
    (∃ (who : Path) (s : State) (t : State), s.serves who O.RST_CMD = true ∧ t = s.taken who ∧ t.power.width = 0) ∧
    (∃ (kind : Fin 6) (u : Fin 144) (s : State) (t : State), s.Up ∧ u.val < resetUnits kind.val ∧ s.unitInReset (256 * kind.val + u.val) =
      false ∧ t =
      { s.count O.RST_COUNT 6 1 with power := { s.power with inReset := TMap.put 0 s.power.inReset (256 * kind.val + u.val) (s.now + 32) } }) ∧
    (∃ (s : State), s.common.reqs = [] ∧ s.common.walks = []) :=
  ⟨⟨32, _, sVf, by decide +kernel, by decide +kernel, rfl⟩,
   ⟨({ s0 with pcie := { s0.pcie with perst := true } }), by decide +kernel⟩,
   ⟨s0, by decide +kernel⟩,
   ⟨s0, by decide +kernel⟩,
   ⟨({ s0 with pcie := { s0.pcie with perst := true } }), by decide +kernel⟩,
   ⟨.pfMailbox, s0, _, by decide +kernel, rfl, by decide +kernel⟩,
   ⟨1, 127, s0, _, by decide +kernel, by decide +kernel, by decide +kernel, rfl⟩,
   ⟨s0, by decide +kernel⟩⟩

theorem test_met_RegisterWriteEffects :
    (∃ (s : State), s.fnUp 0 = true ∧ s.answers 0x100068 = true) ∧
    (∃ (s : State), s.answers 0x180008 = true) ∧
    (∃ (off : BitVec 28) (s : State), s.fnUp 0 = true ∧ directReg off.toNat = true ∧ s.answers (off.toNat / 8 * 8) = true ∧ off.toNat <
      0x180000 ∧ off.toNat / 8 * 8 ≠ 0x100068) ∧
    (∃ (f : Fin 33) (s : State), s.Awake ∧ s.fnUp f.val = true ∧ (s.fn f.val).evqCfg.testBit 5 = false) ∧
    (∃ (s : State), s.Awake ∧ s.fnUp 0 = true ∧ s.pcie.vfEnable = false) ∧
    (∃ (v : BitVec 64) (s : State), s.Awake ∧ s.fnUp 0 = true ∧ 30 ≤ v.toNat ∧ v.toNat ≤ 36) ∧
    (∃ (v : BitVec 64) (s : State), s.Awake ∧ s.fnUp 0 = true ∧ 30 ≤ v.toNat ∧ v.toNat ≤ 36) ∧
    (∃ (v : BitVec 64) (s : State) (t : State), s.Awake ∧ s.fnUp 0 = true ∧ t = (if s.pcie.vfEnable = true ∧ v.toNat.testBit 0 = false
      then (List.range s.pcie.numVfs).foldl (fun s v => s.flr (v + 1)) s else s)) ∧
    (∃ (f : Fin 33) (off : BitVec 20) (s : State), s.Awake ∧ s.fnUp f.val = true ∧ off.toNat % 8 = 0 ∧ 0x11000 ≤ off.toNat ∧ off.toNat <
      0x11000 + 16400) ∧
    (∃ (i : Fin 32) (s : State), s.fnUp 0 = true ∧ s.answers (0x1E0100 + 8 * i.val) = true) ∧
    (∃ (who : Path) (p : Fin 1024) (m : TMap Nat) (s : State) (t : State), s.serves who O.FLEECE_SAMPLE = true ∧ t = s.taken who ∧ m =
      TMap.put 0 (TMap.put 0 t.obsv.sample (2 * p.val) 0) (2 * p.val + 1) 0) :=
  ⟨⟨s0, by decide +kernel⟩,
   ⟨s0, by decide +kernel⟩,
   ⟨0x100018, s0, by decide +kernel⟩,
   ⟨32, sVf, by decide +kernel⟩,
   ⟨s0, by decide +kernel⟩,
   ⟨36, s0, by decide +kernel⟩,
   ⟨30, s0, by decide +kernel⟩,
   ⟨0, sVf, _, by decide +kernel, by decide +kernel, rfl⟩,
   ⟨32, 0x15008, sVf, by decide +kernel⟩,
   ⟨31, s0, by decide +kernel⟩,
   ⟨.pfMailbox, 1023, _, s0, _, by decide +kernel, rfl, rfl⟩⟩

theorem test_met_RegisterReadReturnsAndClears :
    (∃ (off : BitVec 28) (s : State), s.fnUp 0 = true ∧ directReg off.toNat = true ∧ s.answers (off.toNat / 8 * 8) = true) ∧
    (∃ (off : BitVec 28) (s : State), s.fnUp 0 = true ∧ s.tablesOk = true ∧ directReg off.toNat = true ∧ s.answers (off.toNat / 8 * 8) =
      true ∧ rcMask (off.toNat / 8 * 8) ≠ 0) ∧
    (∃ (f : Fin 33) (s : State), s.Awake ∧ s.fnUp f.val = true) ∧
    (∃ (s : State), s.Awake ∧ s.fnUp 0 = true) ∧
    (∃ (s : State), s.Up) ∧
    (∃ (s : State), s.Up) :=
  ⟨⟨0x100068, s0, by decide +kernel⟩,
   ⟨0x130400, s0, by decide +kernel⟩,
   ⟨32, sVf, by decide +kernel⟩,
   ⟨s0, by decide +kernel⟩,
   ⟨s0, by decide +kernel⟩,
   ⟨s0, by decide +kernel⟩⟩

theorem test_met_PlacementAndPortWrites :
    (∃ (who : Path) (e : Fin 8) (v : BitVec 32) (s : State) (t : State) (u : State) (w : State) (l : List Nat), e.val ≠ 0 ∧ s.serves who
      (O.FAB_DIM_X - 1 + e.val) = true ∧ t = s.taken who ∧ placementOk e.val v.toNat = true ∧ u = t.setOb (O.FAB_DIM_X - 1 + e.val) (if
      e.val = 4 then v.toNat % 8 else v.toNat) ∧ l = (List.range 128).filter (fun b => (u.setOb O.FAB_PLACED (b2n u.isPlaced)).isLink b) ∧
      w = l.foldl (fun s b => s.modBlock b (fun x => { x with recheck := true })) (u.setOb O.FAB_PLACED (b2n u.isPlaced))) ∧
    (∃ (who : Path) (b : Fin 128) (v : BitVec 8) (n : Nat) (s : State) (t : State) (u : State), s.serves who (blockOid O.PORT_ROLE b.val)
      = true ∧ t = s.taken who ∧ n = v.toNat % 256 &&& 0x77 ∧ t.roleOk b.val n = true ∧ u = (((t.blockDown b.val).disarm b.val).setOb
      (blockOid O.PORT_ROLE b.val) n).pfcDefault b.val) ∧
    (∃ (who : Path) (b : Fin 128) (rate : Bool) (v : BitVec 8) (k : Nat) (s : State) (t : State), k = blockOid (if rate then
      O.PORT_LANE_RATE else O.PORT_SPLIT) b.val ∧ s.serves who k = true ∧ t = s.taken who ∧ splitOk (if rate then t.bob b.val O.PORT_SPLIT
      else v.toNat) (if rate then v.toNat else t.bob b.val O.PORT_LANE_RATE) = true ∧ (t.isLink b.val = true → (if rate then t.bob b.val
      O.PORT_SPLIT else v.toNat) = 1)) ∧
    (∃ (who : Path) (e : Fin 8) (v : BitVec 32) (s : State), e.val ≠ 0 ∧ s.serves who (O.FAB_DIM_X - 1 + e.val) = true ∧ placementOk e.val
      v.toNat = false) ∧
    (∃ (who : Path) (b : Fin 128) (v : BitVec 8) (s : State), s.serves who (blockOid O.PORT_ROLE b.val) = true ∧ 5 ≤ v.toNat % 8) ∧
    (∃ (who : Path) (b : Fin 128) (v : BitVec 8) (s : State), s.serves who (blockOid O.PORT_SPLIT b.val) = true ∧ v.toNat ≠ 1 ∧ v.toNat ≠
      2 ∧ v.toNat ≠ 4 ∧ v.toNat ≠ 8) :=
  ⟨⟨.pfMailbox, 7, 1, s0, _, _, _, _, by decide +kernel, by decide +kernel, rfl, by decide +kernel, rfl, rfl, rfl⟩,
   ⟨.pfMailbox, 127, 1, _, s0, _, _, by decide +kernel, rfl, rfl, by decide +kernel, rfl⟩,
   ⟨.pfMailbox, 127, false, 8, _, s0, _, rfl, by decide +kernel, rfl, by decide +kernel⟩,
   ⟨.pfMailbox, 6, 4, s0, by decide +kernel⟩,
   ⟨.pfMailbox, 127, 5, s0, by decide +kernel⟩,
   ⟨.pfMailbox, 127, 3, s0, by decide +kernel⟩⟩

theorem test_met_LinkBringUpSteps :
    (∃ (b : Fin 128) (lane : Fin 8) (s : State), s.Up ∧ s.isLink b.val = true ∧ (s.block b.val).inner = 1 ∧ setBit (s.block b.val).signal
      lane.val = 255 ∧ s.blockFenced b.val = false ∧ s.unclocked b.val = false) ∧
    (∃ (b : Fin 128) (s : State), s.Up ∧ (s.block b.val).inner = 2 ∧ (s.block b.val).presetAt = none) ∧
    (∃ (b : Fin 128) (i : Nat) (t0 : Nat) (s : State), s.Up ∧ (s.block b.val).presetSlot = some i ∧ (s.block b.val).presetAt = some t0) ∧
    (∃ (b : Fin 128) (lane : Fin 8) (s : State), s.Up ∧ s.isLink b.val = true ∧ (s.block b.val).inner = 3 ∧ setBit (s.block b.val).locked
      lane.val = 255) ∧
    (∃ (b : Fin 128) (s : State), s.Up ∧ s.isLink b.val = true ∧ (s.block b.val).inner = 4 ∧ (s.ob O.CROOK_SQUELCH).testBit b.val = false
      ∧ s.unclocked b.val = false ∧ s.blockFenced b.val = false) ∧
    (∃ (b : Fin 128) (s : State), s.Up ∧ s.isLink b.val = true ∧ s.blockFenced b.val = false ∧ (s.portState (8 * b.val) = 5 ∨ s.portState
      (8 * b.val) = 6) ∧ (s.block b.val).armAt = none) :=
  ⟨⟨127, 7, (sLink 127 1 1).modBlock 127 (fun x => { x with signal := 127 }), by decide +kernel⟩,
   ⟨127, (sLink 127 2 2), by decide +kernel⟩,
   ⟨127, 0, 5, (sLink 127 2 2).modBlock 127 (fun x => { x with presetSlot := some 0, presetAt := some 5 }), by decide +kernel⟩,
   ⟨127, 7, (sLink 127 3 3).modBlock 127 (fun x => { x with locked := 127 }), by decide +kernel⟩,
   ⟨127, (sLink 127 4 4), by decide +kernel⟩,
   ⟨127, (sLink 127 4 5), by decide +kernel⟩⟩

theorem test_met_LinkErrorsAndHold :
    (∃ (b : Fin 128) (errs : BitVec 10) (s : State) (u : State), s.Up ∧ s.role b.val ≠ 0 ∧ s.blockFenced b.val = false ∧ s.bob b.val
      O.PORT_LOOPBACK ≠ 2 ∧ u = s.countFec b.val errs.toNat ∧ u.isLink b.val = true ∧ carries (u.portState (8 * b.val)) = true) ∧
    (∃ (n : Nat), n ≠ 0) ∧
    (∃ (b : Fin 128) (s : State), s.Up ∧ (s.block b.val).replay.isEmpty = false ∧ carries (s.portState (8 * b.val)) = true) ∧
    (∃ (b : Fin 128) (lane : Fin 8) (s : State) (u : State), s.Up ∧ (s.block b.val).signal.testBit lane.val = true ∧ s.isLink b.val = true
      ∧ s.blockFenced b.val = false ∧ carries (s.portState (8 * b.val)) = true ∧ (s.block b.val).armAt = none ∧ u = (s.modBlock b.val (fun
      x => { x with signal := clearBit x.signal lane.val, locked := clearBit x.locked lane.val, darkAt := some s.now })).portErr b.val 0 ∧
      u.isLink b.val = true) ∧
    (∃ (b : Fin 128) (s : State), s.Up ∧ s.isLink b.val = true ∧ carries (s.portState (8 * b.val)) = true) ∧
    (∃ (b : Fin 128) (t0 : Nat) (s : State) (u : State), s.Up ∧ (s.block b.val).holdAt = some t0 ∧ u = ((s.advanceTo t0).portErr b.val
      3).linkClear b.val) ∧
    (∃ (b : Fin 128) (t0 : Nat) (s : State) (u : State), s.Up ∧ (s.block b.val).stepAt = some t0 ∧ s.portState (8 * b.val) ≠ 7 ∧ u =
      ((s.advanceTo t0).portCount b.val 4 1).portErr b.val 5) :=
  ⟨⟨127, 0, (sLink 127 4 6), _, by decide +kernel, by decide +kernel, by decide +kernel, by decide +kernel, rfl, by decide +kernel⟩,
   ⟨1, by decide +kernel⟩,
   ⟨127, (sLink 127 4 6).modBlock 127 (fun x => { x with replay := [{}] }), by decide +kernel⟩,
   ⟨127, 7, (sLink 127 4 6).modBlock 127 (fun x => { x with signal := 255 }), _, by decide +kernel, by decide +kernel, by decide +kernel,
     by decide +kernel, by decide +kernel, by decide +kernel, rfl, by decide +kernel⟩,
   ⟨127, (sLink 127 4 6), by decide +kernel⟩,
   ⟨127, 10, (sLink 127 4 7).modBlock 127 (fun x => { x with holdAt := some 10 }), _, by decide +kernel, by decide +kernel, rfl⟩,
   ⟨127, 10, (sLink 127 2 2).modBlock 127 (fun x => { x with stepAt := some 10 }), _, by decide +kernel, by decide +kernel,
     by decide +kernel, rfl⟩⟩

theorem test_met_HoldKeepsTheReplayBuffer :
    (∃ (b : Fin 128) (s : State), s.Up ∧ s.isLink b.val = true ∧ carries (s.portState (8 * b.val)) = true ∧ s.bob b.val O.PORT_HOLD_MS ≠ 0
      ∧ (s.block b.val).holdAt = none) ∧
    (∃ (who : Path) (b : Fin 128) (s : State) (t : State), s.serves who O.CIRC_ARM = true ∧ t = s.taken who ∧ t.lFeature b.val 7 = true ∧
      t.keepsPresets b.val = true ∧ t.blockFenced b.val = false ∧ exValid (t.row O.CIRC_EXPECT b.val) = true ∧ t.drained b.val = true ∧
      t.portState (8 * b.val) ≠ 7) ∧
    (∃ (who : Path) (s : State) (t : State), s.serves who O.CIRC_ARM = true ∧ t = s.taken who) ∧
    (∃ (b : Fin 128) (t0 : Nat) (s : State) (u : State), s.Up ∧ (s.block b.val).armAt = some t0 ∧ u = ((s.advanceTo t0).modBlock b.val
      (fun x => { x with armAt := none })).modBlock b.val (fun x => { x with lastOut := 4 })) ∧
    (∃ (who : Path) (b : Fin 128) (slot : Fin 64) (s : State) (t : State), s.serves who O.CIRC_PRESET_OP = true ∧ t = s.taken who ∧ (t.row
      O.CIRC_PRESET (64 * b.val + slot.val)).testBit 71 = true) :=
  ⟨⟨127, (sLink 127 4 6), by decide +kernel⟩,
   ⟨.pfMailbox, 127, (((s0.setOb (blockOid O.PORT_ROLE 127) 2).setOb O.FEAT_ACCEPT 0x380).setRow O.CIRC_EXPECT 127 (1 <<< 71)), _,
     by decide +kernel, rfl, by decide +kernel⟩,
   ⟨.pfMailbox, s0, _, by decide +kernel, rfl⟩,
   ⟨127, 9, (s0.modBlock 127 (fun x => { x with armAt := some 9 })), _, by decide +kernel, by decide +kernel, rfl⟩,
   ⟨.pfMailbox, 127, 63, (s0.setRow O.CIRC_PRESET 8191 (1 <<< 71)), _, by decide +kernel, rfl, by decide +kernel⟩⟩

theorem test_met_FlockLinksAndRetrain :
    (∃ (port : Fin 1024) (s : State) (u : State), s.Up ∧ s.isFlockPort port.val = true ∧ (s.portState port.val = 6 ∨ s.portState port.val
      = 9) ∧ u = (s.flushDown port.val).setPortState port.val 1) ∧
    (∃ (port : Fin 1024) (t0 : Nat) (s : State) (u : State), s.Up ∧ TMap.get 0 (s.block (port.val / 8)).portDownAt (port.val % 8) = t0 ∧
      t0 ≠ 0 ∧ u = (s.advanceTo t0).modBlock (port.val / 8) (fun x => { x with portDownAt := TMap.put 0 x.portDownAt (port.val % 8) 0 })) ∧
    (∃ (port : Fin 1024) (s : State), s.Up ∧ s.isFlockPort port.val = true ∧ s.blockFenced (port.val / 8) = false ∧ s.unclocked (port.val
      / 8) = false) ∧
    (∃ (who : Path) (b : Fin 128) (s : State) (t : State), s.serves who (blockOid O.PORT_RETRAIN b.val) = true ∧ t = s.taken who ∧
      t.isLink b.val = true ∧ t.blockFenced b.val = false ∧ (t.portState (8 * b.val) = 5 ∨ t.portState (8 * b.val) = 6)) ∧
    (∃ (who : Path) (b : Fin 128) (s : State) (t : State), s.serves who (blockOid O.PORT_RETRAIN b.val) = true ∧ t = s.taken who ∧
      t.isLink b.val = true ∧ t.blockFenced b.val = false) ∧
    (∃ (b : Fin 128) (t0 : Nat) (s : State), s.Up ∧ (s.block b.val).quiesceAt = some t0) ∧
    (∃ (who : Path) (b : Fin 128) (v : BitVec 16) (s : State) (t : State), s.serves who (blockOid O.PORT_MAX_FRAME b.val) = true ∧ t =
      s.taken who ∧ 1518 ≤ v.toNat ∧ v.toNat ≤ 9216 ∧ ((∃ x ∈ t.rowsOf O.COLL_COMM_TABLE, ∃ j < cmM x.2, cmPort x.2 j / 8 = b.val) → 8282
      ≤ v.toNat) ∧ (∀ i, i < 8 → (t.setOb (blockOid O.PORT_MAX_FRAME b.val) v.toNat).burstsFit (8 * b.val + i) = true)) ∧
    (∃ (who : Path) (b : Fin 128) (v : BitVec 16) (s : State), s.serves who (blockOid O.PORT_MAX_FRAME b.val) = true ∧ (v.toNat < 1518 ∨
      9216 < v.toNat)) ∧
    (∃ (who : Path) (b : Fin 128) (v : BitVec 16) (s : State), s.serves who (blockOid O.PORT_MAX_FRAME b.val) = true ∧ (v.toNat < 1518 ∨
      9216 < v.toNat)) :=
  ⟨⟨1023, (sFlock.setPortState 1023 6).setRow O.FWD_PORTCFG 1023 0, _, by decide +kernel, by decide +kernel, by decide +kernel, rfl⟩,
   ⟨1023, 7, (s0.modBlock 127 (fun x => { x with portDownAt := [(7, 7)] })), _, by decide +kernel, by decide +kernel, by decide +kernel,
     rfl⟩,
   ⟨1023, sFlock, by decide +kernel⟩,
   ⟨.pfMailbox, 127, (sLink 127 4 6), _, by decide +kernel, rfl, by decide +kernel⟩,
   ⟨.pfMailbox, 127, (sLink 127 4 6), _, by decide +kernel, rfl, by decide +kernel⟩,
   ⟨127, 10, (s0.modBlock 127 (fun x => { x with quiesceAt := some 10 })), by decide +kernel⟩,
   ⟨.pfMailbox, 127, 9216, s0, _, by decide +kernel, rfl, by decide +kernel⟩,
   ⟨.pfMailbox, 127, 1517, s0, by decide +kernel⟩,
   ⟨.pfMailbox, 127, 9217, s0, by decide +kernel⟩⟩

theorem test_met_ModulesAndCircuits :
    (∃ (who : Path) (b : Fin 128) (i : Fin 2) (v : BitVec 32) (s : State) (t : State) (u : State), s.serves who (blockOid O.PORT_MOD_PATH
      b.val + i.val) = true ∧ t = s.taken who ∧ u = t.setOb (blockOid O.PORT_MOD_PATH b.val + i.val) (v.toNat % 2 ^ 23)) ∧
    (∃ (b : Fin 128) (i : Fin 2) (p : Nat) (s : State), s.Up ∧ (s.modl b.val i.val).step = 6 ∧ p = s.bob b.val O.PORT_MOD_POLL_MS) ∧
    (∃ (b : Fin 128) (i : Fin 2) (t0 : Nat) (s : State), s.Up ∧ (s.modl b.val i.val).deadline = some t0 ∧ (s.modl b.val i.val).step = 6) ∧
    (∃ (b : Fin 128) (i : Fin 2) (t0 : Nat) (p : Nat) (d : Option Nat) (s : State) (u : State), s.Up ∧ (s.modl b.val i.val).deadline =
      some t0 ∧ (s.modl b.val i.val).step = 7 ∧ u = (s.advanceTo t0).modAccess b.val i.val 7 ∧ p = u.bob b.val O.PORT_MOD_POLL_MS ∧ d =
      (if p = 0 then none else some (u.now + p * 1000000))) ∧
    (∃ (b : Fin 128) (i : Fin 2) (t0 : Nat) (s : State), s.Up ∧ (s.modl b.val i.val).deadline = some t0 ∧ (s.modl b.val i.val).step = 0 ∧
      (s.modl b.val i.val).fails = 3) :=
  ⟨⟨.pfMailbox, 127, 1, 0, s0, _, _, by decide +kernel, rfl, rfl⟩,
   ⟨127, 1, _, (s0.setOb (blockOid O.PORT_MOD_POLL_MS 127) 0).setModl 127 1 { step := 6 }, by decide +kernel, by decide +kernel, rfl⟩,
   ⟨127, 1, 9, (s0.setModl 127 1 { step := 6, deadline := some 9 }), by decide +kernel⟩,
   ⟨127, 1, 9, _, _, (s0.setOb (blockOid O.PORT_MOD_POLL_MS 127) 10).setModl 127 1 { step := 7, deadline := some 9 }, _,
     by decide +kernel, by decide +kernel, by decide +kernel, rfl, rfl, rfl⟩,
   ⟨127, 1, 9, (s0.setModl 127 1 { step := 0, deadline := some 9, fails := 3 }), by decide +kernel⟩⟩

theorem test_met_AdmissionDecisions :
    (∃ (input : Fin 144) (dest : Fin 1040) (cls : Fin 8) (id : Nat) (lost : List Nat) (c : Copy) (s : State) (u : State) (v : State), s.Up
      ∧ s.Decides (voqKey input.val dest.val cls.val) id c u ∧ c.frame.lossless = false ∧ c.joint = false ∧ c.members.any (fun q =>
      u.hurdleOnly c q) = false ∧ lost = c.members.filter (fun q => !u.memberPasses c q) ∧ lost ≠ [] ∧ v = (u.refuse id c lost).count
      O.FOLD_LOSSY_DROPS 0 lost.length) ∧
    (∃ (input : Fin 144) (dest : Fin 1040) (cls : Fin 8) (id : Nat) (c : Copy) (s : State) (u : State), s.Up ∧ s.Decides (voqKey input.val
      dest.val cls.val) id c u ∧ (∀ j ∈ u.jointIds id, ∀ q ∈ (u.copy j).members, u.memberPasses (u.copy j) q = true)) ∧
    (∃ (input : Fin 144) (dest : Fin 1040) (cls : Fin 8) (id : Nat) (c : Copy) (s : State) (u : State), s.Up ∧ s.Decides (voqKey input.val
      dest.val cls.val) id c u ∧ (∃ j ∈ u.jointIds id, ∃ q ∈ (u.copy j).members, u.memberPasses (u.copy j) q = false) ∧ (c.frame.lossless
      = true ∨ c.members.any (fun q => u.hurdleOnly c q) = true)) ∧
    (∃ (input : Fin 144) (dest : Fin 1040) (cls : Fin 8) (id : Nat) (rest : List Nat) (s : State), s.Up ∧ s.voq (voqKey input.val dest.val
      cls.val) = id :: rest ∧ (s.copy id).waited = true) ∧
    (∃ (who : Path) (v : BitVec 16) (s : State) (t : State), s.serves who O.FOLD_FAR_SIZE_GIB = true ∧ t = s.taken who ∧ v.toNat % 16 = 0
      ∧ 1 ≤ v.toNat ∧ v.toNat ≤ 1024 ∧ layoutFits v.toNat (t.ob O.CRIOTTE_RESV_GIB) (t.ob O.MUSTER_LOG_MIB) = true ∧ (∀ d, d < 4 →
      t.reachMib d ≤ farMib v.toNat)) ∧
    (∃ (who : Path) (v : BitVec 16) (s : State), s.serves who O.FOLD_FAR_SIZE_GIB = true ∧ (v.toNat % 16 ≠ 0 ∨ v.toNat = 0 ∨ 1024 <
      v.toNat)) ∧
    (∃ (who : Path) (v : BitVec 16) (s : State), s.serves who O.FOLD_FAR_SIZE_GIB = true ∧ (v.toNat % 16 ≠ 0 ∨ v.toNat = 0 ∨ 1024 <
      v.toNat)) ∧
    (∃ (who : Path) (b : Fin 128) (v : BitVec 16) (s : State) (t : State), s.serves who (blockOid O.PORT_POOL_MIB b.val) = true ∧ t =
      s.taken who ∧ t.role b.val ≠ 3 ∧ (v.toNat = 0 ∨ (16 ≤ v.toNat ∧ v.toNat ≤ 512)) ∧ t.reachMib (b.val / 32) + 2 * v.toNat ≤ farMib
      t.farForChecks) ∧
    (∃ (who : Path) (b : Fin 128) (v : BitVec 16) (s : State), s.serves who (blockOid O.PORT_POOL_MIB b.val) = true ∧ ((1 ≤ v.toNat ∧
      v.toNat < 16) ∨ 512 < v.toNat)) ∧
    (∃ (who : Path) (b : Fin 128) (v : BitVec 16) (s : State), s.serves who (blockOid O.PORT_POOL_MIB b.val) = true ∧ ((1 ≤ v.toNat ∧
      v.toNat < 16) ∨ 512 < v.toNat)) :=
  ⟨⟨143, 1039, 7, 1, _, cVoq, (sFull cVoq), _, _, by decide +kernel, ⟨⟨[], by decide +kernel⟩, by decide +kernel, by decide +kernel,
     by decide +kernel, by decide +kernel, by decide +kernel, rfl, by decide +kernel, by decide +kernel, by decide +kernel⟩,
     by decide +kernel, by decide +kernel, by decide +kernel, rfl, by decide +kernel, rfl⟩,
   ⟨143, 1039, 7, 1, cVoq, (sVoq cVoq), _, by decide +kernel, ⟨⟨[], by decide +kernel⟩, by decide +kernel, by decide +kernel,
     by decide +kernel, by decide +kernel, by decide +kernel, rfl, by decide +kernel, by decide +kernel, by decide +kernel⟩,
     by decide +kernel⟩,
   ⟨143, 1039, 7, 1, cKept, (sFull cKept), _, by decide +kernel, ⟨⟨[], by decide +kernel⟩, by decide +kernel, by decide +kernel,
     by decide +kernel, by decide +kernel, by decide +kernel, rfl, by decide +kernel, by decide +kernel, by decide +kernel⟩,
     by decide +kernel⟩,
   ⟨143, 1039, 7, 1, [], (sVoq { cKept with waited := true }), by decide +kernel⟩,
   ⟨.pfMailbox, 1024, (s0.setOb O.FOLD_FAR_SIZE_GIB 16), _, by decide +kernel, rfl, by decide +kernel⟩,
   ⟨.pfMailbox, 1040, s0, by decide +kernel⟩,
   ⟨.pfMailbox, 0, s0, by decide +kernel⟩,
   ⟨.pfMailbox, 127, 512, s0, _, by decide +kernel, rfl, by decide +kernel⟩,
   ⟨.pfMailbox, 127, 15, s0, by decide +kernel⟩,
   ⟨.pfMailbox, 0, 513, s0, by decide +kernel⟩⟩

theorem test_met_GateAndRidge :
    (∃ (s : State), s.Up) ∧
    (∃ (i : Nat) (x : Transfer) (s : State) (u : State), s.Up ∧ s.fold.inflight[i]? = some x ∧ x.held = none ∧ s.unread x = false ∧ x.hops
      = [] ∧ s.behindOwn i x = false ∧ u = (if x.left then s else s.leftInput x)) ∧
    (∃ (i : Nat) (d : Nat) (x : Transfer) (s : State) (u : State), s.Up ∧ s.fold.inflight[i]? = some x ∧ x.held = none ∧ s.unread x =
      false ∧ x.hops = [d] ∧ s.behindOwn i x = false ∧ u = (if x.left then s else s.leftInput x)) ∧
    (∃ (i : Nat) (d : Nat) (e : Nat) (rest : List Nat) (x : Transfer) (s : State) (u : State), s.Up ∧ s.fold.inflight[i]? = some x ∧
      x.held = none ∧ s.unread x = false ∧ x.hops = d :: e :: rest ∧ u = s.leftInput x) ∧
    (∃ (i : Nat) (x : Transfer) (s : State), s.Up ∧ s.fold.inflight[i]? = some x ∧ (s.unread x = true ∨ x.held.isSome = true ∨
      (x.hops.length ≤ 1 ∧ s.behindOwn i x = true))) ∧
    (∃ (i : Nat) (d : Nat) (e : Nat) (rest : List Nat) (x : Transfer) (s : State) (u : State), s.Up ∧ s.fold.inflight[i]? = some x ∧
      x.held = some d ∧ x.hops = e :: rest ∧ u = ((((s.ridgeUse e x.sectors).ridgeGive d x.sectors).servedRelay e x.sectors).tally 0x0600
      e x.sectors).tally 0x0601 e x.sectors) ∧
    (∃ (qid : Fin 12480) (i : Nat) (s : State), s.Up ∧ (s.eq qid.val).groupAt (fun g => g.place.isEvicting) = some i ∧ i < s.nearZone) ∧
    (∃ (qid : Fin 12480) (i : Nat) (k : Nat) (g : CellGroup) (s : State), s.Up ∧ ((s.eq qid.val).groups.take s.nearZone).findIdx? (fun g
      => g.place.isEvicting || g.place.isFar) = some i ∧ (s.eq qid.val).groups[i]? = some g ∧ g.place = .far k) :=
  ⟨⟨s0, by decide +kernel⟩,
   ⟨0, ({ copy := 1, cell := 0, sectors := 4, group := 127, hops := [], held := none }), (sTransfer
     { copy := 1, cell := 0, sectors := 4, group := 127, hops := [], held := none }), _, by decide +kernel, by decide +kernel,
     by decide +kernel, by decide +kernel, by decide +kernel, by decide +kernel, rfl⟩,
   ⟨0, 7, ({ copy := 1, cell := 0, sectors := 4, group := 127, hops := [7], held := none }), (sTransfer
     { copy := 1, cell := 0, sectors := 4, group := 127, hops := [7], held := none }), _, by decide +kernel, by decide +kernel,
     by decide +kernel, by decide +kernel, by decide +kernel, by decide +kernel, rfl⟩,
   ⟨0, 7, 0, [], ({ copy := 1, cell := 0, sectors := 4, group := 127, hops := [7, 0], held := none }), (sTransfer
     { copy := 1, cell := 0, sectors := 4, group := 127, hops := [7, 0], held := none }), _, by decide +kernel, by decide +kernel,
     by decide +kernel, by decide +kernel, by decide +kernel, rfl⟩,
   ⟨0, ({ copy := 1, cell := 0, sectors := 4, group := 127, hops := [0], held := some 7 }), (sTransfer
     { copy := 1, cell := 0, sectors := 4, group := 127, hops := [0], held := some 7 }), by decide +kernel⟩,
   ⟨0, 7, 0, [], ({ copy := 1, cell := 0, sectors := 4, group := 127, hops := [0], held := some 7 }), (sTransfer
     { copy := 1, cell := 0, sectors := 4, group := 127, hops := [0], held := some 7 }), _, by decide +kernel, by decide +kernel,
     by decide +kernel, by decide +kernel, rfl⟩,
   ⟨12479, 0, (sGroup { place := .evicting 15 }).setOb O.FOLD_HEAD_GUARD 1, by decide +kernel⟩,
   ⟨12479, 0, 15, ({ place := .far 15 }), (sGroup { place := .far 15 }).setOb O.FOLD_HEAD_GUARD 1, by decide +kernel⟩⟩

theorem test_met_EvictionAndFetch :
    (∃ (qid : Fin 12480) (busy : BitVec 4) (i : Nat) (k : Nat) (d : Nat) (s : State) (u : State) (v : State), s.Up ∧ d = dieOf (qid.val /
      12) ∧ u = s.seeLimit d busy.toNat ∧ (u.evictable qid.val true).head? = some i ∧ (∃ j, j < 4 ∧ u.slotFreeOn (4 * d + j) = true) ∧
      u.nextStack d busy.toNat = some k ∧ v = u.setOb (O.FOLD_FAR_USED + d) (u.ob (O.FOLD_FAR_USED + d) + 1)) ∧
    (∃ (qid : Fin 12480) (busy : BitVec 4) (i : Nat) (d : Nat) (s : State) (u : State), s.Up ∧ d = dieOf (qid.val / 12) ∧ u = s.seeLimit d
      busy.toNat ∧ (u.evictable qid.val true).head? = some i ∧ (∀ j, j < 4 → u.slotFreeOn (4 * d + j) = false)) ∧
    (∃ (die : Fin 4) (busy : BitVec 4) (qid : Nat) (i : Nat) (n : Nat) (s : State) (u : State), s.Up ∧ n = s.ob (O.FOLD_NEAR_USED +
      die.val) ∧ (s.ob O.FOLD_EVICT_HI * 196608 / 100 ≤ n ∨ (s.fold.occEvict.testBit die.val = true ∧ s.ob O.FOLD_EVICT_LO * 196608 / 100
      ≤ n)) ∧ u = ({ s with fold := { s.fold with occEvict := setBits s.fold.occEvict die.val 1 1 } } : State).seeLimit die.val busy.toNat
      ∧ u.ageDue die.val = false ∧ u.fullest die.val = some qid ∧ (if u.ob O.FOLD_EVICT_ORDER = 1 then (u.evictable qid false).head? else
      (u.evictable qid false).getLast?) = some i) ∧
    (∃ (qid : Fin 12480) (i : Nat) (k : Nat) (g : CellGroup) (s : State), s.Up ∧ (s.eq qid.val).groupAt (fun g => g.place.isEvicting) =
      some i ∧ s.nearZone ≤ i ∧ (s.eq qid.val).groups[i]? = some g ∧ g.place = .evicting k) ∧
    (∃ (qid : Fin 12480) (crc : BitVec 16) (ue : Bool) (i : Nat) (d : Nat) (g : CellGroup) (bad : List Nat) (s : State) (u : State) (v :
      State), s.Up ∧ (s.eq qid.val).groupAt (fun g => g.place.isFetching) = some i ∧ (s.eq qid.val).groups[i]? = some g ∧ d = dieOf
      (qid.val / 12) ∧ g.cells.length ≤ s.dieFree d ∧ bad = (List.range g.cells.length).filter (fun j => ue || g.fenced ||
      crc.toNat.testBit j) ∧ u = bad.foldl (fun s j => s.poisonCopy (g.cells.getD j (0, 0)).1) (g.cells.foldl (fun s x => s.fetchCell d x)
      s) ∧ v = (if ue = true then u.raise O.FOLD_ERR 2 3 5 (g.place.stack.getD 0) 0 else if g.fenced = false ∧ bad ≠ [] then u.raise
      O.FOLD_ERR 0 3 else u)) :=
  ⟨⟨12479, 7, 0, 3, _, (sGroup { cells := [(1, 0)] }), _, _, by decide +kernel, rfl, rfl, by decide +kernel, by decide +kernel,
     by decide +kernel, rfl⟩,
   ⟨12479, 0, 0, _, (sGroup { cells := [(1, 0)] }).setOb O.FENCE_STACKS 65535, _, by decide +kernel, rfl, rfl, by decide +kernel⟩,
   ⟨3, 0, 12479, 0, _, (((sGroup { cells := [(1, 0)], complete := true }).setOb (O.FOLD_NEAR_USED + 3) 196608).setOb O.FOLD_EVICT_ORDER
     1).setOb O.FOLD_RESIDENCY_NS 2000000000, _, by decide +kernel, rfl, by decide +kernel, rfl, by decide +kernel⟩,
   ⟨12479, 0, 15, ({ place := .evicting 15 }), (sGroup { place := .evicting 15 }), by decide +kernel⟩,
   ⟨12479, 0, false, 0, _, ({ cells := [(1, 0)], place := .fetching 15 }), _, (sGroup { cells := [(1, 0)], place := .fetching 15 }), _, _,
     by decide +kernel, by decide +kernel, by decide +kernel, rfl, by decide +kernel, rfl, rfl, rfl⟩⟩

theorem test_met_QueuesAndPauses :
    (∃ (who : Path) (qid : Fin 12480) (v : BitVec 128) (n : Nat) (o : Nat) (s : State) (t : State) (u : State), s.serves who O.EGR_QCFG =
      true ∧ t = s.taken who ∧ o = t.row O.EGR_QCFG qid.val ∧ rateOk (qRate v.toNat) = true ∧ (qRate v.toNat ≠ 0 → qRate v.toNat ≠
      rateOpen → 1 ≤ qBurst v.toNat ∧ qBurst v.toNat ≤ 67108864) ∧ (qid.val / 12 < 1024 → burstOk (qRate v.toNat) (qBurst v.toNat)
      (t.maxFrame (qid.val / 96) + pOverhead (t.row O.EGR_PORTCFG (qid.val / 12))) = true) ∧ (qRecSel v.toNat = true → qRecSel o = false →
      t.recSelected < 1024) ∧ n = v.toNat &&& (0x1FFF7 + 0xFFFFFFFF <<< 32 + 0x3FFFFF <<< 64 + 0x7FFFFFF <<< 96) ∧ u = (t.setRow
      O.EGR_QCFG qid.val n).modEq qid.val (fun q => { q with deficit := 0, short := 0 })) ∧
    (∃ (s : State), s.Up) ∧
    (∃ (qid : Fin 12480) (t0 : Nat) (s : State), s.Up ∧ (s.eq qid.val).pauseUntil = some t0) ∧
    (∃ (qid : Fin 12480) (t0 : Nat) (u0 : Nat) (wd : Nat) (s : State), s.Up ∧ wd = bits (s.row O.PFC_CFG (8 * (qid.val / 12) + qPausePrio
      (s.row O.EGR_QCFG qid.val))) 32 16 * 1000000 ∧ wd ≠ 0 ∧ (s.eq qid.val).pauseSince = some t0 ∧ (s.eq qid.val).pauseUntil = some u0 ∧
      (s.eq qid.val).wdFired = false ∧ t0 + wd ≤ u0) ∧
    (∃ (s : State), s.Up ∧ s.ob O.EGR_QREC_SIZE ≠ 0) :=
  ⟨⟨.pfMailbox, 12479, 0, _, _, s0, _, _, by decide +kernel, rfl, rfl, by decide +kernel, by decide +kernel, by decide +kernel,
     by decide +kernel, rfl, rfl⟩,
   ⟨(sLink 127 4 6), by decide +kernel⟩,
   ⟨12479, 9, (s0.modEq 12479 (fun q => { q with pauseUntil := some 9 })), by decide +kernel⟩,
   ⟨12287, 0, 1000000, _, (s0.setRow O.PFC_CFG (8 * 1023 + qPausePrio (s0.row O.EGR_QCFG 12287)) (1 <<< 32)).modEq 12287 (fun q =>
     { q with pauseSince := some 0, pauseUntil := some 1000000 }), by decide +kernel, rfl, by decide +kernel⟩,
   ⟨(s0.setOb O.EGR_QREC_SIZE 1), by decide +kernel⟩⟩

theorem test_met_SelectionAndDeparture :
    (∃ (d : Fin 1040) (q0 : Nat) (id : Nat) (s : State), s.Up ∧ (s.ep d.val).next = none ∧ q0 < 12 ∧ (∀ q, q < 12 → s.headDrop (12 * d.val
      + q) = none) ∧ s.eligible (12 * d.val + q0) = some (id, .fits) ∧ (∀ q, q < 12 → q ≠ q0 → s.eligible (12 * d.val + q) = none) ∧
      qWeight (s.row O.EGR_QCFG (12 * d.val + q0)) = 0) ∧
    (∃ (d : Fin 1040) (s : State), s.Up ∧ (s.ep d.val).next.isSome = true) ∧
    (∃ (s : State), s.Up ∧ s.fold = {}) ∧
    (∃ (d : Fin 1040) (x : Chosen) (f : Frame) (s : State), s.Up ∧ (s.ep d.val).dep = none ∧ (s.ep d.val).next = some x ∧ s.headOf x.queue
      = some x.copy ∧ s.pausedLong x.queue = false ∧ (s.copy x.copy).frame = f ∧ (d.val < 1024 → s.still = false ∧ s.linkTakes d.val f
      (parseFrame f.etype f) = true)) ∧
    (∃ (d : Fin 1040) (x : Chosen) (s : State), s.Up ∧ (s.ep d.val).dep = none ∧ (s.ep d.val).next = some x ∧ (s.headOf x.queue ≠ some
      x.copy ∨ s.pausedLong x.queue = true)) ∧
    (∃ (d : Fin 1040) (x : Departing) (s : State), s.Up ∧ (s.ep d.val).dep = some x) ∧
    (∃ (d : Fin 1040) (x : Departing) (g : Nat) (s : State), s.Up ∧ (s.ep d.val).dep = some x ∧ x.started = true ∧ x.logged = true ∧
      (s.copy x.copy).groups.getD x.cellRead 128 = g ∧ g ≠ 128 ∧ x.cellRead + 1 < (s.copy x.copy).frame.cells) ∧
    (∃ (qid : Fin 12480) (i : Fin 16) (g : CellGroup) (x : Nat × Nat) (s : State), s.Up ∧ (s.eq qid.val).groups.find? (fun g =>
      g.place.isEvicting) = some g ∧ g.cells[i.val]? = some x ∧ s.departWaits ((s.copy x.1).groups.getD x.2 128) = false ∧ s.transferWaits
      ((s.copy x.1).groups.getD x.2 128) = false) :=
  ⟨⟨1039, 11, 1, (sQueued { bytes := List.replicate 64 0 }).setRow O.EGR_QCFG 12479 0, by decide +kernel⟩,
   ⟨1039, (s0.setEp 1039 { next := some { queue := 12479, copy := 1, len := 64 } }), by decide +kernel⟩,
   ⟨s0, by decide +kernel⟩,
   ⟨1039, ({ queue := 12479, copy := 1, len := 64 }), ({ bytes := List.replicate 64 0 }), (sQueued { bytes := List.replicate 64 0 }).setEp
     1039 { next := some { queue := 12479, copy := 1, len := 64 } }, by decide +kernel⟩,
   ⟨1039, ({ queue := 12479, copy := 1, len := 64 }), (s0.setEp 1039 { next := some { queue := 12479, copy := 1, len := 64 } }),
     by decide +kernel⟩,
   ⟨1039, ({ copy := 1, queue := 12479 }), (s0.setEp 1039 { dep := some { copy := 1, queue := 12479 } }), by decide +kernel⟩,
   ⟨1039, ({ copy := 1, queue := 12479, started := true }), 127, (s0.setCopy 1
     { frame := { bytes := List.replicate 1000 0 }, groups := [127, 127] }).setEp 1039
     { dep := some { copy := 1, queue := 12479, started := true } }, by decide +kernel⟩,
   ⟨12479, 15, ({ cells := List.replicate 16 (1, 0), place := .evicting 15 }), (1, 0), (sGroup
     { cells := List.replicate 16 (1, 0), place := .evicting 15 }), by decide +kernel⟩⟩

theorem test_met_IngressChecks :
    (∃ (port : Fin 1024) (fifo : Fin 257) (s : State) (u : State), s.FlockOpen port.val ∧ u = s.setFifo (port.val / 8) fifo.val) ∧
    (∃ (port : Fin 1024) (bytes : List Byte) (fifo : Fin 257) (s : State) (u : State), s.FlockOpen port.val ∧ u = s.setFifo (port.val / 8)
      fifo.val ∧ u.isLink (port.val / 8) = false ∧ bytes.length < 60) ∧
    (∃ (port : Fin 1024) (bytes : List Byte) (fifo : Fin 257) (s : State) (u : State), s.FlockOpen port.val ∧ u = s.setFifo (port.val / 8)
      fifo.val ∧ u.isLink (port.val / 8) = false ∧ 60 ≤ bytes.length ∧ u.bob (port.val / 8) O.PORT_MAX_FRAME < bytes.length + 4) ∧
    (∃ (port : Fin 1024) (bytes : List Byte) (fifo : Fin 257) (f0 : Frame) (f : Frame) (p : Parsed) (n : Nat) (s : State) (u : State) (w :
      State), s.FlockOpen port.val ∧ u = s.setFifo (port.val / 8) fifo.val ∧ u.isLink (port.val / 8) = false ∧ 60 ≤ bytes.length ∧
      bytes.length + 4 ≤ u.bob (port.val / 8) O.PORT_MAX_FRAME ∧ w = (u.tally 0x0100 port.val).tally 0x0101 port.val bytes.length ∧ f0 =
      { bytes := bytes, port := port.val, rx := time112 w.time.dev, etype := w.ob O.FWD_ETHERTYPE } ∧ p = parseFrame f0.etype f0 ∧ p.fab =
      none ∧ p.etype ≠ 0x8808 ∧ n = (if p.tags = 0 then bits (w.row O.FWD_PORTCFG port.val) 12 3 else p.pcp) ∧ f =
      { f0 with prio := n, lossless := pfcEnabled (w.row O.PFC_CFG (8 * port.val + n)), pasture := bits (w.row O.FWD_PORTCFG port.val) 0 12, cls := w.flockClass port.val p }
      ∧ (f.lossless = true ∨ ((w.block (port.val / 8)).fifo < 256 ∧ w.row O.ROUTE_HOLD f.pasture = 0))) ∧
    (∃ (port : Fin 1024) (l : Nat) (s : State), s.Up ∧ l = s.bob (port.val / 8) O.PORT_LOOPBACK ∧ s.isLink (port.val / 8) = false) ∧
    (∃ (port : Fin 1024) (prio : Fin 8) (t0 : Nat) (s : State) (u : State), s.Up ∧ (s.ep port.val).xoff.testBit prio.val = true ∧ TMap.get
      0 (s.ep port.val).xoffAt prio.val = t0 ∧ u = s.advanceTo t0) :=
  ⟨⟨1023, 256, sFlock, _, ⟨by decide +kernel, by decide +kernel, by decide +kernel, by decide +kernel, by decide +kernel⟩, rfl⟩,
   ⟨1023, (List.replicate 59 0), 256, sFlock, _, ⟨by decide +kernel, by decide +kernel, by decide +kernel, by decide +kernel,
     by decide +kernel⟩, rfl, by decide +kernel⟩,
   ⟨1023, (List.replicate 1515 0), 256, (sFlock.setOb (blockOid O.PORT_MAX_FRAME 127) 1518), _, ⟨by decide +kernel, by decide +kernel,
     by decide +kernel, by decide +kernel, by decide +kernel⟩, rfl, by decide +kernel⟩,
   ⟨1023, (List.replicate 60 0), 256, _, _, _, _, (sFlock.setRow O.PFC_CFG 8184 (1 <<< 30)), _, _, ⟨by decide +kernel, by decide +kernel,
     by decide +kernel, by decide +kernel, by decide +kernel⟩, rfl, by decide +kernel, by decide +kernel, by decide +kernel, rfl, rfl,
     rfl, by decide +kernel, by decide +kernel, rfl, rfl, by decide +kernel⟩,
   ⟨1023, _, sFlock, by decide +kernel, rfl, by decide +kernel⟩,
   ⟨1023, 7, 9, (s0.setEp 1023 { xoff := 128, xoffAt := [(7, 9)] }), _, by decide +kernel, by decide +kernel, by decide +kernel, rfl⟩⟩

theorem test_met_HeftCommands :
    (∃ (die : Fin 4) (e : Nat) (port : Nat) (i : Nat) (rest : List (Nat × Nat)) (s : State) (u : State), s.Up ∧ (s.heft die.val).learn =
      (e, port) :: rest ∧ u = s.setHeft die.val { s.heft die.val with learn := rest } ∧ (u.heft die.val).find (eStamp e u.heftStamp) =
      some i ∧ eDev ((u.heft die.val).at i) = eDev (eStamp e u.heftStamp) ∧ ePort ((u.heft die.val).at i) = ePort (eStamp e u.heftStamp)) ∧
    (∃ (die : Fin 4) (old : Nat → Bool) (h : HeftDie) (s : State), s.Up ∧ h = s.heft die.val ∧ old = (fun e => !eStatic e && decide (s.ob
      O.HEFT_AGE_LIMIT ≤ (s.heftStamp + 65536 - eAge e) % 65536))) ∧
    (∃ (who : Path) (e : BitVec 128) (n : Nat) (s : State) (t : State), s.serves who O.HEFT_OP = true ∧ t = s.taken who ∧ n = setBits
      (setBits (setBits (e.toNat &&& (2 ^ 83 - 1)) 61 2 3) 63 1 0) 96 16 0) ∧
    (∃ (who : Path) (d : Fin 4) (h : HeftDie) (s : State) (t : State), s.serves who O.HEFT_OP = true ∧ t = s.taken who ∧ h = t.heft d.val) ∧
    (∃ (who : Path) (m : BitVec 4) (F : (Nat → Bool) → State) (s : State) (t : State), s.serves who O.HEFT_OP = true ∧ t = s.taken who ∧ F
      = (fun f => ((t.heftFlush m.toNat f).setOb O.HEFT_OP_STATUS 0).answered who O.HEFT_OP 0)) ∧
    (∃ (who : Path) (s : State) (t : State), s.serves who O.HEFT_OP = true ∧ t = s.taken who) :=
  ⟨⟨3, heftEntry, 5, 1048576, [], (s0.setHeft 3 { stash := [heftEntry], learn := [(heftEntry, 5)] }), _, by decide +kernel,
     by decide +kernel, rfl, by decide +kernel⟩,
   ⟨3, _, _, (s0.setOb O.HEFT_AGE_LIMIT 1), by decide +kernel, rfl, rfl⟩,
   ⟨.pfMailbox, (BitVec.ofNat 128 heftEntry), _, s0, _, by decide +kernel, rfl, rfl⟩,
   ⟨.pfMailbox, 3, _, sHeft, _, by decide +kernel, rfl, rfl⟩,
   ⟨.pfMailbox, 15, _, s0, _, by decide +kernel, rfl, rfl⟩,
   ⟨.pfMailbox, s0, _, by decide +kernel, rfl⟩⟩

theorem test_met_ForwardingCommands :
    (∃ (who : Path) (v6 : Bool) (plen : BitVec 8) (pa : Fin 4096) (pfx : BitVec 128) (k : Nat) (w : Nat) (x : Nat) (s : State) (t :
      State), s.serves who O.LPM_OP = true ∧ t = s.taken who ∧ w = (if v6 then 128 else 32) ∧ plen.toNat ≤ w ∧ x = (if v6 then pfx.toNat
      else pfx.toNat / 2 ^ 96) ∧ k = lpmKey v6 plen.toNat pa.val (cutPrefix w plen.toNat x) ∧ t.lpmUsed + 2 ≤ 262144) ∧
    (∃ (who : Path) (v6 : Bool) (plen : BitVec 8) (pa : Fin 4096) (pfx : BitVec 128) (k : Nat) (w : Nat) (x : Nat) (s : State) (t :
      State), s.serves who O.LPM_OP = true ∧ t = s.taken who ∧ w = (if v6 then 128 else 32) ∧ plen.toNat ≤ w ∧ x = (if v6 then pfx.toNat
      else pfx.toNat / 2 ^ 96) ∧ k = lpmKey v6 plen.toNat pa.val (cutPrefix w plen.toNat x) ∧ t.lpmUsed + 2 ≤ 262144) ∧
    (∃ (who : Path) (v6 : Bool) (plen : BitVec 8) (pa : Fin 4096) (pfx : BitVec 128) (k : Nat) (w : Nat) (x : Nat) (s : State) (t :
      State), s.serves who O.LPM_OP = true ∧ t = s.taken who ∧ w = (if v6 then 128 else 32) ∧ plen.toNat ≤ w ∧ x = (if v6 then pfx.toNat
      else pfx.toNat / 2 ^ 96) ∧ k = lpmKey v6 plen.toNat pa.val (cutPrefix w plen.toNat x)) ∧
    (∃ (who : Path) (table : Fin 6) (row : Nat) (o : Nat) (d : ObjDef) (s : State) (t : State), s.serves who o = true ∧ t = s.taken who ∧
      o = fwdTableOid table ∧ objDef o = some d ∧ row < d.rows) ∧
    (∃ (who : Path) (pa : Fin 4096) (v : BitVec 8) (s : State) (t : State) (u : State) (w : State), s.serves who O.ROUTE_HOLD = true ∧ t =
      s.taken who ∧ v.toNat ≤ 2 ∧ u = t.setRow O.ROUTE_HOLD pa.val v.toNat ∧ w = (u.pasturePorts pa.val).foldl (fun s port => (List.range
      8).foldl (fun s i => s.pfcUpdate port i) s) u) ∧
    (∃ (who : Path) (n : BitVec 48) (s : State) (t : State), s.serves who O.ROUTE_SNAP = true ∧ t = s.taken who ∧ t.bell < t.bellOf48
      n.toNat) ∧
    (∃ (pa : Fin 4096) (b : Nat) (s : State), s.Up ∧ TMap.get 0 s.fwd.snaps pa.val = b ∧ b ≠ 0 ∧ b ≤ s.bell) ∧
    (∃ (who : Path) (s : State) (t : State), s.serves who O.ROUTE_FAILOVER_ACT = true ∧ t = s.taken who) :=
  ⟨⟨.pfMailbox, true, 128, 4095, 1, _, _, _, s0, _, by decide +kernel, rfl, rfl, by decide +kernel, rfl, rfl, by decide +kernel⟩,
   ⟨.pfMailbox, false, 32, 0, 0, _, _, _, s0, _, by decide +kernel, rfl, rfl, by decide +kernel, rfl, rfl, by decide +kernel⟩,
   ⟨.pfMailbox, true, 128, 4095, 1, _, _, _, s0, _, by decide +kernel, rfl, rfl, by decide +kernel, rfl, rfl⟩,
   ⟨.pfMailbox, 0, 65535, _, (defOf O.LPM_NEXTHOP), s0, _, by decide +kernel, rfl, rfl, by decide +kernel⟩,
   ⟨.pfMailbox, 4095, 2, s0, _, _, _, by decide +kernel, rfl, by decide +kernel, rfl, rfl⟩,
   ⟨.pfMailbox, 1, s0, _, by decide +kernel, rfl, by decide +kernel⟩,
   ⟨4095, 1, ({ s0 with fwd := { s0.fwd with snaps := [(4095, 1)] }, time := { s0.time with lastBell := 1 } }), by decide +kernel⟩,
   ⟨.pfMailbox, s0, _, by decide +kernel, rfl⟩⟩

theorem test_met_WindowAccesses :
    (∃ (idx : BitVec 16) (el : BitVec 8) (d : ObjDef) (oid : Nat) (s : State), s.fnUp 0 = true ∧ s.crookUp = true ∧ s.Up ∧ oid = idx.toNat
      * 256 + el.toNat ∧ objDef oid = some d ∧ d.ty.inSlot = true ∧ d.acc ≠ .ro ∧ d.acc ≠ .cmd) ∧
    (∃ (idx : BitVec 16) (el : BitVec 8) (d : ObjDef) (oid : Nat) (s : State), s.fnUp 0 = true ∧ s.crookUp = true ∧ s.Up ∧ oid = idx.toNat
      * 256 + el.toNat ∧ objDef oid = some d ∧ d.ty.inSlot = true ∧ d.ty.bytes = 8 ∧ d.acc = .rw) ∧
    (∃ (idx : BitVec 16) (el : BitVec 8) (d : ObjDef), objDef (idx.toNat * 256 + el.toNat) = some d ∧ (d.ty.inSlot = false ∨ d.acc = .ro)) ∧
    (∃ (idx : BitVec 16) (el : BitVec 8) (d : ObjDef), objDef (idx.toNat * 256 + el.toNat) = some d ∧ (d.ty.inSlot = false ∨ d.acc = .ro)) ∧
    (∃ (idx : BitVec 16) (el : BitVec 8) (s : State), s.serverInReset = true ∧ crookSet (idx.toNat * 256 + el.toNat) = false) ∧
    (∃ (off : BitVec 26) (size : BitVec 13) (s : State), s.Awake ∧ s.fnUp 0 = true ∧ ((size.toNat = 4 ∨ size.toNat = 8) ∧ off.toNat %
      size.toNat = 0 → directReg off.toNat = false)) ∧
    (∃ (off : BitVec 26) (size : BitVec 13) (s : State), s.Awake ∧ s.fnUp 0 = true ∧ ((size.toNat = 4 ∨ size.toNat = 8) ∧ off.toNat %
      size.toNat = 0 → directReg off.toNat = false)) ∧
    (∃ (off : BitVec 27) (size : BitVec 13) (s : State), s.crookUp = true ∧ s.fnUp 0 = true ∧ ((size.toNat = 4 ∨ size.toNat = 8) ∧
      off.toNat % size.toNat = 0 → objDef (off.toNat / 2048 * 256 + off.toNat % 2048 / 8) = none)) ∧
    (∃ (off : BitVec 27) (size : BitVec 13) (s : State), s.crookUp = true ∧ s.fnUp 0 = true ∧ ((size.toNat = 4 ∨ size.toNat = 8) ∧
      off.toNat % size.toNat = 0 → objDef (off.toNat / 2048 * 256 + off.toNat % 2048 / 8) = none)) :=
  ⟨⟨(idxOf O.FAB_DIM_X), (elOf O.FAB_DIM_X), (defOf O.FAB_DIM_X), _, s0, by decide +kernel, by decide +kernel, by decide +kernel, rfl,
     by decide +kernel⟩,
   ⟨(idxOf O.BELL_ORIGIN), (elOf O.BELL_ORIGIN), (defOf O.BELL_ORIGIN), _, s0, by decide +kernel, by decide +kernel, by decide +kernel,
     rfl, by decide +kernel⟩,
   ⟨(idxOf O.FAB_PLACED), (elOf O.FAB_PLACED), (defOf O.FAB_PLACED), by decide +kernel⟩,
   ⟨(idxOf O.FEAT_PASTURE_ACTIVE), (elOf O.FEAT_PASTURE_ACTIVE), (defOf O.FEAT_PASTURE_ACTIVE), by decide +kernel⟩,
   ⟨(idxOf O.FAB_DIM_X), (elOf O.FAB_DIM_X), sWarm, by decide +kernel⟩,
   ⟨0x3FFFFF8, 8, s0, by decide +kernel⟩,
   ⟨0x100001, 4, s0, by decide +kernel⟩,
   ⟨0x7FFFFF8, 8, s0, by decide +kernel⟩,
   ⟨0x500008, 16, s0, by decide +kernel⟩⟩

theorem test_met_DictionaryRequests :
    (∃ (who : Path) (idx : BitVec 16) (el : BitVec 8) (len : BitVec 32) (data : List Byte) (d : ObjDef) (oid : Nat) (F : State × Nat →
      Host.Outcome State Fault Refusal) (s : State) (u : State), who ≠ .window ∧ (∀ v, who = .vfMailbox v → vfOpen oid = true) ∧ s.crookUp
      = true ∧ oid = idx.toNat * 256 + el.toNat ∧ objDef oid = some d ∧ u = s.count O.CTL_STAT 0 1 ∧ (u.serverInReset && !crookSet oid) =
      false ∧ len.toNat ≤ pathLimit who false ∧ data.length ≤ pathLimit who false ∧ F = (fun r => .next ((r.1.served oid).reply who r.2
      (if r.2 = 0 then data.length else 0) [])) ∧ d.rd.num ≤ u.roleOf who) ∧
    (∃ (who : Path) (idx : BitVec 16) (el : BitVec 8) (len : BitVec 32) (data : List Byte) (d : ObjDef) (oid : Nat) (F : State × Nat →
      Host.Outcome State Fault Refusal) (s : State) (u : State), who ≠ .window ∧ (∀ v, who = .vfMailbox v → vfOpen oid = true) ∧ s.crookUp
      = true ∧ oid = idx.toNat * 256 + el.toNat ∧ objDef oid = some d ∧ u = s.count O.CTL_STAT 0 1 ∧ (u.serverInReset && !crookSet oid) =
      false ∧ len.toNat ≤ pathLimit who false ∧ data.length ≤ pathLimit who false ∧ F = (fun r => .next ((r.1.served oid).reply who r.2
      (if r.2 = 0 then data.length else 0) [])) ∧ d.acc ≠ .ro ∧ d.acc ≠ .cmd ∧ d.wr.num ≤ u.roleOf who ∧ d.ty ≠ .table ∧ d.stringy = false
      ∧ data.length = d.ty.bytes) ∧
    (∃ (who : Path) (idx : BitVec 16) (el : BitVec 8) (len : BitVec 32) (data : List Byte) (d : ObjDef) (oid : Nat) (F : State × Nat →
      Host.Outcome State Fault Refusal) (s : State) (u : State), who ≠ .window ∧ (∀ v, who = .vfMailbox v → vfOpen oid = true) ∧ s.crookUp
      = true ∧ oid = idx.toNat * 256 + el.toNat ∧ objDef oid = some d ∧ u = s.count O.CTL_STAT 0 1 ∧ (u.serverInReset && !crookSet oid) =
      false ∧ len.toNat ≤ pathLimit who false ∧ data.length ≤ pathLimit who false ∧ F = (fun r => .next ((r.1.served oid).reply who r.2
      (if r.2 = 0 then data.length else 0) [])) ∧ d.acc ≠ .ro ∧ d.wr.num ≤ u.roleOf who ∧ d.ty = .table) ∧
    (∃ (who : Path) (idx : BitVec 16) (el : BitVec 8) (len : BitVec 32) (data : List Byte) (d : ObjDef) (oid : Nat) (F : State × Nat →
      Host.Outcome State Fault Refusal) (s : State) (u : State), who ≠ .window ∧ (∀ v, who = .vfMailbox v → vfOpen oid = true) ∧ s.crookUp
      = true ∧ oid = idx.toNat * 256 + el.toNat ∧ objDef oid = some d ∧ u = s.count O.CTL_STAT 0 1 ∧ (u.serverInReset && !crookSet oid) =
      false ∧ len.toNat ≤ pathLimit who false ∧ data.length ≤ pathLimit who false ∧ F = (fun r => .next ((r.1.served oid).reply who r.2
      (if r.2 = 0 then data.length else 0) [])) ∧ d.acc ≠ .ro ∧ d.acc ≠ .cmd ∧ d.wr.num ≤ u.roleOf who ∧ d.ty ≠ .table ∧ d.stringy = true
      ∧ data.length ≤ d.size) ∧
    (∃ (who : Path) (idx : BitVec 16) (el : BitVec 8) (len : BitVec 32) (data : List Byte) (d : ObjDef) (oid : Nat) (F : State × Nat →
      Host.Outcome State Fault Refusal) (s : State) (u : State), who ≠ .window ∧ (∀ v, who = .vfMailbox v → vfOpen oid = true) ∧ s.crookUp
      = true ∧ oid = idx.toNat * 256 + el.toNat ∧ objDef oid = some d ∧ u = s.count O.CTL_STAT 0 1 ∧ (u.serverInReset && !crookSet oid) =
      false ∧ len.toNat ≤ pathLimit who false ∧ data.length ≤ pathLimit who false ∧ F = (fun r => .next ((r.1.served oid).reply who r.2
      (if r.2 = 0 then data.length else 0) [])) ∧ d.acc = .cmd ∧ d.wr.num ≤ u.roleOf who ∧ d.ty ≠ .table ∧ d.stringy = true ∧ data.length
      = d.size) ∧
    (∃ (who : Path) (idx : BitVec 16) (el : BitVec 8) (len : BitVec 32) (data : List Byte) (d : ObjDef) (oid : Nat) (F : State × Nat →
      Host.Outcome State Fault Refusal) (s : State) (u : State), who ≠ .window ∧ (∀ v, who = .vfMailbox v → vfOpen oid = true) ∧ s.crookUp
      = true ∧ oid = idx.toNat * 256 + el.toNat ∧ objDef oid = some d ∧ u = s.count O.CTL_STAT 0 1 ∧ (u.serverInReset && !crookSet oid) =
      false ∧ len.toNat ≤ pathLimit who false ∧ data.length ≤ pathLimit who false ∧ F = (fun r => .next ((r.1.served oid).reply who r.2
      (if r.2 = 0 then data.length else 0) [])) ∧ d.acc = .cmd ∧ d.wr.num ≤ u.roleOf who ∧ d.ty ≠ .table ∧ d.stringy = false ∧ data.length
      = d.ty.bytes) :=
  ⟨⟨.pfMailbox, (idxOf O.FAB_PLACED), (elOf O.FAB_PLACED), 0, [], (defOf O.FAB_PLACED), _, _, s0, _, by decide +kernel, fun _ => by simp,
     by decide +kernel, rfl, by decide +kernel, rfl, by decide +kernel, by decide +kernel, by decide +kernel, rfl, by decide +kernel⟩,
   ⟨.pfMailbox, (idxOf O.FAB_DIM_X), (elOf O.FAB_DIM_X), 0, [4], (defOf O.FAB_DIM_X), _, _, s0, _, by decide +kernel, fun _ => by simp,
     by decide +kernel, rfl, by decide +kernel, rfl, by decide +kernel, by decide +kernel, by decide +kernel, rfl, by decide +kernel⟩,
   ⟨.pfMailbox, (idxOf O.ROUTE_PASTURE), (elOf O.ROUTE_PASTURE), 0, [], (defOf O.ROUTE_PASTURE), _, _, s0, _, by decide +kernel, fun _ =>
     by simp, by decide +kernel, rfl, by decide +kernel, rfl, by decide +kernel, by decide +kernel, by decide +kernel, rfl,
     by decide +kernel⟩,
   ⟨.pfMailbox, (idxOf O.OXPIN_IPV6), (elOf O.OXPIN_IPV6), 0, (List.replicate 16 1), (defOf O.OXPIN_IPV6), _, _, s0, _, by decide +kernel,
     fun _ => by simp, by decide +kernel, rfl, by decide +kernel, rfl, by decide +kernel, by decide +kernel, by decide +kernel, rfl,
     by decide +kernel⟩,
   ⟨.pfMailbox, (idxOf O.COMMON_INVAL), (elOf O.COMMON_INVAL), 0, (List.replicate 24 0), (defOf O.COMMON_INVAL), _, _, s0, _,
     by decide +kernel, fun _ => by simp, by decide +kernel, rfl, by decide +kernel, rfl, by decide +kernel, by decide +kernel,
     by decide +kernel, rfl, by decide +kernel⟩,
   ⟨.pfMailbox, (idxOf O.BELL_SWITCH), (elOf O.BELL_SWITCH), 0, (List.replicate 8 0), (defOf O.BELL_SWITCH), _, _, s0, _,
     by decide +kernel, fun _ => by simp, by decide +kernel, rfl, by decide +kernel, rfl, by decide +kernel, by decide +kernel,
     by decide +kernel, rfl, by decide +kernel⟩⟩

theorem test_met_MailboxAndTimeout :
    (∃ (f : Fin 33) (s : State), s.fnUp f.val = true ∧ s.crookUp = true ∧ (s.fn f.val).mbxBusy = true) ∧
    (∃ (f : Fin 33) (m : List Byte) (r : State × DictReply) (s : State), s.fnUp f.val = true ∧ s.crookUp = true ∧ (s.fn f.val).mbxBusy =
      false ∧ m = padTo 16400 (s.fn f.val).mbxReq ∧ r = s.requestBytes (if f.val = 0 then .pfMailbox else .vfMailbox (Fin.ofNat 33 f.val))
      false (m.take (16 + leAt m 12 4))) ∧
    (∃ (f : Fin 33) (x : PciFn) (a : List Byte) (s : State), x = s.fn f.val ∧ x.mbxBusy = true ∧ x.mbxAnswer = some a ∧ x.mbxCfg.testBit
      13 = false) ∧
    (∃ (v : Fin 33) (idx : BitVec 16) (el : BitVec 8) (off : BitVec 32) (len : BitVec 32) (d : ObjDef) (oid : Nat) (row : Nat) (s : State)
      (u : State), s.crookUp = true ∧ s.Up ∧ oid = idx.toNat * 256 + el.toNat ∧ (oid = O.FEAT_PASTURE_ACTIVE ∨ oid = O.COLL_RECENT) ∧
      objDef oid = some d ∧ row < d.rows ∧ off.toNat = row * d.size ∧ len.toNat = d.size ∧ u = s.count O.CTL_STAT 0 1 ∧ u.Up ∧ u.sees
      (.vfMailbox v) oid row = false) ∧
    (∃ (s : State) (u : State), s.crookUp = true ∧ s.Up ∧ u = (s.advanceTo (s.now + 100000000)).count O.CTL_STAT 1 1 ∧ (u.ob
      O.CTL_ERR).testBit 3 = false) ∧
    (∃ (i : Fin 8) (x : Session) (s : State), s.session i.val = some x) ∧
    (∃ (k : Fin 8) (v : BitVec 320) (s : State) (t : State), s.serves .pfMailbox O.OXPIN_KEY = true ∧ t = s.taken .pfMailbox ∧ bits
      v.toNat 256 8 = 2 ∧ (∀ i, i < 8 → (t.setRow O.OXPIN_KEY k.val (bits v.toNat 0 264 + (bits v.toNat 264 1) <<< 264)).session i = none)
      ∧ t.ctl.opens = []) ∧
    (∃ (s : State), s.serves .cores O.OXPIN_KEY = true) :=
  ⟨⟨32, (sVf.setFn 32 { mbxBusy := true }), by decide +kernel⟩,
   ⟨32, _, _, sVf, by decide +kernel, by decide +kernel, by decide +kernel, rfl, rfl⟩,
   ⟨32, _, [0, 0, 0, 0], (sVf.setFn 32 { mbxBusy := true, mbxAnswer := some [0, 0, 0, 0] }), rfl, by decide +kernel⟩,
   ⟨32, (idxOf O.FEAT_PASTURE_ACTIVE), (elOf O.FEAT_PASTURE_ACTIVE), 131040, 32, (defOf O.FEAT_PASTURE_ACTIVE), _, 4095, sVf, _,
     by decide +kernel, by decide +kernel, rfl, by decide +kernel, by decide +kernel, by decide +kernel, by decide +kernel,
     by decide +kernel, rfl, by decide +kernel⟩,
   ⟨s0, _, by decide +kernel, by decide +kernel, rfl, by decide +kernel⟩,
   ⟨7, ox9, sOx, by decide +kernel⟩,
   ⟨7, (BitVec.ofNat 320 (2 <<< 256)), s0, _, by decide +kernel, rfl, by decide +kernel⟩,
   ⟨s0, by decide +kernel⟩⟩

theorem test_met_HostMemoryWindow :
    (∃ (off : BitVec 36) (n : Fin 4097) (s : State), s.Awake ∧ s.fnUp 0 = true ∧ off.toNat < 2 ^ s.pcie.bar2Log ∧ hpaExists (s.bar2Base +
      off.toNat) n.val = true ∧ s.power.asleep.testBit (hpaStack (s.bar2Base + off.toNat)) = false) ∧
    (∃ (off : BitVec 36) (n : Fin 4097) (s : State), s.Awake ∧ s.fnUp 0 = true ∧ off.toNat < 2 ^ s.pcie.bar2Log ∧ hpaExists (s.bar2Base +
      off.toNat) n.val = true ∧ s.power.asleep.testBit (hpaStack (s.bar2Base + off.toNat)) = true) ∧
    (∃ (off : BitVec 36) (n : Fin 4097) (s : State), s.Awake ∧ s.fnUp 0 = true ∧ off.toNat < 2 ^ s.pcie.bar2Log ∧ hpaExists (s.bar2Base +
      off.toNat) n.val = false) ∧
    (∃ (off : BitVec 36) (l : List Byte) (a : Nat) (s : State), s.tablesOk = true ∧ s.Awake ∧ s.fnUp 0 = true ∧ off.toNat < 2 ^
      s.pcie.bar2Log ∧ a = s.bar2Base + off.toNat ∧ hpaExists a l.length = true ∧ s.power.asleep.testBit (hpaStack a) = false) ∧
    (∃ (v : BitVec 64) (s : State), s.Awake ∧ (bits v.toNat 30 11 <<< 30) % 2 ^ s.pcie.bar2Log = 0 ∧ (bits v.toNat 30 11 <<< 30) + 2 ^
      s.pcie.bar2Log ≤ 2 ^ 41) ∧
    (∃ (v : BitVec 64) (s : State), s.Awake ∧ (bits v.toNat 30 11 <<< 30) % 2 ^ s.pcie.bar2Log ≠ 0) ∧
    (∃ (r : Fin 64) (j : DmaJob) (s : State), s.Up ∧ j = s.job r.val ∧ j.live = true) ∧
    (∃ (c : Fin 256) (s : State), s.Up ∧ (s.octx c.val).isOver = true ∧ s.outputsWait c.val = false) :=
  ⟨⟨0, 4096, s0, by decide +kernel⟩,
   ⟨0, 4096, ({ s0 with power := { s0.power with asleep := 1 } }), by decide +kernel⟩,
   ⟨0xFFFFFFFFF, 1, (s0.setReg 0x1E0008 (31 <<< 36)), by decide +kernel⟩,
   ⟨0, [1, 2, 3], _, s0, by decide +kernel, by decide +kernel, by decide +kernel, by decide +kernel, rfl, by decide +kernel⟩,
   ⟨(BitVec.ofNat 64 (2 ^ 41 - 2 ^ 36)), s0, by decide +kernel⟩,
   ⟨(BitVec.ofNat 64 (2 ^ 30)), s0, by decide +kernel⟩,
   ⟨63, _, ({ s0 with common := { s0.common with jobs := [(63, { live := true })] } }), by decide +kernel, rfl, by decide +kernel⟩,
   ⟨64, ({ s0 with drove := { s0.drove with ctxs := [(64, { ctxMove with ops := [{ desc := dMove, ended := some 0 }] })] } }),
     by decide +kernel⟩⟩

theorem test_met_HostInterface :
    (∃ (kind : Fin 13) (s : State), s.Awake ∧ kind.val ≠ 0) ∧
    (∃ (f : Fin 33) (s : State), s.Awake ∧ s.fnUp f.val = true) ∧
    (∃ (f : Fin 33) (v : Fin 2048) (x : PciFn) (y : PciFn) (s : State), s.Awake ∧ s.fnUp f.val = true ∧ v.val < vectorsOf f.val ∧ x = s.fn
      f.val ∧ x.msixPend.contains v.val = false ∧ y =
      { x with msix := TMap.put msixReset x.msix v.val (clearBit (TMap.get msixReset x.msix v.val) 96) }) ∧
    (∃ (f : Fin 33) (v : Fin 2048) (x : PciFn) (y : PciFn) (s : State) (t : State), s.Awake ∧ s.fnUp f.val = true ∧ v.val < vectorsOf
      f.val ∧ x = s.fn f.val ∧ x.msixPend.contains v.val = true ∧ (clearBit (TMap.get msixReset x.msix v.val) 96).testBit 96 = false ∧ y =
      { x with msix := TMap.put msixReset x.msix v.val (clearBit (TMap.get msixReset x.msix v.val) 96) } ∧ t = s.setFn f.val y) ∧
    (∃ (f : Nat) (v : Nat), vectorsOf f ≤ v) ∧
    (∃ (f : Nat) (v : Nat), vectorsOf f ≤ v) ∧
    (∃ (f : Nat) (v : Nat) (e : Nat) (s : State), v < vectorsOf f ∧ e = TMap.get msixReset (s.fn f).msix v ∧ e.testBit 96 = true) ∧
    (∃ (f : Nat) (v : Nat) (e : Nat) (s : State), v < vectorsOf f ∧ e = TMap.get msixReset (s.fn f).msix v ∧ e.testBit 96 = false) ∧
    (∃ (v : BitVec 64) (s : State), s.Awake ∧ bits v.toNat 0 6 ≤ 32) ∧
    (∃ (s : State), s.Awake ∧ s.fnUp 0 = true ∧ s.crookUp = true) ∧
    (∃ (m : List Byte) (s : State), s.Awake ∧ leAt m 0 2 ≠ 1) ∧
    (∃ (s : State), s.Awake) :=
  ⟨⟨12, s0, by decide +kernel⟩,
   ⟨32, sVf, by decide +kernel⟩,
   ⟨32, 63, _, _, sVf, by decide +kernel, by decide +kernel, by decide +kernel, rfl, by decide +kernel, rfl⟩,
   ⟨32, 63, _, _, (sVf.setFn 32 { msixPend := [63] }), _, by decide +kernel, by decide +kernel, by decide +kernel, rfl, by decide +kernel,
     by decide +kernel, rfl, rfl⟩,
   ⟨32, 64, by decide +kernel⟩,
   ⟨0, 2048, by decide +kernel⟩,
   ⟨0, 2047, _, s0, by decide +kernel, rfl, by decide +kernel⟩,
   ⟨32, 63, _, (sVf.setFn 32 { msix := [(63, 5)] }), by decide +kernel, rfl, by decide +kernel⟩,
   ⟨32, s0, by decide +kernel⟩,
   ⟨s0, by decide +kernel⟩,
   ⟨[0, 0], s0, by decide +kernel⟩,
   ⟨s0, by decide +kernel⟩⟩

theorem test_met_CriotteAndFirmware :
    (∃ (who : Path) (w : Option Nat) (s : State) (t : State), s.serves who O.CRIOTTE_WDT_KICK = true ∧ t = s.taken who ∧ w = (if t.ob
      O.CRIOTTE_WDT_MS = 0 then none else some (t.now + t.ob O.CRIOTTE_WDT_MS * 1000000))) ∧
    (∃ (t0 : Nat) (s : State) (u : State) (v : State), s.Up ∧ s.ctl.wdtAt = some t0 ∧ u = s.advanceTo t0 ∧ v =
      ({ u with ctl := { u.ctl with wdtAt := none } }.coresFrom 1 0).count O.CTL_STAT 2 1 ∧ (v.ob O.CTL_ERR).testBit 4 = false) ∧
    (∃ (who : Path) (s : State), s.serves who O.CRIOTTE_CMD = true) ∧
    (∃ (who : Path) (s : State), s.serves who O.CRIOTTE_CMD = true ∧ (s.taken who).ob O.FW_STATE = 4) ∧
    (∃ (who : Path) (s : State), s.serves who O.CRIOTTE_CMD = true ∧ (s.taken who).ob O.FW_STATE < 3) ∧
    (∃ (who : Path) (s : State) (t : State), s.serves who O.FW_PUSH = true ∧ t = s.taken who ∧ t.ob O.FW_STATE = 0 ∧ t.netBoot = false) ∧
    (∃ (who : Path) (s : State) (t : State), s.serves who O.FW_PUSH = true ∧ t = s.taken who ∧ 1 ≤ t.ob O.FW_STATE ∧ t.ob O.FW_STATE ≤ 4) ∧
    (∃ (who : Path) (s : State) (t : State), s.serves who O.FW_PUSH = true ∧ t = s.taken who ∧ 1 ≤ t.ob O.FW_STATE ∧ t.ob O.FW_STATE ≤ 4) ∧
    (∃ (who : Path) (s : State) (t : State), s.serves who O.FW_PUSH = true ∧ t = s.taken who ∧ t.ob O.FW_STATE = 0 ∧ t.netBoot = true) ∧
    (∃ (n : Nat) (s : State) (u : State), s.Up ∧ s.ctl.fwVerify = some n ∧ leAt (s.hbmRead stageBase 256) 0 4 ≠ 0x44563746 ∧ u =
      { s with ctl := { s.ctl with fwVerify := none } }) ∧
    (∃ (n : Nat) (h : List Byte) (g : List Byte) (p : List Byte) (s : State) (u : State), s.Up ∧ s.ctl.fwVerify = some n ∧ h = s.hbmRead
      stageBase 256 ∧ g = s.hbmRead (stageBase + 256) 2924 ∧ p = s.hbmRead (stageBase + 4096) (min (fwLen h) (2 ^ 30)) ∧ u =
      { s with ctl := { s.ctl with fwVerify := none } }) ∧
    (∃ (who : Path) (s : State) (t : State), s.serves who O.FW_READY = true ∧ t = s.taken who ∧ t.ob O.FW_STATE = 4) :=
  ⟨⟨.pfMailbox, _, s0, _, by decide +kernel, rfl, rfl⟩,
   ⟨9, ({ s0 with ctl := { s0.ctl with wdtAt := some 9 } }), _, _, by decide +kernel, by decide +kernel, rfl, rfl, by decide +kernel⟩,
   ⟨.pfMailbox, s0, by decide +kernel⟩,
   ⟨.pfMailbox, (s0.setOb O.FW_STATE 4), by decide +kernel⟩,
   ⟨.pfMailbox, (s0.setOb O.FW_STATE 2), by decide +kernel⟩,
   ⟨.pfMailbox, s0, _, by decide +kernel, rfl, by decide +kernel⟩,
   ⟨.pfMailbox, (s0.setOb O.FW_STATE 1), _, by decide +kernel, rfl, by decide +kernel⟩,
   ⟨.pfMailbox, (s0.setOb O.FW_STATE 4), _, by decide +kernel, rfl, by decide +kernel⟩,
   ⟨.pfMailbox, (s0.setOb O.STRAP_CODE 10), _, by decide +kernel, rfl, by decide +kernel⟩,
   ⟨4097, ({ s0 with ctl := { s0.ctl with fwVerify := some 4097 } }), _, by decide +kernel, by decide +kernel, by decide +kernel, rfl⟩,
   ⟨4097, _, _, _, ({ s0 with ctl := { s0.ctl with fwVerify := some 4097 } }), _, by decide +kernel, by decide +kernel, rfl, rfl, rfl,
     rfl⟩,
   ⟨.pfMailbox, (s0.setOb O.FW_STATE 4), _, by decide +kernel, rfl, by decide +kernel⟩⟩

theorem test_met_NetworkBoot :
    (∃ (t0 : Nat) (m : List Byte) (s : State) (u : State), s.bootWaits = true ∧ s.ctl.netReqAt = some t0 ∧ u = s.advanceTo t0 ∧ m =
      beBytes 1 0x01 ++ beBytes 8 Config.serial.toNat ++ beBytes 6 mgmtMac) ∧
    (∃ (bytes : List Byte) (data : List Byte) (off : Nat) (s : State), s.tablesOk = true ∧ s.netBoot = true ∧ s.ob O.FW_STATE = 1 ∧ off =
      beAt bytes 1 8 ∧ data = bytes.drop 9 ∧ beAt bytes 0 1 = 0x02 ∧ data ≠ [] ∧ data.length ≤ 8192 ∧ off + data.length ≤ s.common.resvGib
      * 2 ^ 30 ∧ (s.ctl.netBlocks + 1) % 64 ≠ 0) ∧
    (∃ (bytes : List Byte) (s : State) (u : State), s.netBoot = true ∧ s.crookUp = true ∧ s.ob O.FW_STATE = 1 ∧ beAt bytes 0 1 = 0x04 ∧ u
      = s.bootAck.setFw 2) ∧
    (∃ (t0 : Nat) (s : State) (u : State), s.ctl.netDataAt = some t0 ∧ s.ob O.FW_STATE = 1 ∧ u = (s.advanceTo t0).setFw 0) ∧
    (∃ (l : List Byte) (s : State), s.crookUp = true ∧ beAt l 12 2 = 0x0806 ∧ s.ob O.OXPIN_IPV4 ≠ 0 ∧ beAt l 14 2 = 1 ∧ beAt l 16 2 =
      0x0800 ∧ beAt l 20 2 = 1) ∧
    (∃ (o : PendingOpen) (rest : List PendingOpen) (s : State) (u : State), s.ctl.opens = o :: rest ∧ u = s.advanceTo o.expire) ∧
    (∃ (k : Fin 8) (t0 : Nat) (s : State) (u : State), TMap.get 0 s.ctl.locked k.val = t0 ∧ t0 ≠ 0 ∧ u = s.advanceTo t0) ∧
    (∃ (who : Path) (s : State), s.serves who O.OXPIN_CLOSE = true) :=
  ⟨⟨9, _, ({ s0.setOb O.STRAP_CODE 10 with ctl := { s0.ctl with netReqAt := some 9 } }), _, by decide +kernel, by decide +kernel, rfl,
     rfl⟩,
   ⟨[2, 0, 0, 0, 0, 0, 0, 0, 0, 7], _, _, (s0.setOb O.STRAP_CODE 13).setOb O.FW_STATE 1, by decide +kernel, by decide +kernel,
     by decide +kernel, rfl, rfl, by decide +kernel⟩,
   ⟨[4, 0, 0, 0, 0, 0, 0, 0, 0], (s0.setOb O.STRAP_CODE 13).setOb O.FW_STATE 1, _, by decide +kernel, by decide +kernel,
     by decide +kernel, by decide +kernel, rfl⟩,
   ⟨9, ({ s0.setOb O.FW_STATE 1 with ctl := { s0.ctl with netDataAt := some 9 } }), _, by decide +kernel, by decide +kernel, rfl⟩,
   ⟨(List.replicate 12 0 ++ [8, 6, 0, 1, 8, 0, 6, 4, 0, 1]), (s0.setOb O.OXPIN_IPV4 1), by decide +kernel⟩,
   ⟨({ ident := 9, slot := 7, role := 1, enc := false, nonceC := [], nonceS := [], expire := 9 }), [],
     ({ s0 with ctl := { s0.ctl with opens := [{ ident := 9, slot := 7, role := 1, enc := false, nonceC := [], nonceS := [], expire := 9 }] } }),
     _, by decide +kernel, rfl⟩,
   ⟨7, 9, ({ s0 with ctl := { s0.ctl with locked := [(7, 9)] } }), _, by decide +kernel, by decide +kernel, rfl⟩,
   ⟨.pfMailbox, s0, by decide +kernel⟩⟩

theorem test_met_FeatureCommands :
    (∃ (who : Path) (v : BitVec 256) (s : State) (t : State), s.serves who O.FEAT_ACCEPT = true ∧ t = s.taken who ∧ v.toNat &&& t.ob
      O.FEAT_DEVICE = v.toNat ∧ 0x300 &&& v.toNat = 0x300) ∧
    (∃ (who : Path) (v : BitVec 256) (s : State), s.serves who O.FEAT_ACCEPT = true ∧ 0x300 &&& v.toNat ≠ 0x300) ∧
    (∃ (who : Path) (p : BitVec 16) (n : BitVec 64) (v : BitVec 256) (s : State) (t : State), s.serves who O.FEAT_APPLY = true ∧ t =
      s.taken who ∧ p.toNat < 4096 ∧ v.toNat &&& t.membersAccept p.toNat = v.toNat ∧ v.toNat &&& t.ob O.FEAT_ACCEPT = v.toNat ∧ t.bell +
      16 ≤ n.toNat ∧ TMap.get none t.ctl.apply p.toNat = none) ∧
    (∃ (who : Path) (p : BitVec 16) (n : BitVec 64) (s : State), s.serves who O.FEAT_APPLY = true ∧ (4096 ≤ p.toNat ∨ n.toNat < (s.taken
      who).bell + 16)) ∧
    (∃ (who : Path) (p : BitVec 16) (n : BitVec 64) (s : State), s.serves who O.FEAT_APPLY = true ∧ (4096 ≤ p.toNat ∨ n.toNat < (s.taken
      who).bell + 16)) ∧
    (∃ (p : Fin 4096) (n : Nat) (v : Nat) (s : State), s.Up ∧ TMap.get none s.ctl.apply p.val = some (n, v)) ∧
    (∃ (who : Path) (id : BitVec 16) (row : Nat) (s : State) (t : State) (u : State), s.serves who O.COLL_COMM_OP = true ∧ t = s.taken who
      ∧ t.commRow id.toNat = some row ∧ t.commBusy row = false ∧ u = (t.setRow O.COLL_COMM_TABLE row 0).setOb O.COLL_COMM_STATUS 0) ∧
    (∃ (s : State) (w : State) (u : State), s.Up ∧ s.ctl.featDue = true ∧ w = s.floodIssue 0x0E s.own 64 Config.serial.toNat s.bell 0
      (beBytes 32 (s.ob O.FEAT_ACCEPT)) ∧ u = w.featuresTake w.own (s.ob O.FEAT_ACCEPT)) :=
  ⟨⟨.pfMailbox, 0x300, s0, _, by decide +kernel, rfl, by decide +kernel⟩,
   ⟨.pfMailbox, 0x100, s0, by decide +kernel⟩,
   ⟨.pfMailbox, 4095, 16, 0, s0, _, by decide +kernel, rfl, by decide +kernel⟩,
   ⟨.pfMailbox, 4096, 16, s0, by decide +kernel⟩,
   ⟨.pfMailbox, 4095, 15, s0, by decide +kernel⟩,
   ⟨4095, 0, 0, ({ s0 with ctl := { s0.ctl with apply := [(4095, some (0, 0))] } }), by decide +kernel⟩,
   ⟨.pfMailbox, 5, 4095, sComm, _, _, by decide +kernel, rfl, by decide +kernel, by decide +kernel, rfl⟩,
   ⟨({ s0 with ctl := { s0.ctl with featDue := true } }), _, _, by decide +kernel, by decide +kernel, rfl, rfl⟩⟩

theorem test_met_OxpinOpens :
    (∃ (field : Bool) (m : List Byte) (s : State), s.OxReceives field 0x01 m ∧ (oxPayload m).length = 35 ∧ s.slotValid (beAt (oxPayload m)
      0 1) = false) ∧
    (∃ (field : Bool) (m : List Byte) (s : State), s.OxReceives field 0x01 m ∧ (oxPayload m).length = 35 ∧ s.slotValid (beAt (oxPayload m)
      0 1) = true ∧ s.slotLocked (beAt (oxPayload m) 0 1) = true) ∧
    (∃ (field : Bool) (m : List Byte) (p : List Byte) (ns : List Byte) (mac : List Byte) (k : Nat) (e : Nat) (ident : Nat) (s : State) (u
      : State), s.OxReceives field 0x01 m ∧ p = oxPayload m ∧ p.length = 35 ∧ k = beAt p 0 1 ∧ s.slotValid k = true ∧ s.slotLocked k =
      false ∧ s.sessionsFull = false ∧ 1 ≤ beAt p 1 1 ∧ beAt p 1 1 ≤ 3 ∧ e = beAt p 2 1 ∧ e ≤ 1 ∧ (s.ob O.OXPIN_ENC_REQUIRED = 1 → e = 1)
      ∧ ns = beBytes 32 (Config.freeNonce s.free).toNat ∧ ident = 1 + (Config.freeSession s.free).toNat % (2 ^ 32 - 1) ∧ mac = beBytes 48
      (Config.hmac384 (s.slotKey k) ([0x4F, 0x58, 0x50, 0x49, 0x4E, 0x2D, 0x53] ++ p.drop 3 ++ ns ++ beBytes 4 ident ++ beBytes 1 (beAt p
      1 1) ++ beBytes 1 e ++ beBytes 8 Config.serial.toNat)).toNat ∧ u =
      { s.draw with ctl := { s.ctl with opens := s.ctl.opens ++ [{ ident := ident, slot := k, role := beAt p 1 1, enc := e == 1, nonceC := p.drop 3, nonceS := ns, expire := s.now + 1000000000 }] } }) ∧
    (∃ (field : Bool) (m : List Byte) (o : PendingOpen) (s : State) (u : State), s.OxReceives field 0x03 m ∧ s.ctl.opens.find? (fun o =>
      o.ident == oxSession m && decide (s.now ≤ o.expire)) = some o ∧ u =
      { s with ctl := { s.ctl with opens := s.ctl.opens.filter (fun x => x.ident != o.ident) } }) :=
  ⟨⟨true, (oxMsg 1 0 0 (List.replicate 35 0) (List.replicate 16 0)), s0, ⟨by decide +kernel, by decide +kernel, by decide +kernel,
     by decide +kernel⟩, by decide +kernel⟩,
   ⟨true, (oxMsg 1 0 0 ([7] ++ List.replicate 34 0) (List.replicate 16 0)),
     ({ s0.setRow O.OXPIN_KEY 7 (1 <<< 264) with ctl := { s0.ctl with locked := [(7, 1)] } }), ⟨by decide +kernel, by decide +kernel,
     by decide +kernel, by decide +kernel⟩, by decide +kernel⟩,
   ⟨false, (oxMsg 1 0 0 ([7, 3, 1] ++ List.replicate 32 0) (List.replicate 16 0)), _, _, _, _, _, _, (s0.setRow O.OXPIN_KEY 7 (1 <<<
     264)), _, ⟨by decide +kernel, by decide +kernel, by decide +kernel, by decide +kernel⟩, rfl, by decide +kernel, rfl,
     by decide +kernel, by decide +kernel, by decide +kernel, by decide +kernel, by decide +kernel, rfl, by decide +kernel,
     by decide +kernel, rfl, rfl, rfl, rfl⟩,
   ⟨false, (oxMsg 3 9 0 (List.replicate 48 0) (List.replicate 16 0)), (⟨9, 7, 1, true, [], [], 5⟩),
     ({ s0 with ctl := { s0.ctl with opens := [⟨9, 7, 1, true, [], [], 5⟩] } }), _, ⟨by decide +kernel, by decide +kernel,
     by decide +kernel, by decide +kernel⟩, by decide +kernel, rfl⟩⟩

theorem test_met_OxpinSessions :
    (∃ (m : List Byte) (i : Nat) (x : Session) (s : State) (u : State), s.sessionRow (oxSession m) = some (i, x) ∧ m.drop (24 + oxLen m) ≠
      x.macOf m ∧ u = (s.count O.OXPIN_STAT 2 1).raise O.CTL_ERR 1 ∧ oxType m = 0x1F) ∧
    (∃ (m : List Byte) (i : Nat) (x : Session) (s : State) (u : State), s.sessionRow (oxSession m) = some (i, x) ∧ m.drop (24 + oxLen m) ≠
      x.macOf m ∧ u = (s.count O.OXPIN_STAT 2 1).raise O.CTL_ERR 1 ∧ oxType m = 0x13) ∧
    (∃ (m : List Byte) (i : Nat) (x : Session) (s : State) (u : State), s.sessionRow (oxSession m) = some (i, x) ∧ m.drop (24 + oxLen m) ≠
      x.macOf m ∧ u = (s.count O.OXPIN_STAT 2 1).raise O.CTL_ERR 1 ∧ oxType m = 0x10) ∧
    (∃ (m : List Byte) (s : State), s.crookUp = true ∧ s.sessionRow (oxSession m) = none) ∧
    (∃ (m : List Byte) (i : Nat) (x : Session) (l : List Byte) (s : State), s.OxReceives false 0x1F m ∧ s.OxVerifies m i x l) ∧
    (∃ (m : List Byte) (i : Nat) (x : Session) (l : List Byte) (s : State), s.OxReceives false 0x1F m ∧ s.OxVerifies m i x l) ∧
    (∃ (field : Bool) (m : List Byte) (i : Nat) (x : Session) (y : Session) (l : List Byte) (s : State) (u : State), s.OxReceives field
      0x13 m ∧ s.OxVerifies m i x l ∧ x.rxHigh < oxSeq m ∧ y = s.oxMoved x m ∧ u = s.setSession i (some y)) ∧
    (∃ (field : Bool) (m : List Byte) (i : Nat) (x : Session) (l : List Byte) (k : Nat × List Byte) (s : State), s.OxReceives field 0x10 m
      ∧ s.OxVerifies m i x l ∧ oxSeq m ≤ x.rxHigh ∧ x.kept.find? (fun k => k.1 == oxSeq m) = some k) ∧
    (∃ (field : Bool) (m : List Byte) (i : Nat) (x : Session) (y : Session) (z : Session) (l : List Byte) (q : State × DictReply) (t :
      State × List Byte) (s : State), s.OxReceives field 0x10 m ∧ s.OxVerifies m i x l ∧ x.rxHigh < oxSeq m ∧ x.kept.find? (fun k => k.1
      == oxSeq m) = none ∧ q = (s.setSession i (some (s.oxMoved x m))).requestBytes (.oxpin (Fin.ofNat 8 i)) field l ∧ q.1.session i =
      some y ∧ y.ident = x.ident ∧ t = q.1.oxSend field i y 0x11 (q.2.bytes true) ∧ t.1.session i = some z) :=
  ⟨⟨(oxForged 0x1F 9 2), 7, ox9, sOx, _, by decide +kernel, oxForged_mac _ _ _, rfl, by decide +kernel⟩,
   ⟨(oxForged 0x13 9 2), 7, ox9, sOx, _, by decide +kernel, oxForged_mac _ _ _, rfl, by decide +kernel⟩,
   ⟨(oxForged 0x10 9 2), 7, ox9, sOx, _, by decide +kernel, oxForged_mac _ _ _, rfl, by decide +kernel⟩,
   ⟨[], s0, by decide +kernel⟩,
   ⟨(oxSigned 0x1F 9 1), 7, ox9, [], sOx, ⟨by decide +kernel, by decide +kernel, by decide +kernel, by decide +kernel⟩,
     ⟨by decide +kernel, oxSigned_mac _ _ _, by decide +kernel, by decide +kernel⟩⟩,
   ⟨(oxSigned 0x1F 9 2), 7, ox9, [], sOx, ⟨by decide +kernel, by decide +kernel, by decide +kernel, by decide +kernel⟩,
     ⟨by decide +kernel, oxSigned_mac _ _ _, by decide +kernel, by decide +kernel⟩⟩,
   ⟨true, (oxSigned 0x13 9 2), 7, ox9, _, [], sOx, _, ⟨by decide +kernel, by decide +kernel, by decide +kernel, by decide +kernel⟩,
     ⟨by decide +kernel, oxSigned_mac _ _ _, by decide +kernel, by decide +kernel⟩, by decide +kernel, rfl, rfl⟩,
   ⟨true, (oxSigned 0x10 9 1), 7, ox9, [], (1, []), sOx, ⟨by decide +kernel, by decide +kernel, by decide +kernel, by decide +kernel⟩,
     ⟨by decide +kernel, oxSigned_mac _ _ _, by decide +kernel, by decide +kernel⟩, by decide +kernel⟩,
   ⟨true, (oxSigned 0x10 9 2), 7, ox9, ({ ox9 with rxHigh := 2 }), ({ ox9 with rxHigh := 2, txSeq := 2 }), [], _, _, sOx,
     ⟨by decide +kernel, by decide +kernel, by decide +kernel, by decide +kernel⟩, ⟨by decide +kernel, oxSigned_mac _ _ _,
     by decide +kernel, by decide +kernel⟩, by decide +kernel, by decide +kernel, rfl, by decide +kernel, by decide +kernel, rfl,
     by decide +kernel⟩⟩

theorem test_met_TicksAndOverruns :
    (∃ (s : State), s.Up ∧ s.time.lastBell < s.bellAt s.devNs) ∧
    (∃ (s : State) (u : State), s.Up ∧ s.bellAt s.devNs ≤ s.time.lastBell ∧ u = s.advanceDev (s.bellStart (s.time.lastBell + 1) * devUnit)
      ∧ u.time.lastBell < u.bellAt u.devNs) ∧
    (∃ (c : Fin 8) (late : BitVec 32) (s : State) (r : State) (u : State) (v : State) (w : State), s.Up ∧ (c.val = 6 → s.droveOverruns.2 =
      true) ∧ r = (if c.val = 6 then s.droveOverruns.1 else s) ∧ u = (r.count O.BELL_OVERRUNS c.val 1).tally 0x0003 0 ∧ v = (u.raise
      O.BELL_ERR 0).setBlob O.BELL_LAST_OVERRUN (leBytes 16 (u.bell % 2 ^ 64 + c.val <<< 64 + late.toNat <<< 96)) ∧ w =
      { v with time := { v.time with overNow := setBit v.time.overNow c.val } }) ∧
    (∃ (s : State), s.Up ∧ s.ob O.CIRC_HP_WINDOW ≠ 0 ∧ s.bell % s.ob O.CIRC_HP_WINDOW = 0 ∧ s.circ.closed ≠ s.bell + 1) ∧
    (∃ (who : Path) (v : BitVec 32) (s : State) (t : State) (u : State), s.serves who O.CIRC_HP_WINDOW = true ∧ t = s.taken who ∧ v.toNat
      ≤ 1048576 ∧ u = t.setOb O.CIRC_HP_WINDOW v.toNat) ∧
    (∃ (who : Path) (v : BitVec 8) (s : State) (t : State), s.serves who O.HEFT_AGE_SHIFT = true ∧ t = s.taken who ∧ v.toNat ≤ 20 ∧
      v.toNat ≠ t.ob O.HEFT_AGE_SHIFT) ∧
    (∃ (who : Path) (v : BitVec 8) (s : State), s.serves who O.HEFT_AGE_SHIFT = true ∧ 20 < v.toNat) ∧
    (∃ (who : Path) (s : State) (t : State), s.serves who O.ROUTE_FLIP_CANCEL = true ∧ t = s.taken who) :=
  ⟨⟨({ s0 with time := { s0.time with dev := 8192 * devUnit } }), by decide +kernel⟩,
   ⟨s0, _, by decide +kernel, by decide +kernel, rfl, by decide +kernel⟩,
   ⟨7, 0, s0, _, _, _, _, by decide +kernel, by decide +kernel, rfl, rfl, rfl, rfl⟩,
   ⟨(s0.setOb O.CIRC_HP_WINDOW 16), by decide +kernel⟩,
   ⟨.pfMailbox, 1048576, s0, _, _, by decide +kernel, rfl, by decide +kernel, rfl⟩,
   ⟨.pfMailbox, 20, (s0.setOb O.HEFT_AGE_SHIFT 5), _, by decide +kernel, rfl, by decide +kernel⟩,
   ⟨.pfMailbox, 21, s0, by decide +kernel⟩,
   ⟨.pfMailbox, s0, _, by decide +kernel, rfl⟩⟩

theorem test_met_PeriodCommands :
    (∃ (k : Nat) (s : State), s.ob O.BELL_PERIOD = k ∧ k ≤ 5) ∧
    (∃ (who : Path) (v : BitVec 64) (s : State) (t : State), s.serves who O.BELL_SWITCH = true ∧ t = s.taken who ∧ v.toNat ≠ 0 ∧ t.devNs +
      1000000 ≤ v.toNat * 65536 ∧ t.ob O.BELL_PERIOD_NEXT ≠ t.ob O.BELL_PERIOD ∧ t.time.switch = none) ∧
    (∃ (who : Path) (v : BitVec 64) (s : State) (t : State), s.serves who O.BELL_SWITCH = true ∧ t = s.taken who ∧ v.toNat ≠ 0 ∧ (v.toNat
      * 65536 < t.devNs + 1000000 ∨ t.ob O.BELL_PERIOD_NEXT = t.ob O.BELL_PERIOD ∨ t.time.switch.isSome = true)) ∧
    (∃ (who : Path) (v : BitVec 64) (s : State) (t : State), s.serves who O.BELL_SWITCH = true ∧ t = s.taken who ∧ v.toNat ≠ 0 ∧ (v.toNat
      * 65536 < t.devNs + 1000000 ∨ t.ob O.BELL_PERIOD_NEXT = t.ob O.BELL_PERIOD ∨ t.time.switch.isSome = true)) ∧
    (∃ (who : Path) (s : State) (t : State), s.serves who O.BELL_SWITCH = true ∧ t = s.taken who) ∧
    (∃ (a : Nat) (p : Nat) (n : Nat) (s : State) (u : State) (v : State) (w : State), s.Up ∧ s.time.switch = some (a, p) ∧ u =
      s.advanceDev (a * devUnit) ∧ n = u.bellAt a ∧ v = ({ u with time := { u.time with t0 := a, n0 := n, switch := none } }) ∧ w =
      (((((v.setOb O.BELL_PERIOD p).setOb O.BELL_ORIGIN a).setOb O.BELL_BASE n).count O.BELL_STAT 3
      1).cancelBell.startsLate).missReset.heftRestamp) ∧
    (∃ (who : Path) (v : BitVec 64) (s : State) (t : State) (u : State), s.serves who O.BELL_BASE = true ∧ t = s.taken who ∧ t.time.switch
      = none ∧ u = (t.setOb O.BELL_BASE v.toNat).setOb O.BELL_PERIOD (t.ob O.BELL_PERIOD_NEXT)) ∧
    (∃ (who : Path) (s : State) (t : State), s.serves who O.BELL_BASE = true ∧ t = s.taken who ∧ t.time.switch.isSome = true) ∧
    (∃ (who : Path) (pa : Fin 4096) (n : BitVec 48) (s : State) (t : State), s.serves who O.ROUTE_FLIP = true ∧ t = s.taken who ∧ t.bell <
      t.bellOf48 n.toNat ∧ TMap.get 0 t.fwd.flips pa.val = 0 ∧ t.profileUsed (t.otherProfile pa.val) = true) ∧
    (∃ (pa : Fin 4096) (r : Nat) (e : Nat) (s : State), s.Up ∧ TMap.get 0 s.fwd.flips pa.val ≠ 0 ∧ TMap.get 0 s.fwd.flips pa.val ≤ s.bell
      ∧ s.row O.ROUTE_PASTURE pa.val = r ∧ e = 1 - bits r 32 1) :=
  ⟨⟨5, (s0.setOb O.BELL_PERIOD 5), by decide +kernel⟩,
   ⟨.pfMailbox, 16, (s0.setOb O.BELL_PERIOD_NEXT 3), _, by decide +kernel, rfl, by decide +kernel⟩,
   ⟨.pfMailbox, 15, (s0.setOb O.BELL_PERIOD_NEXT 3), _, by decide +kernel, rfl, by decide +kernel⟩,
   ⟨.pfMailbox, 16, s0, _, by decide +kernel, rfl, by decide +kernel⟩,
   ⟨.pfMailbox, s0, _, by decide +kernel, rfl⟩,
   ⟨1048576, 3, _, ({ s0 with time := { s0.time with switch := some (1048576, 3) } }), _, _, _, by decide +kernel, by decide +kernel, rfl,
     rfl, rfl, rfl⟩,
   ⟨.pfMailbox, 1, s0, _, _, by decide +kernel, rfl, by decide +kernel, rfl⟩,
   ⟨.pfMailbox, ({ s0 with time := { s0.time with switch := some (1048576, 3) } }), _, by decide +kernel, rfl, by decide +kernel⟩,
   ⟨.pfMailbox, 4095, 1, (s0.setRow O.ROUTE_PROFILE 0 (1 <<< 12)), _, by decide +kernel, rfl, by decide +kernel⟩,
   ⟨4095, 0, _,
     ({ s0.setRow O.ROUTE_PASTURE 4095 0 with fwd := { s0.fwd with flips := [(4095, 1)] }, time := { s0.time with lastBell := 1 } }),
     by decide +kernel, by decide +kernel, by decide +kernel, by decide +kernel, rfl⟩⟩

theorem test_met_DeviceTime :
    (∃ (who : Path) (v : BitVec 112) (s : State) (t : State), s.serves who O.BWTH_SET = true ∧ t = s.taken who ∧ bits v.toNat 16 32 <
      1000000000 ∧ t.ob (domOid O.DOM_SRC_KIND 0) ≠ 4 ∧ t.ob (domOid O.DOM_SRC_KIND 1) ≠ 4) ∧
    (∃ (who : Path) (v : BitVec 112) (s : State), s.serves who O.BWTH_SET = true ∧ 1000000000 ≤ bits v.toNat 16 32) ∧
    (∃ (who : Path) (v : BitVec 8) (s : State) (t : State), s.serves who O.BWTH_SEL = true ∧ t = s.taken who ∧ v.toNat ≤ 1 ∧ t.domState
      v.toNat = 2) ∧
    (∃ (who : Path) (v : BitVec 8) (s : State) (t : State), s.serves who O.BWTH_SEL = true ∧ t = s.taken who ∧ (1 < v.toNat ∨ t.domState
      v.toNat ≠ 2)) ∧
    (∃ (who : Path) (v : BitVec 8) (s : State) (t : State), s.serves who O.BWTH_SEL = true ∧ t = s.taken who ∧ (1 < v.toNat ∨ t.domState
      v.toNat ≠ 2)) ∧
    (∃ (x : Fin 2) (s : State), s.Awake ∧ (s.domState x.val = 1 ∨ s.domState x.val = 2) ∧ s.ob (domOid O.DOM_SRC_KIND x.val) ≠ 4) ∧
    (∃ (s : State), s.Awake) ∧
    (∃ (cls : Fin 16) (s : State), s.Up ∧ cls.val < 12) ∧
    (∃ (s : State), s.Up) ∧
    (∃ (qid : Fin 12480) (id : Nat) (t0 : Nat) (s : State), s.Up ∧ s.headOf qid.val = some id ∧ (s.copy id).frame.launch = some t0 ∧ 8 ≤
      qid.val % 12 ∧ s.reached t0 = false) ∧
    (∃ (s : State), s.Up) ∧
    (∃ (src : Fin 512) (cls : Fin 8) (t0 : Nat) (h : Nat × Nat) (s : State) (u : State), s.Up ∧ (s.ctx (8 * src.val + cls.val)).deadline =
      some t0 ∧ (s.ctx (8 * src.val + cls.val)).nearest = some h ∧ u = s.advanceTo t0) :=
  ⟨⟨.pfMailbox, (BitVec.ofNat 112 (999999999 <<< 16)), s0, _, by decide +kernel, rfl, by decide +kernel⟩,
   ⟨.pfMailbox, (BitVec.ofNat 112 (1000000000 <<< 16)), s0, by decide +kernel⟩,
   ⟨.pfMailbox, 1, (s0.setOb (domOid O.DOM_STATE 1) 2), _, by decide +kernel, rfl, by decide +kernel⟩,
   ⟨.pfMailbox, 2, s0, _, by decide +kernel, rfl, by decide +kernel⟩,
   ⟨.pfMailbox, 1, s0, _, by decide +kernel, rfl, by decide +kernel⟩,
   ⟨1, (s0.setOb (domOid O.DOM_STATE 1) 1), by decide +kernel⟩,
   ⟨s0, by decide +kernel⟩,
   ⟨11, s0, by decide +kernel⟩,
   ⟨s0, by decide +kernel⟩,
   ⟨12479, 1, 5, (sQueued { bytes := List.replicate 64 0, launch := some 5 }), by decide +kernel⟩,
   ⟨s0, by decide +kernel⟩,
   ⟨511, 7, 9, (1, 1), ({ s0 with fwd := { s0.fwd with reorder := [(4095, { held := [(1, 1)], deadline := some 9 })] } }), _,
     by decide +kernel, by decide +kernel, by decide +kernel, rfl⟩⟩

theorem test_met_PulsePerSecond :
    (∃ (c : Int) (u : State) (s : State) (w : State), s.Awake ∧ c = sint 32 (s.ob O.BWTH_PPS_IN_COMP_NS) * ((devUnit : Nat) : Int) ∧ u =
      { s with time := { s.time with dev := (((s.time.dev : Nat) : Int) - c).toNat } } ∧ w = (s.setBlob O.BWTH_PPS_IN_TS (leBytes 12
      u.t96)).count O.BWTH_STAT 6 1 ∧ w.ob (domOid O.DOM_SRC_KIND 0) ≠ 3 ∧ w.ob (domOid O.DOM_SRC_KIND 1) ≠ 3) ∧
    (∃ (t0 : Nat) (s : State) (u : State), s.Awake ∧ s.time.ppsInAt = some t0 ∧ u = s.advanceTo (t0 + 1100000000)) ∧
    (∃ (s : State) (u : State), s.Awake ∧ s.ppsDriven = true ∧ s.time.ppsOut = false ∧ u = s.advanceDev (s.ppsNext.2 * devUnit)) ∧
    (∃ (s : State) (u : State), s.Awake ∧ s.time.ppsOut = true ∧ u = s.advanceTo (s.time.ppsRoseAt + s.ob O.BWTH_PPS_OUT_WIDTH_US * 1000)) ∧
    (∃ (who : Path) (b : BitVec 48) (s : State) (t : State), s.serves who O.TALLY_SNAP_AT = true ∧ t = s.taken who ∧ t.obsv.snapAt = none
      ∧ t.bell < t.bellOf48 b.toNat) ∧
    (∃ (who : Path) (b : BitVec 48) (s : State) (t : State), s.serves who O.TALLY_SNAP_AT = true ∧ t = s.taken who ∧ (t.obsv.snapAt.isSome
      = true ∨ t.bellOf48 b.toNat ≤ t.bell)) ∧
    (∃ (who : Path) (b : BitVec 48) (s : State) (t : State), s.serves who O.TALLY_SNAP_AT = true ∧ t = s.taken who ∧ (t.obsv.snapAt.isSome
      = true ∨ t.bellOf48 b.toNat ≤ t.bell)) ∧
    (∃ (who : Path) (s : State) (t : State), s.serves who O.TALLY_SNAP_NOW = true ∧ t = s.taken who) ∧
    (∃ (t0 : Nat) (rest : List Nat) (s : State) (u : State), s.Up ∧ s.obsv.nowAt = t0 :: rest ∧ u = s.advanceTo t0) ∧
    (∃ (b : Fin 128) (bytes : List Byte) (s : State), s.Up ∧ s.isLink b.val = true ∧ (s.portState (8 * b.val) = 5 ∨ s.portState (8 *
      b.val) = 6) ∧ hOp (beAt bytes 0 32) = 0x04 ∧ bytes.length = 96) :=
  ⟨⟨_, _, s0, _, by decide +kernel, rfl, rfl, rfl, by decide +kernel⟩,
   ⟨9, ({ s0 with time := { s0.time with ppsInAt := some 9 } }), _, by decide +kernel, by decide +kernel, rfl⟩,
   ⟨({ s0.setOb O.BWTH_PPS_OUT_EN 2 with time := { s0.time with ppsArmed := true } }), _, by decide +kernel, by decide +kernel,
     by decide +kernel, rfl⟩,
   ⟨({ s0 with time := { s0.time with ppsOut := true } }), _, by decide +kernel, by decide +kernel, rfl⟩,
   ⟨.pfMailbox, 1, s0, _, by decide +kernel, rfl, by decide +kernel⟩,
   ⟨.pfMailbox, 0, s0, _, by decide +kernel, rfl, by decide +kernel⟩,
   ⟨.pfMailbox, 5, ({ s0 with obsv := { s0.obsv with snapAt := some 7 } }), _, by decide +kernel, rfl, by decide +kernel⟩,
   ⟨.pfMailbox, s0, _, by decide +kernel, rfl⟩,
   ⟨9, [], ({ s0 with obsv := { s0.obsv with nowAt := [9] } }), _, by decide +kernel, by decide +kernel, rfl⟩,
   ⟨127, (beBytes 32 (4 <<< 224) ++ List.replicate 64 0), (sLink 127 4 6), by decide +kernel⟩⟩

theorem test_met_PtpAndTimeSync :
    (∃ (port : Fin 1025) (x : Fin 2) (n : Nat) (s : State) (u : State), s.Up ∧ s.ptpUp port.val = true ∧ s.ptpRole port.val x.val = 1 ∧ n
      = (s.ptpPort port.val x.val).nextSeq ∧ u = (s.modPtp port.val x.val (fun q => { q with nextSeq := (n + 1) % 65536 })).count
      O.BWTH_STAT 1 1) ∧
    (∃ (port : Fin 1025) (x : Fin 2) (n : Nat) (s : State) (u : State), s.Up ∧ s.ptpUp port.val = true ∧ s.ptpRole port.val x.val = 1 ∧ n
      = (s.ptpPort port.val x.val).nextSeq ∧ u = (s.modPtp port.val x.val (fun q => { q with nextSeq := (n + 1) % 65536 })).count
      O.BWTH_STAT 1 1) ∧
    (∃ (port : Fin 1025) (x : Fin 2) (n : Nat) (s : State) (u : State), s.Up ∧ s.ptpUp port.val = true ∧ s.ptpRole port.val x.val = 2 ∧
      s.ob (domOid O.DOM_DELAY_MECH x.val) = 1 ∧ n = (s.ptpPort port.val x.val).nextSeq ∧ u = s.modPtp port.val x.val (fun q =>
      { q with nextSeq := (n + 1) % 65536, req := some (n, s.now * devUnit), resp := none })) ∧
    (∃ (port : Fin 1025) (x : Fin 2) (s : State), s.ptpRole port.val x.val = 0) ∧
    (∃ (port : Fin 1025) (bytes : List Byte) (m : List Byte) (o : Nat) (p : Parsed) (s : State), s.Up ∧ s.ptpUp port.val = true ∧ p =
      parseEth (s.ob O.FWD_ETHERTYPE) bytes ∧ p.ptp = some o ∧ m = bytes.drop o ∧ s.ptpRole port.val 0 = 0 ∧ s.ptpRole port.val 1 = 0 ∧
      beAt m 0 1 % 16 < 4) ∧
    (∃ (port : Fin 1025) (bytes : List Byte) (m : List Byte) (o : Nat) (p : Parsed) (s : State), s.Up ∧ s.ptpUp port.val = true ∧ p =
      parseEth (s.ob O.FWD_ETHERTYPE) bytes ∧ p.ptp = some o ∧ m = bytes.drop o ∧ s.ptpRole port.val 0 = 0 ∧ s.ptpRole port.val 1 = 0 ∧ 4
      ≤ beAt m 0 1 % 16) ∧
    (∃ (port : Fin 1025) (bytes : List Byte) (m : List Byte) (o : Nat) (p : Parsed) (s : State) (u : State), s.Up ∧ s.ptpUp port.val =
      true ∧ p = parseEth (s.ob O.FWD_ETHERTYPE) bytes ∧ p.ptp = some o ∧ m = bytes.drop o ∧ s.ptpRole port.val 0 ≠ 0 ∧ beAt m 4 1 = s.ob
      (domOid O.DOM_NUMBER 0) ∧ s.ob (domOid O.DOM_NUMBER 1) ≠ s.ob (domOid O.DOM_NUMBER 0) ∧ u = (if port.val = 1024 then s else (s.tally
      0x0100 port.val).tally 0x0101 port.val bytes.length) ∧ beAt m 0 1 % 16 = 0 ∧ u.ptpRole port.val 0 = 2 ∧ (beAt m 6 2).testBit 9 =
      false) ∧
    (∃ (port : Fin 1025) (bytes : List Byte) (m : List Byte) (o : Nat) (p : Parsed) (s : State) (u : State), s.Up ∧ s.ptpUp port.val =
      true ∧ p = parseEth (s.ob O.FWD_ETHERTYPE) bytes ∧ p.ptp = some o ∧ m = bytes.drop o ∧ s.ptpRole port.val 0 ≠ 0 ∧ beAt m 4 1 = s.ob
      (domOid O.DOM_NUMBER 0) ∧ s.ob (domOid O.DOM_NUMBER 1) ≠ s.ob (domOid O.DOM_NUMBER 0) ∧ u = (if port.val = 1024 then s else (s.tally
      0x0100 port.val).tally 0x0101 port.val bytes.length) ∧ 11 ≤ beAt m 0 1 % 16) :=
  ⟨⟨1024, 1, _, (s0.setRow O.BWTH_PORT 1024 0x14), _, by decide +kernel, by decide +kernel, by decide +kernel, rfl, rfl⟩,
   ⟨1024, 1, _, (s0.setRow O.BWTH_PORT 1024 4), _, by decide +kernel, by decide +kernel, by decide +kernel, rfl, rfl⟩,
   ⟨1024, 1, _, (s0.setRow O.BWTH_PORT 1024 8).setOb (domOid O.DOM_DELAY_MECH 1) 1, _, by decide +kernel, by decide +kernel,
     by decide +kernel, by decide +kernel, rfl, rfl⟩,
   ⟨1024, 1, s0, by decide +kernel⟩,
   ⟨1024, (List.replicate 12 0 ++ [0x88, 0xF7] ++ List.replicate 44 0), _, 14, _, s0, by decide +kernel, by decide +kernel, rfl,
     by decide +kernel, rfl, by decide +kernel⟩,
   ⟨1023, (List.replicate 12 0 ++ [0x88, 0xF7, 0x0B] ++ List.replicate 43 0), _, 14, _, (s0.setOb (blockOid O.PORT_ROLE 127)
     1).setPortState 1023 6, by decide +kernel, by decide +kernel, rfl, by decide +kernel, rfl, by decide +kernel⟩,
   ⟨1024, (List.replicate 12 0 ++ [0x88, 0xF7] ++ List.replicate 44 0), _, 14, _, (s0.setRow O.BWTH_PORT 1024 2).setOb (domOid
     O.DOM_NUMBER 1) 1, _, by decide +kernel, by decide +kernel, rfl, by decide +kernel, rfl, by decide +kernel, by decide +kernel,
     by decide +kernel, rfl, by decide +kernel⟩,
   ⟨1024, (List.replicate 12 0 ++ [0x88, 0xF7, 0x0B] ++ List.replicate 43 0), _, 14, _, (s0.setRow O.BWTH_PORT 1024 2).setOb (domOid
     O.DOM_NUMBER 1) 1, _, by decide +kernel, by decide +kernel, rfl, by decide +kernel, rfl, by decide +kernel, by decide +kernel,
     by decide +kernel, rfl, by decide +kernel⟩⟩

theorem test_met_TallyCommands :
    (∃ (who : Path) (n : Fin 8192) (v : BitVec 64) (s : State) (t : State), s.serves who O.TALLY_CFG = true ∧ t = s.taken who ∧ tallyRowOk
      n.val (v.toNat % 2 ^ 32) = true) ∧
    (∃ (who : Path) (n : Fin 8192) (v : BitVec 64) (s : State), s.serves who O.TALLY_CFG = true ∧ tallyRowOk n.val (v.toNat % 2 ^ 32) =
      false) ∧
    (∃ (who : Path) (n : Fin 8192) (v : BitVec 64) (r : Nat) (s : State), s.serves who O.TALLY_CFG = true ∧ r = v.toNat % 2 ^ 32 ∧
      (tallyEvent (bits r 0 16) = false ∨ (r.testBit 31 = true ∧ n.val % 2 = 0) ∨ (256 ≤ bits r 0 16 ∧ bits r 16 14 ≠ 0x3FFF ∧ (tallyUnits
      (bits r 0 16) ≤ bits r 16 14 ∨ (bits r 0 16 / 256 ∉ [0x00, 0x06, 0x09, 0x0E] ∧ bits r 0 16 ≠ 0x0C01 ∧ tallyDie (bits r 0 16) (bits r
      16 14) ≠ n.val / 512 / 4))))) ∧
    (∃ (who : Path) (n : Fin 8192) (v : BitVec 64) (r : Nat) (s : State), s.serves who O.TALLY_CFG = true ∧ r = v.toNat % 2 ^ 32 ∧
      (tallyEvent (bits r 0 16) = false ∨ (r.testBit 31 = true ∧ n.val % 2 = 0) ∨ (256 ≤ bits r 0 16 ∧ bits r 16 14 ≠ 0x3FFF ∧ (tallyUnits
      (bits r 0 16) ≤ bits r 16 14 ∨ (bits r 0 16 / 256 ∉ [0x00, 0x06, 0x09, 0x0E] ∧ bits r 0 16 ≠ 0x0C01 ∧ tallyDie (bits r 0 16) (bits r
      16 14) ≠ n.val / 512 / 4))))) ∧
    (∃ (who : Path) (n : Fin 8192) (v : BitVec 64) (r : Nat) (s : State), s.serves who O.TALLY_CFG = true ∧ r = v.toNat % 2 ^ 32 ∧
      (tallyEvent (bits r 0 16) = false ∨ (r.testBit 31 = true ∧ n.val % 2 = 0) ∨ (256 ≤ bits r 0 16 ∧ bits r 16 14 ≠ 0x3FFF ∧ (tallyUnits
      (bits r 0 16) ≤ bits r 16 14 ∨ (bits r 0 16 / 256 ∉ [0x00, 0x06, 0x09, 0x0E] ∧ bits r 0 16 ≠ 0x0C01 ∧ tallyDie (bits r 0 16) (bits r
      16 14) ≠ n.val / 512 / 4))))) ∧
    (∃ (who : Path) (n : Fin 8192) (v : BitVec 64) (r : Nat) (s : State), s.serves who O.TALLY_CFG = true ∧ r = v.toNat % 2 ^ 32 ∧
      (tallyEvent (bits r 0 16) = false ∨ (r.testBit 31 = true ∧ n.val % 2 = 0) ∨ (256 ≤ bits r 0 16 ∧ bits r 16 14 ≠ 0x3FFF ∧ (tallyUnits
      (bits r 0 16) ≤ bits r 16 14 ∨ (bits r 0 16 / 256 ∉ [0x00, 0x06, 0x09, 0x0E] ∧ bits r 0 16 ≠ 0x0C01 ∧ tallyDie (bits r 0 16) (bits r
      16 14) ≠ n.val / 512 / 4))))) ∧
    (∃ (n : Fin 8192) (r : Nat), tallyEvent (bits r 0 16) = true ∧ (r.testBit 31 = false ∨ n.val % 2 = 1) ∧ bits r 16 14 < tallyUnits
      (bits r 0 16) ∧ (bits r 0 16 / 256 ∈ [0x00, 0x06, 0x09, 0x0E] ∨ tallyDie (bits r 0 16) (bits r 16 14) = n.val / 512 / 4)) ∧
    (∃ (r : Nat) (e : Nat), bits r 0 16 = 0 ∧ e ≠ 0) ∧
    (∃ (who : Path) (v : BitVec 32) (lo : Nat) (n : Nat) (s : State) (t : State), s.serves who O.TALLY_CLEAR = true ∧ t = s.taken who ∧ lo
      = bits v.toNat 0 13 ∧ n = bits v.toNat 16 14 ∧ n ≠ 0 ∧ lo + n ≤ 8192) ∧
    (∃ (who : Path) (v : BitVec 32) (s : State), s.serves who O.TALLY_CLEAR = true ∧ (bits v.toNat 16 14 = 0 ∨ 8192 < bits v.toNat 0 13 +
      bits v.toNat 16 14)) ∧
    (∃ (who : Path) (v : BitVec 32) (s : State), s.serves who O.TALLY_CLEAR = true ∧ (bits v.toNat 16 14 = 0 ∨ 8192 < bits v.toNat 0 13 +
      bits v.toNat 16 14)) ∧
    (∃ (e : Nat × List (Nat × Nat)) (s : State), s.tablesOk = true ∧ s.Up ∧ s.obsv.ringBuf = some e ∧ s.ob O.TALLY_RING_SIZE ≠ 0 ∧
      s.stackShut (hpaStack (s.ob O.TALLY_RING_BASE)) = false) ∧
    (∃ (e : Nat × List (Nat × Nat)) (s : State) (u : State), s.Up ∧ s.obsv.ringBuf = some e ∧ u =
      { s with obsv := { s.obsv with ringBuf := none } }) :=
  ⟨⟨.pfMailbox, 8191, 0x3FF0100, s0, _, by decide +kernel, rfl, by decide +kernel⟩,
   ⟨.pfMailbox, 8191, 0x01FF, s0, by decide +kernel⟩,
   ⟨.pfMailbox, 8191, 0x01FF, _, s0, by decide +kernel, rfl, by decide +kernel⟩,
   ⟨.pfMailbox, 8190, 0x80000000, _, s0, by decide +kernel, rfl, by decide +kernel⟩,
   ⟨.pfMailbox, 8191, 0x4000100, _, s0, by decide +kernel, rfl, by decide +kernel⟩,
   ⟨.pfMailbox, 0, 0x3FF0100, _, s0, by decide +kernel, rfl, by decide +kernel⟩,
   ⟨8191, 0x3FF0100, by decide +kernel⟩,
   ⟨0, 1, by decide +kernel⟩,
   ⟨.pfMailbox, 0x11FFF, _, _, s0, _, by decide +kernel, rfl, rfl, rfl, by decide +kernel⟩,
   ⟨.pfMailbox, 8191, s0, by decide +kernel⟩,
   ⟨.pfMailbox, 0x21FFF, s0, by decide +kernel⟩,
   ⟨(0, []), ({ s0.setOb O.TALLY_RING_SIZE 1 with obsv := { s0.obsv with ringBuf := some (0, []) } }), by decide +kernel⟩,
   ⟨(0, []), ({ s0 with obsv := { s0.obsv with ringBuf := some (0, []) } }), _, by decide +kernel, by decide +kernel, rfl⟩⟩

theorem test_met_FleeceAndRings :
    (∃ (die : Fin 4) (c : Capture) (rest : List Capture) (s : State), s.tablesOk = true ∧ s.Up ∧ TMap.get [] s.obsv.buf die.val = c ::
      rest ∧ c.head.length = 128 ∧ s.obsv.full = false ∧ s.stackShut (hpaStack (s.ob O.FLEECE_BASE)) = false ∧ s.ob O.FLEECE_HEAD + 1 <
      s.ob O.FLEECE_SIZE) ∧
    (∃ (die : Fin 4) (c : Capture) (rest : List Capture) (s : State) (u : State), s.Up ∧ TMap.get [] s.obsv.buf die.val = c :: rest ∧
      s.obsv.full = false ∧ s.ob O.FLEECE_SIZE ≠ 0 ∧ u = { s with obsv := { s.obsv with buf := TMap.put [] s.obsv.buf die.val rest } }) ∧
    (∃ (s : State), s.Up ∧ s.ob O.FLEECE_SIZE = 0) ∧
    (∃ (point : Fin 3) (port : Fin 1040) (s : State) (n : Nat), s.Up ∧ s.ob O.FLEECE_SIZE ≠ 0 ∧ point.val < 2 ∧ port.val < 1024 ∧ n = bits
      (s.row O.FLEECE_SAMPLE port.val) (16 * point.val) 16 ∧ (s.row O.FLEECE_SAMPLE port.val).testBit 32 = false ∧ n ≠ 0 ∧ n ≤ TMap.get 0
      s.obsv.sample (2 * port.val + point.val) + 1 ∧ s.obsv.want = none ∧ s.obsv.aclHits = [] ∧ TMap.get (0, 0) s.obsv.burst (4 * port.val
      + point.val) = (0, 0) ∧ (TMap.get [] s.obsv.buf (dieOf port.val)).length < 4096 ∧ s.obsv.full = false) ∧
    (∃ (who : Path) (v : BitVec 16) (s : State) (t : State), s.serves who O.FLEECE_CAPTURE = true ∧ t = s.taken who ∧ t.capturePending =
      false ∧ bits v.toNat 0 11 < 1040 ∧ bits v.toNat 11 2 ≠ 3 ∧ (bits v.toNat 0 11 < 1024 ∨ bits v.toNat 11 2 = 1)) ∧
    (∃ (who : Path) (v : BitVec 16) (s : State) (t : State), s.serves who O.FLEECE_CAPTURE = true ∧ t = s.taken who ∧ (t.capturePending =
      true ∨ bits v.toNat 11 2 = 3 ∨ 1040 ≤ bits v.toNat 0 11 ∨ (1024 ≤ bits v.toNat 0 11 ∧ bits v.toNat 11 2 ≠ 1))) ∧
    (∃ (who : Path) (v : BitVec 16) (s : State) (t : State), s.serves who O.FLEECE_CAPTURE = true ∧ t = s.taken who ∧ (t.capturePending =
      true ∨ bits v.toNat 11 2 = 3 ∨ 1040 ≤ bits v.toNat 0 11 ∨ (1024 ≤ bits v.toNat 0 11 ∧ bits v.toNat 11 2 ≠ 1))) ∧
    (∃ (who : Path) (v : BitVec 16) (s : State) (t : State), s.serves who O.FLEECE_CAPTURE = true ∧ t = s.taken who ∧ (t.capturePending =
      true ∨ bits v.toNat 11 2 = 3 ∨ 1040 ≤ bits v.toNat 0 11 ∨ (1024 ≤ bits v.toNat 0 11 ∧ bits v.toNat 11 2 ≠ 1))) :=
  ⟨⟨3, ({ head := List.replicate 128 0 }), [],
     ({ s0.setOb O.FLEECE_SIZE 2 with obsv := { s0.obsv with buf := [(3, [{ head := List.replicate 128 0 }])] } }), by decide +kernel⟩,
   ⟨3, {}, [], ({ s0.setOb O.FLEECE_SIZE 1 with obsv := { s0.obsv with buf := [(3, [{}])] } }), _, by decide +kernel, by decide +kernel,
     by decide +kernel, by decide +kernel, rfl⟩,
   ⟨s0, by decide +kernel⟩,
   ⟨1, 1023, (s0.setOb O.FLEECE_SIZE 1).setRow O.FLEECE_SAMPLE 1023 0x10000, _, by decide +kernel, by decide +kernel, by decide +kernel,
     by decide +kernel, rfl, by decide +kernel⟩,
   ⟨.pfMailbox, 0x13FF, s0, _, by decide +kernel, rfl, by decide +kernel⟩,
   ⟨.pfMailbox, 0x0410, s0, _, by decide +kernel, rfl, by decide +kernel⟩,
   ⟨.pfMailbox, 0x1800, s0, _, by decide +kernel, rfl, by decide +kernel⟩,
   ⟨.pfMailbox, 0, ({ s0 with obsv := { s0.obsv with want := some (0, 0) } }), _, by decide +kernel, rfl, by decide +kernel⟩⟩

theorem test_met_ResetSourcesAndCommands :
    (∃ (s : State), s.crookUp = true) ∧
    (∃ (s : State) (u : State) (v : State), s.anyHot 105 = false ∧ u = s.assertReset .refclkCore 2 5 5 false ∧ v = s.assertReset .auxClk 3
      6 5 false) ∧
    (∃ (samples : BitVec 48) (s : State) (u : State) (v : State) (w : State), s.power.sources = [] ∧ s.anyHot 105 = false ∧ u =
      s.assertReset .aonRail 3 0 0 false ∧ v = { u with power := { u.power with sources := [] } } ∧ w =
      { v with ctl := { v.ctl with crookAt := v.now } }.measureStrap samples.toNat) ∧
    (∃ (src : ResetSource) (l : List ResetSource) (s : State) (u : State), s.crookUp = true ∧ s.power.sources.contains src = true ∧ (src ≠
      .heat ∨ s.anyHot 105 = false) ∧ l = s.power.sources.filter (fun x => x != src) ∧ u =
      { s with power := { s.power with sources := l } }) ∧
    (∃ (who : Path) (ann : Bool) (n : BitVec 32) (s : State) (t : State) (u : State), s.serves who O.RST_CMD = true ∧ t = s.taken who ∧
      t.power.width = 0 ∧ (ann = true → 1 ≤ n.toNat ∧ n.toNat ≤ 1048576) ∧ u = (if ann then (t.announceAbsence n.toNat).count O.RST_COUNT
      7 1 else t)) ∧
    (∃ (who : Path) (ann : Bool) (n : BitVec 32) (s : State) (t : State) (u : State), s.serves who O.RST_CMD = true ∧ t = s.taken who ∧
      t.power.width = 0 ∧ (ann = true → 1 ≤ n.toNat ∧ n.toNat ≤ 1048576) ∧ u = (if ann then (t.announceAbsence n.toNat).count O.RST_COUNT
      7 1 else t)) ∧
    (∃ (who : Path) (n : BitVec 32) (s : State) (t : State), s.serves who O.RST_CMD = true ∧ t = s.taken who ∧ t.power.width = 0 ∧
      (n.toNat = 0 ∨ 1048576 < n.toNat)) ∧
    (∃ (who : Path) (n : BitVec 32) (s : State) (t : State), s.serves who O.RST_CMD = true ∧ t = s.taken who ∧ t.power.width = 0 ∧
      (n.toNat = 0 ∨ 1048576 < n.toNat)) :=
  ⟨⟨s0, by decide +kernel⟩,
   ⟨s0, _, _, by decide +kernel, rfl, rfl⟩,
   ⟨0, s0, _, _, _, by decide +kernel, by decide +kernel, rfl, rfl, rfl⟩,
   ⟨.warmPin, _, ({ s0 with power := { s0.power with sources := [.warmPin], width := 1 } }), _, by decide +kernel, by decide +kernel,
     by decide +kernel, rfl, rfl⟩,
   ⟨.pfMailbox, true, 1048576, s0, _, _, by decide +kernel, rfl, by decide +kernel, by decide +kernel, rfl⟩,
   ⟨.pfMailbox, false, 0, s0, _, _, by decide +kernel, rfl, by decide +kernel, by decide +kernel, rfl⟩,
   ⟨.pfMailbox, 0, s0, _, by decide +kernel, rfl, by decide +kernel⟩,
   ⟨.pfMailbox, 1048577, s0, _, by decide +kernel, rfl, by decide +kernel⟩⟩

theorem test_met_ColdResetReach :
    (∃ (s : State), s.tablesOk = true ∧ s.crookUp = true ∧ s.anyHot 105 = false ∧ s.ob O.PWR_STATE ≠ 4) ∧
    (∃ (rail : Fin 13), (rail.val = 10 ∨ rail.val = 11)) ∧
    (∃ (rail : Fin 13), (rail.val = 10 ∨ rail.val = 11)) ∧
    (∃ (rail : Fin 13) (s : State), rail.val ≠ 10 ∧ rail.val ≠ 11 ∧ s.crookUp = true) ∧
    (∃ (rail : Fin 13) (s : State), rail.val ≠ 10 ∧ rail.val ≠ 11 ∧ s.crookUp = true) :=
  ⟨⟨s0, by decide +kernel⟩,
   ⟨10, by decide +kernel⟩,
   ⟨11, by decide +kernel⟩,
   ⟨12, s0, by decide +kernel⟩,
   ⟨9, s0, by decide +kernel⟩⟩

theorem test_met_PowerCommands :
    (∃ (who : Path) (v : BitVec 8) (s : State) (t : State), s.serves who O.PWR_CMD = true ∧ t = s.taken who ∧ who ≠ .cores ∧
      t.power.target = none ∧ t.power.width = 0 ∧ v.toNat ≤ 4 ∧ v.toNat ≠ t.ob O.PWR_STATE) ∧
    (∃ (who : Path) (s : State) (t : State), s.serves who O.PWR_CMD = true ∧ t = s.taken who ∧ who ≠ .cores ∧ t.power.target.isSome =
      true) ∧
    (∃ (who : Path) (v : BitVec 8) (s : State) (t : State), s.serves who O.PWR_CMD = true ∧ t = s.taken who ∧ who ≠ .cores ∧
      t.power.target = none ∧ t.power.width = 0 ∧ 4 < v.toNat) ∧
    (∃ (late : Bool) (n : Nat) (s : State) (t : State), s.Awake ∧ s.power.target = some n ∧ t = (if late then
      ({ s with power := { s.power with slow := true } }).raise O.RST_ERR 3 8 else s).powerMove n) ∧
    (∃ (s : State), s.tablesOk = true ∧ s.Awake ∧ s.power.target = some 1 ∧ s.power.slow = false ∧ s.ob O.PWR_STATE = 0) ∧
    (∃ (who : Path) (k : BitVec 8) (u : BitVec 16) (F : State → Nat → Host.Outcome State Fault Refusal) (s : State) (t : State), s.serves
      who O.PWR_GATE = true ∧ t = s.taken who ∧ t.power.target = none ∧ t.ob O.PWR_STATE < 3 ∧ t.power.gating = [] ∧ u.toNat < gateUnits
      k.toNat ∧ F = (fun v n => .next ((v.setOb O.PWR_GATE_STATUS n).answered who O.PWR_GATE n))) ∧
    (∃ (who : Path) (k : BitVec 8) (u : BitVec 16) (F : State → Host.Outcome State Fault Refusal) (s : State) (t : State), s.serves who
      O.PWR_GATE = true ∧ t = s.taken who ∧ t.power.target = none ∧ t.ob O.PWR_STATE < 3 ∧ t.power.gating = [] ∧ u.toNat < gateUnits
      k.toNat ∧ F = (fun v => .next ((v.setOb O.PWR_GATE_STATUS 0).answered who O.PWR_GATE 0))) :=
  ⟨⟨.pfMailbox, 4, s0, _, by decide +kernel, rfl, by decide +kernel⟩,
   ⟨.pfMailbox, ({ s0 with power := { s0.power with target := some 3 } }), _, by decide +kernel, rfl, by decide +kernel⟩,
   ⟨.pfMailbox, 5, s0, _, by decide +kernel, rfl, by decide +kernel⟩,
   ⟨true, 1, ({ s0 with power := { s0.power with target := some 1 } }), _, by decide +kernel, by decide +kernel, rfl⟩,
   ⟨({ s0 with power := { s0.power with target := some 1 } }), by decide +kernel⟩,
   ⟨.pfMailbox, 1, 127, _, s0, _, by decide +kernel, rfl, by decide +kernel, by decide +kernel, by decide +kernel, by decide +kernel, rfl⟩,
   ⟨.pfMailbox, 1, 127, _, (s0.gateBlock 127 true), _, by decide +kernel, rfl, by decide +kernel, by decide +kernel, by decide +kernel,
     by decide +kernel, rfl⟩⟩

theorem test_met_TemperaturesRailsAndClocks :
    (∃ (temps : BitVec 256) (rails : BitVec 208) (watts : BitVec 272) (s : State) (u : State) (v : State) (w : State), s.crookUp = true ∧
      u = s.advanceTo s.power.sampleAt ∧ v = { u with power := { u.power with sampleAt := u.now + 100000 } } ∧ w = (List.range 17).foldl
      (fun s i => s.setRow O.PWR_EST_W i (bits watts.toNat (16 * i) 16)) ((List.range 13).foldl (fun s i => s.setRow O.PWR_RAIL_MV i (bits
      rails.toNat (16 * i) 16)) ((List.range 16).foldl (fun s i => s.setRow O.THERM_PADDOCK i (bits temps.toNat (16 * i) 16)) v)) ∧
      w.power.warned = false ∧ w.anyHot (w.ob O.THERM_WARN_C) = false ∧ w.anyHot 115 = false ∧ w.power.tripAt = none) ∧
    (∃ (temps : BitVec 256) (rails : BitVec 208) (watts : BitVec 272) (s : State) (u : State) (v : State) (w : State), s.crookUp = true ∧
      u = s.advanceTo s.power.sampleAt ∧ v = { u with power := { u.power with sampleAt := u.now + 100000 } } ∧ w = (List.range 17).foldl
      (fun s i => s.setRow O.PWR_EST_W i (bits watts.toNat (16 * i) 16)) ((List.range 13).foldl (fun s i => s.setRow O.PWR_RAIL_MV i (bits
      rails.toNat (16 * i) 16)) ((List.range 16).foldl (fun s i => s.setRow O.THERM_PADDOCK i (bits temps.toNat (16 * i) 16)) v)) ∧
      w.warn.power.tripAt = none ∧ w.warn.anyHot 115 = true) ∧
    (∃ (s : State), s.crookUp = true ∧ s.power.thermTrip = false ∧ s.secondDue = true) ∧
    (∃ (st : Fin 16) (c : BitVec 16) (s : State) (u : State) (v : State), u = s.setRow O.THERM_HBM st.val c.toNat ∧ 16 * 95 ≤ c.toInt ∧ v
      = (if u.power.refresh.testBit st.val then u else
      ({ u with power := { u.power with refresh := setBit u.power.refresh st.val } }.count O.ELEC_STAT 2 1))) ∧
    (∃ (c : BitVec 16), c.toInt < 16 * 95) ∧
    (∃ (st : Fin 16) (c : BitVec 16) (s : State) (u : State), u = s.setRow O.THERM_HBM st.val c.toNat ∧ c.toInt < 16 * 92) ∧
    (∃ (c : BitVec 16), 16 * 92 ≤ c.toInt) ∧
    (∃ (p : Fin 16) (s : State) (u : State), s.power.clockLost.testBit p.val = false ∧ u =
      { s with power := { s.power with clockLost := setBit s.power.clockLost p.val } }) ∧
    (∃ (p : Fin 16) (s : State) (u : State), s.power.clockLost.testBit p.val = true ∧ u =
      { s with power := { s.power with clockLost := clearBit s.power.clockLost p.val } }) ∧
    (∃ (s : State), s.crookUp = true) :=
  ⟨⟨0, 0, 0, s0, _, _, _, by decide +kernel, rfl, rfl, rfl, by decide +kernel⟩,
   ⟨1840, 0, 0, s0, _, _, _, by decide +kernel, rfl, rfl, rfl, by decide +kernel⟩,
   ⟨(s0.setRow O.THERM_PADDOCK 15 1920), by decide +kernel⟩,
   ⟨15, 1520, s0, _, _, rfl, by decide +kernel, rfl⟩,
   ⟨1519, by decide +kernel⟩,
   ⟨15, 1471, s0, _, rfl, by decide +kernel⟩,
   ⟨1472, by decide +kernel⟩,
   ⟨15, s0, _, by decide +kernel, rfl⟩,
   ⟨15, ({ s0 with power := { s0.power with clockLost := 0x8000 } }), _, by decide +kernel, rfl⟩,
   ⟨s0, by decide +kernel⟩⟩

theorem test_met_BeatsAreGivenAndCommitted :
    (∃ (k : Nat) (s : State) (u : State) (v : State) (w : State), s.Up ∧ s.drove.holder = .idle ∧ s.drove.gated = false ∧ k = s.nextBeat ∧
      u = s.advanceDev (k * 2048 * devUnit) ∧ v =
      { u with drove := { u.drove with beatAt := k, roll := false, temps := (List.range 16).map (fun p => u.row O.THERM_PADDOCK p) } } ∧ w
      = v.dyingEnd.fencesDue ∧ w.drove.stopping = false ∧ w.drove.switches = [] ∧ w.drove.saves = [] ∧ w.drove.tests = [] ∧
      w.drove.sentinel = none ∧ w.nextOp = none) ∧
    (∃ (k : Nat) (s : State) (u : State) (v : State) (w : State), s.Up ∧ s.drove.holder = .idle ∧ s.drove.gated = false ∧ k = s.nextBeat ∧
      u = s.advanceDev (k * 2048 * devUnit) ∧ v =
      { u with drove := { u.drove with beatAt := k, roll := false, temps := (List.range 16).map (fun p => u.row O.THERM_PADDOCK p) } } ∧ w
      = v.dyingEnd.fencesDue ∧ w.drove.stopping = false ∧ w.drove.switches = [] ∧ w.drove.saves = [] ∧ w.drove.tests = [] ∧
      w.drove.sentinel = none ∧ w.nextOp = some 64) ∧
    (∃ (units : Nat) (c : Nat) (ue : List Nat) (r : State × CtxBeat) (s : State) (t : State) (u : State), s.Up ∧ s.drove.holder = .op c ∧
      t = s.give .idle ∧ u = t.liveTiles.foldl (fun (s : State) x => s.histCount x (t.octx c).names.1 4) t ∧ u.drove.roll = false ∧
      (u.octx c).runnable = true ∧ r = u.runBeat c units ue ∧ r.2.bad = none) ∧
    (∃ (c : Nat) (s : State) (t : State) (u : State), s.Up ∧ s.drove.holder = .op c ∧ t = s.give .idle ∧ u = t.liveTiles.foldl (fun (s :
      State) x => s.histCount x (t.octx c).names.1 4) t ∧ u.drove.roll = true) ∧
    (∃ (c : Nat) (events : List TileEvent) (l : List (Nat × Bool × Nat)) (bad : List AccError) (s : State) (t : State), s.Up ∧
      s.drove.holder = .save c ∧ t = ((s.give .idle).moveEvents (s.octx c).names events).lostWords (bad.filter (fun e => e.ctx.val == c))
      ∧ t.drove.saves = (c, false, 1) :: l ∧ (∀ st, st < 16 → t.stackShut st = false)) ∧
    (∃ (x : Nat) (s : State), s.Up ∧ s.drove.holder = .test x false) ∧
    (∃ (half : Fin 2) (w : OutWrite) (s : State) (u : State), s.Up ∧ TMap.get [] s.drove.halves half.val = [w] ∧ u =
      { s with drove := { s.drove with halves := TMap.erase s.drove.halves half.val } }) ∧
    (∃ (s : State) (u : State) (b : Nat), s.Up ∧ s.ob O.DROVE_SENTINEL_TICKS ≠ 0 ∧ b = max s.bell (min s.drove.sentBell s.bell + s.ob
      O.DROVE_SENTINEL_TICKS) ∧ u = s.advanceDev (s.bellStart b * devUnit)) :=
  ⟨⟨_, s0, _, _, _, by decide +kernel, by decide +kernel, by decide +kernel, rfl, rfl, rfl, rfl, by decide +kernel⟩,
   ⟨_, (sOp .idle), _, _, _, by decide +kernel, by decide +kernel, by decide +kernel, rfl, rfl, rfl, rfl, by decide +kernel⟩,
   ⟨4, 64, [], _, (sOp (.op 64)), _, _, by decide +kernel, by decide +kernel, rfl, rfl, by decide +kernel, by decide +kernel, rfl,
     by decide +kernel⟩,
   ⟨64, ({ sOp (.op 64) with drove := { (sOp (.op 64)).drove with roll := true } }), _, _, by decide +kernel, by decide +kernel, rfl, rfl,
     by decide +kernel⟩,
   ⟨64, [], [], [], ({ sOp (.save 64) with drove := { (sOp (.save 64)).drove with saves := [(64, false, 1)] } }), _, by decide +kernel,
     by decide +kernel, rfl, by decide +kernel⟩,
   ⟨143, (sOp (.test 143 false)), by decide +kernel⟩,
   ⟨1, (⟨64, 0, 0, none, []⟩), ({ s0 with drove := { s0.drove with halves := [(1, [⟨64, 0, 0, none, []⟩])] } }), _, by decide +kernel,
     by decide +kernel, rfl⟩,
   ⟨s0, _, _, by decide +kernel, by decide +kernel, rfl, rfl⟩⟩

theorem test_met_DroveTileCommands :
    (∃ (who : Path) (x : BitVec 8) (hit : Bool) (s : State) (t : State), s.serves who O.DROVE_TILE_CMD = true ∧ t = s.taken who ∧ x.toNat
      < 144 ∧ (hit = true ↔ (∃ c, t.drove.holder = .op c) ∧ t.liveTiles.contains x.toNat = true)) ∧
    (∃ (who : Path) (x : BitVec 8) (hit : Bool) (s : State) (t : State), s.serves who O.DROVE_TILE_CMD = true ∧ t = s.taken who ∧ x.toNat
      < 144 ∧ (hit = true ↔ (∃ c, t.drove.holder = .op c) ∧ t.liveTiles.contains x.toNat = true)) ∧
    (∃ (who : Path) (x : BitVec 8) (s : State) (t : State), s.serves who O.DROVE_TILE_CMD = true ∧ t = s.taken who ∧ x.toNat < 144) ∧
    (∃ (who : Path) (x : BitVec 8) (y : Nat × Nat) (s : State) (t : State) (u : State), s.serves who O.DROVE_TILE_CMD = true ∧ t = s.taken
      who ∧ x.toNat < 144 ∧ t.drove.awaiting.find? (fun y => y.1 == x.toNat) = some y ∧ u = t.setSlots (t.slots.map (fun y => if y = 256 +
      x.toNat then x.toNat else y))) ∧
    (∃ (who : Path) (x : BitVec 8) (s : State) (t : State), s.serves who O.DROVE_TILE_CMD = true ∧ t = s.taken who ∧ 144 ≤ x.toNat) ∧
    (∃ (who : Path) (s : State) (t : State), s.serves who O.DROVE_TEMP_BINS = true ∧ t = s.taken who) ∧
    (∃ (who : Path) (s : State) (t : State), s.serves who O.TALLY_HIST_CLEAR = true ∧ t = s.taken who) :=
  ⟨⟨.pfMailbox, 127, true, (sOp (.op 64)), _, by decide +kernel, rfl, by decide +kernel, ⟨fun _ => ⟨⟨64, rfl⟩, by decide +kernel⟩, fun _
     => rfl⟩⟩,
   ⟨.pfMailbox, 143, false, s0, _, by decide +kernel, rfl, by decide +kernel, ⟨fun h => (nomatch h), fun h => absurd h.2
     (by decide +kernel)⟩⟩,
   ⟨.pfMailbox, 143, s0, _, by decide +kernel, rfl, by decide +kernel⟩,
   ⟨.pfMailbox, 143, (143, 7), ({ s0 with drove := { s0.drove with awaiting := [(143, 7)] } }), _, _, by decide +kernel, rfl,
     by decide +kernel, by decide +kernel, rfl⟩,
   ⟨.pfMailbox, 144, s0, _, by decide +kernel, rfl, by decide +kernel⟩,
   ⟨.pfMailbox, s0, _, by decide +kernel, rfl⟩,
   ⟨.pfMailbox, s0, _, by decide +kernel, rfl⟩⟩

theorem test_met_RingCommands :
    (∃ (who : RingWriter) (dma : Bool) (r : Fin 64) (x : Ring) (s : State) (u : State), s.Up ∧ u = (if r.val < 48 then s.tally 0x0E00
      (r.val + if dma then 48 else 0) else s) ∧ u.ringReach dma r.val who = true ∧ x = u.ring dma r.val) ∧
    (∃ (f : Fin 33) (dma : Bool) (r : Fin 64) (s : State), s.Up ∧ s.ringReach dma r.val (.page f) = false) ∧
    (∃ (who : RingWriter) (dma : Bool) (r : Fin 64) (x : Ring) (s : State), s.Up ∧ s.ringReach dma r.val who = true ∧ x = s.ring dma
      r.val) ∧
    (∃ (dma : Bool) (r : Fin 64) (n : Nat) (l : List Byte) (x : Ring) (s : State), s.Up ∧ s.mayFetch dma r.val = true ∧ x = s.ring dma
      r.val ∧ (s.ringInHost dma r.val x.sqBase = true → s.pcie.perst = false) ∧ n = (if dma then 64 else 128) ∧ l = (if s.ringInHost dma
      r.val x.sqBase then s.hostRead (ringAddr x.sqBase + n * x.sqHead) n else s.hbmRead (ringAddr x.sqBase + n * x.sqHead) n)) ∧
    (∃ (dma : Bool) (r : Fin 64) (n : Nat) (l : List Byte) (x : Ring) (s : State), s.Up ∧ s.mayFetch dma r.val = true ∧ x = s.ring dma
      r.val ∧ (s.ringInHost dma r.val x.sqBase = true → s.pcie.perst = false) ∧ n = (if dma then 64 else 128) ∧ l = (if s.ringInHost dma
      r.val x.sqBase then s.hostRead (ringAddr x.sqBase + n * x.sqHead) n else s.hbmRead (ringAddr x.sqBase + n * x.sqHead) n)) ∧
    (∃ (r : Fin 64) (f : HostFault) (x : Ring) (s : State) (u : State) (v : State), s.Up ∧ s.mayFetch false r.val = true ∧ x = s.ring
      false r.val ∧ s.ringInHost false r.val x.sqBase = true ∧ u = ((s.hostFault f).setRing false r.val
      { x with sqHead := (x.sqHead + 1) % ringSize x.sqCfg, busy := x.busy + 1 }) ∧ v = u.draw.draw.putRecord false r.val
      ((Config.freeWord u.free).toNat + f.status <<< 64 + ((Config.freeWord (u.free + 1)).toNat % 256) <<< 72 + r.val <<< 168) false) ∧
    (∃ (who : Path) (r : Fin 64) (x : Ring) (s : State) (t : State), s.serves who O.DMA_RING_CMD = true ∧ t = s.taken who ∧ x = t.ring
      true r.val) :=
  ⟨⟨.cores, true, 63, _, s0, _, by decide +kernel, rfl, by decide +kernel, rfl⟩,
   ⟨32, true, 63, s0, by decide +kernel⟩,
   ⟨.cores, true, 63, _, s0, by decide +kernel, by decide +kernel, rfl⟩,
   ⟨true, 63, _, _, _, (sRing true 63 0), by decide +kernel, by decide +kernel, rfl, by decide +kernel, rfl, rfl⟩,
   ⟨false, 47, _, _, _, (sRing false 47 1), by decide +kernel, by decide +kernel, rfl, by decide +kernel, rfl, rfl⟩,
   ⟨47, .timeout, _, (sRing false 47 1), _, _, by decide +kernel, by decide +kernel, rfl, by decide +kernel, rfl, rfl⟩,
   ⟨.pfMailbox, 63, _, s0, _, by decide +kernel, rfl, rfl⟩⟩

theorem test_met_OperationLifecycle :
    (∃ (r : Fin 64) (d : Nat) (rest : List Nat) (x : Ring) (o : Op) (s : State), s.Up ∧ s.drove.gated = false ∧ x = s.ring false r.val ∧
      x.fetched = d :: rest ∧ s.stillborn (s.ringOp r.val d) (s.ringOwner false r.val) = some o) ∧
    (∃ (r : Fin 64) (d : Nat) (c : Nat) (rest : List Nat) (x : Ring) (ops : List Op) (s : State), s.Up ∧ s.drove.gated = false ∧ x =
      s.ring false r.val ∧ x.fetched = d :: rest ∧ s.stillborn (s.ringOp r.val d) (s.ringOwner false r.val) = none ∧ dRemote d = false ∧
      ops = s.group (s.ringOwner false r.val) ((x.fetched.map (s.ringOp r.val)).takeWhile (fun o => !dRemote o.desc)) ∧ s.freeContext =
      some c ∧ s.fits ops = true) ∧
    (∃ (c : Fin 256) (s : State), s.Up ∧ (s.octx c.val).isOver = true ∧ s.outputsWait c.val = false) ∧
    (∃ (who : Path) (c : Fin 256) (s : State) (t : State), s.serves who O.DROVE_SUSP_CMD = true ∧ t = s.taken who ∧ (t.row O.DROVE_SUSP
      c.val).testBit 88 = true) ∧
    (∃ (who : Path) (c : Fin 256) (s : State) (t : State), s.serves who O.DROVE_SUSP_CMD = true ∧ t = s.taken who ∧ (t.row O.DROVE_SUSP
      c.val).testBit 88 = false) ∧
    (∃ (who : Path) (r : BitVec 1536) (n : Nat) (s : State) (t : State), s.serves who O.COLL_COMM_OP = true ∧ t = s.taken who ∧ t.pFeature
      (cmPasture r.toNat) (if r.toNat.testBit 39 then 1 else 0) = true ∧ n = setBits (setBits (setBits (setBits r.toNat 81 15 0) 112 16 0)
      320 192 0) 44 4 0 % 2 ^ 512 + ((List.range (cmM r.toNat)).foldl (fun a j => a + cmPort r.toNat j <<< (16 * j)) 0) <<< 512 ∧
      t.commFails r.toNat = none) ∧
    (∃ (who : Path) (r : BitVec 1536) (n : Nat) (s : State) (t : State), s.serves who O.COLL_COMM_OP = true ∧ t = s.taken who ∧ t.pFeature
      (cmPasture r.toNat) (if r.toNat.testBit 39 then 1 else 0) = true ∧ n = setBits (setBits (setBits (setBits r.toNat 81 15 0) 112 16 0)
      320 192 0) 44 4 0 % 2 ^ 512 + ((List.range (cmM r.toNat)).foldl (fun a j => a + cmPort r.toNat j <<< (16 * j)) 0) <<< 512 ∧
      t.commFails r.toNat = some 1) ∧
    (∃ (who : Path) (id : BitVec 16) (s : State) (t : State), s.serves who O.COLL_COMM_OP = true ∧ t = s.taken who ∧ t.commRow id.toNat =
      none) :=
  ⟨⟨63, 0, [], _, ({ desc := 0, source := 63, origin := .ring 63, ended := some 9, aux := 1 }), (s0.setRing false 63 { fetched := [0] }),
     by decide +kernel, by decide +kernel, rfl, by decide +kernel⟩,
   ⟨63, dMove, 64, [], _, _, (s0.setRing false 63 { fetched := [dMove] }), by decide +kernel, by decide +kernel, rfl, by decide +kernel,
     by decide +kernel, by decide +kernel, rfl, by decide +kernel⟩,
   ⟨255, ({ s0 with drove := { s0.drove with ctxs := [(255, { ctxMove with ops := [{ desc := dMove, ended := some 4 }] })] } }),
     by decide +kernel⟩,
   ⟨.pfMailbox, 255, (s0.setRow O.DROVE_SUSP 255 (1 <<< 88)), _, by decide +kernel, rfl, by decide +kernel⟩,
   ⟨.pfMailbox, 255, s0, _, by decide +kernel, rfl, by decide +kernel⟩,
   ⟨.pfMailbox, (BitVec.ofNat 1536 commRec), _, sMember, _, by decide +kernel, rfl, by decide +kernel, rfl, by decide +kernel⟩,
   ⟨.pfMailbox, 0, _, sMember, _, by decide +kernel, rfl, by decide +kernel, rfl, by decide +kernel⟩,
   ⟨.pfMailbox, 5, s0, _, by decide +kernel, rfl, by decide +kernel⟩⟩

theorem test_met_RemoteOperations :
    (∃ (p : Fin 16) (bytes : List Byte) (h : Nat) (o : Op) (s : State), s.Up ∧ h = beAt bytes 0 32 ∧ o =
      { desc := leNum ((bytes.drop 32).take 128), source := 0xFE, pasture := hPasture h, payload := pclean ((bytes.drop 32).drop 128), origin := .remote (hSrcDev h) (hSrcPort h) p.val (hPasture h) }
      ∧ hOp h ≠ 0x30) ∧
    (∃ (p : Fin 16) (bytes : List Byte) (h : Nat) (o : Op) (s : State), s.Up ∧ h = beAt bytes 0 32 ∧ o =
      { desc := leNum ((bytes.drop 32).take 128), source := 0xFE, pasture := hPasture h, payload := pclean ((bytes.drop 32).drop 128), origin := .remote (hSrcDev h) (hSrcPort h) p.val (hPasture h) }
      ∧ hOp h = 0x30 ∧ s.pFeature (hPasture h) 13 = false) ∧
    (∃ (p : Fin 16) (bytes : List Byte) (h : Nat) (o : Op) (s : State), s.Up ∧ h = beAt bytes 0 32 ∧ o =
      { desc := leNum ((bytes.drop 32).take 128), source := 0xFE, pasture := hPasture h, payload := pclean ((bytes.drop 32).drop 128), origin := .remote (hSrcDev h) (hSrcPort h) p.val (hPasture h) }
      ∧ hOp h = 0x30 ∧ s.pFeature (hPasture h) 13 = true ∧ s.drove.gated = false ∧ s.deviceFenced = false) ∧
    (∃ (p : Fin 16) (bytes : List Byte) (r : Nat) (s : State), s.Up ∧ r = leNum ((bytes.drop 32).take 32) ∧ s.drove.waits.find? (fun w =>
      w.dev == hSrcDev (beAt bytes 0 32) && w.ring % 16 == p.val && dTag w.desc == bits r 0 64 && dOpcode w.desc == bits r 72 8) = none) ∧
    (∃ (p : Fin 16) (bytes : List Byte) (r : Nat) (w : RemoteWait) (s : State) (u : State), s.Up ∧ r = leNum ((bytes.drop 32).take 32) ∧
      s.drove.waits.find? (fun w => w.dev == hSrcDev (beAt bytes 0 32) && w.ring % 16 == p.val && dTag w.desc == bits r 0 64 && dOpcode
      w.desc == bits r 72 8) = some w ∧ u = s.waitOver w ∧ bytes.drop 64 = []) ∧
    (∃ (n : Nat) (w : RemoteWait) (o : Op) (s : State) (u : State), s.Up ∧ s.drove.waits[n]? = some w ∧ u = ((s.advanceTo
      w.deadline).waitOver w).raise O.DROVE_OP_ERR 5 8 ∧ o = { desc := w.desc, source := w.ring, ended := some 8, opflags := 64 }) ∧
    (∃ (p : Fin 16) (k : Fin 1024) (x : Slot) (r : Nat) (j : DmaJob) (s : State) (u : State), s.Up ∧ x = TMap.get ({} : Slot)
      s.common.slots (1024 * p.val + k.val) ∧ x.holder = some r ∧ (TMap.get ({} : Slot) (s.advanceTo x.deadline).common.slots (1024 *
      p.val + k.val)).holder = some r ∧ u = ((s.advanceTo x.deadline).slotFreed (1024 * p.val + k.val)).raise O.COMMON_ERR 5 8 ∧ j = u.job
      r) ∧
    (∃ (p : Fin 16) (k : Fin 1024) (s : State), (TMap.get ({} : Slot) s.common.slots (1024 * p.val + k.val)).holder = none) :=
  ⟨⟨15, [], _, _, s0, by decide +kernel, rfl, rfl, by decide +kernel⟩,
   ⟨15, (beBytes 32 (0x30 <<< 224)), _, _, s0, by decide +kernel, rfl, rfl, by decide +kernel⟩,
   ⟨15, (beBytes 32 (0x30 <<< 224)), _, _, sMember, by decide +kernel, rfl, rfl, by decide +kernel⟩,
   ⟨15, [], _, s0, by decide +kernel, rfl, by decide +kernel⟩,
   ⟨15, (List.replicate 64 0), _, (⟨15, 0, 0, 9⟩), ({ s0 with drove := { s0.drove with waits := [⟨15, 0, 0, 9⟩] } }), _,
     by decide +kernel, rfl, by decide +kernel, rfl, by decide +kernel⟩,
   ⟨0, (⟨15, 0, 0, 9⟩), _, ({ s0 with drove := { s0.drove with waits := [⟨15, 0, 0, 9⟩] } }), _, by decide +kernel, by decide +kernel,
     rfl, rfl⟩,
   ⟨15, 1023, _, 63, _, ({ s0 with common := { s0.common with slots := [(16383, { holder := some 63, deadline := 9 })] } }), _,
     by decide +kernel, rfl, by decide +kernel, by decide +kernel, rfl, rfl⟩,
   ⟨15, 1023, s0, by decide +kernel⟩⟩

theorem test_met_CollectiveControl :
    (∃ (bytes : List Byte) (row : Nat) (j : Nat) (h : Nat) (post : Nat) (r : Nat) (s : State) (u : State), s.Up ∧ h = collOf bytes ∧ post
      = beAt bytes 64 16 ∧ s.collRow bytes = some row ∧ r = s.comm row ∧ s.collMember row bytes = some j ∧ postOk post = true ∧ ((fmtMx
      (pInFmt post) || hasUp (pKind post) && fmtMx (pOutFmt post)) = true → s.pFeature (cmPasture r) 2 = true) ∧ (∀ x ∈ s.coll.posts, ¬
      (x.comm = cmId r ∧ x.seq = chSeq h ∧ x.member = j)) ∧ u =
      { s with coll := { s.coll with posts := s.coll.posts ++ [({ comm := cmId r, seq := chSeq h, member := j, post := post } : PostRec)] } }
      ∧ u.findInst (cmId r) (chSeq h) = none) ∧
    (∃ (bytes : List Byte) (row : Nat) (j : Nat) (h : Nat) (post : Nat) (r : Nat) (s : State) (u : State), s.Up ∧ h = collOf bytes ∧ post
      = beAt bytes 64 16 ∧ s.collRow bytes = some row ∧ r = s.comm row ∧ s.collMember row bytes = some j ∧ postOk post = true ∧ ((fmtMx
      (pInFmt post) || hasUp (pKind post) && fmtMx (pOutFmt post)) = true → s.pFeature (cmPasture r) 2 = true) ∧ (∀ x ∈ s.coll.posts, ¬
      (x.comm = cmId r ∧ x.seq = chSeq h ∧ x.member = j)) ∧ u =
      { s with coll := { s.coll with posts := s.coll.posts ++ [({ comm := cmId r, seq := chSeq h, member := j, post := post } : PostRec)] } }
      ∧ u.findInst (cmId r) (chSeq h) = some 1) ∧
    (∃ (bytes : List Byte) (row : Nat) (h : Nat) (r : Nat) (s : State), s.Up ∧ h = collOf bytes ∧ s.collRow bytes = some row ∧ r = s.comm
      row ∧ s.leadOf r = s.own ∧ s.coll.leads.any (fun e => e.comm == cmId r && e.seq == chSeq h) = false ∧ s.coll.ended.contains (cmId r,
      chSeq h) = false) ∧
    (∃ (bytes : List Byte) (row : Nat) (h : Nat) (r : Nat) (s : State) (u : State), s.Up ∧ h = collOf bytes ∧ s.collRow bytes = some row ∧
      r = s.comm row ∧ u = s.collSpread r 0x58 (chStage h) 0 (cmId r % 16) (cmId r % 16) (fun st => setBits h 173 3 st) ((bytes.drop
      64).map (fun b => (b, false)))) ∧
    (∃ (bytes : List Byte) (row : Nat) (h : Nat) (v : Nat) (r : Nat) (s : State) (u : State), s.Up ∧ h = collOf bytes ∧ s.collRow bytes =
      some row ∧ r = s.comm row ∧ u = s.collSpread r 0x5A (chStage h) 0 (cmId r % 16) (cmId r % 16) (fun st => setBits h 173 3 st)
      ((bytes.drop 64).map (fun b => (b, false))) ∧ v = beAt bytes 64 2) ∧
    (∃ (bytes : List Byte) (c : Instr) (s : State), s.Up ∧ s.collRow bytes = none ∧ c ∈ [.collPostReceive bytes, .collPostFwdReceive
      bytes, .collNoteReceive bytes, .collStartReceive bytes, .collAbortReceive bytes, .collInReceive bytes, .collStepReceive bytes,
      .collResultReceive bytes]) :=
  ⟨⟨(collFrame 0 1 0 0), 4095, 0, _, _, _, sComm, _, by decide +kernel, rfl, rfl, by decide +kernel, rfl, by decide +kernel,
     by decide +kernel, by decide +kernel, by decide +kernel, rfl, by decide +kernel⟩,
   ⟨(collFrame 0 1 0 0), 4095, 0, _, _, _, sInst, _, by decide +kernel, rfl, rfl, by decide +kernel, rfl, by decide +kernel,
     by decide +kernel, by decide +kernel, by decide +kernel, rfl, by decide +kernel⟩,
   ⟨(collFrame 0 1 0 0), 4095, _, _, sComm, by decide +kernel, rfl, by decide +kernel, rfl, by decide +kernel⟩,
   ⟨(collFrame 0 1 0 0), 4095, _, _, sComm, _, by decide +kernel, rfl, by decide +kernel, rfl, rfl⟩,
   ⟨(collFrame 0 1 0 0), 4095, _, _, _, sComm, _, by decide +kernel, rfl, by decide +kernel, rfl, rfl, rfl⟩,
   ⟨(collFrame 0 1 0 0), (.collNoteReceive (collFrame 0 1 0 0)), s0, by decide +kernel, by decide +kernel, by simp⟩⟩

theorem test_met_CollectiveData :
    (∃ (bytes : List Byte) (row : Nat) (id : Nat) (j : Nat) (h : Nat) (k : Nat) (c : CInst) (e : CInst) (g : Seg) (t : Nat × Seg) (x :
      CChunk) (ins : List (Nat × Seg)) (mine : List Seg) (short : Bool) (s : State) (u : State), s.Up ∧ s.collFor bytes = .ok (row, id) ∧
      c = s.inst id ∧ s.collMember row bytes = some j ∧ (s.senders c).contains j = true ∧ g = segOf bytes ∧ h = collOf bytes ∧ k = s.inKey
      c j (chChunk h) ∧ t = g.trim c.inFmt (s.chunkSpan c k).2 ∧ x = c.chunk k ∧ ins = x.ins ++ [(j, t.2)] ∧ mine = (ins.filter (fun y =>
      y.1 == j)).map (·.2) ∧ short = (segsDone mine && decide ((mine.map (·.cnt)).sum < (s.chunkSpan c k).2)) ∧ e =
      { c.setChunk k { x with ins := ins, rflags := x.rflags ||| g.rflags } with overflow := c.overflow + t.1, padded := if short then c.padded.add j else c.padded }
      ∧ u = (if t.1 = 0 then s.setInst id e else (s.setInst id e).count O.COLL_STAT 6 t.1)) ∧
    (∃ (bytes : List Byte) (row : Nat) (id : Nat) (h : Nat) (c : CInst) (g : Seg) (x : CChunk) (s : State), s.Up ∧ s.collFor bytes = .ok
      (row, id) ∧ c = s.inst id ∧ g = segOf bytes ∧ h = collOf bytes ∧ g.clean.residue (cmStepFmt (s.comm row)) 0 = chCheck h ∧ x =
      c.chunk (chChunk h)) ∧
    (∃ (bytes : List Byte) (row : Nat) (id : Nat) (h : Nat) (c : CInst) (g : Seg) (x : CChunk) (y : CChunk) (s : State), s.Up ∧ s.collFor
      bytes = .ok (row, id) ∧ c = s.inst id ∧ g = segOf bytes ∧ h = collOf bytes ∧ x = c.chunk (chChunk h) ∧ y =
      { x with runs := x.runs ++ [(chStage h, g)], rflags := x.rflags ||| g.rflags } ∧ g.crc = chCheck h) ∧
    (∃ (bytes : List Byte) (row : Nat) (id : Nat) (h : Nat) (c : CInst) (g : Seg) (x : CChunk) (y : CChunk) (s : State), s.Up ∧ s.collFor
      bytes = .ok (row, id) ∧ c = s.inst id ∧ g = segOf bytes ∧ h = collOf bytes ∧ x = c.chunk (chChunk h) ∧ y =
      { x with runs := x.runs ++ [(chStage h, g)], rflags := x.rflags ||| g.rflags } ∧ g.crc ≠ chCheck h) :=
  ⟨⟨(collFrame 0 2 0 0), 4095, 1, 0, _, _, _, _, _, _, _, _, _, _, sInst, _, by decide +kernel, ok_of (by decide +kernel), rfl,
     by decide +kernel, by decide +kernel, rfl, rfl, rfl, rfl, rfl, rfl, rfl, rfl, rfl, rfl⟩,
   ⟨(collFrame 0 1 3 0), 4095, 1, _, _, _, _, sInst, by decide +kernel, ok_of (by decide +kernel), rfl, rfl, rfl, by decide +kernel, rfl⟩,
   ⟨(collFrame 0 2 6 (crc32c (List.replicate 16 0))), 4095, 1, _, _, _, _, _, sInst, by decide +kernel, ok_of (by decide +kernel), rfl,
     rfl, rfl, rfl, rfl, by decide +kernel⟩,
   ⟨(collFrame 0 1 6 1), 4095, 1, _, _, _, _, _, sInst, by decide +kernel, ok_of (by decide +kernel), rfl, rfl, rfl, rfl, rfl,
     by decide +kernel⟩⟩

theorem test_met_CommonRequests :
    (∃ (p : Fin 16) (bytes : List Byte) (id : Nat) (r : CReq) (q : CReq) (s : State) (w : State) (u : State) (v : State), s.Up ∧ r =
      parseReq p.val bytes ∧ q = { r with unit := if r.op = 0x15 then p.val else homeOf r.off } ∧ w = (s.count O.COMMON_STAT 0 1).tally
      0x0A00 q.unit ∧ u = (if q.unit = p.val then w else w.count O.COMMON_STAT 3 1) ∧ id = u.common.nextReq ∧ v =
      ({ u with common := { u.common with nextReq := id + 1 } }).setCreq id q ∧ v.creq id = q) ∧
    (∃ (unit : Fin 16) (w : Nat × Nat) (off : Nat) (p : Nat) (m : Bool) (g : Nat × CReq → Nat × Nat) (l : List (Nat × CReq)) (s : State)
      (u : State) (v : State), s.Up ∧ s.common.walks.find? (fun w => w.1 == unit.val) = some w ∧ off = bits w.2 0 22 * 2 ^ 21 ∧ p = bits
      w.2 22 12 ∧ m = w.2.testBit 34 ∧ u = { s with common := { s.common with walks := s.common.walks.erase w } } ∧ g = (fun x =>
      (unit.val, tlbTag x.2.mirror x.2.pasture x.2.off false)) ∧ l = (u.unitReqs unit.val (fun x => x == .walk)).filter (fun x => (g x).2
      == w.2) ∧ (∀ y, u.walk m p off = .ok y → v = l.foldl (fun s x => s.checkReq x.1) (u.tlbUse unit.val m p off y.entry y.giant)) ∧ (∀
      f, u.walk m p off = .error f → v = l.foldl (fun s x => s.failReq x.1 f 0 x.2.off) u)) ∧
    (∃ (unit : Fin 16) (nth : Fin 4096) (ue : Bool) (bad : Bool) (id : Nat) (q : CReq) (q0 : CReq) (s : State), s.Up ∧ (s.unitReqs
      unit.val (fun x => x == .access))[nth.val]? = some (id, q0) ∧ q = s.creq id ∧ (q.op = 0x10 ∨ q.op = 0x18) ∧ bad = (ue ||
      s.hbmPoisoned q.hpa q.count)) ∧
    (∃ (unit : Fin 16) (nth : Fin 4096) (ue : Bool) (bad : Bool) (id : Nat) (q : CReq) (q0 : CReq) (s : State), s.Up ∧ (s.unitReqs
      unit.val (fun x => x == .access))[nth.val]? = some (id, q0) ∧ q = s.creq id ∧ (q.op = 0x10 ∨ q.op = 0x18) ∧ bad = (ue ||
      s.hbmPoisoned q.hpa q.count)) ∧
    (∃ (unit : Fin 16) (nth : Fin 4096) (id : Nat) (q : CReq) (q0 : CReq) (s : State) (u : State), s.Up ∧ (s.unitReqs unit.val (fun x => x
      == .access))[nth.val]? = some (id, q0) ∧ q = s.creq id ∧ q.op ≠ 0x10 ∧ q.op ≠ 0x18 ∧ u = s.hbmWrite q.hpa (q.payload.take q.count) ∧
      (q.op = 0x11 → u.mirrorDue q.pasture (setBits q.leaf 8 1 (b2n (pteLost (u.leafEntry q.pasture q.off)))) = 0)) ∧
    (∃ (unit : Fin 16) (nth : Fin 4096) (id : Nat) (q : CReq) (q0 : CReq) (s : State) (u : State), s.Up ∧ (s.unitReqs unit.val (fun x => x
      == .access))[nth.val]? = some (id, q0) ∧ q = s.creq id ∧ q.op ≠ 0x10 ∧ q.op ≠ 0x18 ∧ u = s.hbmWrite q.hpa (q.payload.take q.count) ∧
      (q.op = 0x11 → u.mirrorDue q.pasture (setBits q.leaf 8 1 (b2n (pteLost (u.leafEntry q.pasture q.off)))) = 0)) :=
  ⟨⟨15, (List.replicate 32 0 : List Byte) ++ beBytes 32 ((15 <<< 21) <<< 192), _, _, _, sPlaced, _, _, _, by decide +kernel, rfl, rfl,
     rfl, rfl, rfl, rfl, by decide +kernel⟩,
   ⟨15, (15, 0), _, _, _, _, _, ({ s0 with common := { s0.common with walks := [(15, 0)] } }), _,
     ({ s0 with common := { s0.common with walks := [] } }), by decide +kernel, by decide +kernel, rfl, rfl, rfl, rfl, rfl, rfl, fun _ h
     => absurd h (not_ok (by decide +kernel)), fun _ _ => rfl⟩,
   ⟨15, 0, false, _, 1, _, ({ unit := 15, stage := .access, op := 0x10, count := 4 }), (sReq
     { unit := 15, stage := .access, op := 0x10, count := 4 }), by decide +kernel, by decide +kernel, rfl, by decide +kernel, rfl⟩,
   ⟨15, 0, true, _, 1, _, ({ unit := 15, stage := .access, op := 0x18, count := 4 }), (sReq
     { unit := 15, stage := .access, op := 0x18, count := 4 }), by decide +kernel, by decide +kernel, rfl, by decide +kernel, rfl⟩,
   ⟨15, 0, 1, _, ({ unit := 15, stage := .access, op := 0x12, count := 1, payload := [7] }), (sReq
     { unit := 15, stage := .access, op := 0x12, count := 1, payload := [7] }), _, by decide +kernel, by decide +kernel, rfl,
     by decide +kernel, by decide +kernel, rfl, by decide +kernel⟩,
   ⟨15, 0, 1, _, ({ unit := 15, stage := .access, op := 0x11, count := 1, payload := [7] }), (sReq
     { unit := 15, stage := .access, op := 0x11, count := 1, payload := [7] }), _, by decide +kernel, by decide +kernel, rfl,
     by decide +kernel, by decide +kernel, rfl, by decide +kernel⟩⟩

theorem test_met_CommonCommands :
    (∃ (who : Path) (data : List Byte) (v : Inval) (w : Inval) (s : State) (t : State) (u : State), s.serves who O.COMMON_INVAL = true ∧ t
      = s.taken who ∧ data.length = 24 ∧ t.common.invals.length < 16 ∧ v = parseInval data ∧ w =
      { v with at_ := t.now, beat := t.drove.beatAt, reqs := (t.common.reqs.filter (fun x => (x.2.stage.inFlight || x.2.stage == .blocked) && x.2.parts.any (fun y => t.invalHits v x.2.mirror x.2.pasture y.1))).map (·.1), mirrs := (t.common.mirrors.filter (fun m => t.invalHits v false m.2.pasture m.2.offset)).map (·.1) }
      ∧ u = t.tlbDrop w) ∧
    (∃ (who : Path) (data : List Byte) (s : State), s.serves who O.COMMON_INVAL = true ∧ data.length ≠ 24) ∧
    (∃ (who : Path) (data : List Byte) (s : State), s.serves who O.COMMON_INVAL = true ∧ data.length ≠ 24) ∧
    (∃ (v : Inval) (rest : List Inval) (s : State) (t : State) (u : State), s.Up ∧ s.common.invals = v :: rest ∧ t = (if s.now ≤ v.at_ +
      100000 then s else s.raise O.COMMON_ERR 8) ∧ t.invalReady v = true ∧ u = { t with common := { t.common with invals := rest } }) ∧
    (∃ (id : Nat) (q : CReq) (s : State) (u : State), s.Up ∧ q = s.creq id ∧ q.stage = .held ∧ u = (s.advanceTo (q.since.getD s.now + 1000
      * s.ob O.COMMON_HOLD_US)).count O.COMMON_STAT 5 1) ∧
    (∃ (r : Fin 64) (j : DmaJob) (at_ : Nat) (s : State), s.Up ∧ j = s.job r.val ∧ j.held = some at_) ∧
    (∃ (who : Path) (s : State) (t : State), s.serves who O.COMMON_RESYNC = true ∧ t = s.taken who) ∧
    (∃ (s : State), s.Up) ∧
    (∃ (bytes : List Byte) (s : State), s.Up ∧ s.common.mirrors.find? (fun m => m.1 == bits (beAt bytes 32 32) 224 32) = none) ∧
    (∃ (id : Nat) (m : Mirror) (s : State), s.Up ∧ s.common.mirrors.find? (fun m => m.1 == id) = some (id, m)) :=
  ⟨⟨.pfMailbox, (List.replicate 24 0), _, _, s0, _, _, by decide +kernel, rfl, by decide +kernel, by decide +kernel, rfl, rfl, rfl⟩,
   ⟨.pfMailbox, (List.replicate 25 0), s0, by decide +kernel⟩,
   ⟨.pfMailbox, (List.replicate 23 0), s0, by decide +kernel⟩,
   ⟨{}, [], ({ s0 with common := { s0.common with invals := [{}] } }), _, _, by decide +kernel, by decide +kernel, rfl, by decide +kernel,
     rfl⟩,
   ⟨1, _, (sReq { stage := .held }), _, by decide +kernel, rfl, by decide +kernel, rfl⟩,
   ⟨63, _, 9, (s0.setJob 63 { live := true, held := some 9 }), by decide +kernel, rfl, by decide +kernel⟩,
   ⟨.pfMailbox, s0, _, by decide +kernel, rfl⟩,
   ⟨s0, by decide +kernel⟩,
   ⟨[], s0, by decide +kernel⟩,
   ⟨1, {}, ({ s0 with common := { s0.common with mirrors := [(1, {})] } }), by decide +kernel⟩⟩

theorem test_met_DmaCommands :
    (∃ (r : Fin 64) (d : Nat) (rest : List Nat) (x : Ring) (s : State) (u : State), s.Up ∧ x = s.ring true r.val ∧ x.fetched = d :: rest ∧
      (s.job r.val).live = false ∧ x.stopped = false ∧ u = s.setRing true r.val { x with fetched := rest }) ∧
    (∃ (r : Fin 64) (d : Nat) (rest : List Nat) (x : Ring) (s : State) (u : State), s.Up ∧ x = s.ring true r.val ∧ x.fetched = d :: rest ∧
      (s.job r.val).live = false ∧ x.stopped = false ∧ u = s.setRing true r.val { x with fetched := rest } ∧ (dmaOp d = 1 ∨ dmaOp d = 2) ∧
      dmaDstSpace d ≠ 3 ∧ u.ringOwner true r.val = 0 ∧ dmaLen d = 0) ∧
    (∃ (r : Fin 64) (d : Nat) (rest : List Nat) (x : Ring) (s : State) (u : State), s.Up ∧ x = s.ring true r.val ∧ x.fetched = d :: rest ∧
      (s.job r.val).live = false ∧ x.stopped = false ∧ u = s.setRing true r.val { x with fetched := rest } ∧ (dmaOp d = 1 ∨ dmaOp d = 2) ∧
      dmaDstSpace d ≠ 3 ∧ u.ringOwner true r.val = 0 ∧ dmaOp d = 1 ∧ dmaSrcSpace d = dmaDstSpace d ∧ (dmaSrcSpace d = 1 ∨ (dmaSrcSpace d =
      2 ∧ bits (dmaSrc d) 43 9 = u.own)) ∧ dmaSrc d < dmaDst d + dmaLen d ∧ dmaDst d < dmaSrc d + dmaLen d) ∧
    (∃ (r : Fin 64) (d : Nat) (rest : List Nat) (x : Ring) (s : State) (u : State), s.Up ∧ x = s.ring true r.val ∧ x.fetched = d :: rest ∧
      (s.job r.val).live = false ∧ x.stopped = false ∧ u = s.setRing true r.val { x with fetched := rest } ∧ (dmaOp d = 1 ∨ dmaOp d = 2) ∧
      dmaDstSpace d ≠ 3 ∧ u.ringOwner true r.val = 0 ∧ dmaOp d = 1 ∧ ((dmaSrcSpace d = 1 ∧ dmaDstSpace d = 1) ∨ (dmaSrcSpace d = 2 ∧
      dmaDstSpace d = 2 ∧ bits (dmaSrc d) 43 9 = u.own)) ∧ (dmaDst d + dmaLen d ≤ dmaSrc d ∨ dmaSrc d + dmaLen d ≤ dmaDst d)) ∧
    (∃ (r : Fin 64) (d : Nat) (rest : List Nat) (x : Ring) (s : State) (u : State), s.Up ∧ x = s.ring true r.val ∧ x.fetched = d :: rest ∧
      (s.job r.val).live = false ∧ x.stopped = false ∧ u = s.setRing true r.val { x with fetched := rest } ∧ (dmaOp d = 1 ∨ dmaOp d = 2) ∧
      dmaDstSpace d ≠ 3 ∧ u.ringOwner true r.val = 0 ∧ dmaOp d = 1 ∧ (dmaSrcSpace d ≠ dmaDstSpace d ∨ (dmaSrcSpace d ≠ 1 ∧ dmaSrcSpace d ≠
      2) ∨ (dmaSrcSpace d = 2 ∧ bits (dmaSrc d) 43 9 ≠ u.own))) ∧
    (∃ (r : Fin 64) (j : DmaJob) (s : State), s.Up ∧ j = s.job r.val ∧ j.live = true ∧ j.slot = none ∧ s.mirrorsFor (.dma r.val) = false ∧
      j.pos = dmaLen j.desc) ∧
    (∃ (p : Fin 16) (bytes : List Byte) (r : Nat) (s : State), s.Up ∧ r = beAt bytes 32 32 ∧ hOp (beAt bytes 0 32) < 0x24 ∧ (TMap.get ({}
      : Slot) s.common.slots (1024 * p.val + bits r 224 32 % 1024)).holder = none) ∧
    (∃ (p : Fin 16) (bytes : List Byte) (r : Nat) (k : Nat) (n : Nat) (s : State), s.Up ∧ r = beAt bytes 32 32 ∧ hOp (beAt bytes 0 32) <
      0x24 ∧ n = bits r 224 32 ∧ k = 1024 * p.val + n % 1024 ∧ (TMap.get ({} : Slot) s.common.slots k).holder.isSome = true ∧ (TMap.get
      ({} : Slot) s.common.slots k).uses = n / 1024) :=
  ⟨⟨63, 1, [], _, (s0.setRing true 63 { fetched := [1] }), _, by decide +kernel, rfl, by decide +kernel, by decide +kernel,
     by decide +kernel, rfl⟩,
   ⟨63, 1, [], _, (s0.setRing true 63 { fetched := [1] }), _, by decide +kernel, rfl, by decide +kernel, by decide +kernel,
     by decide +kernel, rfl, by decide +kernel⟩,
   ⟨63, (1 + 1 <<< 10 + 1 <<< 12 + 8 <<< 32 + 7 <<< 192), [], _, (s0.setRing true 63
     { fetched := [1 + 1 <<< 10 + 1 <<< 12 + 8 <<< 32 + 7 <<< 192] }), _, by decide +kernel, rfl, by decide +kernel, by decide +kernel,
     by decide +kernel, rfl, by decide +kernel⟩,
   ⟨63, (1 + 1 <<< 10 + 1 <<< 12 + 8 <<< 32 + 8 <<< 192), [], _, (s0.setRing true 63
     { fetched := [1 + 1 <<< 10 + 1 <<< 12 + 8 <<< 32 + 8 <<< 192] }), _, by decide +kernel, rfl, by decide +kernel, by decide +kernel,
     by decide +kernel, rfl, by decide +kernel⟩,
   ⟨63, (1 + 2 <<< 10 + 2 <<< 12 + 8 <<< 32), [], _, (s0.setRing true 63 { fetched := [1 + 2 <<< 10 + 2 <<< 12 + 8 <<< 32] }), _,
     by decide +kernel, rfl, by decide +kernel, by decide +kernel, by decide +kernel, rfl, by decide +kernel⟩,
   ⟨63, _, (s0.setJob 63 { live := true }), by decide +kernel, rfl, by decide +kernel⟩,
   ⟨15, [], _, s0, by decide +kernel, rfl, by decide +kernel⟩,
   ⟨15, (List.replicate 64 0), _, _, _, ({ s0 with common := { s0.common with slots := [(15360, { holder := some 63 })] } }),
     by decide +kernel, rfl, by decide +kernel, rfl, rfl, by decide +kernel⟩⟩

theorem test_met_EmptyQueuePassesOneCellTime :
    ∃ (s : State), s.pending = [] :=
  ⟨s0, by decide +kernel⟩

theorem test_met_SuspicionAndVotes :
    (∃ (b : Fin 128) (bytes : List Byte) (p : Nat) (m : TMap Nat) (s : State) (u : State) (v : State), s.Up ∧ hOp (beAt bytes 0 32) = 0x08
      ∧ s.isLink b.val = true ∧ p = beAt bytes 32 32 ∧ u = (s.count O.MUSTER_STAT 0 1).tally 0x0C00 b.val ∧ m = TMap.put 0 u.muster.h
      b.val (max (TMap.get 0 u.muster.h b.val) (bits p 192 64)) ∧ v = { u with muster := { u.muster with h := m } }) ∧
    (∃ (b : Fin 128) (bytes : List Byte) (s : State), (hOp (beAt bytes 0 32) ≠ 0x08 ∨ s.isLink b.val = false)) ∧
    (∃ (b : Fin 128) (bytes : List Byte) (s : State), (hOp (beAt bytes 0 32) ≠ 0x08 ∨ s.isLink b.val = false)) ∧
    (∃ (f : Fin 512) (n : Nat) (s : State), s.Up ∧ s.missFacing f.val = some n ∧ s.maySuspect f.val = true ∧ s.ob O.MUSTER_K ≤ n) ∧
    (∃ (f : Fin 512) (n : Nat) (s : State), s.missFacing f.val = some n ∧ n < s.ob O.MUSTER_K) ∧
    (∃ (f : Fin 512) (t : Nat) (s : State), s.Up ∧ TMap.get 0 s.muster.suspects f.val = t ∧ t ≠ 0) ∧
    (∃ (s : State), s.Up) ∧
    (∃ (slot : Fin 64) (id : Nat) (n : Nat) (c : CInst) (s : State) (u : State), s.Up ∧ s.slotInst slot.val = some id ∧ c = s.inst id ∧ n
      = cmTimeout (s.comm c.row) ∧ n ≠ 0 ∧ c.held = [] ∧ s.coll.notes.contains (c.row, c.seq, 2) = false ∧ u = s.advanceDev (s.bellStart
      (c.last + n) * devUnit)) ∧
    (∃ (bytes : List Byte) (row : Nat) (s : State), s.Up ∧ s.collRow bytes = some row ∧ s.leadOf (s.comm row) = s.own) ∧
    (∃ (slot : Fin 64) (i : Nat) (c : CInst) (s : State), s.Up ∧ s.slotInst slot.val = some i ∧ c = s.inst i ∧ s.collComplete c = true) :=
  ⟨⟨127, (beBytes 32 (8 <<< 224) ++ List.replicate 64 0), _, _, (sLink 127 4 6), _, _, by decide +kernel, by decide +kernel,
     by decide +kernel, rfl, rfl, rfl, rfl⟩,
   ⟨127, [], (sLink 127 4 6), by decide +kernel⟩,
   ⟨127, (beBytes 32 (8 <<< 224)), s0, by decide +kernel⟩,
   ⟨1, 32, ({ ((sPlaced.setOb (blockOid O.PORT_ROLE 127) 3).setPortState 1016 6) with time := { s0.time with lastBell := 33 } }),
     by decide +kernel⟩,
   ⟨1, 31, ({ ((sPlaced.setOb (blockOid O.PORT_ROLE 127) 3).setPortState 1016 6) with time := { s0.time with lastBell := 32 } }),
     by decide +kernel⟩,
   ⟨511, 1, ({ s0 with muster := { s0.muster with suspects := [(511, 1)] } }), by decide +kernel⟩,
   ⟨s0, by decide +kernel⟩,
   ⟨63, 1, _, _, sInst, _, by decide +kernel, by decide +kernel, rfl, rfl, by decide +kernel, by decide +kernel, by decide +kernel, rfl⟩,
   ⟨(collFrame 0 1 0 0), 4095, sComm, by decide +kernel⟩,
   ⟨63, 1, _, (sComm.setInst 1 { inst1 with len := 0 }), by decide +kernel, by decide +kernel, rfl, by decide +kernel⟩⟩

theorem test_met_FloodsAndAbsences :
    (∃ (b : Fin 128) (bytes : List Byte) (op : Nat) (p : Nat) (old : Option FloodSeen) (done : List Nat) (r : State × List Nat) (s :
      State) (u : State), s.Up ∧ op = hOp (beAt bytes 0 32) ∧ s.isLink b.val = true ∧ 9 ≤ op ∧ op ≤ 0x0E ∧ p = beAt bytes 32 32 ∧ old =
      s.floodSeen op (bits p 247 9) (bits p 238 9) (bits p 96 64) ∧ done = (match old with | some k => k.queued | none => []) ∧ r = (if
      bits p 230 8 = 0 then (s, []) else s.floodTo (s.liveLinks.filter (fun x => x != b.val && !done.contains x)) op (beBytes 32 (setBits
      p 230 8 (bits p 230 8 - 1)) ++ bytes.drop 64)) ∧ u = r.1.floodKeep
      { op := op, dev := bits p 247 9, origin := bits p 238 9, bell := bits p 96 64, queued := r.2.foldl NSet.add done, seen := (match old with | some k => k.seen | none => s.bell) }) ∧
    (∃ (due : List OwnFlood) (l : List OwnFlood) (s : State) (u : State), s.Up ∧ l = s.muster.own.filter (fun o => decide (s.bell ≤
      o.until_)) ∧ due = l.filter (fun o => decide (o.next ≤ s.bell)) ∧ u =
      { s with muster := { s.muster with own := l.map (fun o => if o.next ≤ s.bell then { o with next := s.bell + 64 } else o) } }) ∧
    (∃ (f : Fin 512) (m : TMap Nat) (s : State), s.Up ∧ TMap.has s.muster.away f.val = true ∧ m = TMap.put 0 s.muster.away f.val 0) ∧
    (∃ (g : LogSeg) (l : List LogSeg) (rest : List LogSeg) (f : LogSeg → Bool) (s : State), s.Up ∧ s.muster.segs = l ++ g :: rest ∧ (∀ x ∈
      l, f x = false) ∧ f g = true ∧ f = (fun g => !s.muster.frozen.contains g.dest &&
      (match g.entries.getLast? with | some e => decide (e.bell + s.ob O.MUSTER_W < s.bell) | none => true))) ∧
    (∃ (st : Nat) (rest : List Nat) (s : State), s.Up ∧ s.common.lost = st :: rest) ∧
    (∃ (st : Nat) (n : Nat) (rest : List Nat) (s : State), s.Up ∧ s.common.walked = st :: rest ∧ n = (s.ob O.COMMON_LOST_DONE + 1) % 2 ^
      32) :=
  ⟨⟨127, (beBytes 32 (0x0A <<< 224) ++ beBytes 32 (1 <<< 230) ++ List.replicate 32 0), _, _, _, _, _, (sLink 127 4 6), _,
     by decide +kernel, rfl, by decide +kernel, by decide +kernel, by decide +kernel, rfl, rfl, rfl, rfl, rfl⟩,
   ⟨_, _, ({ s0 with muster := { s0.muster with own := [⟨0x0A, 1, 0, 0, 0, 0, 0⟩] } }), _, by decide +kernel, rfl, rfl, rfl⟩,
   ⟨511, _, ({ s0 with muster := { s0.muster with away := [(511, 5)] } }), by decide +kernel, by decide +kernel, rfl⟩,
   ⟨({ stack := 0, dest := 511, entries := [⟨0, 511, 1, 0, []⟩] }), [], [], _,
     ({ s0.setOb O.MUSTER_W 64 with muster := { s0.muster with segs := [{ stack := 0, dest := 511, entries := [⟨0, 511, 1, 0, []⟩] }] }, time := { s0.time with lastBell := 65 } }),
     by decide +kernel, by decide +kernel, by decide +kernel, by decide +kernel, rfl⟩,
   ⟨15, [], ({ s0 with common := { s0.common with lost := [15] } }), by decide +kernel⟩,
   ⟨15, _, [], ({ s0 with common := { s0.common with walked := [15] } }), by decide +kernel, by decide +kernel, rfl⟩⟩

theorem test_met_RecoveryCommands :
    (∃ (who : Path) (f : BitVec 16) (s : State) (t : State), s.serves who O.MUSTER_CMD = true ∧ t = s.taken who ∧ t.Up ∧ f.toNat < 512) ∧
    (∃ (who : Path) (f : BitVec 16) (s : State) (t : State), s.serves who O.MUSTER_CMD = true ∧ t = s.taken who ∧ t.Up ∧ f.toNat < 512 ∧
      f.toNat ≠ (t.setDevState f.toNat 4).own) ∧
    (∃ (who : Path) (f : BitVec 16) (s : State) (t : State) (u : State) (v : State), s.serves who O.MUSTER_CMD = true ∧ t = s.taken who ∧
      t.Up ∧ f.toNat < 512 ∧ u = t.setDevState f.toNat 4 ∧ f.toNat = u.own ∧ v =
      { u with muster := { u.muster with recov := some { deadline := u.now + u.ob O.MUSTER_REPLAY_TO_MS * 1000000 } } }) ∧
    (∃ (who : Path) (s : State) (t : State), s.serves who O.MUSTER_CMD = true ∧ t = s.taken who ∧ t.Up) ∧
    (∃ (who : Path) (s : State) (t : State), s.serves who O.MUSTER_CMD = true ∧ t = s.taken who) ∧
    (∃ (who : Path) (s : State) (t : State), s.serves who O.MUSTER_CMD = true ∧ t = s.taken who) ∧
    (∃ (f : Fin 512) (s : State), s.Up ∧ s.devState f.val = 4 ∧ f.val ≠ s.own) ∧
    (∃ (bytes : List Byte) (r : Recovery) (h : Nat) (d : Nat) (n : Nat) (s : State) (u : State), s.Up ∧ s.muster.recov = some r ∧ d =
      hSrcDev (beAt bytes 0 32) ∧ h = leAt (bytes.drop 32) 0 32 ∧ n = bits h 96 32 ∧ u =
      ({ s with muster := { s.muster with recov := some { r with last := TMap.put 0 r.last d (n + 1) } } }).count O.MUSTER_STAT 8 1 ∧ n +
      1 ≤ TMap.get 0 r.last d) ∧
    (∃ (bytes : List Byte) (r : Recovery) (h : Nat) (d : Nat) (n : Nat) (s : State) (u : State), s.Up ∧ s.muster.recov = some r ∧ d =
      hSrcDev (beAt bytes 0 32) ∧ h = leAt (bytes.drop 32) 0 32 ∧ n = bits h 96 32 ∧ u =
      ({ s with muster := { s.muster with recov := some { r with last := TMap.put 0 r.last d (n + 1) } } }).count O.MUSTER_STAT 8 1 ∧
      TMap.get 0 r.last d < n + 1 ∧ h.testBit 57 = true) ∧
    (∃ (bytes : List Byte) (r : Recovery) (w : Recovery) (p : Nat) (s : State), s.Up ∧ s.muster.recov = some r ∧ p = beAt bytes 32 80 ∧ w
      = { r with ends := r.ends.add (hSrcDev (beAt bytes 0 32)), incomplete := r.incomplete || p.testBit 575 }) ∧
    (∃ (r : Recovery) (s : State), s.Up ∧ s.muster.recov = some r) :=
  ⟨⟨.pfMailbox, 511, s0, _, by decide +kernel, rfl, by decide +kernel⟩,
   ⟨.pfMailbox, 511, s0, _, by decide +kernel, rfl, by decide +kernel⟩,
   ⟨.pfMailbox, 0, sPlaced, _, _, _, by decide +kernel, rfl, by decide +kernel, by decide +kernel, rfl, by decide +kernel, rfl⟩,
   ⟨.pfMailbox, s0, _, by decide +kernel, rfl, by decide +kernel⟩,
   ⟨.pfMailbox, s0, _, by decide +kernel, rfl⟩,
   ⟨.pfMailbox, s0, _, by decide +kernel, rfl⟩,
   ⟨511, (s0.setDevState 511 4), by decide +kernel⟩,
   ⟨(List.replicate 64 0), ({ last := [(0, 1)] }), _, _, _, ({ s0 with muster := { s0.muster with recov := some { last := [(0, 1)] } } }),
     _, by decide +kernel, by decide +kernel, rfl, rfl, rfl, rfl, by decide +kernel⟩,
   ⟨(List.replicate 32 0 : List Byte) ++ leBytes 32 (1 <<< 57), {}, _, _, _, ({ s0 with muster := { s0.muster with recov := some {} } }),
     _, by decide +kernel, by decide +kernel, rfl, rfl, rfl, rfl, by decide +kernel⟩,
   ⟨[], {}, _, _, ({ s0 with muster := { s0.muster with recov := some {} } }), by decide +kernel, by decide +kernel, rfl, rfl⟩,
   ⟨{}, ({ s0 with muster := { s0.muster with recov := some {} } }), by decide +kernel⟩⟩

theorem test_met_FenceCommands :
    (∃ (who : Path) (s : State) (t : State), s.serves who O.FENCE_CMD = true ∧ t = s.taken who) ∧
    (∃ (who : Path) (s : State) (t : State), s.serves who O.FENCE_CMD = true ∧ t = s.taken who) ∧
    (∃ (who : Path) (s : State) (t : State), s.serves who O.FENCE_CMD = true ∧ t = s.taken who) ∧
    (∃ (who : Path) (s : State) (t : State), s.serves who O.FENCE_CMD = true ∧ t = s.taken who) ∧
    (∃ (who : Path) (s : State) (t : State), s.serves who O.FENCE_CMD = true ∧ t = s.taken who) ∧
    (∃ (who : Path) (s : State) (t : State), s.serves who O.FENCE_CMD = true ∧ t = s.taken who) ∧
    (∃ (who : Path) (s : State), s.serves who O.FENCE_CMD = true) ∧
    (∃ (b : BitVec 8), b.toNat < 16) ∧
    (∃ (who : Path) (b : BitVec 8) (s : State) (t : State), s.serves who O.FENCE_CMD = true ∧ t = s.taken who ∧ b.toNat < 128 ∧
      t.blockFenced b.toNat = false) ∧
    (∃ (who : Path) (b : BitVec 8) (s : State) (t : State), s.serves who O.FENCE_CMD = true ∧ t = s.taken who ∧ b.toNat < 128 ∧
      t.deviceFenced = false ∧ (t.ob O.FENCE_PADDOCKS).testBit (b.toNat / 8) = false ∧ t.blockFenced b.toNat = true ∧ t.role b.toNat ≠ 3) ∧
    (∃ (st : Fin 16) (n : Nat) (s : State), s.Up ∧ TMap.get 0 s.power.gating st.val = n + 1 ∧ s.stackHolds st.val = false) ∧
    (∃ (st : Fin 16) (n : Nat) (s : State) (u : State), s.Up ∧ TMap.get 0 s.power.gating st.val = n + 1 ∧ s.stackHolds st.val = true ∧ u =
      (s.advanceTo n).setOb O.PWR_GATE_STATUS 8) ∧
    (∃ (l : Fin 4) (s : State) (u : State), s.Up ∧ s.fold.ridgeFenced.testBit l.val = false ∧ u = State.raise
      { s with fold := { s.fold with ridgeFenced := setBit s.fold.ridgeFenced l.val } } O.FOLD_ERR 5 4) :=
  ⟨⟨.pfMailbox, s0, _, by decide +kernel, rfl⟩,
   ⟨.pfMailbox, s0, _, by decide +kernel, rfl⟩,
   ⟨.pfMailbox, s0, _, by decide +kernel, rfl⟩,
   ⟨.pfMailbox, s0, _, by decide +kernel, rfl⟩,
   ⟨.pfMailbox, s0, _, by decide +kernel, rfl⟩,
   ⟨.pfMailbox, s0, _, by decide +kernel, rfl⟩,
   ⟨.pfMailbox, s0, by decide +kernel⟩,
   ⟨15, by decide +kernel⟩,
   ⟨.pfMailbox, 127, s0, _, by decide +kernel, rfl, by decide +kernel⟩,
   ⟨.pfMailbox, 127, (s0.setOb O.FENCE_BLOCKS_HI (2 ^ 63)), _, by decide +kernel, rfl, by decide +kernel⟩,
   ⟨15, 9, ({ s0 with power := { s0.power with gating := [(15, 10)] } }), by decide +kernel⟩,
   ⟨15, 9, ({ sGroup { place := .far 15 } with power := { s0.power with gating := [(15, 10)] } }), _, by decide +kernel,
     by decide +kernel, by decide +kernel, rfl⟩,
   ⟨3, s0, _, by decide +kernel, by decide +kernel, rfl⟩⟩

theorem test_met_AccessesAreTurnedAway :
    (∃ (c : Instr) (who : Path) (oid : Nat) (d : ObjDef) (s : State), accessOf c = some (who, oid) ∧ objDef oid = some d ∧ s.tablesOk =
      true ∧ s.crookUp = false) ∧
    (∃ (c : Instr) (who : Path) (oid : Nat) (d : ObjDef) (s : State), accessOf c = some (who, oid) ∧ objDef oid = some d ∧ s.tablesOk =
      true ∧ who = .window ∧ d.ty.inSlot = false) ∧
    (∃ (c : Instr) (who : Path) (oid : Nat) (d : ObjDef) (s : State), accessOf c = some (who, oid) ∧ objDef oid = some d ∧ s.tablesOk =
      true ∧ s.crookUp = true ∧ d.ty.inSlot = true ∧ s.serverInReset = true ∧ crookSet oid = false) ∧
    (∃ (c : Instr) (who : Path) (oid : Nat) (d : ObjDef) (s : State), accessOf c = some (who, oid) ∧ objDef oid = some d ∧ s.tablesOk =
      true ∧ s.crookUp = true ∧ who ≠ .window ∧ s.serverInReset = false ∧ s.roleOf who < d.wr.num) ∧
    (∃ (v : Fin 33) (idx : BitVec 16) (el : BitVec 8) (len : BitVec 32) (data : List Byte) (s : State) (u : State), s.crookUp = true ∧
      len.toNat ≤ 16384 ∧ data.length ≤ 16384 ∧ vfOpen (idx.toNat * 256 + el.toNat) = false ∧ u = (s.count O.CTL_STAT 0 1).reply
      (.vfMailbox v) 0x02 0 []) ∧
    (∃ (who : Path) (idx : BitVec 16) (el : BitVec 8) (len : BitVec 32) (data : List Byte) (oid : Nat) (s : State) (u : State), who ≠
      .window ∧ (∀ v, who = .vfMailbox v → vfOpen oid = true) ∧ s.crookUp = true ∧ oid = idx.toNat * 256 + el.toNat ∧ u = s.count
      O.CTL_STAT 0 1 ∧ len.toNat ≤ pathLimit who false ∧ data.length ≤ pathLimit who false ∧ objDef oid = none) ∧
    (∃ (who : Path) (idx : BitVec 16) (el : BitVec 8) (len : BitVec 32) (data : List Byte) (oid : Nat) (s : State) (u : State), who ≠
      .window ∧ (∀ v, who = .vfMailbox v → vfOpen oid = true) ∧ s.crookUp = true ∧ oid = idx.toNat * 256 + el.toNat ∧ u = s.count
      O.CTL_STAT 0 1 ∧ len.toNat ≤ pathLimit who false ∧ data.length ≤ pathLimit who false ∧ objDef oid = some (defOf oid) ∧
      u.serverInReset = true ∧ crookSet oid = false) ∧
    (∃ (who : Path) (idx : BitVec 16) (el : BitVec 8) (len : BitVec 32) (data : List Byte) (oid : Nat) (s : State) (u : State), who ≠
      .window ∧ (∀ v, who = .vfMailbox v → vfOpen oid = true) ∧ s.crookUp = true ∧ oid = idx.toNat * 256 + el.toNat ∧ u = s.count
      O.CTL_STAT 0 1 ∧ len.toNat ≤ pathLimit who false ∧ data.length ≤ pathLimit who false ∧ objDef oid = some (defOf oid) ∧
      (u.serverInReset && !crookSet oid) = false ∧ u.roleOf who < (defOf oid).rd.num) ∧
    (∃ (who : Path) (idx : BitVec 16) (el : BitVec 8) (len : BitVec 32) (data : List Byte) (oid : Nat) (s : State) (u : State), who ≠
      .window ∧ (∀ v, who = .vfMailbox v → vfOpen oid = true) ∧ s.crookUp = true ∧ oid = idx.toNat * 256 + el.toNat ∧ u = s.count
      O.CTL_STAT 0 1 ∧ len.toNat ≤ pathLimit who false ∧ data.length ≤ pathLimit who false ∧ objDef oid = some (defOf oid) ∧
      (u.serverInReset && !crookSet oid) = false ∧ (defOf oid).acc = .ro ∧ (defOf oid).acc ≠ .cmd) ∧
    (∃ (s : State), s.serves .cores O.PWR_CMD = true) ∧
    (∃ (who : Path) (s : State) (t : State), s.serves who O.PWR_GATE = true ∧ t = s.taken who ∧ 3 ≤ t.ob O.PWR_STATE) :=
  ⟨⟨(.placementWrite .pfMailbox 1 2), .pfMailbox, O.FAB_DIM_X, (defOf O.FAB_DIM_X),
     ({ s0 with power := { s0.power with sources := [.auxClk], width := 3 } }), by decide +kernel⟩,
   ⟨(.forwardingTableWrite .window 5 0 0), .window, O.ROUTE_MEMBER, (defOf O.ROUTE_MEMBER), s0, by decide +kernel⟩,
   ⟨(.placementWrite .window 1 2), .window, O.FAB_DIM_X, (defOf O.FAB_DIM_X), sWarm, by decide +kernel⟩,
   ⟨(.placementWrite (.oxpin 7) 1 2), (.oxpin 7), O.FAB_DIM_X, (defOf O.FAB_DIM_X), s0, by decide +kernel⟩,
   ⟨32, (idxOf O.FAB_DIM_X), (elOf O.FAB_DIM_X), 16384, [], sVf, _, by decide +kernel, by decide +kernel, by decide +kernel,
     by decide +kernel, rfl⟩,
   ⟨.cores, 0xFFFF, 0xFF, 0, [], _, s0, _, by decide +kernel, fun _ => by simp, by decide +kernel, rfl, rfl, by decide +kernel⟩,
   ⟨.pfMailbox, (idxOf O.FAB_DIM_X), (elOf O.FAB_DIM_X), 0, [], _, sWarm, _, by decide +kernel, fun _ => by simp, by decide +kernel, rfl,
     rfl, by decide +kernel⟩,
   ⟨(.oxpin 7), (idxOf O.FAB_DIM_X), (elOf O.FAB_DIM_X), 0, [], _, s0, _, by decide +kernel, fun _ => by simp, by decide +kernel, rfl,
     rfl, by decide +kernel⟩,
   ⟨.pfMailbox, (idxOf O.FAB_PLACED), (elOf O.FAB_PLACED), 0, [], _, s0, _, by decide +kernel, fun _ => by simp, by decide +kernel, rfl,
     rfl, by decide +kernel⟩,
   ⟨s0, by decide +kernel⟩,
   ⟨.pfMailbox, (s0.setOb O.PWR_STATE 3), _, by decide +kernel, rfl, by decide +kernel⟩⟩

theorem test_met_ControlCommandsLeaveTheRestAlone :
    (∃ (c : Instr) (s : State) (t : State), exec c s = .next t ∧ frameOf c = 3) ∧
    (∃ (c : Instr) (s : State) (t : State), exec c s = .next t ∧ frameOf c = 2) ∧
    (∃ (c : Instr) (s : State) (t : State), exec c s = .next t ∧ frameOf c = 1) ∧
    (∃ (s : State), s.crookUp = false) ∧
    (∃ (s : State), s.secondDue = false ∧ s.ctl.wdtAt = none ∧ s.time.switch = none ∧ s.ppsDriven = false ∧ s.power.target = none ∧
      s.power.clockLost.testBit 15 = false ∧ TMap.get 0 s.power.gating 15 = 0 ∧ (s.fn 32).mbxBusy = false) ∧
    (∃ (s : State), s.drove.holder = .idle ∧ s.ob O.DROVE_SENTINEL_TICKS = 0 ∧ s.drove.waits[0]? = none ∧ s.mayFetch true 63 = false ∧
      (s.octx 255).isOver = false ∧ s.slotInst 63 = none) ∧
    (∃ (s : State), s.drove.gated = true) ∧
    (∃ (s : State), s.common.invals = [] ∧ s.common.lost = [] ∧ s.common.walked = [] ∧ (s.creq 1).stage ≠ .held ∧ s.common.mirrors.find?
      (fun m => m.1 == 1) = none ∧ s.common.walks.find? (fun w => w.1 == 15) = none ∧ (s.job 63).live = false) ∧
    (∃ (s : State), s.muster.recov = none) ∧
    (∃ (bytes : List Byte), (hOp (beAt bytes 0 32) < 0x09 ∨ 0x0E < hOp (beAt bytes 0 32))) ∧
    (∃ (bytes : List Byte), (hOp (beAt bytes 0 32) < 0x09 ∨ 0x0E < hOp (beAt bytes 0 32))) :=
  ⟨⟨.doeAbort, s0, s0, rfl, by decide +kernel⟩,
   ⟨.voteExpire, s0, s0, rfl, by decide +kernel⟩,
   ⟨(.descriptorFetch true 0), s0, s0, rfl, by decide +kernel⟩,
   ⟨({ s0 with power := { s0.power with sources := [.auxClk], width := 3 } }), by decide +kernel⟩,
   ⟨s0, by decide +kernel⟩,
   ⟨(s0.setOb O.DROVE_SENTINEL_TICKS 0), by decide +kernel⟩,
   ⟨({ s0 with drove := { s0.drove with gated := true } }), by decide +kernel⟩,
   ⟨s0, by decide +kernel⟩,
   ⟨s0, by decide +kernel⟩,
   ⟨(beBytes 32 (8 <<< 224)), by decide +kernel⟩,
   ⟨(beBytes 32 (15 <<< 224)), by decide +kernel⟩⟩

end Sys2Proof.Tests
end

section
/-!
SUPPORT and the settling of O34 (TicksAndOverruns). Seven of its eight clauses hold as they stand: a theorem each. The fourth, that a window
of pairs closes and is remembered by the Bell number it closed at, holds where the objects are in canonical form, which it does not ask for.
Out of that form, the removal of a report row can uncover another BELL_PERIOD, and the Bell number that is remembered is then not the one
at which the window closed.
-/

namespace Sys2Proof.Machine

theorem live_of_up {s : State} (h : s.Up) (a : Ans) : live s a = a := if_neg (by simp [show s.serverInReset = false from h])

/-! ### Ticks (R446 to R450, R453) -/

theorem State.stepTicks_of_ahead {s : State} (h : s.time.lastBell < s.bellAt s.devNs) :
    s.stepTicks = s.raiseTick (s.bellAt s.devNs) := if_pos h

/-- Device time has passed boundaries already: the tick that contains it is raised. -/
theorem exec_bellTick_of_passed {s : State} (up : s.Up) (h : s.time.lastBell < s.bellAt s.devNs) :
    exec .bellTick s = .next (s.raiseTick (s.bellAt s.devNs)) := by
  change execBellTick s = _
  unfold execBellTick
  rw [live_of_up up, if_pos h, State.stepTicks_of_ahead h]

/-- The next boundary comes: time moves on to it, and its tick is raised. -/
theorem exec_bellTick_of_next {s u : State} (up : s.Up) (h : s.bellAt s.devNs ≤ s.time.lastBell)
    (hu : u = s.advanceDev (s.bellStart (s.time.lastBell + 1) * devUnit)) (hb : u.time.lastBell < u.bellAt u.devNs) :
    exec .bellTick s = .next (u.raiseTick (u.bellAt u.devNs)) := by
  change execBellTick s = _
  unfold execBellTick
  rw [live_of_up up, if_neg (Nat.not_lt.mpr h), ← hu, State.stepTicks_of_ahead hb]

/-- An overrun, which for the Drove, consumer 6, there is only where its tick left deadline work uncommitted (R275). -/
theorem exec_bellOverrun {c : Fin 8} {late : BitVec 32} {s r u v w : State} (up : s.Up) (hd : c.val = 6 → s.droveOverruns.2 = true)
    (hr : r = if c.val = 6 then s.droveOverruns.1 else s) (hu : u = (r.count O.BELL_OVERRUNS c.val 1).tally 0x0003 0)
    (hv : v = (u.raise O.BELL_ERR 0).setBlob O.BELL_LAST_OVERRUN (leBytes 16 (u.bell % 2 ^ 64 + c.val <<< 64 + late.toNat <<< 96)))
    (hw : w = { v with time := { v.time with overNow := setBit v.time.overNow c.val } }) :
    exec (.bellOverrun c late) s = .next (if c.val = 2 then w.qrecLate.raise O.EGR_ERR 5 else w) := by
  have whole : r.overrun c.val late.toNat = if c.val = 2 then w.qrecLate.raise O.EGR_ERR 5 else w := by
    subst hw hv hu; rfl
  rw [← whole, hr]
  change execBellOverrun c late s = _
  unfold execBellOverrun
  rw [live_of_up up]
  by_cases drove : c.val = 6
  · simp [drove, hd drove]
  · simp [drove]

/-! ### The window of heavy pairs (R246, R247) -/

/-- The pairs that a report names, the heaviest first (R246). -/
def State.heavyTop (s : State) : List (Nat × Nat) :=
  ((s.circ.hp.filter (fun x => decide (1 < s.hops x.1 ∧ s.ob O.CIRC_HP_THRESH ≤ x.2))).mergeSort
    (fun x y => decide (y.2 * (s.hops y.1 - 1) ≤ x.2 * (s.hops x.1 - 1)))).take 16

/-- What the report of a window writes in row `i` of CIRC_HP_REPORT. -/
def State.heavyEntry (s : State) (top : List (Nat × Nat)) (i : Nat) : Nat :=
  match top[i]? with
  | some x => s.heavyRow x.1 x.2
  | none => 0

/-- The state once the sixteen rows of the report are written: the window is not yet marked closed. -/
def State.heavyWritten (s : State) : State :=
  (List.range 16).foldl (fun t i => t.setRow O.CIRC_HP_REPORT i (t.heavyEntry s.heavyTop i)) s

theorem State.heavyReport_eq (s : State) : s.heavyReport =
    let t := ({ s.heavyWritten with circ := { hp := [], closed := s.heavyWritten.bell + 1 } } : State).count O.CIRC_HP_SEQ 0 1
    t.event [0] 0x04 0 (t.ob O.CIRC_HP_SEQ) := rfl

theorem State.heavyWritten_rest (s : State) : Rest s s.heavyWritten :=
  (Rest.refl s).foldl fun _ _ h => State.setRow_rest h _ _ _

theorem State.heavyWritten_sameTime (s : State) : SameTime s s.heavyWritten :=
  (SameTime.refl s).foldl fun _ _ h => State.setRow_sameTime h _ _ _

/-- The count and the event that end a report leave the inner state of the blocks as the marking of the window left it. -/
theorem State.heavyReport_rest (s : State) :
    Rest { s.heavyWritten with circ := { hp := [], closed := s.heavyWritten.bell + 1 } } s.heavyReport := by
  rw [State.heavyReport_eq]
  exact State.event_rest (State.count_rest (Rest.refl _) _ _ _) _ _ _ _

/-- The window that a report closes is remembered by the Bell number that is read after the rows are written. -/
theorem State.heavyReport_circ (s : State) : s.heavyReport.circ = { hp := [], closed := s.heavyWritten.bell + 1 } :=
  s.heavyReport_rest.circ

theorem State.heavyReport_blocks (s : State) : s.heavyReport.blocks = s.blocks := by
  simp only [s.heavyReport_rest.blocks, s.heavyWritten_rest.blocks]

theorem State.heavyReport_fold (s : State) : s.heavyReport.fold = s.fold := by
  simp only [s.heavyReport_rest.fold, s.heavyWritten_rest.fold]

/-- The window is due: the units act, it is not 0, the Bell number is a multiple of it, and this tick has not closed it yet. -/
structure State.HeavyDue (s : State) : Prop where
  up     : s.Up
  window : s.ob O.CIRC_HP_WINDOW ≠ 0
  tick   : s.bell % s.ob O.CIRC_HP_WINDOW = 0
  once   : s.circ.closed ≠ s.bell + 1

theorem exec_heavyPairWindowClose_of_due {s : State} (h : s.HeavyDue) : exec .heavyPairWindowClose s = .next s.heavyReport := by
  change execHeavyPairWindowClose s = _
  unfold execHeavyPairWindowClose State.heavyClose
  rw [live_of_up h.up]
  simp [h.window, h.tick, h.once]

/-- The Bell number rests on time and the period alone. -/
theorem State.bell_eq_of_sameTime {s t : State} (h : SameTime s t) (p : t.ob O.BELL_PERIOD = s.ob O.BELL_PERIOD) : t.bell = s.bell := by
  unfold State.bell State.bellAt State.devNs State.period
  rw [h.time, p]

/-- Rows written one after another leave a row that is none of them as it was. -/
theorem State.row_foldl_setRow_other {s : State} (h : s.tablesOk = true) {oid oid' row' : Nat} (f : State → Nat → Nat) (l : List Nat)
    (hk : ∀ i ∈ l, okey oid' row' ≠ okey oid i) :
    (l.foldl (fun t i => t.setRow oid i (f t i)) s).row oid' row' = s.row oid' row' := by
  induction l generalizing s with
  | nil => rfl
  | cons i l ih =>
    have ok := (State.setRow_keeps (Keeps.refl s) oid i (f s i)).tables h
    rw [List.foldl_cons, ih ok fun j hj => hk j (List.mem_cons_of_mem _ hj), State.row_setRow_other h _ (hk i List.mem_cons_self)]

theorem State.heavyWritten_bell {s : State} (h : s.tablesOk = true) : s.heavyWritten.bell = s.bell :=
  State.bell_eq_of_sameTime s.heavyWritten_sameTime (State.row_foldl_setRow_other h _ _ (by decide))

/-- The fourth clause of O34 under the hypothesis it lacks. -/
theorem exec_heavyPairWindowClose {s : State} (ok : s.tablesOk = true) (h : s.HeavyDue) : ∃ t, exec .heavyPairWindowClose s = .next t ∧
    t.circ = { hp := [], closed := s.bell + 1 } ∧ t.blocks = s.blocks ∧ t.fold = s.fold :=
  ⟨s.heavyReport, exec_heavyPairWindowClose_of_due h, by rw [State.heavyReport_circ, State.heavyWritten_bell ok], s.heavyReport_blocks,
    s.heavyReport_fold⟩

theorem exec_circHpWindowWrite {who : Path} {v : BitVec 32} {s t u : State} (h : s.Takes who O.CIRC_HP_WINDOW t) (hv : v.toNat ≤ 1048576)
    (hu : u = t.setOb O.CIRC_HP_WINDOW v.toNat) : exec (.circHpWindowWrite who v) s =
      .next ((if v = 0 then { u with circ := { u.circ with hp := [] } } else u).answered who O.CIRC_HP_WINDOW 0) := by
  refine congrArg Host.Outcome.next (State.access_answers h.1 h.2 ?_)
  have zero : v = 0 ↔ v.toNat = 0 := BitVec.toNat_eq
  simp only [State.writeHpWindow, if_neg (Nat.not_lt.mpr hv), ← hu, zero]

/-! ### Writes of HEFT_AGE_SHIFT and ROUTE_FLIP_CANCEL (R161, R235) -/

theorem exec_heftAgeShiftWrite_of_new {who : Path} {v : BitVec 8} {s t : State} (h : s.Takes who O.HEFT_AGE_SHIFT t) (hv : v.toNat ≤ 20)
    (new : v.toNat ≠ t.ob O.HEFT_AGE_SHIFT) : exec (.heftAgeShiftWrite who v) s =
      .next ((t.setOb O.HEFT_AGE_SHIFT v.toNat).heftRestamp.answered who O.HEFT_AGE_SHIFT 0) := by
  refine congrArg Host.Outcome.next (State.access_answers h.1 h.2 ?_)
  simp only [State.writeAgeShift, if_neg (Nat.not_lt.mpr hv), if_neg new]

theorem exec_heftAgeShiftWrite_of_large {who : Path} {v : BitVec 8} {s : State} (h : s.serves who O.HEFT_AGE_SHIFT = true)
    (hv : 20 < v.toNat) : exec (.heftAgeShiftWrite who v) s = .next ((s.taken who).answered who O.HEFT_AGE_SHIFT 0x0A) := by
  refine congrArg Host.Outcome.next (State.access_answers h rfl ?_)
  simp only [State.writeAgeShift, if_pos hv]

theorem exec_routeFlipCancel {who : Path} {pa : Fin 4096} {s t : State} (h : s.Takes who O.ROUTE_FLIP_CANCEL t) :
    exec (.routeFlipCancel who pa) s = .next (if t.bell < TMap.get 0 t.fwd.flips pa.val then
      { t with fwd := { t.fwd with flips := TMap.put 0 t.fwd.flips pa.val 0 } }.answered who O.ROUTE_FLIP_CANCEL 0
      else t.answered who O.ROUTE_FLIP_CANCEL 0x0A) := by
  have answers {u : State} {st : Nat} (hb : t.flipCancel pa.val = (u, st)) :
      exec (.routeFlipCancel who pa) s = .next (u.answered who O.ROUTE_FLIP_CANCEL st) :=
    congrArg Host.Outcome.next (State.access_answers h.1 h.2 hb)
  split
  next pending => exact answers (if_neg (by omega))
  next begun => exact answers (if_pos (by omega))

/-! ### The refutation -/

/-- A due window in a state whose objects are out of order: row 0 of CIRC_HP_REPORT stands before a BELL_PERIOD of 1. While the row is
there, the period is the default, 8,192 ns, and device time of 1,024 such periods has Bell number 1,024. -/
def heavyDueUnsorted : State :=
  { objs := [(okey O.CIRC_HP_REPORT 0, 1), (okey O.BELL_PERIOD 0, 1)], time := { State.reset.time with dev := 1024 * 8192 * devUnit } }

theorem heavyDueUnsorted_bell : heavyDueUnsorted.bell = 1024 := by decide +kernel

theorem heavyDueUnsorted_due : heavyDueUnsorted.HeavyDue :=
  ⟨by decide +kernel, by decide +kernel, by decide +kernel, by decide +kernel⟩

/-- The report has no pairs, so its row 0 goes; the period then reads as 4,096 ns, and the Bell number has doubled. -/
theorem heavyDueUnsorted_written_bell : heavyDueUnsorted.heavyWritten.bell = 2048 := by decide +kernel

/-- Refutes O34: its fourth clause does not ask for canonical tables. In the state `heavyDueUnsorted` the window closes at Bell number
1,024, and the report, which erases row 0 of CIRC_HP_REPORT, remembers it as closed at 2,048. No run from reset reaches such a state;
`exec_heavyPairWindowClose` is the clause for canonical tables, and the other seven clauses hold as they stand. -/
theorem not_ticksAndOverruns : ¬ Obligations.TicksAndOverruns := by
  unfold Obligations.TicksAndOverruns
  rintro ⟨-, -, -, windowCloses, -⟩
  obtain ⟨up, window, tick, once⟩ := heavyDueUnsorted_due
  obtain ⟨t, ht, hcirc, -⟩ := windowCloses heavyDueUnsorted up window tick once
  rw [exec_heavyPairWindowClose_of_due heavyDueUnsorted_due] at ht
  cases ht
  rw [State.heavyReport_circ, heavyDueUnsorted_written_bell, heavyDueUnsorted_bell] at hcirc
  exact absurd (congrArg Circ.closed hcirc) (by decide)

end Sys2Proof.Machine
end

section
/-!
SUPPORT and the settling of O54 (DmaCommands). The checks on a descriptor come down, on a ring of the physical function, to one question:
whether it is a COPY onto itself (`State.CopyOverlaps`). The four clauses about descriptors on such a ring are answers to it.
-/

namespace Sys2Proof.Machine

/-! ### The checks on a descriptor (R412 to R414) -/

/-- A COPY whose source and destination share a byte, both in a memory that the device checks: its HBM, named by HPA or by its own
Common addresses (R414). -/
structure State.CopyOverlaps (s : State) (d : Nat) : Prop where
  copy      : dmaOp d = 1
  oneSpace  : dmaSrcSpace d = dmaDstSpace d
  ownHbm    : dmaSrcSpace d = 1 ∨ (dmaSrcSpace d = 2 ∧ bits (dmaSrc d) 43 9 = s.own)
  srcBefore : dmaSrc d < dmaDst d + dmaLen d
  dstBefore : dmaDst d < dmaSrc d + dmaLen d

theorem State.not_copyOverlaps_of_empty {s : State} {d : Nat} (empty : dmaLen d = 0) : ¬ s.CopyOverlaps d := by
  rintro ⟨-, -, -, srcBefore, dstBefore⟩
  omega

theorem State.not_copyOverlaps_of_apart {s : State} {d : Nat} (apart : dmaDst d + dmaLen d ≤ dmaSrc d ∨ dmaSrc d + dmaLen d ≤ dmaDst d) :
    ¬ s.CopyOverlaps d := by
  rintro ⟨-, -, -, srcBefore, dstBefore⟩
  omega

/-- No two ranges overlap that the device does not compare. -/
theorem State.not_copyOverlaps_of_unchecked {s : State} {d : Nat} (unchecked : dmaSrcSpace d ≠ dmaDstSpace d ∨
    (dmaSrcSpace d ≠ 1 ∧ dmaSrcSpace d ≠ 2) ∨ (dmaSrcSpace d = 2 ∧ bits (dmaSrc d) 43 9 ≠ s.own)) : ¬ s.CopyOverlaps d := by
  rintro ⟨-, oneSpace, ownHbm, -, -⟩
  omega

/-- The last check of a descriptor, as the model computes it. -/
theorem State.copyOverlaps_iff {s : State} {d : Nat} (op : dmaOp d = 1 ∨ dmaOp d = 2) : s.CopyOverlaps d ↔
    (!(dmaOp d == 2) && dmaSrcSpace d == dmaDstSpace d && (dmaSrcSpace d == 1 || (dmaSrcSpace d == 2 && bits (dmaSrc d) 43 9 == s.own)) &&
      overlap (dmaSrc d) (dmaLen d) (dmaDst d) (dmaLen d)) = true := by
  have copies : dmaOp d = 1 ↔ dmaOp d ≠ 2 := by omega
  constructor
  · rintro ⟨copy, oneSpace, ownHbm, srcBefore, dstBefore⟩
    simpa [overlap, copies.mp copy, oneSpace, srcBefore, dstBefore] using oneSpace ▸ ownHbm
  · intro h
    simp only [overlap, Bool.and_eq_true, Bool.or_eq_true, Bool.not_eq_true', beq_eq_false_iff_ne, beq_iff_eq, decide_eq_true_eq] at h
    obtain ⟨⟨⟨notFill, oneSpace⟩, ownHbm⟩, srcBefore, dstBefore⟩ := h
    exact ⟨copies.mpr notFill, oneSpace, ownHbm, srcBefore, dstBefore⟩

section PhysicalFunction
variable {s : State} {r d : Nat} (op : dmaOp d = 1 ∨ dmaOp d = 2) (dst : dmaDstSpace d ≠ 3) (pf : s.ringOwner true r = 0)
include op dst pf

theorem State.dmaCheck_of_copyOverlaps (h : s.CopyOverlaps d) : s.dmaCheck r d = 9 := by
  unfold State.dmaCheck
  rw [if_neg (by omega), if_neg dst, if_neg (by simp [pf]), if_pos ((State.copyOverlaps_iff op).mp h)]

theorem State.dmaCheck_of_not_copyOverlaps (h : ¬ s.CopyOverlaps d) : s.dmaCheck r d = 0 := by
  unfold State.dmaCheck
  rw [if_neg (by omega), if_neg dst, if_neg (by simp [pf]), if_neg (mt (State.copyOverlaps_iff op).mpr h)]

end PhysicalFunction

/-! ### The start of a descriptor (R413, R414) -/

section Start
variable {r : Fin 64} {d : Nat} {rest : List Nat} {x : Ring} {s u : State} (up : s.Up) (hx : x = s.ring true r.val)
  (oldest : x.fetched = d :: rest) (idle : (s.job r.val).live = false) (running : x.stopped = false)
  (hu : u = s.setRing true r.val { x with fetched := rest })
include up hx oldest idle running hu

theorem exec_dmaDescriptorStart : exec (.dmaDescriptorStart r) s = .next (if u.dmaCheck r.val d ≠ 0 then
      (u.setJob r.val { desc := d, status := u.dmaCheck r.val d }).dmaEnd r.val
      else if dmaLen d = 0 then (u.setJob r.val { desc := d }).dmaEnd r.val
      else (u.setJob r.val { desc := d, live := true }).dmaPump r.val ({ desc := d, live := true } : DmaJob).fuel) := by
  have free : ¬ ((s.job r.val).live || x.stopped) = true := by simp [idle, running]
  change execDmaDescriptorStart r s = _
  unfold execDmaDescriptorStart
  rw [live_of_up up]
  simp only [← hx, oldest, if_neg free, ← hu, apply_ite Host.Outcome.next]

theorem exec_dmaDescriptorStart_of_rejected {st : Nat} (check : u.dmaCheck r.val d = st) (bad : st ≠ 0) :
    exec (.dmaDescriptorStart r) s = .next ((u.setJob r.val { desc := d, status := st }).dmaEnd r.val) := by
  rw [exec_dmaDescriptorStart up hx oldest idle running hu, check, if_pos bad]

theorem exec_dmaDescriptorStart_of_empty (check : u.dmaCheck r.val d = 0) (empty : dmaLen d = 0) :
    exec (.dmaDescriptorStart r) s = .next ((u.setJob r.val { desc := d, status := 0, done := 0 }).dmaEnd r.val) := by
  rw [exec_dmaDescriptorStart up hx oldest idle running hu, if_neg (fun bad => bad check), if_pos empty]

end Start

/-! ### The end of a transfer (R415), and responses (R410) -/

/-- Every byte has been moved, and nothing that was issued is still to be acknowledged. -/
theorem exec_dmaTransferComplete_of_moved {r : Fin 64} {s : State} (up : s.Up) (busy : (s.job r.val).live = true)
    (answered : (s.job r.val).slot = none) (mirrored : s.mirrorsFor (.dma r.val) = false)
    (moved : (s.job r.val).pos = dmaLen (s.job r.val).desc) : exec (.dmaTransferComplete r) s = .next (s.dmaEnd r.val) := by
  change execDmaTransferComplete r s = _
  unfold execDmaTransferComplete
  rw [live_of_up up]
  simp [busy, answered, mirrored, moved]

/-- A response of an op below 0x24: what becomes of it is decided by the slot that its req_id names. -/
theorem exec_commonResponseReceive {p : Fin 16} {bytes : List Byte} {r n k : Nat} {s : State} (up : s.Up) (hr : r = beAt bytes 32 32)
    (op : hOp (beAt bytes 0 32) < 0x24) (hn : n = bits r 224 32) (hk : k = 1024 * p.val + n % 1024) :
    exec (.commonResponseReceive p bytes) s =
      .next (if (TMap.get ({} : Slot) s.common.slots k).holder.isSome = true ∧ (TMap.get ({} : Slot) s.common.slots k).uses = n / 1024
        then s.slotAnswered k (bits r 216 8) (r.testBit 199) (r.testBit 198) (bytes.drop 64) (bits r 96 48)
        else s.count O.COMMON_STAT 9 1) := by
  subst hr hn hk
  change execCommonResponseReceive p bytes s = _
  unfold execCommonResponseReceive
  rw [live_of_up up, if_neg (by omega), apply_ite Host.Outcome.next]

/-! ### The obligation -/

/-- Settles O54: each clause is the rule above for the operation it names; on a ring of the physical function what the checks answer is
decided by `State.CopyOverlaps`. -/
theorem dmaCommands : Obligations.DmaCommands := by
  unfold Obligations.DmaCommands
  refine ⟨?starts, ?checks, ?ends, ?late, ?taken⟩
  case starts =>
    intro r d rest x s u up hx oldest idle running hu
    exact exec_dmaDescriptorStart up hx oldest idle running hu
  case checks =>
    intro r d rest x s u up hx oldest idle running hu op dst pf
    have passes : ¬ u.CopyOverlaps d → u.dmaCheck r.val d = 0 := State.dmaCheck_of_not_copyOverlaps op dst pf
    refine ⟨fun empty => ?_, fun copy oneSpace ownHbm srcBefore dstBefore => ?_, fun _ _ apart => ?_, fun _ unchecked => ?_⟩
    · exact exec_dmaDescriptorStart_of_empty up hx oldest idle running hu (passes (State.not_copyOverlaps_of_empty empty)) empty
    · have check := State.dmaCheck_of_copyOverlaps op dst pf ⟨copy, oneSpace, ownHbm, srcBefore, dstBefore⟩
      exact exec_dmaDescriptorStart_of_rejected up hx oldest idle running hu check (by decide)
    · exact passes (State.not_copyOverlaps_of_apart apart)
    · exact passes (State.not_copyOverlaps_of_unchecked unchecked)
  case ends =>
    rintro r j s up rfl busy answered mirrored moved
    exact exec_dmaTransferComplete_of_moved up busy answered mirrored moved
  case late =>
    intro p bytes r s up hr op free
    rw [exec_commonResponseReceive up hr op rfl rfl, if_neg (by simp [free])]
  case taken =>
    intro p bytes r k n s up hr op hn hk inUse uses
    rw [exec_commonResponseReceive up hr op hn hk, if_pos ⟨inUse, uses⟩]

end Sys2Proof.Machine
end

section
/-!
SUPPORT and the settling of O35 (PeriodCommands). A command that waits for an instant is accepted or rejected by one check on the state in
which it is taken; each check has one lemma for either answer here, and `State.access_answers` carries the answer to the command.
-/

namespace Sys2Proof.Machine

/-! ### The period (R446) -/

theorem State.period_of_code {s : State} {k : Nat} (h : s.ob O.BELL_PERIOD = k) : s.period = 2048 * 2 ^ k := by
  rw [State.period, h]

theorem State.reset_bellPeriod : State.reset.ob O.BELL_PERIOD = 2 := by decide +kernel

/-! ### BELL_SWITCH (R451) -/

/-- A switch to the instant `at_` ns is refused: it comes too soon, it changes nothing, or another stands (R451). -/
def State.RefusesSwitch (s : State) (at_ : Nat) : Prop :=
  at_ < s.devNs + 1000000 ∨ s.ob O.BELL_PERIOD_NEXT = s.ob O.BELL_PERIOD ∨ s.time.switch.isSome = true

theorem State.not_refusesSwitch {s : State} {at_ : Nat} (ahead : s.devNs + 1000000 ≤ at_)
    (new : s.ob O.BELL_PERIOD_NEXT ≠ s.ob O.BELL_PERIOD) (free : s.time.switch = none) : ¬ s.RefusesSwitch at_ := by
  rintro (soon | same | stands)
  · omega
  · exact new same
  · simp [free] at stands

theorem State.bellSwitch_zero (s : State) : s.bellSwitch 0 = ({ s with time := { s.time with switch := none } }, 0) := if_pos rfl

theorem State.bellSwitch_of_refused {s : State} {v : Nat} (hv : v ≠ 0) (h : s.RefusesSwitch (v * 65536)) : s.bellSwitch v = (s, 0x0A) :=
  (if_neg hv).trans (if_pos h)

theorem State.bellSwitch_of_accepted {s : State} {v : Nat} (hv : v ≠ 0) (h : ¬ s.RefusesSwitch (v * 65536)) :
    s.bellSwitch v = ({ s with time := { s.time with switch := some (v * 65536, s.ob O.BELL_PERIOD_NEXT) } }, 0) :=
  (if_neg hv).trans (if_neg h)

theorem exec_bellSwitch {who : Path} {v : BitVec 64} {s t u : State} {st : Nat} (h : s.Takes who O.BELL_SWITCH t)
    (hb : t.bellSwitch v.toNat = (u, st)) : exec (.bellSwitch who v) s = .next (u.answered who O.BELL_SWITCH st) :=
  congrArg Host.Outcome.next (State.access_answers h.1 h.2 hb)

/-! ### The switch instant (R451, R452) -/

/-- Time moves on to the instant; the period, the origin and the base change there, and what R452 names follows in its order. -/
theorem exec_periodSwitch {a p n : Nat} {s u v w : State} (up : s.Up) (pending : s.time.switch = some (a, p))
    (hu : u = s.advanceDev (a * devUnit)) (hn : n = u.bellAt a)
    (hv : v = { u with time := { u.time with t0 := a, n0 := n, switch := none } })
    (hw : w = ((((v.setOb O.BELL_PERIOD p).setOb O.BELL_ORIGIN a).setOb O.BELL_BASE n).count
      O.BELL_STAT 3 1).cancelBell.startsLate.missReset.heftRestamp) :
    exec .periodSwitch s = .next (if w.ob O.CIRC_HP_WINDOW = 0 then w else w.heavyReport).stepTicks := by
  change execPeriodSwitch s = _
  unfold execPeriodSwitch
  rw [live_of_up up, pending, hw, hv, hn, hu]

/-! ### A write of BELL_BASE (R454) -/

theorem State.writeBellBase_of_pending {s : State} {v : Nat} (h : s.time.switch.isSome = true) : s.writeBellBase v = (s, 0x0A) := if_pos h

theorem State.writeBellBase_of_free {s u : State} {v : Nat} (free : s.time.switch = none)
    (hu : u = (s.setOb O.BELL_BASE v).setOb O.BELL_PERIOD (s.ob O.BELL_PERIOD_NEXT)) :
    s.writeBellBase v = ({ u with time := { u.time with t0 := u.ob O.BELL_ORIGIN, n0 := v } }.stepTicks, 0) := by
  rw [State.writeBellBase, if_neg (by simp [free]), hu]

theorem exec_bellBaseWrite {who : Path} {v : BitVec 64} {s t u : State} {st : Nat} (h : s.Takes who O.BELL_BASE t)
    (hb : t.writeBellBase v.toNat = (u, st)) : exec (.bellBaseWrite who v) s = .next (u.answered who O.BELL_BASE st) :=
  congrArg Host.Outcome.next (State.access_answers h.1 h.2 hb)

/-! ### A route flip and its tick (R170) -/

/-- The tick lies ahead, no flip of the pasture is pending, and the bank it would turn to holds an entry. -/
theorem State.routeFlip_of_open {s : State} {p n48 : Nat} (ahead : s.bell < s.bellOf48 n48) (free : TMap.get 0 s.fwd.flips p = 0)
    (used : s.profileUsed (s.otherProfile p) = true) :
    s.routeFlip p n48 = ({ s with fwd := { s.fwd with flips := TMap.put 0 s.fwd.flips p (s.bellOf48 n48) } }, 0) := by
  rw [State.routeFlip, if_neg]
  rintro (begun | pending | empty)
  · omega
  · exact pending free
  · simp [used] at empty

theorem exec_routeFlip {who : Path} {pa : Fin 4096} {n : BitVec 48} {s t : State} (h : s.Takes who O.ROUTE_FLIP t)
    (ahead : t.bell < t.bellOf48 n.toNat) (free : TMap.get 0 t.fwd.flips pa.val = 0)
    (used : t.profileUsed (t.otherProfile pa.val) = true) : exec (.routeFlip who pa n) s =
      .next ({ t with fwd := { t.fwd with flips := TMap.put 0 t.fwd.flips pa.val (t.bellOf48 n.toNat) } }.answered who O.ROUTE_FLIP 0) :=
  congrArg Host.Outcome.next (State.access_answers h.1 h.2 (State.routeFlip_of_open ahead free used))

theorem exec_routeFlipApply_of_due {pa : Fin 4096} {s : State} (up : s.Up) (pending : TMap.get 0 s.fwd.flips pa.val ≠ 0)
    (begun : TMap.get 0 s.fwd.flips pa.val ≤ s.bell) : exec (.routeFlipApply pa) s = .next (s.flipApply pa.val) := by
  change execRouteFlipApply pa s = _
  unfold execRouteFlipApply
  rw [live_of_up up, if_neg pending, if_neg (Nat.not_lt.mpr begun)]

/-! ### The obligation -/

/-- Settles O35: each clause is the rule above for the command or the instant it names. -/
theorem periodCommands : Obligations.PeriodCommands := by
  unfold Obligations.PeriodCommands
  refine ⟨?period, ?default, ?switch, ?switchRefused, ?switchBack, ?instant, ?base, ?baseRefused, ?flip, ?flipApply⟩
  case period =>
    intro k s code _
    exact State.period_of_code code
  case default => exact ⟨State.reset_bellPeriod, State.period_of_code State.reset_bellPeriod⟩
  case switch =>
    intro who v s t taken hv ahead new free
    exact exec_bellSwitch taken (State.bellSwitch_of_accepted hv (State.not_refusesSwitch ahead new free))
  case switchRefused =>
    intro who v s t taken hv refused
    exact exec_bellSwitch taken (State.bellSwitch_of_refused hv refused)
  case switchBack =>
    intro who s t taken
    exact exec_bellSwitch taken t.bellSwitch_zero
  case instant =>
    intro a p n s u v w up pending hu hn hv hw
    exact exec_periodSwitch up pending hu hn hv hw
  case base =>
    intro who v s t u taken free hu
    exact exec_bellBaseWrite taken (State.writeBellBase_of_free free hu)
  case baseRefused =>
    intro who v s t taken pending
    exact exec_bellBaseWrite taken (State.writeBellBase_of_pending pending)
  case flip =>
    intro who pa n s t taken ahead free used
    exact exec_routeFlip taken ahead free used
  case flipApply =>
    rintro pa r e s up pending begun rfl rfl
    exact exec_routeFlipApply_of_due up pending begun

end Sys2Proof.Machine
end

section
/-!
SUPPORT and the settling of O39 (TallyCommands). What makes a row of TALLY_CFG one that may stand is said once (`tallyRowOk_iff`), so that
the clauses about such rows are read off it; the entry of the snapshot ring is a string of bytes of its own (`tallyRingBytes`), and what
HBM reads after it is written comes from the laws of a memory.
-/

namespace Sys2Proof.Machine

/-! ### Rows of TALLY_CFG that may stand (R548) -/

theorem tallyWide_iff {c : Nat} : tallyWide c = true ↔ c ∈ [0x00, 0x06, 0x09, 0x0E] := by simp [tallyWide, or_assoc]

theorem tallyOnDie_iff {e u die : Nat} : tallyOnDie e u die = true ↔
    e / 256 ∈ [0x00, 0x06, 0x09, 0x0E] ∨ e = 0x0C01 ∨ tallyDie e u = die := by
  simp only [tallyOnDie, Bool.or_eq_true, beq_iff_eq, tallyWide_iff, or_assoc]

/-- The three questions R548 puts to a row: its event, its chain bit, and its unit, which is not asked for an event of class 0. -/
theorem tallyRowOk_iff {n r : Nat} : tallyRowOk n r = true ↔
    tallyEvent (bits r 0 16) = true ∧ (r.testBit 31 = false ∨ n % 2 = 1) ∧
      (bits r 0 16 < 256 ∨ bits r 16 14 = 0x3FFF ∨
        (bits r 16 14 < tallyUnits (bits r 0 16) ∧ tallyOnDie (bits r 0 16) (bits r 16 14) (n / 2048) = true)) := by
  have classZero : bits r 0 16 = 0 ∨ bits r 0 16 / 256 = 0 ↔ bits r 0 16 < 256 := by omega
  have odd : ¬ n % 2 = 0 ↔ n % 2 = 1 := by omega
  simp only [tallyRowOk, Bool.and_eq_true, Bool.or_eq_true, Bool.not_eq_true', Bool.and_eq_false_iff, beq_iff_eq,
    beq_eq_false_iff_ne, decide_eq_true_eq]
  simp only [tEvent, tUnit, tChain, ← classZero, odd, and_assoc, or_assoc]

/-- Each of R548's grounds of rejection fails one of the three questions. -/
theorem tallyRowOk_of_refused {n r : Nat} (h : tallyEvent (bits r 0 16) = false ∨ (r.testBit 31 = true ∧ n % 2 = 0) ∨
    (256 ≤ bits r 0 16 ∧ bits r 16 14 ≠ 0x3FFF ∧ (tallyUnits (bits r 0 16) ≤ bits r 16 14 ∨
      (bits r 0 16 / 256 ∉ [0x00, 0x06, 0x09, 0x0E] ∧ bits r 0 16 ≠ 0x0C01 ∧ tallyDie (bits r 0 16) (bits r 16 14) ≠ n / 512 / 4)))) :
    tallyRowOk n r = false := by
  rw [← Bool.not_eq_true, tallyRowOk_iff]
  rintro ⟨event, chain, unit⟩
  obtain noEvent | ⟨chained, even⟩ | ⟨classed, notAll, noUnit | ⟨narrow, notLog, otherDie⟩⟩ := h
  · simp [noEvent] at event
  · obtain unchained | odd := chain
    · simp [chained] at unchained
    · omega
  · omega
  · obtain classZero | all | ⟨-, onDie⟩ := unit
    · omega
    · exact notAll all
    · obtain wide | log | die := tallyOnDie_iff.mp onDie
      · exact narrow wide
      · exact notLog log
      · omega

theorem tallyRowOk_of_unit {n r : Nat} (event : tallyEvent (bits r 0 16) = true) (chain : r.testBit 31 = false ∨ n % 2 = 1)
    (unit : bits r 16 14 < tallyUnits (bits r 0 16))
    (die : bits r 0 16 / 256 ∈ [0x00, 0x06, 0x09, 0x0E] ∨ tallyDie (bits r 0 16) (bits r 16 14) = n / 512 / 4) :
    tallyRowOk n r = true := by
  have onDie : tallyOnDie (bits r 0 16) (bits r 16 14) (n / 2048) = true := by
    rw [tallyOnDie_iff, show n / 2048 = n / 512 / 4 by omega]
    exact die.imp_right .inr
  exact tallyRowOk_iff.mpr ⟨event, chain, .inr (.inr ⟨unit, onDie⟩)⟩

/-- A row counts no event but its own, so that one of event 0 counts nothing that occurs (R549). -/
theorem tallyCounts_of_event_ne {r p e u : Nat} (h : bits r 0 16 ≠ e) : tallyCounts r p e u = false := by
  simp [tallyCounts, tEvent, h]

/-! ### Writes of TALLY_CFG and clears (R548, R551, R571) -/

theorem State.writeTallyCfg_of_ok {s : State} {n v : Nat} (h : tallyRowOk n (v % 2 ^ 32) = true) :
    s.writeTallyCfg n v = (((s.pairClear n).setRow O.TALLY_CFG n (v % 2 ^ 32)).pairClear n, 0) := if_neg (by rw [h]; decide)

theorem State.writeTallyCfg_of_refused {s : State} {n v : Nat} (h : tallyRowOk n (v % 2 ^ 32) = false) :
    s.writeTallyCfg n v = (s, 0x0A) := if_pos (by rw [h]; rfl)

theorem exec_tallyCfgWrite {who : Path} {n : Fin 8192} {v : BitVec 64} {s t u : State} {st : Nat} (h : s.Takes who O.TALLY_CFG t)
    (hb : t.writeTallyCfg n.val v.toNat = (u, st)) : exec (.tallyCfgWrite who n v) s = .next (u.answered who O.TALLY_CFG st) :=
  congrArg Host.Outcome.next (State.access_answers h.1 h.2 hb)

theorem State.tallyClear_of_range {s : State} {v lo n : Nat} (hlo : lo = bits v 0 13) (hn : n = bits v 16 14) (some_ : n ≠ 0)
    (fits : lo + n ≤ 8192) : s.tallyClear v =
      ({ s with obsv := { s.obsv with ctr := s.obsv.ctr.filter (fun x => decide (x.1 < lo ∨ lo + n ≤ x.1)) } }, 0) := by
  subst hlo hn
  exact if_neg (by omega)

theorem State.tallyClear_of_refused {s : State} {v : Nat} (h : bits v 16 14 = 0 ∨ 8192 < bits v 0 13 + bits v 16 14) :
    s.tallyClear v = (s, 0x0A) := if_pos h

theorem exec_tallyClear {who : Path} {v : BitVec 32} {s t u : State} {st : Nat} (h : s.Takes who O.TALLY_CLEAR t)
    (hb : t.tallyClear v.toNat = (u, st)) : exec (.tallyClear who v) s = .next (u.answered who O.TALLY_CLEAR st) :=
  congrArg Host.Outcome.next (State.access_answers h.1 h.2 hb)

/-! ### What a memory reads after a write -/

theorem State.hbm_wf {s : State} (h : s.tablesOk = true) : Memory.wf s.hbm = true := by
  obtain ⟨-, -, -, hbm, -⟩ := (State.tablesOk_iff s).mp h
  exact hbm

theorem take_memRead (m : TMap Byte) (a n k : Nat) : (memRead m a n).take k = memRead m a (min k n) := by
  induction n generalizing a k with
  | zero => simp [memRead]
  | succ n ih =>
    cases k with
    | zero => simp [memRead]
    | succ k => simp only [memRead, List.take_succ_cons, ih, Nat.succ_min_succ]

/-- The first bytes written read back, whatever is written behind them. -/
theorem memRead_memWrite_append {m : TMap Byte} (h : Memory.wf m = true) (a : Nat) (l l' : List Byte) :
    memRead (memWrite m a (l ++ l')) a l.length = l := by
  have whole := congrArg (List.take l.length) (memRead_memWrite h a (l ++ l'))
  rwa [take_memRead, List.take_left, List.length_append, Nat.min_eq_left (Nat.le_add_right _ _)] at whole

theorem State.hbmRead_hbmWrite_other {s : State} (ok : s.tablesOk = true) {a x : Nat} {l : List Byte} (p : Bool)
    (h : x < a ∨ a + l.length ≤ x) : (s.hbmWrite a l p).hbmRead x 1 = s.hbmRead x 1 :=
  congrArg (· :: []) (memWrite_other (State.hbm_wf ok) a l x h)

/-! ### The entry of the snapshot ring (R558, R570) -/

@[simp] theorem length_leBytes (n v : Nat) : (leBytes n v).length = n := by
  induction n generalizing v with
  | zero => rfl
  | succ n ih => rw [leBytes, List.length_cons, ih]

theorem length_flatMap_leBytes {α : Type} (l : List α) (k : Nat) (f : α → Nat) :
    (l.flatMap (fun x => leBytes k (f x))).length = l.length * k := by
  induction l with
  | nil => exact (Nat.zero_mul k).symm
  | cons x l ih => rw [List.flatMap_cons, List.length_append, length_leBytes, ih, List.length_cons, Nat.succ_mul, Nat.add_comm]

/-- The bytes of the ring's entry `e`: the 64 of its head, then 8 for each counter. -/
def tallyRingBytes (e : Nat × List (Nat × Nat)) : List Byte :=
  leBytes 64 e.1 ++ (List.range 8192).flatMap (fun n => leBytes 8 (TMap.get 0 e.2 n))

theorem length_tallyRingBytes (e : Nat × List (Nat × Nat)) : (tallyRingBytes e).length = 65600 := by
  rw [tallyRingBytes, List.length_append, length_leBytes, length_flatMap_leBytes, List.length_range]

/-- The state with the entry `e` taken from the buffer and in HBM from `place` on, the ring's head not yet moved on. -/
def State.tallyRingStored (s : State) (e : Nat × List (Nat × Nat)) (place : Nat) : State :=
  ({ s with obsv := { s.obsv with ringBuf := none } } : State).hbmWrite place (tallyRingBytes e)

section RingStored
variable {s : State} (ok : s.tablesOk = true) (e : Nat × List (Nat × Nat)) (place : Nat)
include ok

theorem State.tallyRingStored_tablesOk : (s.tallyRingStored e place).tablesOk = true :=
  (State.hbmWrite_keeps (Keeps.refl _) _ _ _).tables ok

theorem State.tallyRingStored_hbmRead_head : (s.tallyRingStored e place).hbmRead place 64 = leBytes 64 e.1 := by
  have head (l : List Byte) := memRead_memWrite_append (State.hbm_wf ok) place (leBytes 64 e.1) l
  simp only [length_leBytes] at head
  rw [State.hbmRead, State.tallyRingStored, State.hbmWrite_hbm, tallyRingBytes]
  exact head _

theorem State.tallyRingStored_hbmRead_other {a : Nat} (h : a < place ∨ place + 65600 ≤ a) :
    (s.tallyRingStored e place).hbmRead a 1 = s.hbmRead a 1 := by
  rw [← length_tallyRingBytes e] at h
  exact State.hbmRead_hbmWrite_other (s := { s with obsv := { s.obsv with ringBuf := none } }) ok false h

end RingStored

section RingEntry
variable {e : Nat × List (Nat × Nat)} {s : State} (up : s.Up) (buffered : s.obsv.ringBuf = some e)
include up buffered

theorem exec_tallyRingEntryWritten_of_open (on : s.ob O.TALLY_RING_SIZE ≠ 0)
    (open_ : s.stackShut (hpaStack (s.ob O.TALLY_RING_BASE)) = false) : exec (.tallyRingEntryWritten false) s =
      .next ((s.tallyRingStored e (s.ob O.TALLY_RING_BASE + 65600 * s.ob O.TALLY_RING_HEAD)).setOb O.TALLY_RING_HEAD
        ((s.ob O.TALLY_RING_HEAD + 1) % s.ob O.TALLY_RING_SIZE)) := by
  change execTallyRingEntryWritten false s = _
  unfold execTallyRingEntryWritten
  rw [live_of_up up, buffered]
  exact (if_neg (by rw [Bool.false_or]; exact ne_true_of_eq_false open_)).trans (if_neg on)

theorem exec_tallyRingEntryWritten_of_fault : exec (.tallyRingEntryWritten true) s =
    .next ((({ s with obsv := { s.obsv with ringBuf := none } } : State).setOb O.TALLY_RING_SIZE 0).raise O.TALLY_ERR 2) := by
  change execTallyRingEntryWritten true s = _
  unfold execTallyRingEntryWritten
  rw [live_of_up up, buffered]
  exact if_pos rfl

end RingEntry

/-! ### The obligation -/

/-- Settles O39: each clause is the rule above for the row, the clear or the ring entry it names. -/
theorem tallyCommands : Obligations.TallyCommands := by
  unfold Obligations.TallyCommands
  refine ⟨?write, ?writeRefused, ?rowsRefused, ?rowsAccepted, ?countsNothing, ?clear, ?clearRefused, ?entry, ?fault⟩
  case write =>
    intro who n v s t taken rowOk
    exact exec_tallyCfgWrite taken (State.writeTallyCfg_of_ok rowOk)
  case writeRefused =>
    intro who n v s serves refused
    exact exec_tallyCfgWrite ⟨serves, rfl⟩ (State.writeTallyCfg_of_refused refused)
  case rowsRefused =>
    rintro who n v r s serves rfl refused
    exact exec_tallyCfgWrite ⟨serves, rfl⟩ (State.writeTallyCfg_of_refused (tallyRowOk_of_refused refused))
  case rowsAccepted =>
    intro n r event chain unit die
    exact tallyRowOk_of_unit event chain unit die
  case countsNothing =>
    intro r p e u eventZero occurs
    exact tallyCounts_of_event_ne (by omega)
  case clear =>
    intro who v lo n s t taken hlo hn some_ fits
    exact exec_tallyClear taken (State.tallyClear_of_range hlo hn some_ fits)
  case clearRefused =>
    intro who v s serves refused
    exact exec_tallyClear ⟨serves, rfl⟩ (State.tallyClear_of_refused refused)
  case entry =>
    intro e s ok up buffered on open_
    refine ⟨_, exec_tallyRingEntryWritten_of_open up buffered on open_, rfl, ?headMoves, ?entryStands, ?restStays⟩
    case headMoves =>
      rw [State.ob, State.setOb]
      exact State.row_setRow_same (State.tallyRingStored_tablesOk ok e _) _ _ _
    case entryStands =>
      rw [State.hbmRead, State.setOb_hbm]
      exact State.tallyRingStored_hbmRead_head ok e _
    case restStays =>
      intro a outside
      rw [State.hbmRead, State.setOb_hbm]
      exact State.tallyRingStored_hbmRead_other ok e _ outside
  case fault =>
    rintro e s u up buffered rfl
    exact exec_tallyRingEntryWritten_of_fault up buffered

end Sys2Proof.Machine
end

section
/-!
SUPPORT and the settling of O41 (ResetSourcesAndCommands). What the assertion of a reset leaves is read off one equation, for a device that
is not too hot (`State.assertReset_of_cool`), and what the release of a source does off another (`State.releaseReset_of_held`); a power-on
reset is an assertion and then a release. RST_CMD asserts a reset where its check of the absence passes (`State.rstCmd_of_ok`).
-/

namespace Sys2Proof.Machine

/-! ### What the reach of a reset leaves of the sources, and what a power-on reset clears (R574, R587) -/

@[simp] theorem State.reachReset_sources (s : State) (w : Nat) : (s.reachReset w).power.sources = s.power.sources := by
  unfold State.reachReset
  dsimp only
  split <;> rfl

theorem keepsObj_powerOn (oid : Nat) : keepsObj 3 oid = false := if_pos (.inl rfl)

theorem State.reachReset_powerOn_objs (s : State) : (s.reachReset 3).objs = [] := by
  change s.objs.filter (fun x => keepsObj 3 (x.1 / 2 ^ 23) && _) = []
  refine List.filter_eq_nil_iff.mpr fun x _ => ?_
  rw [keepsObj_powerOn, Bool.false_and]
  decide

theorem State.row_reachReset_powerOn (s : State) (oid row : Nat) : (s.reachReset 3).row oid row = okeyDefault (okey oid row) := by
  rw [State.row, State.reachReset_powerOn_objs, TMap.get]

theorem State.reachReset_powerOn_sessions (s : State) : (s.reachReset 3).ctl.sessions = [] := rfl

theorem okeyDefault_oxpinKey {k : Nat} (h : k < 16) : okeyDefault (okey O.OXPIN_KEY k) = 0 := by
  revert k
  decide

/-! ### The assertion of a reset (R574 to R576) -/

/-- The state a reset of width `w` reaches, with the reset counted in row `row` and recorded, and a source that overlaps it marked. -/
def State.resetRecorded (s : State) (src : ResetSource) (w cause row : Nat) (ann : Bool) : State :=
  ((s.reachReset w).count O.RST_COUNT row 1).setOb O.RST_LAST (s.bell % 2 ^ 64 + cause <<< 64 + b2n ann <<< 67 +
    b2n (s.pcie.perst || s.power.sources.any (· != src)) <<< 68)

/-- Source `src` joins those that hold the device in reset, with its width, its cause, and whether it was announced. -/
def State.sourceJoins (s : State) (src : ResetSource) (w cause : Nat) (ann : Bool) : State :=
  { s with power := { s.power with
    sources := if s.power.sources.contains src then s.power.sources else s.power.sources ++ [src]
    width := max s.power.width w, cause := cause, announced := ann } }

theorem State.contains_sourceJoins (s : State) (src : ResetSource) (w cause : Nat) (ann : Bool) :
    (s.sourceJoins src w cause ann).power.sources.contains src = true := by
  unfold State.sourceJoins
  dsimp only
  split
  next stands => exact stands
  next new => simp

section Cool
variable {s : State} (cool : s.anyHot 105 = false) (src : ResetSource) (w cause row : Nat) (ann : Bool)
include cool

/-- A device that is not too hot: the reset reaches it and is recorded, and its source joins those that stand. -/
theorem State.assertReset_of_cool :
    s.assertReset src w cause row ann = (s.resetRecorded src w cause row ann).sourceJoins src w cause ann := by
  refine if_neg (c := (s.anyHot 105 && _) = true) ?_
  rw [cool, Bool.false_and]
  decide

theorem State.contains_assertReset : (s.assertReset src w cause row ann).power.sources.contains src = true := by
  rw [State.assertReset_of_cool cool]
  exact State.contains_sourceJoins _ _ _ _ _

theorem State.le_assertReset_width : w ≤ (s.assertReset src w cause row ann).power.width := by
  rw [State.assertReset_of_cool cool]
  exact Nat.le_max_right _ _

theorem State.assertReset_sources_of_none (noSource : s.power.sources = []) :
    (s.assertReset src w cause row ann).power.sources = [src] := by
  have recorded : (s.resetRecorded src w cause row ann).power.sources = [] := (s.reachReset_sources w).trans noSource
  rw [State.assertReset_of_cool cool, State.sourceJoins, recorded]
  rfl

theorem State.assertReset_ctl : (s.assertReset src w cause row ann).ctl = (s.reachReset w).ctl := by
  rw [State.assertReset_of_cool cool, State.sourceJoins, State.resetRecorded, State.setOb_ctl, State.count_ctl]

/-- A row that neither counts nor records a reset reads as its reach left it. -/
theorem State.row_assertReset_other (ok : s.tablesOk = true) {oid r : Nat} (notCount : okey oid r ≠ okey O.RST_COUNT row)
    (notLast : okey oid r ≠ okey O.RST_LAST 0) : (s.assertReset src w cause row ann).row oid r = (s.reachReset w).row oid r := by
  have reached : (s.reachReset w).tablesOk = true := (State.reachReset_keeps (Keeps.refl s) w).tables ok
  have counted : ((s.reachReset w).count O.RST_COUNT row 1).tablesOk = true := (State.count_keeps (Keeps.refl _) _ _ _).tables reached
  calc (s.assertReset src w cause row ann).row oid r
      = (s.resetRecorded src w cause row ann).row oid r := by
        rw [State.assertReset_of_cool cool, State.sourceJoins, State.row, State.row]
    _ = ((s.reachReset w).count O.RST_COUNT row 1).row oid r := State.row_setRow_other counted _ notLast
    _ = (s.reachReset w).row oid r := State.row_setRow_other reached _ notCount

end Cool

theorem okey_ne_of_oid_ne {a b c d : Nat} (hb : b < 2 ^ 23) (hd : d < 2 ^ 23) (h : a ≠ c) : okey a b ≠ okey c d :=
  fun same => h ((okey_inj hb hd).mp same).1

/-- A power-on reset clears the keys of the Oxpin. -/
theorem State.row_assertReset_powerOn_oxpinKey {s : State} (cool : s.anyHot 105 = false) (ok : s.tablesOk = true) (src : ResetSource)
    (cause row : Nat) (ann : Bool) (hrow : row < 2 ^ 23) {k : Nat} (hk : k < 16) :
    (s.assertReset src 3 cause row ann).row O.OXPIN_KEY k = 0 := by
  have notCount := okey_ne_of_oid_ne (a := O.OXPIN_KEY) (b := k) (c := O.RST_COUNT) (by omega) hrow (by decide)
  have notLast := okey_ne_of_oid_ne (a := O.OXPIN_KEY) (b := k) (c := O.RST_LAST) (d := 0) (by omega) (by decide) (by decide)
  rw [State.row_assertReset_other cool src 3 cause row ann ok notCount notLast, State.row_reachReset_powerOn, okeyDefault_oxpinKey hk]

/-! ### Pins and clocks (R576, R578) -/

section CrookUp
variable {s : State} (crook : s.crookUp = true)
include crook

theorem exec_coldResetPin : exec .coldResetPin s = .next (s.assertReset .coldPin 2 1 1 false) :=
  congrArg Host.Outcome.next (if_pos crook)

theorem exec_warmResetPin : exec .warmResetPin s = .next (s.assertReset .warmPin 1 3 3 false) :=
  congrArg Host.Outcome.next (if_pos crook)

theorem exec_refclkCoreLoss : exec .refclkCoreLoss s = .next ((s.assertReset .refclkCore 2 5 5 false).raise O.RST_ERR 1) :=
  congrArg Host.Outcome.next (if_pos crook)

end CrookUp

theorem exec_auxClkLoss (s : State) : exec .auxClkLoss s = .next ((s.assertReset .auxClk 3 6 5 false).raise O.RST_ERR 1) := rfl

/-! ### The release of a source (R575, R577, R582) -/

/-- The state once source `src` no longer stands. -/
def State.withoutSource (s : State) (src : ResetSource) : State :=
  { s with power := { s.power with sources := s.power.sources.filter (fun x => x != src) } }

theorem State.withoutSource_of_last {s : State} {src : ResetSource} (last : s.power.sources = [src]) :
    s.withoutSource src = { s with power := { s.power with sources := [] } } := by
  have gone : s.power.sources.filter (fun x => x != src) = [] := by simp [last]
  rw [State.withoutSource, gone]

/-- The Crook begins to run: the strap is measured. -/
def State.crookBegins (s : State) (samples : Nat) : State :=
  ({ s with ctl := { s.ctl with crookAt := s.now } } : State).measureStrap samples

theorem State.measureStrap_rest {s0 s : State} (h : Rest s0 s) (samples : Nat) : Rest s0 (s.measureStrap samples) := by
  have latched (a b c : Nat) := State.setOb_rest (State.setOb_rest (State.setOb_rest h O.STRAP_RAW a) O.STRAP_CODE b) O.STRAP_FLAGS c
  unfold State.measureStrap
  dsimp only
  split
  next reserved => exact State.raise_rest (latched _ _ _) _ _ _ _ _ _
  next listed => exact latched _ _ _

@[simp] theorem State.crookBegins_power (s : State) (samples : Nat) : (s.crookBegins samples).power = s.power :=
  (State.measureStrap_rest (Rest.refl { s with ctl := { s.ctl with crookAt := s.now } }) samples).power

section Release
variable {s : State} {src : ResetSource} (held : s.power.sources.contains src = true) (free : src ≠ .heat ∨ s.anyHot 105 = false)
  (samples rate width : Nat)
include held free

/-- A source that stands is released, heat only from a device that has cooled: the Crook may begin, and the device comes out if no other
source stands. -/
theorem State.releaseReset_of_held : s.releaseReset src samples rate width =
    let u := s.withoutSource src
    let t := if !s.crookUp && u.crookUp then u.crookBegins samples else u
    if t.power.sources.isEmpty then t.comeOut rate width else t := by
  refine if_neg ?_
  rintro (notHeld | ⟨heat, hot⟩)
  · rw [held] at notHeld
    exact absurd notHeld (by decide)
  · obtain other | cool := free
    · exact other heat
    · simp [cool] at hot

theorem State.releaseReset_of_crookUp (crook : s.crookUp = true) : s.releaseReset src samples rate width =
    if (s.withoutSource src).power.sources.isEmpty then (s.withoutSource src).comeOut rate width else s.withoutSource src := by
  rw [State.releaseReset_of_held held free]
  simp [crook]

theorem State.releaseReset_of_last (last : s.power.sources = [src]) (down : s.crookUp = false) :
    s.releaseReset src samples rate width = ((s.withoutSource src).crookBegins samples).comeOut rate width := by
  have gone : (s.withoutSource src).power.sources = [] := by rw [State.withoutSource_of_last last]
  have begins : (s.withoutSource src).crookUp = true := by simp [State.crookUp, gone]
  rw [State.releaseReset_of_held held free]
  simp [down, begins, gone]

end Release

theorem exec_resetRelease {s : State} {src : ResetSource} (samples : BitVec 48) (rate : Fin 7) (width : Fin 5) (crook : s.crookUp = true)
    (held : s.power.sources.contains src = true) (free : src ≠ .heat ∨ s.anyHot 105 = false) :
    exec (.resetRelease src samples rate width) s = .next (if (s.withoutSource src).power.sources.isEmpty then
      (s.withoutSource src).comeOut rate.val (2 ^ width.val) else s.withoutSource src) :=
  congrArg Host.Outcome.next (State.releaseReset_of_crookUp held free _ _ _ crook)

/-- With no source before it, a power-on reset is asserted and released by the AON rails alone, and the Crook begins in between. -/
theorem exec_powerOnReset {s : State} (samples : BitVec 48) (rate : Fin 7) (width : Fin 5) (noSource : s.power.sources = [])
    (cool : s.anyHot 105 = false) : exec (.powerOnReset samples rate width) s = .next
      ((((s.assertReset .aonRail 3 0 0 false).withoutSource .aonRail).crookBegins samples.toNat).comeOut rate.val (2 ^ width.val)) := by
  have sources := State.assertReset_sources_of_none cool .aonRail 3 0 0 false noSource
  refine congrArg Host.Outcome.next (State.releaseReset_of_last ?_ (.inl (by decide)) _ _ _ sources ?_)
  · simp [sources]
  · simp [State.crookUp, sources]

/-! ### RST_CMD (R579) -/

/-- The state with an absence of `n` ticks announced and counted, if `ann`. -/
def State.absenceAnnounced (s : State) (ann : Bool) (n : Nat) : State :=
  if ann then (s.announceAbsence n).count O.RST_COUNT 7 1 else s

section RstCmd
variable {s : State} {n : Nat} (idle : s.power.width = 0)
include idle

theorem State.rstCmd_of_ok {op : Nat} {ann : Bool} (known : op = 1 ∨ op = 2) (ticks : ann = true → 1 ≤ n ∧ n ≤ 1048576) :
    s.rstCmd op ann 0 n =
      let u := s.absenceAnnounced ann n
      ((if op = 1 then u.assertReset .command 1 4 4 ann else u.assertReset .command 2 2 2 ann).setOb O.RST_CMD_STATUS 0, 0) := by
  have accepted : ¬ (op = 0 ∨ 3 < op ∨ (ann = true ∧ (n = 0 ∨ 1048576 < n))) := by
    rintro (_ | _ | ⟨announced, _⟩)
    · omega
    · omega
    · have bounds := ticks announced
      omega
  obtain rfl | rfl := known <;> exact (if_neg (fun busy => busy idle)).trans (if_neg accepted)

theorem State.rstCmd_warm_of_ok {ann : Bool} (ticks : ann = true → 1 ≤ n ∧ n ≤ 1048576) : s.rstCmd 1 ann 0 n =
    (((s.absenceAnnounced ann n).assertReset .command 1 4 4 ann).setOb O.RST_CMD_STATUS 0, 0) := by
  rw [State.rstCmd_of_ok idle (.inl rfl) ticks]
  exact congrArg (fun t : State => (t.setOb O.RST_CMD_STATUS 0, 0)) (if_pos rfl)

theorem State.rstCmd_cold_of_ok {ann : Bool} (ticks : ann = true → 1 ≤ n ∧ n ≤ 1048576) : s.rstCmd 2 ann 0 n =
    (((s.absenceAnnounced ann n).assertReset .command 2 2 2 ann).setOb O.RST_CMD_STATUS 0, 0) := by
  rw [State.rstCmd_of_ok idle (.inr rfl) ticks]
  exact congrArg (fun t : State => (t.setOb O.RST_CMD_STATUS 0, 0)) (if_neg (by decide))

theorem State.rstCmd_of_badTicks {op : Nat} (known : op = 1 ∨ op = 2) (ticks : n = 0 ∨ 1048576 < n) :
    s.rstCmd op true 0 n = (s.setOb O.RST_CMD_STATUS 0x0A, 0x0A) := by
  obtain rfl | rfl := known <;> exact (if_neg (fun busy => busy idle)).trans (if_pos (.inr (.inr ⟨rfl, ticks⟩)))

end RstCmd

section RstCmdTaken
variable {who : Path} {ann : Bool} {n : BitVec 32} {s t u : State} {st : Nat} (taken : s.Takes who O.RST_CMD t)
include taken

theorem exec_rstCmdWarm (answer : t.rstCmd 1 ann 0 n.toNat = (u, st)) :
    exec (.rstCmdWarm who ann n) s = .next (u.answered who O.RST_CMD st) :=
  congrArg Host.Outcome.next (State.access_answers taken.1 taken.2 answer)

theorem exec_rstCmdCold (answer : t.rstCmd 2 ann 0 n.toNat = (u, st)) :
    exec (.rstCmdCold who ann n) s = .next (u.answered who O.RST_CMD st) :=
  congrArg Host.Outcome.next (State.access_answers taken.1 taken.2 answer)

end RstCmdTaken

/-! ### The obligation -/

/-- Settles O41: each clause is the rule above for the source, the release or the command it names. -/
theorem resetSourcesAndCommands : Obligations.ResetSourcesAndCommands := by
  unfold Obligations.ResetSourcesAndCommands
  refine ⟨?pins, ?auxClk, ?asserted, ?powerOn, ?release, ?commanded, ?refused⟩
  case pins =>
    intro s crook
    exact ⟨exec_coldResetPin crook, exec_warmResetPin crook, exec_refclkCoreLoss crook⟩
  case auxClk => exact exec_auxClkLoss
  case asserted =>
    rintro s u v cool rfl rfl
    refine ⟨?coldWidth, ?coldSource, ?powerOnWidth, ?powerOnSource, ?noSessions, ?noKeys⟩
    case coldWidth => exact State.le_assertReset_width cool _ _ _ _ _
    case coldSource => exact State.contains_assertReset cool _ _ _ _ _
    case powerOnWidth => exact State.le_assertReset_width cool _ _ _ _ _
    case powerOnSource => exact State.contains_assertReset cool _ _ _ _ _
    case noSessions => rw [State.assertReset_ctl cool, State.reachReset_powerOn_sessions]
    case noKeys =>
      intro ok k hk
      exact State.row_assertReset_powerOn_oxpinKey cool ok _ _ _ _ (by decide) hk
  case powerOn =>
    rintro samples rate width s u v w noSource cool rfl rfl rfl
    rw [exec_powerOnReset samples rate width noSource cool,
      State.withoutSource_of_last (State.assertReset_sources_of_none cool _ _ _ _ _ noSource), State.crookBegins]
  case release =>
    rintro src samples rate width l s u crook held free rfl rfl
    exact exec_resetRelease samples rate width crook held free
  case commanded =>
    rintro who ann n s t u taken idle ticks rfl
    exact ⟨exec_rstCmdWarm taken (State.rstCmd_warm_of_ok idle ticks), exec_rstCmdCold taken (State.rstCmd_cold_of_ok idle ticks)⟩
  case refused =>
    intro who n s t taken idle ticks
    exact ⟨exec_rstCmdWarm taken (State.rstCmd_of_badTicks idle (.inl rfl) ticks),
      exec_rstCmdCold taken (State.rstCmd_of_badTicks idle (.inr rfl) ticks)⟩

end Sys2Proof.Machine
end

section
/-!
SUPPORT and the settling of O1 to O6: the queue, the step and what every command keeps. That a command answers a next state is read off the
shapes its meaning is built of (`isNext_live`, `isNext_ite` and their like); what it keeps is the law of its operation in Laws/Keeps.
-/

namespace Sys2Proof.Machine

set_option Elab.async false

/-! ### Every command answers a next state -/

theorem isNext_next (s : State) : isNext (.next s) = true := rfl

theorem isNext_ite {p : Prop} [Decidable p] {a b : Ans} (ha : isNext a = true) (hb : isNext b = true) :
    isNext (if p then a else b) = true := by
  split
  · exact ha
  · exact hb

theorem isNext_live {s : State} {a : Ans} (h : isNext a = true) : isNext (live s a) = true := isNext_ite (isNext_next s) h

theorem isNext_awake {s : State} {a : Ans} (h : isNext a = true) : isNext (awake s a) = true := isNext_ite (isNext_next s) h

theorem isNext_readable {s : State} {a : Ans} (h : isNext a = true) : isNext (readable s a) = true :=
  isNext_ite (isNext_next s) (isNext_ite (isNext_next _) h)

theorem isNext_iff {a : Ans} : isNext a = true ↔ ∃ t, a = .next t := by
  cases a <;> simp [isNext]

/-- A command that is a write of one object of the dictionary is an access to that object, whose body says what the command does. -/
theorem exec_of_accessOf {c : Instr} {who : Path} {oid : Nat} (h : accessOf c = some (who, oid)) (s : State) :
    ∃ body, exec c s = .next (s.access who oid body) := by
  cases c
  case placementWrite who e v =>
    cases h
    by_cases readOnly : e.val = 0
    · exact ⟨_, by rw [readOnly]; exact if_pos readOnly⟩
    · exact ⟨_, if_neg readOnly⟩
  all_goals cases h
  all_goals exact ⟨_, rfl⟩

/-- A command ends in a next state on every branch of its meaning. -/
theorem exec_isNext (c : Instr) (s : State) : isNext (exec c s) = true := by
  cases h : accessOf c with
  | some access =>
    obtain ⟨body, served⟩ := exec_of_accessOf h s
    rw [served, isNext_next]
  | none =>
    cases c
    all_goals try contradiction
    all_goals
      dsimp only [exec, execRegisterWrite, execReadClearRegisterRead, execFenceStack, execOxpinOpenExpire, execOxpinCloseMessage,
        execBootDataSilence, execOxpinIdleTimeout]
      repeat' first
        | apply isNext_next
        | apply isNext_ite
        | apply isNext_live
        | apply isNext_awake
        | apply isNext_readable
        | split
        | dsimp only

/-! ### What every command keeps -/

theorem exec_keeps {c : Instr} {s t : State} (h : exec c s = .next t) : Keeps s t := by
  have start := Keeps.refl s
  cases c with
  | registerWrite a half v => exact execRegisterWrite_keeps a half v start _ h
  | readClearRegisterRead a half => exact execReadClearRegisterRead_keeps a half start _ h
  | objectWindowWrite idx el half v => exact execObjectWindowWrite_keeps idx el half v start _ h
  | objectWindowUndefinedAccess off size write => exact execObjectWindowUndefinedAccess_keeps off size write start _ h
  | directRegisterUndefinedAccess off size write => exact execDirectRegisterUndefinedAccess_keeps off size write start _ h
  | dictionaryRead who idx el off len => exact execDictionaryRead_keeps who idx el off len start _ h
  | dictionaryWrite who idx el off data => exact execDictionaryWrite_keeps who idx el off data start _ h
  | dictionaryCommand who idx el off data => exact execDictionaryCommand_keeps who idx el off data start _ h
  | dictionaryDescribe who idx el => exact execDictionaryDescribe_keeps who idx el start _ h
  | objectServerTimeout who => exact execObjectServerTimeout_keeps who start _ h
  | placementWrite who e v => exact execPlacementWrite_keeps who e v start _ h
  | portRoleWrite who b v => exact execPortRoleWrite_keeps who b v start _ h
  | portSplitWrite who b rate v => exact execPortSplitWrite_keeps who b rate v start _ h
  | portPoolMibWrite who b v => exact execPortPoolMibWrite_keeps who b v start _ h
  | portMaxFrameWrite who b v => exact execPortMaxFrameWrite_keeps who b v start _ h
  | foldFarSizeWrite who v => exact execFoldFarSizeWrite_keeps who v start _ h
  | ingressFrame port bytes fcsOk fifo => exact execIngressFrame_keeps port bytes fcsOk fifo start _ h
  | pfcXoffRepeat port prio => exact execPfcXoffRepeat_keeps port prio start _ h
  | voqHeadAdmission input dest cls => exact execVoqHeadAdmission_keeps input dest cls start _ h
  | admissionRetry input dest cls => exact execAdmissionRetry_keeps input dest cls start _ h
  | reorderTimeout src cls => exact execReorderTimeout_keeps src cls start _ h
  | gateMatch => exact execGateMatch_keeps start _ h
  | gateTransferWrite n => exact execGateTransferWrite_keeps n start _ h
  | ridgeRelayForward n => exact execRidgeRelayForward_keeps n start _ h
  | ridgeLinkFence l => exact execRidgeLinkFence_keeps l start _ h
  | cellRead use crcOk ecc bank => exact execCellRead_keeps use crcOk ecc bank start _ h
  | evictionAge qid busy => exact execEvictionAge_keeps qid busy start _ h
  | evictionOccupancy die busy => exact execEvictionOccupancy_keeps die busy start _ h
  | evictionWriteAck qid => exact execEvictionWriteAck_keeps qid start _ h
  | groupFetch qid => exact execGroupFetch_keeps qid start _ h
  | fetchComplete qid bad => exact execFetchComplete_keeps qid bad start _ h
  | egressSelect d => exact execEgressSelect_keeps d start _ h
  | frameDepartureStart d => exact execFrameDepartureStart_keeps d start _ h
  | launchTimeDue qid => exact execLaunchTimeDue_keeps qid start _ h
  | queueConfigWrite who qid v => exact execQueueConfigWrite_keeps who qid v start _ h
  | pfcFrameReceive port enable quanta => exact execPfcFrameReceive_keeps port enable quanta start _ h
  | pfcPauseExpire qid => exact execPfcPauseExpire_keeps qid start _ h
  | pfcWatchdogExpire qid => exact execPfcWatchdogExpire_keeps qid start _ h
  | qrecRingWriteFault => exact execQrecRingWriteFault_keeps start _ h
  | heftInsert die => exact execHeftInsert_keeps die start _ h
  | heftAgeSweep die => exact execHeftAgeSweep_keeps die start _ h
  | heftAgeShiftWrite who v => exact execHeftAgeShiftWrite_keeps who v start _ h
  | heftInsertStatic who mask e => exact execHeftInsertStatic_keeps who mask e start _ h
  | heftDelete who mask e => exact execHeftDelete_keeps who mask e start _ h
  | heftFlushPasture who mask pasture => exact execHeftFlushPasture_keeps who mask pasture start _ h
  | heftFlushPort who mask dev port => exact execHeftFlushPort_keeps who mask dev port start _ h
  | heftFlushAll who mask => exact execHeftFlushAll_keeps who mask start _ h
  | heftStashRetry who mask => exact execHeftStashRetry_keeps who mask start _ h
  | heftReqPop die => exact execHeftReqPop_keeps die start _ h
  | lpmAdd who v6 plen pasture nh pfx => exact execLpmAdd_keeps who v6 plen pasture nh pfx start _ h
  | lpmDelete who v6 plen pasture pfx => exact execLpmDelete_keeps who v6 plen pasture pfx start _ h
  | forwardingTableWrite who table row v => exact execForwardingTableWrite_keeps who table row v start _ h
  | routeFlip who pasture bell => exact execRouteFlip_keeps who pasture bell start _ h
  | routeFlipApply pasture => exact execRouteFlipApply_keeps pasture start _ h
  | routeFlipCancel who pasture => exact execRouteFlipCancel_keeps who pasture start _ h
  | routeHoldWrite who pasture v => exact execRouteHoldWrite_keeps who pasture v start _ h
  | routeSnap who pasture bell => exact execRouteSnap_keeps who pasture bell start _ h
  | routeSnapTake pasture => exact execRouteSnapTake_keeps pasture start _ h
  | routeFailoverClear who v => exact execRouteFailoverClear_keeps who v start _ h
  | laneSignalDetect b lane => exact execLaneSignalDetect_keeps b lane start _ h
  | laneTrainComplete b lane snr lanes => exact execLaneTrainComplete_keeps b lane snr lanes start _ h
  | presetAdaptDone b reached => exact execPresetAdaptDone_keeps b reached start _ h
  | codewordLock b lane skewOk => exact execCodewordLock_keeps b lane skewOk start _ h
  | helloSend b => exact execHelloSend_keeps b start _ h
  | helloReceive b rec => exact execHelloReceive_keeps b rec start _ h
  | bringupTimeout b => exact execBringupTimeout_keeps b start _ h
  | flitReceive b header payload errs => exact execFlitReceive_keeps b header payload errs start _ h
  | ackTimeoutReplay b => exact execAckTimeoutReplay_keeps b start _ h
  | lossOfSignal b lane => exact execLossOfSignal_keeps b lane start _ h
  | holdExpire b => exact execHoldExpire_keeps b start _ h
  | flockLinkDown port => exact execFlockLinkDown_keeps port start _ h
  | flockHoldExpire port => exact execFlockHoldExpire_keeps port start _ h
  | flockLinkUp port => exact execFlockLinkUp_keeps port start _ h
  | portRetrainQuiesce who b => exact execPortRetrainQuiesce_keeps who b start _ h
  | portRetrainNow who b => exact execPortRetrainNow_keeps who b start _ h
  | quiesceTimeout b => exact execQuiesceTimeout_keeps b start _ h
  | modulePathWrite who b n v a => exact execModulePathWrite_keeps who b n v a start _ h
  | moduleReadyTimeout b n => exact execModuleReadyTimeout_keeps b n start _ h
  | modulePoll b n answer => exact execModulePoll_keeps b n answer start _ h
  | moduleRetry b n a => exact execModuleRetry_keeps b n a start _ h
  | heavyPairWindowClose => exact execHeavyPairWindowClose_keeps start _ h
  | circHpWindowWrite who v => exact execCircHpWindowWrite_keeps who v start _ h
  | circArm who b => exact execCircArm_keeps who b start _ h
  | circDisarm who b => exact execCircDisarm_keeps who b start _ h
  | circArmTimeout b => exact execCircArmTimeout_keeps b start _ h
  | circPresetPin who b slot => exact execCircPresetPin_keeps who b slot start _ h
  | circPresetUnpin who b slot => exact execCircPresetUnpin_keeps who b slot start _ h
  | circPresetDelete who b slot => exact execCircPresetDelete_keeps who b slot start _ h
  | beatStart => exact execBeatStart_keeps start _ h
  | beatCommit units events ue bad => exact execBeatCommit_keeps units events ue bad start _ h
  | writeOutComplete half ue => exact execWriteOutComplete_keeps half ue start _ h
  | sentinelDue => exact execSentinelDue_keeps start _ h
  | droveTileFence who t => exact execDroveTileFence_keeps who t start _ h
  | droveTileUnfence who t => exact execDroveTileUnfence_keeps who t start _ h
  | droveTileSwitch who t => exact execDroveTileSwitch_keeps who t start _ h
  | droveTileSentinel who t => exact execDroveTileSentinel_keeps who t start _ h
  | droveTempBinsWrite who v => exact execDroveTempBinsWrite_keeps who v start _ h
  | droveSqDoorbell who dma r tail => exact execDroveSqDoorbell_keeps who dma r tail start _ h
  | descriptorFetch dma r => exact execDescriptorFetch_keeps dma r start _ h
  | droveAdmit from_ => exact execDroveAdmit_keeps from_ start _ h
  | operationComplete c => exact execOperationComplete_keeps c start _ h
  | remoteRequestReceive paddock bytes => exact execRemoteRequestReceive_keeps paddock bytes start _ h
  | remoteResponseReceive paddock bytes => exact execRemoteResponseReceive_keeps paddock bytes start _ h
  | remoteTimeout n => exact execRemoteTimeout_keeps n start _ h
  | droveSuspResume who c => exact execDroveSuspResume_keeps who c start _ h
  | droveSuspAbort who c => exact execDroveSuspAbort_keeps who c start _ h
  | droveRingConfigWrite who dma r n v => exact execDroveRingConfigWrite_keeps who dma r n v start _ h
  | hostAccessFault dma r use f => exact execHostAccessFault_keeps dma r use f start _ h
  | collCommCreate who r => exact execCollCommCreate_keeps who r start _ h
  | collCommDelete who id => exact execCollCommDelete_keeps who id start _ h
  | collPostReceive bytes => exact execCollPostReceive_keeps bytes start _ h
  | collPostFwdReceive bytes => exact execCollPostFwdReceive_keeps bytes start _ h
  | collNoteReceive bytes => exact execCollNoteReceive_keeps bytes start _ h
  | collStartReceive bytes => exact execCollStartReceive_keeps bytes start _ h
  | collInReceive bytes => exact execCollInReceive_keeps bytes start _ h
  | collStepReceive bytes => exact execCollStepReceive_keeps bytes start _ h
  | collResultReceive bytes => exact execCollResultReceive_keeps bytes start _ h
  | collDoneSend slot => exact execCollDoneSend_keeps slot start _ h
  | collAbortReceive bytes => exact execCollAbortReceive_keeps bytes start _ h
  | collTimeout slot => exact execCollTimeout_keeps slot start _ h
  | commonRequestReceive paddock bytes => exact execCommonRequestReceive_keeps paddock bytes start _ h
  | commonWalkComplete unit => exact execCommonWalkComplete_keeps unit start _ h
  | commonHbmAccessComplete unit nth ue => exact execCommonHbmAccessComplete_keeps unit nth ue start _ h
  | commonHoldExpire w => exact execCommonHoldExpire_keeps w start _ h
  | mirrorAckReceive bytes => exact execMirrorAckReceive_keeps bytes start _ h
  | mirrorTimeout id => exact execMirrorTimeout_keeps id start _ h
  | commonInval who data => exact execCommonInval_keeps who data start _ h
  | commonInvalComplete => exact execCommonInvalComplete_keeps start _ h
  | commonResync who pasture => exact execCommonResync_keeps who pasture start _ h
  | commonResponseReceive paddock bytes => exact execCommonResponseReceive_keeps paddock bytes start _ h
  | commonRequestTimeout paddock slot => exact execCommonRequestTimeout_keeps paddock slot start _ h
  | commonFaultPop => exact execCommonFaultPop_keeps start _ h
  | lostWalk => exact execLostWalk_keeps start _ h
  | lostWalkDone => exact execLostWalkDone_keeps start _ h
  | dmaDescriptorStart r => exact execDmaDescriptorStart_keeps r start _ h
  | dmaTransferComplete r => exact execDmaTransferComplete_keeps r start _ h
  | dmaRingRestart who r => exact execDmaRingRestart_keeps who r start _ h
  | dmaRingDisable who r => exact execDmaRingDisable_keeps who r start _ h
  | bellTick => exact execBellTick_keeps start _ h
  | bellOverrun c late => exact execBellOverrun_keeps c late start _ h
  | bellSwitch who v => exact execBellSwitch_keeps who v start _ h
  | periodSwitch => exact execPeriodSwitch_keeps start _ h
  | bellBaseWrite who v => exact execBellBaseWrite_keeps who v start _ h
  | bwthSet who v => exact execBwthSet_keeps who v start _ h
  | bwthSelWrite who v => exact execBwthSelWrite_keeps who v start _ h
  | ptpEventReceive port bytes => exact execPtpEventReceive_keeps port bytes start _ h
  | ptpSyncSend port x => exact execPtpSyncSend_keeps port x start _ h
  | timeSyncReceive b bytes => exact execTimeSyncReceive_keeps b bytes start _ h
  | ppsInEdge => exact execPpsInEdge_keeps start _ h
  | ppsInMissing => exact execPpsInMissing_keeps start _ h
  | domainSampleLoss x => exact execDomainSampleLoss_keeps x start _ h
  | ppsOutRise => exact execPpsOutRise_keeps start _ h
  | ppsOutFall => exact execPpsOutFall_keeps start _ h
  | bwthTimeRead => exact execBwthTimeRead_keeps start _ h
  | stileFifoOverrun cls => exact execStileFifoOverrun_keeps cls start _ h
  | heartbeatReceive b bytes => exact execHeartbeatReceive_keeps b bytes start _ h
  | suspect f => exact execSuspect_keeps f start _ h
  | suspectRepeat f => exact execSuspectRepeat_keeps f start _ h
  | floodFrameReceive b bytes => exact execFloodFrameReceive_keeps b bytes start _ h
  | voteExpire => exact execVoteExpire_keeps start _ h
  | floodRepeat => exact execFloodRepeat_keeps start _ h
  | absenceExpire f => exact execAbsenceExpire_keeps f start _ h
  | logSegmentFree => exact execLogSegmentFree_keeps start _ h
  | musterDeclareFailed who f => exact execMusterDeclareFailed_keeps who f start _ h
  | musterResume who f => exact execMusterResume_keeps who f start _ h
  | musterDeclareUnrecoverable who f => exact execMusterDeclareUnrecoverable_keeps who f start _ h
  | musterAnnounceAbsence who ticks => exact execMusterAnnounceAbsence_keeps who ticks start _ h
  | logEntryReceive bytes => exact execLogEntryReceive_keeps bytes start _ h
  | logEndReceive bytes => exact execLogEndReceive_keeps bytes start _ h
  | replayRestart f => exact execReplayRestart_keeps f start _ h
  | replayTimeout => exact execReplayTimeout_keeps start _ h
  | fenceBlock who b => exact execFenceBlock_keeps who b start _ h
  | fenceStack who st => exact execFenceStack_keeps who st start _ h
  | fencePaddock who p => exact execFencePaddock_keeps who p start _ h
  | fenceDevice who => exact execFenceDevice_keeps who start _ h
  | unfenceBlock who b => exact execUnfenceBlock_keeps who b start _ h
  | oxpinOpenReq field m => exact execOxpinOpenReq_keeps field m start _ h
  | oxpinOpenProof field m => exact execOxpinOpenProof_keeps field m start _ h
  | oxpinOpenExpire => exact execOxpinOpenExpire_keeps start _ h
  | oxpinSlotUnlock k => exact execOxpinSlotUnlock_keeps k start _ h
  | oxpinRequest field m => exact execOxpinRequest_keeps field m start _ h
  | oxpinSpdm field m => exact execOxpinSpdm_keeps field m start _ h
  | oxpinCloseMessage m => exact execOxpinCloseMessage_keeps m start _ h
  | oxpinIdleTimeout n => exact execOxpinIdleTimeout_keeps n start _ h
  | oxpinClose who n => exact execOxpinClose_keeps who n start _ h
  | oxpinKeyWrite who k v => exact execOxpinKeyWrite_keeps who k v start _ h
  | criotteWdtKick who => exact execCriotteWdtKick_keeps who start _ h
  | criotteWdtExpire => exact execCriotteWdtExpire_keeps start _ h
  | criotteHalt who => exact execCriotteHalt_keeps who start _ h
  | criotteRestart who => exact execCriotteRestart_keeps who start _ h
  | fwPush who len => exact execFwPush_keeps who len start _ h
  | fwVerifyDone => exact execFwVerifyDone_keeps start _ h
  | fwReady who => exact execFwReady_keeps who start _ h
  | bootReqSend => exact execBootReqSend_keeps start _ h
  | bootData bytes => exact execBootData_keeps bytes start _ h
  | bootEnd bytes => exact execBootEnd_keeps bytes start _ h
  | bootDataSilence => exact execBootDataSilence_keeps start _ h
  | featAcceptWrite who v => exact execFeatAcceptWrite_keeps who v start _ h
  | featApply who p n v => exact execFeatApply_keeps who p n v start _ h
  | featApplyTake p => exact execFeatApplyTake_keeps p start _ h
  | featuresFlood => exact execFeaturesFlood_keeps start _ h
  | mailboxGo f => exact execMailboxGo_keeps f start _ h
  | mailboxDone f => exact execMailboxDone_keeps f start _ h
  | doeObjectReceive m => exact execDoeObjectReceive_keeps m start _ h
  | doeAbort => exact execDoeAbort_keeps start _ h
  | eventRaise kind f unit arg => exact execEventRaise_keeps kind f unit arg start _ h
  | evqHeadWrite f v => exact execEvqHeadWrite_keeps f v start _ h
  | msixUnmask f v => exact execMsixUnmask_keeps f v start _ h
  | ringOwnerWrite k v => exact execRingOwnerWrite_keeps k v start _ h
  | bar2Access off n data bad => exact execBar2Access_keeps off n data bad start _ h
  | bar2BaseWrite v => exact execBar2BaseWrite_keeps v start _ h
  | functionLevelReset f => exact execFunctionLevelReset_keeps f start _ h
  | pcieHotReset => exact execPcieHotReset_keeps start _ h
  | perstAssert => exact execPerstAssert_keeps start _ h
  | perstRelease rate width => exact execPerstRelease_keeps rate width start _ h
  | tallyCfgWrite who n v => exact execTallyCfgWrite_keeps who n v start _ h
  | tallyClear who v => exact execTallyClear_keeps who v start _ h
  | tallyLowRead n => exact execTallyLowRead_keeps n start _ h
  | tallySnapAt who bell => exact execTallySnapAt_keeps who bell start _ h
  | tallySnapNow who => exact execTallySnapNow_keeps who start _ h
  | tallySnapshot => exact execTallySnapshot_keeps start _ h
  | tallyRingEntryWritten fault => exact execTallyRingEntryWritten_keeps fault start _ h
  | tallyHistClear who t => exact execTallyHistClear_keeps who t start _ h
  | fleeceCapturePoint point port queue pasture frame why => exact execFleeceCapturePoint_keeps point port queue pasture frame why start _ h
  | fleeceCapture who v => exact execFleeceCapture_keeps who v start _ h
  | fleeceSampleWrite who p v => exact execFleeceSampleWrite_keeps who p v start _ h
  | fleeceRecordWritten die fault => exact execFleeceRecordWritten_keeps die fault start _ h
  | powerOnReset samples rate width => exact execPowerOnReset_keeps samples rate width start _ h
  | coldResetPin => exact execColdResetPin_keeps start _ h
  | warmResetPin => exact execWarmResetPin_keeps start _ h
  | resetRelease src samples rate width => exact execResetRelease_keeps src samples rate width start _ h
  | rstCmdWarm who announce ticks => exact execRstCmdWarm_keeps who announce ticks start _ h
  | rstCmdCold who announce ticks => exact execRstCmdCold_keeps who announce ticks start _ h
  | rstCmdBlock who kind unit => exact execRstCmdBlock_keeps who kind unit start _ h
  | blockReset kind unit => exact execBlockReset_keeps kind unit start _ h
  | refclkCoreLoss => exact execRefclkCoreLoss_keeps start _ h
  | auxClkLoss => exact execAuxClkLoss_keeps start _ h
  | pwrCmd who target => exact execPwrCmd_keeps who target start _ h
  | powerStepDone late => exact execPowerStepDone_keeps late start _ h
  | pwrGate who kind unit => exact execPwrGate_keeps who kind unit start _ h
  | pwrUngate who kind unit => exact execPwrUngate_keeps who kind unit start _ h
  | stackGateComplete st => exact execStackGateComplete_keeps st start _ h
  | thermalSample temps rails watts => exact execThermalSample_keeps temps rails watts start _ h
  | deviceThermalTrip => exact execDeviceThermalTrip_keeps start _ h
  | hbmHot st t => exact execHbmHot_keeps st t start _ h
  | railOutOfRange rail => exact execRailOutOfRange_keeps rail start _ h
  | sequenceBreak rail => exact execSequenceBreak_keeps rail start _ h
  | refclkSdLoss p => exact execRefclkSdLoss_keeps p start _ h
  | refclkSdReturn p => exact execRefclkSdReturn_keeps p start _ h
  | refclkPcieLoss => exact execRefclkPcieLoss_keeps start _ h
  | refclkDrift => exact execRefclkDrift_keeps start _ h
  | codewordLockLoss b lane => exact execCodewordLockLoss_keeps b lane start _ h
  | tokenBucketRefill => exact execTokenBucketRefill_keeps start _ h
  | bellSlotOpen => exact execBellSlotOpen_keeps start _ h
  | ptpDelayReqSend port x => exact execPtpDelayReqSend_keeps port x start _ h
  | ptpGeneralMessageReceive port bytes => exact execPtpGeneralMessageReceive_keeps port bytes start _ h
  | mgmtArpNdEcho l => exact execMgmtArpNdEcho_keeps l start _ h
  | moduleDataPathActivated b n state => exact execModuleDataPathActivated_keeps b n state start _ h
  | hbmSensorBelow92 st t => exact execHbmSensorBelow92_keeps st t start _ h
  | musterLogEntryAccepted d => exact execMusterLogEntryAccepted_keeps d start _ h

/-- A step keeps all but the command it takes from the queue; on an empty queue time passes and nothing else. -/
theorem step_keeps {s t : State} (h : step s = .next t) : Keeps { s with pending := s.pending.tail } t := by
  unfold step at h
  split at h
  next empty =>
    cases h
    have same : { s with pending := s.pending.tail } = s := by
      cases s
      cases empty
      rfl
    rw [same]
    exact State.idle_keeps (Keeps.refl s)
  next c rest front =>
    rw [front]
    exact exec_keeps h

/-! ### The obligations -/

/-- Settles O3: the answer is a next state on every branch, and the law of the command's operation says what it keeps. -/
theorem everyCommandEndsSafely : Obligations.EveryCommandEndsSafely := by
  unfold Obligations.EveryCommandEndsSafely
  intro c s
  obtain ⟨t, ht⟩ := isNext_iff.mp (exec_isNext c s)
  exact ⟨t, ht, exec_keeps ht⟩

/-- Settles O4: the canonical form of the tables does not speak of the queue. -/
theorem stepKeepsCanonicalTables : Obligations.StepKeepsCanonicalTables := by
  unfold Obligations.StepKeepsCanonicalTables
  intro s t canonical h
  exact (step_keeps h).tables canonical

/-- Settles O5, from what a step keeps. -/
theorem queueIsServedInOrder : Obligations.QueueIsServedInOrder := by
  unfold Obligations.QueueIsServedInOrder
  intro s t h
  have kept := step_keeps h
  exact ⟨kept.pending, kept.now, kept.out⟩

/-- Settles O1: what a step does with a queue that is not empty. -/
theorem stepTakesTheFrontCommand : Obligations.StepTakesTheFrontCommand := by
  unfold Obligations.StepTakesTheFrontCommand
  intro c rest s front
  rw [step, front]

/-- Settles O2: the passing of time leaves the inner state of the blocks alone (`State.advance_rest`). -/
theorem emptyQueuePassesOneCellTime : Obligations.EmptyQueuePassesOneCellTime := by
  unfold Obligations.EmptyQueuePassesOneCellTime
  intro s empty
  have rest : Rest s s.idle := State.advance_rest (Rest.refl s) 2
  exact ⟨s.idle, by rw [step, empty], s.advance_now 2, rest.pending.trans empty, rest.blocks, rest.fold, rest.drove, rest.coll,
    rest.common, rest.muster, rest.regs, rest.power⟩

/-- Settles O6: every table is empty right after reset. -/
theorem resetTablesAreCanonical : Obligations.ResetTablesAreCanonical := by
  unfold Obligations.ResetTablesAreCanonical
  rfl

end Sys2Proof.Machine
end

section
/-!
SUPPORT and the settling of O8 (RegisterWriteEffects) and O9 (RegisterReadReturnsAndClears). An access that is answered at a direct register
is a read or a write of that register (`exec_registerWrite_bar0` and its like); what a write does there is said once for each register.
-/

namespace Sys2Proof.Machine

set_option Elab.async false

/-! ### When units act -/

theorem awake_of_awake {s : State} (h : s.Awake) (a : Ans) : awake s a = a := if_neg (not_not_intro h)

theorem State.up_iff {s : State} : s.Up ↔ s.Awake ∧ s.ob O.PWR_STATE ≠ 4 := by
  simp [State.Up, State.serverInReset]

theorem readable_of_up {s : State} (h : s.Up) (a : Ans) : readable s a = a := by
  obtain ⟨noReset, powered⟩ := State.up_iff.mp h
  exact (if_neg (not_not_intro noReset)).trans (if_neg powered)

/-! ### Accesses that reach a register -/

theorem directReg_aligned {off : Nat} (h : directReg off = true) : off / 8 * 8 < 0x4000000 ∧ directReg (off / 8 * 8) = true := by
  have aligned : off / 8 * 8 / 8 * 8 = off / 8 * 8 := by omega
  simp only [directReg, Bool.and_eq_true, decide_eq_true_eq, aligned] at h ⊢
  obtain ⟨below, run⟩ := h
  exact ⟨by omega, by omega, run⟩

theorem State.bar0Write_of_direct {s : State} {off : Nat} (who : RingWriter) (half : Option Bool) (v : Nat) (reg : directReg off = true)
    (below : off < 0x4000000) (answers : s.answers off = true) : s.bar0Write who off half v = s.regWrite who off half v := by
  simp [State.bar0Write, below, answers, reg]

theorem State.bar0Read_of_direct {s : State} {off : Nat} (half : Option Bool) (reg : directReg off = true) (below : off < 0x4000000) :
    s.bar0Read off half = s.regRead off half := by
  simp [State.bar0Read, below, reg]

theorem exec_registerWrite_bar0 {s : State} {off : BitVec 28} (half : Option Bool) (v : BitVec 64) (pf : s.fnUp 0 = true)
    (reg : directReg off.toNat = true) (answers : s.answers (off.toNat / 8 * 8) = true) :
    exec (.registerWrite (.bar0 off) half v) s = .next (s.regWrite .bar0 (off.toNat / 8 * 8) half v.toNat) := by
  obtain ⟨below, reg'⟩ := directReg_aligned reg
  refine congrArg Host.Outcome.next ((if_pos pf).trans ?_)
  exact State.bar0Write_of_direct _ _ _ reg' below answers

theorem exec_registerWrite_core {s : State} {off : BitVec 28} (half : Option Bool) (v : BitVec 64) (inside : off.toNat < 0x4000000)
    (reg : directReg off.toNat = true) (answers : s.answers (off.toNat / 8 * 8) = true) :
    exec (.registerWrite (.core off) half v) s = .next (s.regWrite .cores (off.toNat / 8 * 8) half v.toNat) := by
  obtain ⟨below, reg'⟩ := directReg_aligned reg
  refine congrArg Host.Outcome.next ((if_pos inside).trans ?_)
  exact State.bar0Write_of_direct _ _ _ reg' below answers

theorem exec_registerWrite_bar4 {s : State} {f : Fin 33} (off : BitVec 20) (half : Option Bool) (v : BitVec 64) (up : s.Awake)
    (there : s.fnUp f.val = true) :
    exec (.registerWrite (.bar4 f off) half v) s = .next (s.bar4Write f.val (off.toNat / 8 * 8) half v.toNat) :=
  (awake_of_awake up _).trans (congrArg Host.Outcome.next (if_pos there))

theorem exec_readClearRegisterRead_bar0 {s : State} {off : BitVec 28} (half : Option Bool) (pf : s.fnUp 0 = true)
    (reg : directReg off.toNat = true) :
    exec (.readClearRegisterRead (.bar0 off) half) s = .next (s.regRead (off.toNat / 8 * 8) half) := by
  obtain ⟨below, reg'⟩ := directReg_aligned reg
  refine congrArg Host.Outcome.next ((if_pos pf).trans ?_)
  exact State.bar0Read_of_direct _ reg' below

theorem exec_readClearRegisterRead_bar4 {s : State} {f : Fin 33} (off : BitVec 20) (half : Option Bool) (up : s.Awake)
    (there : s.fnUp f.val = true) :
    exec (.readClearRegisterRead (.bar4 f off) half) s = .next (s.bar4Read f.val (off.toNat / 8 * 8) half) :=
  (awake_of_awake up _).trans (congrArg Host.Outcome.next (if_pos there))

/-! ### What a write of a register does -/

theorem halfInto_none (cur : Nat) (v : BitVec 64) : halfInto none cur v.toNat = v.toNat := Nat.mod_eq_of_lt v.isLt

/-- Below the Drove's registers a write reaches FOLD_ERR alone. -/
theorem State.regWrite_of_readOnly {s : State} {off : Nat} (who : RingWriter) (half : Option Bool) (v : Nat) (below : off < 0x180000)
    (other : off ≠ 0x100068) : s.regWrite who off half v = s := by
  unfold State.regWrite
  dsimp only
  rw [if_neg other, if_neg (by omega), if_neg (by omega), if_neg (by omega), if_neg (by omega), if_neg (by omega), if_neg (by omega),
    if_neg (by omega), if_neg (by omega), if_neg (by omega), if_neg (by omega)]

/-- A register that gives a virtual function its pasture takes the low 12 bits. -/
theorem State.regWrite_pasture {s : State} {off : Nat} (who : RingWriter) (v : BitVec 64) (lo : 0x1E0100 ≤ off) (hi : off < 0x1E0200) :
    s.regWrite who off none v.toNat = s.setReg off (v.toNat % 4096) := by
  unfold State.regWrite
  dsimp only
  rw [if_neg (by omega), if_neg (by omega), if_neg (by omega), if_neg (by omega), if_neg (by omega), if_pos ⟨lo, hi⟩, halfInto_none]
  rfl

theorem State.bar4Write_evqBase {s : State} {f : Nat} (v : BitVec 64) (off_ : (s.fn f).evqCfg.testBit 5 = false) :
    s.bar4Write f 0x10000 none v.toNat = s.setFn f { s.fn f with evqBase := v.toNat / 64 * 64 } := by
  simp [State.bar4Write, off_, halfInto_none]

theorem State.bar4Write_mailbox {s : State} {f off : Nat} (v : BitVec 64) (lo : 0x11000 ≤ off) (hi : off < 0x11000 + 16400) :
    s.bar4Write f off none v.toNat =
      s.setFn f { s.fn f with mbxReq := patch (padTo 16400 (s.fn f).mbxReq) (off - 0x11000) (leBytes 8 v.toNat) } := by
  unfold State.bar4Write
  dsimp only
  rw [if_neg (by omega), if_neg (by omega), if_neg (by omega), if_neg (by omega), if_neg (by omega), if_pos ⟨lo, hi⟩, halfInto_none]

theorem exec_numVfsWrite {s : State} (v : BitVec 64) (up : s.Awake) (pf : s.fnUp 0 = true) (off_ : s.pcie.vfEnable = false) :
    exec (.registerWrite .numVfs none v) s = .next { s with pcie := { s.pcie with numVfs := min 32 v.toNat } } :=
  (awake_of_awake up _).trans (congrArg Host.Outcome.next (if_pos ⟨pf, by rw [off_]; rfl⟩))

theorem exec_vfEnableWrite {s : State} (v : BitVec 64) (up : s.Awake) (pf : s.fnUp 0 = true) :
    exec (.registerWrite .vfEnable none v) s = .next (s.writeVfEnable (v.toNat.testBit 0)) :=
  (awake_of_awake up _).trans (congrArg Host.Outcome.next (if_pos pf))

theorem exec_bar2SizeWrite {s : State} (v : BitVec 64) (up : s.Awake) (pf : s.fnUp 0 = true) (lo : 30 ≤ v.toNat) (hi : v.toNat ≤ 36) :
    exec (.registerWrite .bar2Size none v) s = .next { s with pcie := { s.pcie with bar2Log := v.toNat } } :=
  (awake_of_awake up _).trans (congrArg Host.Outcome.next (if_pos ⟨pf, lo, hi⟩))

theorem directReg_pasture (i : Fin 32) : directReg (0x1E0100 + 8 * i.val) = true := by
  revert i
  decide

/-- Settles O8: each clause is the rule above for the register it names. -/
theorem registerWriteEffects : Obligations.RegisterWriteEffects := by
  unfold Obligations.RegisterWriteEffects
  refine ⟨?foldErr, ?droveErr, ?readOnly, ?evqBase, ?numVfs, ?bar2Size, ?vfEnable, ?mailbox, ?pasture, ?sample⟩
  case foldErr =>
    intro half v s pf answers
    exact exec_registerWrite_bar0 half v pf (by decide) answers
  case droveErr =>
    intro half v s answers
    exact exec_registerWrite_core half v (by decide) (by decide) answers
  case readOnly =>
    intro off half v s pf reg answers below other
    rw [exec_registerWrite_bar0 half v pf reg answers, State.regWrite_of_readOnly _ _ _ (by omega) other]
  case evqBase =>
    intro f v s up there disabled
    rw [exec_registerWrite_bar4 _ _ v up there]
    exact congrArg Host.Outcome.next (State.bar4Write_evqBase v disabled)
  case numVfs => exact fun v s => exec_numVfsWrite v
  case bar2Size => exact fun v s => exec_bar2SizeWrite v
  case vfEnable =>
    rintro v s t up pf rfl
    rw [exec_vfEnableWrite v up pf, State.writeVfEnable]
    simp
  case mailbox =>
    intro f off v s up there aligned lo hi
    rw [exec_registerWrite_bar4 _ _ v up there, show off.toNat / 8 * 8 = off.toNat by omega, State.bar4Write_mailbox v lo hi]
  case pasture =>
    intro i v s pf answers
    have place : (BitVec.ofNat 28 (0x1E0100 + 8 * i.val)).toNat = 0x1E0100 + 8 * i.val := by
      rw [BitVec.toNat_ofNat]
      omega
    have aligned : (0x1E0100 + 8 * i.val) / 8 * 8 = 0x1E0100 + 8 * i.val := by omega
    rw [exec_registerWrite_bar0 none v pf (by rw [place]; exact directReg_pasture i) (by rw [place, aligned]; exact answers), place,
      aligned, State.regWrite_pasture _ v (by omega) (by omega)]
  case sample =>
    rintro who p v m s t taken rfl
    exact congrArg Host.Outcome.next (State.access_answers taken.1 taken.2 rfl)

/-! ### What a read of a register leaves (R26) -/

/-- What was sent, the objects and the memories are as before. -/
structure SameStore (s t : State) : Prop where
  out  : t.out = s.out
  objs : t.objs = s.objs
  hbm  : t.hbm = s.hbm
  host : t.host = s.host

theorem SameStore.refl (s : State) : SameStore s s := ⟨rfl, rfl, rfl, rfl⟩

theorem SameStore.ite {s t u : State} {c : Prop} [Decidable c] (ht : SameStore s t) (hu : SameStore s u) :
    SameStore s (if c then t else u) := by
  split
  · exact ht
  · exact hu

theorem State.setReg_sameStore (s : State) (off v : Nat) : SameStore s (s.setReg off v) := ⟨rfl, rfl, rfl, rfl⟩

/-- A read that clears or latches leaves the objects, the memories and what was sent. -/
theorem State.regClear_sameStore (s : State) (off : Nat) (half : Option Bool) : SameStore s (s.regClear off half) := by
  unfold State.regClear
  extract_lets low n
  exact .ite (s.setReg_sameStore _ _) (.ite (.ite ⟨rfl, rfl, rfl, rfl⟩ (.refl s)) (.ite (.ite ⟨rfl, rfl, rfl, rfl⟩ (.refl s))
    (.ite ⟨rfl, rfl, rfl, rfl⟩ (.ite (.ite (s.setReg_sameStore _ _) (.refl s)) (.refl s)))))

theorem State.regRead_of_answers {s : State} {off : Nat} (half : Option Bool) (answers : s.answers off = true) :
    s.regRead off half = (s.regClear off half).emit (.value (halfOf half (s.regValue off))) := by
  rw [State.regRead, if_pos answers]

theorem State.regClear_of_counters {s : State} {off : Nat} (half : Option Bool) (counters : rcMask off ≠ 0) :
    s.regClear off half = s.setReg off (oneClears (s.reg off) (rcMask off &&& halfMask half)) := if_pos counters

/-- The bits that a mask of 64 bits clears are clear. -/
theorem oneClears_and (w : Nat) {m : Nat} (h : m < 2 ^ 64) : oneClears w m &&& m = 0 := by
  have cleared : (2 ^ 64 - 1 - m) &&& m = 0 := by
    refine Nat.eq_of_testBit_eq fun i => ?_
    rw [Nat.testBit_and, Nat.zero_testBit, Nat.sub_sub, Nat.add_comm 1 m, Nat.testBit_two_pow_sub_succ h]
    cases m.testBit i <;> simp
  rw [oneClears, Nat.mod_eq_of_lt h, Nat.and_assoc, cleared, Nat.and_zero]

theorem oneClears_lt (w m : Nat) : oneClears w m < 2 ^ 64 := by
  refine Nat.lt_of_le_of_lt Nat.and_le_right ?_
  omega

theorem rcMask_and_halfMask_lt (off : Nat) (half : Option Bool) : rcMask off &&& halfMask half < 2 ^ 64 := by
  refine Nat.lt_of_le_of_lt Nat.and_le_right ?_
  obtain _ | _ | _ := half <;> decide

theorem State.regs_wf {s : State} (h : s.tablesOk = true) : TMap.wf (fun _ => 0) s.regs = true := by
  obtain ⟨-, -, regs, -, -⟩ := (State.tablesOk_iff s).mp h
  exact regs

theorem State.reg_setReg_same {s : State} (h : s.tablesOk = true) (off : Nat) {v : Nat} (hv : v < 2 ^ 64) :
    (s.setReg off v).reg off = v := by
  have stored := TMap.get_put_same (d := fun _ => 0) (State.regs_wf h) off (BitVec.ofNat 64 v)
  rw [State.reg, State.setReg]
  simp only [stored, BitVec.toNat_ofNat, Nat.mod_eq_of_lt hv]

theorem State.reg_setReg_other {s : State} (h : s.tablesOk = true) {off o : Nat} (v : Nat) (other : o ≠ off) :
    (s.setReg off v).reg o = s.reg o :=
  congrArg BitVec.toNat (TMap.get_put_other (d := fun _ => 0) (State.regs_wf h) _ _ _ _ other)

@[simp] theorem State.emit_reg (s : State) (o : Out) (off : Nat) : (s.emit o).reg off = s.reg off := rfl

/-- Settles O9: each clause is the rule above for the register it names; which bits a read clears is `oneClears_and`. -/
theorem registerReadReturnsAndClears : Obligations.RegisterReadReturnsAndClears := by
  unfold Obligations.RegisterReadReturnsAndClears
  refine ⟨?returned, ?cleared, ?bar4, ?config, ?heft, ?tally⟩
  case returned =>
    intro off half s pf reg answers
    obtain ⟨out, objs, hbm, host⟩ := s.regClear_sameStore (off.toNat / 8 * 8) half
    refine ⟨_, exec_readClearRegisterRead_bar0 half pf reg, ?_⟩
    rw [State.regRead_of_answers half answers]
    exact ⟨congrArg _ out, objs, hbm, host⟩
  case cleared =>
    intro off half s pf ok reg answers counters
    refine ⟨_, exec_readClearRegisterRead_bar0 half pf reg, ?_⟩
    simp only [State.regRead_of_answers half answers, State.regClear_of_counters half counters, State.emit_reg]
    refine ⟨?_, fun o other => State.reg_setReg_other ok _ other⟩
    rw [State.reg_setReg_same ok _ (oneClears_lt _ _), oneClears_and _ (rcMask_and_halfMask_lt _ half)]
  case bar4 => exact fun f off half s up there => exec_readClearRegisterRead_bar4 off half up there
  case config =>
    intro s up pf
    have answer (o : Out) : awake s (.next (if s.fnUp 0 then s.emit o else s)) = .next (s.emit o) :=
      (awake_of_awake up _).trans (congrArg Host.Outcome.next (if_pos pf))
    exact ⟨answer _, answer _, answer _⟩
  case heft => exact fun die s up => readable_of_up up _
  case tally => exact fun n s up => readable_of_up up _

end Sys2Proof.Machine
end

section
/-!
SUPPORT and the settling of O24 (WindowAccesses) and O25 (DictionaryRequests). A request that nothing turns away before its object is
looked at comes down to one equation (`State.dictCommand_of_served`), whose three branches are the read, the write and the describe.
-/

namespace Sys2Proof.Machine

set_option Elab.async false

/-! ### The BAR0 object window (R22 to R24) -/

section Window
variable {idx : BitVec 16} {el : BitVec 8} {s : State}

theorem exec_objectWindowWrite (half : Option Bool) (v : BitVec 64) (pf : s.fnUp 0 = true) (crook : s.crookUp = true) :
    exec (.objectWindowWrite idx el half v) s = .next (s.windowWrite (idx.toNat * 256 + el.toNat) half v.toNat) :=
  congrArg Host.Outcome.next (if_pos (by rw [pf, crook]; rfl))

/-- A write of a slot changes nothing where the slot takes nothing. -/
theorem exec_objectWindowWrite_of_idle (half : Option Bool) (v : BitVec 64)
    (idle : s.windowWrite (idx.toNat * 256 + el.toNat) half v.toNat = s) : exec (.objectWindowWrite idx el half v) s = .next s := by
  refine congrArg Host.Outcome.next ?_
  split
  · exact idle
  · rfl

end Window

section Slot
variable {s : State} {oid : Nat} {d : ObjDef} (object : objDef oid = some d)
include object

theorem State.windowWrite_of_refused (half : Option Bool) (v : Nat) (refused : d.ty.inSlot = false ∨ d.acc = .ro) :
    s.windowWrite oid half v = s := by
  have turnedAway : (!d.ty.inSlot) = true ∨ d.acc = .ro := refused.imp_left (by simp [·])
  unfold State.windowWrite
  split
  · rfl
  · rw [object]
    exact if_pos turnedAway

variable (up : s.Up) (slot : d.ty.inSlot = true)
include up slot

theorem State.windowWrite_whole (v : Nat) (writable : d.acc ≠ .ro) (notCommand : d.acc ≠ .cmd) :
    s.windowWrite oid none v = (s.writeValue .window oid 0 (v % 2 ^ (8 * d.ty.bytes)) d).1.served oid := by
  simp [State.windowWrite, show s.serverInReset = false from up, object, slot, writable, notCommand]

theorem State.windowWrite_half (upper : Bool) (v : Nat) (eight : d.ty.bytes = 8) (writable : d.acc = .rw) :
    s.windowWrite oid (some upper) v =
      (s.writeValue .window oid 0 (setBits (s.rowValue oid 0) (if upper then 32 else 0) 32 v) d).1.served oid := by
  simp [State.windowWrite, show s.serverInReset = false from up, object, slot, writable, eight]

end Slot

theorem State.windowWrite_of_reset {s : State} {oid : Nat} (half : Option Bool) (v : Nat) (reset : s.serverInReset = true)
    (served : crookSet oid = false) : s.windowWrite oid half v = s :=
  if_pos (by rw [reset, served]; rfl)

/-! ### Accesses to nothing (R24, R529) -/

/-- An access of 4 or 8 bytes at a multiple of its size, as the model asks for it. -/
theorem shaped_iff {size off : Nat} : ((size == 4 || size == 8) && off % size == 0) = true ↔ (size = 4 ∨ size = 8) ∧ off % size = 0 := by
  simp

theorem exec_directRegisterUndefinedAccess {off : BitVec 26} {size : BitVec 13} {s : State} (write : Bool) (up : s.Awake)
    (pf : s.fnUp 0 = true) (nothing : (size.toNat = 4 ∨ size.toNat = 8) ∧ off.toNat % size.toNat = 0 → directReg off.toNat = false) :
    exec (.directRegisterUndefinedAccess off size write) s =
      .next (if write then s.directBad write else (s.directBad write).emit (.value 0)) := by
  refine (awake_of_awake up _).trans (if_neg ?_)
  rintro (noPf | ⟨shaped, register⟩)
  · simp [pf] at noPf
  · simp [nothing (shaped_iff.mp shaped)] at register

theorem exec_objectWindowUndefinedAccess {off : BitVec 27} {size : BitVec 13} {s : State} (write : Bool) (crook : s.crookUp = true)
    (pf : s.fnUp 0 = true) (nothing : (size.toNat = 4 ∨ size.toNat = 8) ∧ off.toNat % size.toNat = 0 →
      objDef (off.toNat / 2048 * 256 + off.toNat % 2048 / 8) = none) : exec (.objectWindowUndefinedAccess off size write) s =
      .next (if write then s.windowBad write else (s.windowBad write).emit (.value 0)) := by
  refine if_neg ?_
  rintro (noPf | noCrook | ⟨shaped, object⟩)
  · simp [pf] at noPf
  · simp [crook] at noCrook
  · simp [nothing (shaped_iff.mp shaped)] at object

/-- Settles O24: each clause is the rule above for the slot or the access it names. -/
theorem windowAccesses : Obligations.WindowAccesses := by
  unfold Obligations.WindowAccesses
  refine ⟨?whole, ?half, ?refused, ?reset, ?register, ?object⟩
  case whole =>
    rintro idx el v d oid s pf crook up rfl object slot writable notCommand
    rw [exec_objectWindowWrite none v pf crook, State.windowWrite_whole object up slot _ writable notCommand]
  case half =>
    rintro idx el upper v d oid s pf crook up rfl object slot eight writable
    rw [exec_objectWindowWrite _ v pf crook, State.windowWrite_half object up slot upper _ eight writable]
  case refused =>
    intro idx el half v d s object refused
    exact exec_objectWindowWrite_of_idle half v (State.windowWrite_of_refused object half _ refused)
  case reset =>
    intro idx el half v s reset served
    exact exec_objectWindowWrite_of_idle half v (State.windowWrite_of_reset half _ reset served)
  case register =>
    intro off size s up pf nothing
    exact ⟨exec_directRegisterUndefinedAccess false up pf nothing, exec_directRegisterUndefinedAccess true up pf nothing⟩
  case object =>
    intro off size s crook pf nothing
    exact ⟨exec_objectWindowUndefinedAccess false crook pf nothing, exec_objectWindowUndefinedAccess true crook pf nothing⟩

/-! ### Requests that are served (R493, R496 to R498) -/

/-- What a served request does with its object, by its operation. -/
def State.dictAct (s : State) (who : Path) (op oid : Nat) (d : ObjDef) (off len : Nat) (data : List Byte) : State × DictReply :=
  match op with
  | 1 => s.dictRead who (pathLimit who false) oid d off len
  | 4 => (s, { status := 0, done := 16, data := d.describe })
  | n => s.dictWrite who n oid d off data

/-- A path's answer to what was done with an object. -/
def replied (who : Path) (oid : Nat) (r : State × DictReply) : Host.Outcome State Fault Refusal :=
  .next ((r.1.served oid).reply who r.2.status r.2.done r.2.data)

/-- Whether a path is a virtual function's mailbox. -/
def Path.isVf : Path → Bool
  | .vfMailbox _ => true
  | _ => false

/-- A path that is no virtual function's mailbox, or one at an object open to it, is not turned away for its path (R539). -/
theorem Path.reaches {who : Path} {oid : Nat} (open_ : ∀ v, who = .vfMailbox v → vfOpen oid = true) :
    ¬ (who.isVf && !vfOpen oid) = true := by
  cases who with
  | vfMailbox v => simp [open_ v rfl]
  | window => simp [Path.isVf]
  | pfMailbox => simp [Path.isVf]
  | cores => simp [Path.isVf]
  | oxpin i => simp [Path.isVf]

section Served
variable {who : Path} {oid : Nat} {d : ObjDef} {s u : State} (notWindow : who ≠ .window)
  (open_ : ∀ v, who = .vfMailbox v → vfOpen oid = true) (crook : s.crookUp = true) (object : objDef oid = some d)
  (counted : u = s.count O.CTL_STAT 0 1) (server : (u.serverInReset && !crookSet oid) = false)
include notWindow open_ crook object counted server

/-- A request that nothing turns away before its object is looked at: it is counted, acts, and is answered. -/
theorem State.dictCommand_of_served {op len : Nat} (off : Nat) (data : List Byte) (known : op ≠ 0 ∧ op ≤ 4)
    (carried : op = 4 ∨ len ≤ pathLimit who false) :
    Host.Outcome.next (s.dictCommand who op oid off len data) = replied who oid (u.dictAct who op oid d off len data) := by
  have wellFormed : ¬ (op = 0 ∨ 4 < op ∨ (op ≠ 4 ∧ pathLimit who false < len)) := by omega
  have request : s.request who false op oid off len data =
      ((u.dictAct who op oid d off len data).1.served oid, (u.dictAct who op oid d off len data).2) := by
    subst counted
    refine (if_neg wellFormed).trans ((if_neg (Path.reaches open_)).trans ?_)
    rw [object]
    exact if_neg (by rw [server]; decide)
  rw [State.dictCommand, if_neg (by simp [crook]), if_neg notWindow, request]
  rfl

end Served

section Acts
variable {u : State} {who : Path} {oid : Nat} {d : ObjDef}

theorem State.dictRead_of_role {off len : Nat} (role : d.rd.num ≤ u.roleOf who)
    (place : d.ty = .table ∨ d.stringy = true ∨ d.ty = .time112 ∨ off = 0) :
    u.dictRead who (pathLimit who false) oid d off len =
      let l := u.readBytes who.big oid d (u.sees who oid) off (if len = 0 then pathLimit who false else len)
      (u.readEffect oid, { status := 0, done := l.length, data := l }) := by
  refine (if_neg (by omega)).trans (if_neg ?_)
  obtain table | stringy | time | zero := place
  · simp [table]
  · simp [stringy]
  · simp [time]
  · simp [zero]

/-- The reply to what was written whole. -/
def wholeReply (data : List Byte) (r : State × Nat) : State × DictReply :=
  (r.1, { status := r.2, done := if r.2 = 0 then data.length else 0 })

variable {data : List Byte} (role : d.wr.num ≤ u.roleOf who)
include role

theorem State.dictWrite_table {off : Nat} (writable : d.acc ≠ .ro) (table : d.ty = .table) : u.dictWrite who 2 oid d off data =
    let r := u.writeTable who who.big oid d off data
    (r.1, { status := r.2.1, done := r.2.2 }) := by
  have roleOk : ¬ u.roleOf who < d.wr.num := by omega
  simp [State.dictWrite, writable, table, roleOk]

theorem State.dictWrite_number (writable : d.acc ≠ .ro) (notCommand : d.acc ≠ .cmd) (notTable : d.ty ≠ .table)
    (number : d.stringy = false) (exact_ : data.length = d.ty.bytes) : u.dictWrite who 2 oid d 0 data =
      wholeReply data (u.writeValue who oid 0 (leNum (commandBytes who.big d data)) d) := by
  have roleOk : ¬ u.roleOf who < d.wr.num := by omega
  simp [State.dictWrite, writable, notCommand, notTable, number, exact_, roleOk, wholeReply]

theorem State.dictWrite_string (writable : d.acc ≠ .ro) (notCommand : d.acc ≠ .cmd) (notTable : d.ty ≠ .table)
    (string : d.stringy = true) (fits : data.length ≤ d.size) :
    u.dictWrite who 2 oid d 0 data = wholeReply data (u.writeString who oid d data) := by
  have roleOk : ¬ u.roleOf who < d.wr.num := by omega
  have lengthOk : ¬ d.size < data.length := by omega
  simp [State.dictWrite, writable, notCommand, notTable, string, lengthOk, roleOk, wholeReply]

theorem State.dictWrite_commandString (command : d.acc = .cmd) (notTable : d.ty ≠ .table) (string : d.stringy = true)
    (whole : data.length = d.size) : u.dictWrite who 3 oid d 0 data = wholeReply data (u.command who oid data) := by
  have roleOk : ¬ u.roleOf who < d.wr.num := by omega
  simp [State.dictWrite, command, notTable, string, whole, roleOk, wholeReply]

theorem State.dictWrite_commandNumber (command : d.acc = .cmd) (notTable : d.ty ≠ .table) (number : d.stringy = false)
    (whole : data.length = d.ty.bytes) :
    u.dictWrite who 3 oid d 0 data = wholeReply data (u.command who oid (commandBytes who.big d data)) := by
  have roleOk : ¬ u.roleOf who < d.wr.num := by omega
  simp [State.dictWrite, command, notTable, number, whole, roleOk, wholeReply]

end Acts

/-- Settles O25: a request that is served is its object's read, write or describe (`State.dictCommand_of_served`). -/
theorem dictionaryRequests : Obligations.DictionaryRequests := by
  unfold Obligations.DictionaryRequests
  rintro who idx el off len data d oid F s u notWindow open_ crook rfl object counted server lenOk dataOk rfl
  have acts {op len : Nat} (off : Nat) (data : List Byte) :=
    State.dictCommand_of_served (op := op) (len := len) notWindow open_ crook object counted server off data
  have read := acts (op := 1) (len := len.toNat) off.toNat [] (by decide) (.inr lenOk)
  have write (off : Nat) := acts (op := 2) (len := data.length) off data (by decide) (.inr dataOk)
  have command := acts (op := 3) (len := data.length) 0 data (by decide) (.inr dataOk)
  refine ⟨?read, ?number, ?table, ?string, ?commandString, ?commandNumber, ?describe⟩
  case read =>
    rintro l role place rfl
    exact read.trans (congrArg (replied who _) (State.dictRead_of_role role place))
  case number =>
    intro writable notCommand role notTable number exact_
    exact (write 0).trans (congrArg (replied who _) (State.dictWrite_number role writable notCommand notTable number exact_))
  case table =>
    rintro r writable role table rfl
    exact (write off.toNat).trans (congrArg (replied who _) (State.dictWrite_table role writable table))
  case string =>
    intro writable notCommand role notTable string fits
    exact (write 0).trans (congrArg (replied who _) (State.dictWrite_string role writable notCommand notTable string fits))
  case commandString =>
    intro isCommand role notTable string whole
    exact command.trans (congrArg (replied who _) (State.dictWrite_commandString role isCommand notTable string whole))
  case commandNumber =>
    intro isCommand role notTable number whole
    exact command.trans (congrArg (replied who _) (State.dictWrite_commandNumber role isCommand notTable number whole))
  case describe => exact acts (op := 4) (len := 0) 0 [] (by decide) (.inl rfl)

end Sys2Proof.Machine
end

section
/-!
SUPPORT and the settling of O26 (MailboxAndTimeout) and O59 (AccessesAreTurnedAway). A named command that is turned away is an access that
never reaches its body (`State.access_of_unreached` and its like); a request that is turned away never reaches its object.
-/

namespace Sys2Proof.Machine

set_option Elab.async false

/-! ### The mailbox of a function (R538) -/

theorem exec_mailboxGo {f : Fin 33} {s : State} (there : s.fnUp f.val = true) (crook : s.crookUp = true) :
    exec (.mailboxGo f) s = .next (s.mailboxGo f.val) :=
  congrArg Host.Outcome.next (if_pos (by rw [there, crook]; rfl))

theorem State.mailboxGo_of_busy {s : State} {f : Nat} (busy : (s.fn f).mbxBusy = true) :
    s.mailboxGo f = (s.count O.PCIE_STAT 6 1).raise O.PCIE_ERR 6 := if_pos busy

theorem State.mailboxGo_of_free {s : State} {f : Nat} {m : List Byte} {r : State × DictReply} (free : (s.fn f).mbxBusy = false)
    (hm : m = padTo 16400 (s.fn f).mbxReq)
    (hr : r = s.requestBytes (if f = 0 then .pfMailbox else .vfMailbox (Fin.ofNat 33 f)) false (m.take (16 + leAt m 12 4))) :
    s.mailboxGo f = r.1.setFn f { r.1.fn f with mbxBusy := true, mbxAnswer := some (r.2.bytes false) } := by
  subst hm hr
  exact if_neg (by simp [free])

/-- The end of a request whose function asks for no vector: the answer lands and is counted, and the queue is told. -/
theorem exec_mailboxDone_of_noVector {f : Fin 33} {x : PciFn} {a : List Byte} {s : State} (hx : x = s.fn f.val)
    (busy : x.mbxBusy = true) (answer : x.mbxAnswer = some a) (noVector : x.mbxCfg.testBit 13 = false) :
    exec (.mailboxDone f) s = .next ((s.setFn f.val { x with
      mbxBusy := false, mbxDone := (x.mbxDone + 1) % 2 ^ 32, mbxAnswer := none, mbxResp := a }).event [f.val] 0x0C 0 (leAt a 0 1)) := by
  subst hx
  have noMessage : (s.fn f.val).takes 0x0C = true ∨ (!(s.fn f.val).mbxCfg.testBit 13) = true := .inr (by simp [noVector])
  change execMailboxDone f s = _
  unfold execMailboxDone
  dsimp only
  rw [if_neg (by simp [busy]), if_pos noMessage, answer]
  rfl

/-! ### What a virtual function sees (R539) -/

theorem leBytes_zero (n : Nat) : leBytes n 0 = List.replicate n 0 := by
  induction n with
  | zero => rfl
  | succ n ih => rw [leBytes, Nat.zero_div, ih]; rfl

/-- A whole row that its reader may not see reads as zero bytes. -/
theorem State.readBytes_unseen_row {s : State} {oid row : Nat} {d : ObjDef} {seen : Nat → Bool} (table : d.ty = .table)
    (sized : 0 < d.size) (inside : row < d.rows) (unseen : seen row = false) :
    s.readBytes false oid d seen (row * d.size) d.size = List.replicate d.size 0 := by
  have rest : d.size ≤ d.rows * d.size - row * d.size := by
    rw [← Nat.sub_mul]
    exact Nat.le_mul_of_pos_left _ (by omega)
  have oneRow : (row * d.size + d.size + d.size - 1) / d.size - row = 1 := by
    have last : (d.size - 1 + (row + 1) * d.size) / d.size = row + 1 := by
      rw [Nat.add_mul_div_right _ _ sized, Nat.div_eq_of_lt (by omega), Nat.zero_add]
    rw [show row * d.size + d.size + d.size - 1 = d.size - 1 + (row + 1) * d.size by rw [Nat.succ_mul]; omega, last]
    omega
  rw [State.readBytes, if_pos table, Nat.min_eq_left rest]
  simp [State.tableBytes, Nat.mul_div_cancel _ sized, oneRow, unseen, pathBytes, leBytes_zero]

theorem objDef_featPastureActive : objDef O.FEAT_PASTURE_ACTIVE =
    some { idx := 0x10, el := 5, ty := .table, acc := .ro, rd := .obs, wr := .obs, pers := .p1, size := 32, rows := 4096 } := by
  decide +kernel

theorem objDef_collRecent : objDef O.COLL_RECENT =
    some { idx := 0x3400, el := 6, ty := .table, acc := .ro, rd := .obs, wr := .obs, pers := .pv, size := 32, rows := 64 } := by
  decide +kernel

theorem exec_dictionaryRead_of_unseen {v : Fin 33} {idx : BitVec 16} {el : BitVec 8} {off len : BitVec 32} {d : ObjDef} {oid row : Nat}
    {s u : State} (crook : s.crookUp = true) (hoid : oid = idx.toNat * 256 + el.toNat)
    (open_ : oid = O.FEAT_PASTURE_ACTIVE ∨ oid = O.COLL_RECENT) (object : objDef oid = some d) (inside : row < d.rows)
    (place : off.toNat = row * d.size) (whole : len.toNat = d.size) (counted : u = s.count O.CTL_STAT 0 1) (up : u.Up)
    (unseen : u.sees (.vfMailbox v) oid row = false) : exec (.dictionaryRead (.vfMailbox v) idx el off len) s =
      .next ((u.served oid).reply (.vfMailbox v) 0 d.size (List.replicate d.size 0)) := by
  have shape : d.ty = .table ∧ d.size = 32 ∧ d.rd = .obs ∧ vfOpen oid = true ∧ oid ≠ O.ERRLOG_WRAPS := by
    obtain rfl | rfl := open_
    · cases objDef_featPastureActive.symm.trans object
      decide
    · cases objDef_collRecent.symm.trans object
      decide
  obtain ⟨table, size, role, vf, noEffect⟩ := shape
  have served := State.dictCommand_of_served (who := .vfMailbox v) (op := 1) (len := len.toNat) (by simp) (fun _ _ => vf) crook object
    counted (by simp [show u.serverInReset = false from up]) off.toNat [] (by decide) (.inr (by simp [pathLimit, whole, size]))
  have row_ : u.readBytes false oid d (u.sees (.vfMailbox v) oid) (row * d.size) d.size = List.replicate d.size 0 :=
    State.readBytes_unseen_row table (by omega) inside unseen
  subst hoid
  refine served.trans ?_
  have read := State.dictRead_of_role (u := u) (who := .vfMailbox v) (oid := idx.toNat * 256 + el.toNat) (off := off.toNat)
    (len := len.toNat) (d := d) (by rw [role]; exact Nat.le_refl 1) (.inl table)
  rw [State.dictAct, read, place, whole, if_neg (by omega)]
  simp only [Path.big, row_, State.readEffect, if_neg noEffect, List.length_replicate, replied]

/-! ### The object server's time-out and keys (R493, R502) -/

theorem exec_objectServerTimeout_cores {s u : State} (crook : s.crookUp = true) (up : s.Up)
    (hu : u = (s.advanceTo (s.now + 100000000)).count O.CTL_STAT 1 1) (first : (u.ob O.CTL_ERR).testBit 3 = false) :
    exec (.objectServerTimeout .cores) s =
      .next (({ u with ctl := { u.ctl with mainAlive := false } }.raise O.CTL_ERR 3 8).reply .cores 8 0 []) := by
  have acts : ¬ ((!s.crookUp) = true ∨ s.serverInReset = true) := by simp [crook, show s.serverInReset = false from up]
  have unlogged : ¬ ((State.ob { u with ctl := { u.ctl with mainAlive := false } } O.CTL_ERR).testBit 3) = true :=
    ne_true_of_eq_false first
  subst hu
  refine (if_neg acts).trans ?_
  dsimp only
  rw [if_neg unlogged]

theorem exec_oxpinIdleTimeout {i : Fin 8} {x : Session} {s : State} (session : s.session i.val = some x) :
    exec (.oxpinIdleTimeout i) s =
      .next (((s.advanceTo (x.lastNs + s.ob O.OXPIN_IDLE_S * 1000000000)).closeSession i.val).count O.OXPIN_STAT 5 1) := by
  change execOxpinIdleTimeout i s = _
  rw [execOxpinIdleTimeout, session]

theorem foldl_of_fixed {α β : Type} {f : α → β → α} {a : α} {l : List β} (h : ∀ b ∈ l, f a b = a) : l.foldl f a = a := by
  induction l with
  | nil => rfl
  | cons b l ih =>
    rw [List.foldl_cons, h b List.mem_cons_self]
    exact ih fun c hc => h c (List.mem_cons_of_mem _ hc)

/-- The sessions open under key slot `k` close. -/
def State.closeUnder (s : State) (k : Nat) : State :=
  (List.range 8).foldl (fun s i => match s.session i with
    | some x => if x.slot = k then s.closeSession i else s
    | none => s) s

theorem State.closeUnder_of_noSession {s : State} (k : Nat) (noSession : ∀ i, i < 8 → s.session i = none) : s.closeUnder k = s :=
  foldl_of_fixed fun i hi => by rw [noSession i (List.mem_range.mp hi)]

/-- A write of a key slot with a role that there is: the sessions and the opens under the slot go. -/
theorem State.writeKey_of_role {s u : State} {k v : Nat} (role : 1 ≤ bits v 256 8 ∧ bits v 256 8 ≤ 3)
    (hu : u = (s.setRow O.OXPIN_KEY k (bits v 0 264 + (bits v 264 1) <<< 264)).closeUnder k) :
    s.writeKey k v = ({ u with ctl := { u.ctl with opens := u.ctl.opens.filter (fun o => o.slot != k) } }, 0) := by
  unfold State.writeKey
  extract_lets r written closed
  have same : closed = u := hu.symm
  clear_value closed
  subst same
  exact if_neg (by omega)

/-- A key written while no session is open and no open waits: the slot takes it, and nothing closes. -/
theorem State.writeKey_of_quiet {s u : State} {k v : Nat} (role : 1 ≤ bits v 256 8 ∧ bits v 256 8 ≤ 3)
    (hu : u = s.setRow O.OXPIN_KEY k (bits v 0 264 + (bits v 264 1) <<< 264)) (noSession : ∀ i, i < 8 → u.session i = none)
    (noOpen : s.ctl.opens = []) : s.writeKey k v = (u, 0) := by
  have noOpen' : u.ctl.opens = [] := by rw [hu, State.setRow_ctl, noOpen]
  have keepsOpens : u.ctl.opens.filter (fun o => o.slot != k) = u.ctl.opens := by rw [noOpen']; rfl
  rw [State.writeKey_of_role role rfl, ← hu, State.closeUnder_of_noSession k noSession, keepsOpens]

theorem exec_oxpinKeyWrite_pf {k : Fin 8} {v : BitVec 320} {s t u : State} {st : Nat} (taken : s.Takes .pfMailbox O.OXPIN_KEY t)
    (answer : t.writeKey k.val v.toNat = (u, st)) :
    exec (.oxpinKeyWrite .pfMailbox k v) s = .next (u.answered .pfMailbox O.OXPIN_KEY st) :=
  congrArg Host.Outcome.next (State.access_answers taken.1 taken.2 answer)

theorem exec_oxpinKeyWrite_cores {k : Fin 8} {v : BitVec 320} {s : State} (serves : s.serves .cores O.OXPIN_KEY = true) :
    exec (.oxpinKeyWrite .cores k v) s = .next ((s.taken .cores).answered .cores O.OXPIN_KEY 0x02) :=
  congrArg Host.Outcome.next (State.access_answers serves rfl rfl)

/-- Settles O26: each clause is the rule above for the mailbox, the read or the key it names. -/
theorem mailboxAndTimeout : Obligations.MailboxAndTimeout := by
  unfold Obligations.MailboxAndTimeout
  refine ⟨?busy, ?go, ?done, ?sees, ?unseen, ?timeout, ?idle, ?key, ?keyOther⟩
  case busy =>
    intro f s there crook busy
    rw [exec_mailboxGo there crook, State.mailboxGo_of_busy busy]
  case go =>
    intro f m r s there crook free hm hr
    rw [exec_mailboxGo there crook, State.mailboxGo_of_free free hm hr]
  case done =>
    intro f x a s hx busy answer noVector
    exact exec_mailboxDone_of_noVector hx busy answer noVector
  case sees => exact fun v row s => ⟨rfl, rfl⟩
  case unseen =>
    intro v idx el off len d oid row s u crook _ hoid open_ object inside place whole counted up unseen
    exact exec_dictionaryRead_of_unseen crook hoid open_ object inside place whole counted up unseen
  case timeout =>
    intro s u crook up hu first
    exact exec_objectServerTimeout_cores crook up hu first
  case idle =>
    intro i x s session
    exact exec_oxpinIdleTimeout session
  case key =>
    intro k v s t taken role noSession noOpen
    exact exec_oxpinKeyWrite_pf taken (State.writeKey_of_quiet (by omega) rfl noSession noOpen)
  case keyOther =>
    intro k v s serves
    exact exec_oxpinKeyWrite_cores serves

/-! ### Accesses that never reach their body (R23, R493, R495, R577) -/

section Unreached
variable {s : State} {who : Path} {oid : Nat} {d : ObjDef} {body : State → State × Nat} (object : objDef oid = some d)
include object

/-- Without the Crook, and at the slot of a long object, nothing happens. -/
theorem State.access_of_unreached (unreached : s.crookUp = false ∨ (who = .window ∧ d.ty.inSlot = false)) :
    s.access who oid body = s := by
  unfold State.access
  rw [object]
  refine if_pos ?_
  obtain noCrook | ⟨window, long⟩ := unreached
  · simp [noCrook]
  · simp [window, long]

variable (ok : s.tablesOk = true) (crook : s.crookUp = true) (reached : who ≠ .window ∨ d.ty.inSlot = true)
include ok crook reached

theorem State.access_of_reset (reset : s.serverInReset = true) (served : crookSet oid = false) :
    s.access who oid body = (s.taken who).reply who 0x0D 0 [] := by
  have taken := (State.taken_inReset ok who).trans reset
  unfold State.access
  rw [object]
  refine (if_neg ?_).trans (if_pos (c := ((s.taken who).serverInReset && !crookSet oid) = true) (by simp [taken, served]))
  obtain other | slot := reached
  · simp [other, crook]
  · simp [slot, crook]

theorem State.access_of_noRight (server : s.serverInReset = false ∨ crookSet oid = true)
    (noRight : d.acc = .ro ∨ s.roleOf who < d.wr.num) : s.access who oid body = (s.taken who).reply who 0x02 0 [] := by
  have taken := State.taken_inReset ok who
  have role := State.taken_roleOf s who who
  have answers : ¬ ((s.taken who).serverInReset && !crookSet oid) = true := by
    rw [taken]
    obtain up | served := server
    · simp [up]
    · simp [served]
  unfold State.access
  rw [object]
  refine (if_neg ?_).trans ((if_neg answers).trans ?_)
  · obtain other | slot := reached
    · simp [other, crook]
    · simp [slot, crook]
  · obtain readOnly | low := noRight
    · exact if_pos readOnly
    · refine (ite_eq_left_iff.mpr fun _ => ?_)
      exact if_pos (c := (s.taken who).roleOf who < d.wr.num) (by omega)

end Unreached

/-! ### Requests that never reach their object (R495, R497, R539) -/

/-- An object is open to virtual functions exactly where R539 lists it. -/
theorem vfOpen_iff {oid : Nat} : vfOpen oid = true ↔ oid ∈ [0x000001, 0x000002, 0x000003, 0x000004, 0x000005, 0x000006, 0x000007,
    0x000008, 0x001001, 0x001002, 0x001005, 0x030007, 0x030401, 0x030404, 0x340006] := by
  have identity : 1 ≤ oid ∧ oid ≤ 8 ↔ oid = 1 ∨ oid = 2 ∨ oid = 3 ∨ oid = 4 ∨ oid = 5 ∨ oid = 6 ∨ oid = 7 ∨ oid = 8 := by omega
  simp [vfOpen, identity, or_assoc]

section Turned
variable {who : Path} {oid op len : Nat} {s u : State} (off : Nat) (data : List Byte) (notWindow : who ≠ .window)
  (crook : s.crookUp = true) (counted : u = s.count O.CTL_STAT 0 1) (known : op ≠ 0 ∧ op ≤ 4)
  (carried : op = 4 ∨ len ≤ pathLimit who false)
include notWindow crook counted known carried

theorem State.dictCommand_of_closed {v : Fin 33} (vf : who = .vfMailbox v) (closed : vfOpen oid = false) :
    s.dictCommand who op oid off len data = u.reply who 0x02 0 [] := by
  subst counted vf
  have request : s.request (.vfMailbox v) false op oid off len data = (s.count O.CTL_STAT 0 1, { status := 2 }) :=
    (if_neg (by omega)).trans (if_pos (by simp [closed]))
  rw [State.dictCommand, if_neg (by simp [crook]), if_neg notWindow, request]

variable (open_ : ∀ v, who = .vfMailbox v → vfOpen oid = true)
include open_

theorem State.dictCommand_of_noObject (noObject : objDef oid = none) :
    s.dictCommand who op oid off len data = u.reply who 0x01 0 [] := by
  subst counted
  have request : s.request who false op oid off len data = (s.count O.CTL_STAT 0 1, { status := 1 }) := by
    refine (if_neg (by omega)).trans ((if_neg (Path.reaches open_)).trans ?_)
    rw [noObject]
  rw [State.dictCommand, if_neg (by simp [crook]), if_neg notWindow, request]

theorem State.dictCommand_of_reset {d : ObjDef} (object : objDef oid = some d) (reset : u.serverInReset = true)
    (served : crookSet oid = false) : s.dictCommand who op oid off len data = u.reply who 0x0D 0 [] := by
  subst counted
  have request : s.request who false op oid off len data = (s.count O.CTL_STAT 0 1, { status := 0x0D }) := by
    refine (if_neg (by omega)).trans ((if_neg (Path.reaches open_)).trans ?_)
    rw [object]
    exact if_pos (by rw [reset, served]; rfl)
  rw [State.dictCommand, if_neg (by simp [crook]), if_neg notWindow, request]

end Turned

section NoRight
variable {u : State} {who : Path} {oid : Nat} {d : ObjDef}

theorem State.dictRead_of_noRight {limit off len : Nat} (low : u.roleOf who < d.rd.num) :
    u.dictRead who limit oid d off len = (u, { status := 2 }) := if_pos low

theorem State.dictWrite_of_noRight {off : Nat} {data : List Byte} (noRight : d.acc = .ro ∨ u.roleOf who < d.wr.num) :
    u.dictWrite who 2 oid d off data = (u, { status := 2 }) := by
  simp [State.dictWrite, noRight]

theorem State.dictWrite_of_notCommand {off : Nat} {data : List Byte} (notCommand : d.acc ≠ .cmd) :
    u.dictWrite who 3 oid d off data = (u, { status := 2 }) := if_pos ⟨rfl, notCommand⟩

end NoRight

/-! ### Power commands without a right (R589, R593) -/

theorem State.pwrGate_of_deep {s : State} (op kind u : Nat) (deep : 3 ≤ s.ob O.PWR_STATE) : s.pwrGate op kind u = (s, 0x0D) :=
  if_pos (.inr (.inl deep))

/-- Settles O59: each clause is the rule above for the access or the request it names. -/
theorem accessesAreTurnedAway : Obligations.AccessesAreTurnedAway := by
  unfold Obligations.AccessesAreTurnedAway
  refine ⟨?named, ?vfRole, ?vfObjects, ?vfClosed, ?requests, ?pwrCmd, ?pwrGate⟩
  case named =>
    intro c who oid d s access object ok
    obtain ⟨body, acts⟩ := exec_of_accessOf access s
    rw [acts]
    refine ⟨fun unreached => ?_, fun crook reached => ⟨fun reset served => ?_, fun server noRight => ?_⟩⟩
    · rw [State.access_of_unreached object unreached]
    · rw [State.access_of_reset object ok crook reached reset served]
    · rw [State.access_of_noRight object ok crook reached server noRight]
  case vfRole => exact fun v s => rfl
  case vfObjects => exact fun oid => vfOpen_iff
  case vfClosed =>
    rintro v idx el off len data s u crook lenOk dataOk closed rfl
    have turned {op len : Nat} (off : Nat) (data : List Byte) (known : op ≠ 0 ∧ op ≤ 4) (carried : op = 4 ∨ len ≤ 16384) :=
      State.dictCommand_of_closed (len := len) off data (who := .vfMailbox v) (by simp) crook rfl known carried rfl closed
    exact ⟨congrArg _ (turned _ _ (by decide) (.inr lenOk)), congrArg _ (turned _ _ (by decide) (.inr dataOk)),
      congrArg _ (turned _ _ (by decide) (.inr dataOk)), congrArg _ (turned _ _ (by decide) (.inl rfl))⟩
  case requests =>
    rintro who idx el off len data oid s u notWindow open_ crook rfl counted lenOk dataOk
    refine ⟨fun c hc => ?_, fun d v object server hv => ?_⟩
    · obtain ⟨op, o, n, l, known, carried, runs⟩ : ∃ op o n l, (op ≠ 0 ∧ op ≤ 4) ∧ (op = 4 ∨ n ≤ pathLimit who false) ∧
          exec c s = .next (s.dictCommand who op (idx.toNat * 256 + el.toNat) o n l) := by
        simp only [List.mem_cons, List.not_mem_nil, or_false] at hc
        obtain rfl | rfl | rfl | rfl := hc
        · exact ⟨1, _, _, _, by decide, .inr lenOk, rfl⟩
        · exact ⟨2, _, _, _, by decide, .inr dataOk, rfl⟩
        · exact ⟨3, _, _, _, by decide, .inr dataOk, rfl⟩
        · exact ⟨4, _, 0, _, by decide, .inl rfl, rfl⟩
      rw [runs]
      exact ⟨fun noObject => congrArg _ (State.dictCommand_of_noObject o l notWindow crook counted known carried open_ noObject),
        fun d object reset served =>
          congrArg _ (State.dictCommand_of_reset o l notWindow crook counted known carried open_ object reset served)⟩
    · subst hv
      have acts {op len : Nat} (off : Nat) (data : List Byte) :=
        State.dictCommand_of_served (op := op) (len := len) notWindow open_ crook object counted server off data
      refine ⟨fun low => ?_, fun noRight => ?_, fun notCommand => ?_⟩
      · exact (acts (op := 1) _ _ (by decide) (.inr lenOk)).trans (congrArg (replied who _) (State.dictRead_of_noRight low))
      · exact (acts (op := 2) _ _ (by decide) (.inr dataOk)).trans (congrArg (replied who _) (State.dictWrite_of_noRight noRight))
      · exact (acts (op := 3) _ _ (by decide) (.inr dataOk)).trans
          (congrArg (replied who _) (State.dictWrite_of_notCommand notCommand))
  case pwrCmd =>
    intro v s serves
    exact congrArg Host.Outcome.next (State.access_answers serves rfl (if_pos rfl))
  case pwrGate =>
    intro who k u s t taken deep
    have refused (op : Nat) := State.access_answers taken.1 taken.2 (body := fun t => t.pwrGate op k.toNat u.toNat)
      (State.pwrGate_of_deep op _ _ deep)
    exact ⟨congrArg Host.Outcome.next (refused 1), congrArg Host.Outcome.next (refused 2)⟩

end Sys2Proof.Machine
end

section
/-!
SUPPORT and the settling of O27 (HostMemoryWindow) and O28 (HostInterface): one lemma for each outcome of an access, a vector or a ring's
change of hands, which the clauses name.
-/

namespace Sys2Proof.Machine

set_option Elab.async false

/-! ### BAR2 (R530, R591) -/

section Bar2
variable {off : BitVec 36} {n : Fin 4097} {s : State} (up : s.Awake) (pf : s.fnUp 0 = true) (inside : off.toNat < 2 ^ s.pcie.bar2Log)
include up pf inside

theorem exec_bar2Access (data : Option (List Byte)) (bad : Bool) :
    exec (.bar2Access off n data bad) s = .next (s.bar2 off.toNat n.val data bad) := by
  refine (awake_of_awake up _).trans (if_neg ?_)
  rintro (noPf | outside)
  · simp [pf] at noPf
  · omega

end Bar2

section Bar2Read
variable {s : State} {off n : Nat} {bad : Bool}

theorem State.bar2_read_of_open (there : hpaExists (s.bar2Base + off) n = true)
    (awake_ : s.power.asleep.testBit (hpaStack (s.bar2Base + off)) = false) : s.bar2 off n none bad =
      s.emit (.completion 0 (s.hbmPoisoned (s.bar2Base + off) n) (s.hbmRead (s.bar2Base + off) n)) := by
  simp [State.bar2, there, awake_]

theorem State.bar2_read_of_asleep (there : hpaExists (s.bar2Base + off) n = true)
    (asleep : s.power.asleep.testBit (hpaStack (s.bar2Base + off)) = true) :
    s.bar2 off n none bad = s.bar2Bad.emit (.completion 4 false []) := by
  simp [State.bar2, there, asleep]

theorem State.bar2_read_of_beyond (beyond : hpaExists (s.bar2Base + off) n = false) :
    s.bar2 off n none bad = s.bar2Bad.emit (.completion 1 false []) := by
  simp [State.bar2, beyond]

theorem State.bar2_write_of_open {l : List Byte} (there : hpaExists (s.bar2Base + off) l.length = true)
    (awake_ : s.power.asleep.testBit (hpaStack (s.bar2Base + off)) = false) :
    s.bar2 off n (some l) false = s.hbmWrite (s.bar2Base + off) l := by
  simp [State.bar2, there, awake_]

end Bar2Read

theorem State.hbmRead_hbmWrite_same {s : State} (ok : s.tablesOk = true) (a : Nat) (l : List Byte) (p : Bool) :
    (s.hbmWrite a l p).hbmRead a l.length = l := memRead_memWrite (State.hbm_wf ok) a l

section Bar2Base
variable {v : BitVec 64} {s : State} (up : s.Awake)
include up

theorem exec_bar2BaseWrite : exec (.bar2BaseWrite v) s = .next (s.writeBar2 v.toNat) := awake_of_awake up _

theorem exec_bar2BaseWrite_of_aligned (aligned : (bits v.toNat 30 11 <<< 30) % 2 ^ s.pcie.bar2Log = 0)
    (fits : (bits v.toNat 30 11 <<< 30) + 2 ^ s.pcie.bar2Log ≤ 2 ^ 41) :
    exec (.bar2BaseWrite v) s = .next (s.setReg 0x1E0008 (bits v.toNat 30 11 <<< 30)) := by
  rw [exec_bar2BaseWrite up, State.writeBar2, if_neg (not_or.mpr ⟨not_not_intro aligned, Nat.not_lt.mpr fits⟩)]

theorem exec_bar2BaseWrite_of_misaligned (misaligned : (bits v.toNat 30 11 <<< 30) % 2 ^ s.pcie.bar2Log ≠ 0) :
    exec (.bar2BaseWrite v) s = .next s.bar2Bad := by
  rw [exec_bar2BaseWrite up, State.writeBar2, if_pos (.inl misaligned)]

end Bar2Base

/-! ### Host accesses that fail (R534) -/

theorem exec_hostAccessFault_operand {r : Fin 64} {f : HostFault} {s : State} (up : s.Up) (busy : (s.job r.val).live = true) :
    exec (.hostAccessFault true r .operand f) s = .next ((s.hostFault f).dmaFault r.val f.status
      ((if (s.job r.val).buf.isNone then dmaSrc (s.job r.val).desc else dmaDst (s.job r.val).desc) + (s.job r.val).pos)) :=
  (live_of_up up _).trans (if_pos (by rw [busy]; rfl))

theorem exec_hostAccessFault_record {r : Fin 64} {c : Fin 256} {f : HostFault} {s : State} (up : s.Up)
    (ended : (s.octx c.val).isOver = true) (acknowledged : s.outputsWait c.val = false) :
    exec (.hostAccessFault false r (.record c) f) s = .next (((s.hostFault f).ctxEnd c.val true).hostStop false r.val f) :=
  (live_of_up up _).trans ((if_neg (by decide)).trans (if_pos (by rw [ended, acknowledged]; rfl)))

/-- Settles O27: each clause is the rule above for the access it names; what HBM reads after a write comes from the laws of a memory. -/
theorem hostMemoryWindow : Obligations.HostMemoryWindow := by
  unfold Obligations.HostMemoryWindow
  refine ⟨?read, ?asleep, ?beyond, ?write, ?base, ?baseIgnored, ?operand, ?record⟩
  case read =>
    intro off n bad s up pf inside there awake_
    rw [exec_bar2Access up pf inside, State.bar2_read_of_open there awake_]
  case asleep =>
    intro off n bad s up pf inside there asleep
    rw [exec_bar2Access up pf inside, State.bar2_read_of_asleep there asleep, State.bar2Bad]
  case beyond =>
    intro off n bad s up pf inside beyond
    rw [exec_bar2Access up pf inside, State.bar2_read_of_beyond beyond, State.bar2Bad]
  case write =>
    rintro off n l a s ok up pf inside rfl there awake_
    refine ⟨_, exec_bar2Access up pf inside _ _, ?_⟩
    rw [State.bar2_write_of_open there awake_]
    exact ⟨State.hbmRead_hbmWrite_same ok _ l _, fun b outside => State.hbmRead_hbmWrite_other ok _ outside, rfl, rfl⟩
  case base => exact fun v s up => exec_bar2BaseWrite_of_aligned up
  case baseIgnored => exact fun v s up => exec_bar2BaseWrite_of_misaligned up
  case operand =>
    rintro r f j s up rfl busy
    exact exec_hostAccessFault_operand up busy
  case record => exact fun r c f s up => exec_hostAccessFault_record up

/-! ### Events (R536, R537) -/

/-- The functions that an event is put to, by its kind. -/
theorem State.routed_eq (s : State) (kind unit f : Nat) : s.routed kind unit f =
    if kind = 12 then [f] else if kind = 1 ∨ kind = 2 then s.ringFns (kind == 2) unit
    else if kind = 5 then ((s.commRow unit).map (fun i => s.pastureFns (cmPasture (s.comm i)))).getD [0] else [0] := by
  unfold State.routed
  split
  next => rfl
  next => rfl
  next => cases s.commRow unit <;> rfl
  next => rfl
  next ne1 ne2 ne5 ne12 => rw [if_neg ne12, if_neg (not_or.mpr ⟨ne1, ne2⟩), if_neg ne5]

theorem exec_eventRaise {kind : Fin 13} (f : Fin 33) (unit : BitVec 16) (arg : BitVec 32) {s : State} (up : s.Awake)
    (known : kind.val ≠ 0) : exec (.eventRaise kind f unit arg) s =
      .next (s.event (s.routed kind.val unit.toNat f.val) kind.val unit.toNat arg.toNat) :=
  (awake_of_awake up _).trans (if_neg known)

theorem exec_evqHeadWrite {f : Fin 33} (v : BitVec 64) {s : State} (up : s.Awake) (there : s.fnUp f.val = true) :
    exec (.evqHeadWrite f v) s = .next (s.evqHead f.val v.toNat) :=
  (awake_of_awake up _).trans (congrArg Host.Outcome.next (if_pos there))

/-! ### Vectors (R535) -/

section Vector
variable {f v : Nat} {s : State}

theorem State.sendVector_of_outside (outside : vectorsOf f ≤ v) : s.sendVector f v = s.count O.PCIE_STAT 5 1 := if_pos outside

theorem State.sendVector_of_masked (inside : v < vectorsOf f) (masked : (TMap.get msixReset (s.fn f).msix v).testBit 96 = true) :
    s.sendVector f v = s.setFn f { s.fn f with msixPend := (s.fn f).msixPend.add v } :=
  (if_neg (Nat.not_le.mpr inside)).trans (if_pos masked)

theorem State.sendVector_of_unmasked (inside : v < vectorsOf f) (unmasked : (TMap.get msixReset (s.fn f).msix v).testBit 96 = false) :
    s.sendVector f v = s.emit (.msix f (bits (TMap.get msixReset (s.fn f).msix v) 0 64) (bits (TMap.get msixReset (s.fn f).msix v) 64 32)) :=
  (if_neg (Nat.not_le.mpr inside)).trans (if_neg (ne_true_of_eq_false unmasked))

/-- Function `f` with entry `e` in its table at `v`. -/
def PciFn.withEntry (x : PciFn) (v e : Nat) : PciFn := { x with msix := TMap.put msixReset x.msix v e }

theorem State.msixSet_of_idle {e : Nat} (idle : (s.fn f).msixPend.contains v = false) :
    s.msixSet f v e = s.setFn f ((s.fn f).withEntry v e) := if_neg (by rw [idle, Bool.and_false]; decide)

theorem State.msixSet_of_pending {e : Nat} {t : State} (pending : (s.fn f).msixPend.contains v = true)
    (unmasked : e.testBit 96 = false) (ht : t = s.setFn f ((s.fn f).withEntry v e)) :
    s.msixSet f v e = (t.setFn f { t.fn f with msixPend := (t.fn f).msixPend.remove v }).sendVector f v := by
  subst ht
  exact if_pos (by rw [pending, unmasked]; rfl)

end Vector

theorem exec_msixUnmask {f : Fin 33} {v : Fin 2048} {s : State} (up : s.Awake) (there : s.fnUp f.val = true)
    (inside : v.val < vectorsOf f.val) : exec (.msixUnmask f v) s =
      .next (s.msixSet f.val v.val (clearBit (TMap.get msixReset (s.fn f.val).msix v.val) 96)) :=
  (awake_of_awake up _).trans (if_pos ⟨there, inside⟩)

/-! ### Rings and DOE (R533, R540) -/

theorem exec_ringOwnerWrite {k : Fin 96} {v : BitVec 64} {s : State} (up : s.Awake) (known : bits v.toNat 0 6 ≤ 32) :
    exec (.ringOwnerWrite k v) s = .next (if (s.ring (decide (48 ≤ k.val)) (k.val % 48)).resting then
      s.setReg (0x1E0200 + 8 * k.val) (bits v.toNat 0 6) else (s.count O.PCIE_STAT 7 1).raise O.PCIE_ERR 6) :=
  (awake_of_awake up _).trans (congrArg Host.Outcome.next (if_neg (Nat.not_lt.mpr known)))

/-- DOE Discovery of entry 0 names entry 0 itself and that entry 1 is next. -/
theorem exec_doeObjectReceive_discovery {s : State} (up : s.Awake) (pf : s.fnUp 0 = true) (crook : s.crookUp = true) :
    exec (.doeObjectReceive [1, 0, 0, 0, 3, 0, 0, 0, 0, 0, 0, 0]) s =
      .next ({ s with pcie := { s.pcie with doe := some (doeObject 0 [1, 0, 0, 1]) } }.emit (.doe (doeObject 0 [1, 0, 0, 1]))) := by
  refine (awake_of_awake up _).trans (if_neg ?_)
  rw [pf, crook]
  decide

theorem exec_doeObjectReceive_of_otherVendor {m : List Byte} {s : State} (up : s.Awake) (other : leAt m 0 2 ≠ 1) :
    exec (.doeObjectReceive m) s = .next { s with pcie := { s.pcie with doe := none } } :=
  (awake_of_awake up _).trans (if_pos (.inr (.inr (.inr (.inr (.inl other))))))

/-- Settles O28: each clause is the rule above for the event, the vector, the ring or the object it names. -/
theorem hostInterface : Obligations.HostInterface := by
  unfold Obligations.HostInterface
  refine ⟨?event, ?head, ?idle, ?pending, ?vectors, ?outside, ?masked, ?unmasked, ?owner, ?discovery, ?otherVendor, ?abort⟩
  case event =>
    intro kind f unit arg s up known
    rw [exec_eventRaise f unit arg up known, State.routed_eq]
  case head => exact fun f v s => exec_evqHeadWrite v
  case idle =>
    rintro f v x y s up there inside rfl idle rfl
    rw [exec_msixUnmask up there inside, State.msixSet_of_idle idle]
    rfl
  case pending =>
    rintro f v x y s t up there inside rfl pending unmasked rfl ht
    rw [exec_msixUnmask up there inside, State.msixSet_of_pending pending unmasked ht]
  case vectors => exact ⟨rfl, fun f vf => if_neg vf⟩
  case outside => exact fun f v s => State.sendVector_of_outside
  case masked =>
    rintro f v e s inside rfl masked
    exact State.sendVector_of_masked inside masked
  case unmasked =>
    rintro f v e s inside rfl unmasked
    exact State.sendVector_of_unmasked inside unmasked
  case owner => exact fun k v s => exec_ringOwnerWrite
  case discovery => exact fun s => exec_doeObjectReceive_discovery
  case otherVendor => exact fun m s => exec_doeObjectReceive_of_otherVendor
  case abort => exact fun s up => awake_of_awake up _

end Sys2Proof.Machine
end

section
/-!
SUPPORT and the settling of O29 (CriotteAndFirmware) and O30 (NetworkBoot): one lemma for each outcome of a command or of a message of the
network boot, which the clauses name.
-/

namespace Sys2Proof.Machine

set_option Elab.async false

/-! ### The cores and their watchdog (R490, R491) -/

theorem exec_criotteWdtKick {who : Path} {s t : State} (taken : s.Takes who O.CRIOTTE_WDT_KICK t) :
    exec (.criotteWdtKick who) s = .next (t.wdtStart.answered who O.CRIOTTE_WDT_KICK 0) :=
  congrArg Host.Outcome.next (State.access_answers taken.1 taken.2 rfl)

/-- The watchdog's period passes, in a device whose flag of it is clear. -/
theorem exec_criotteWdtExpire {t0 : Nat} {s u v : State} (up : s.Up) (running : s.ctl.wdtAt = some t0) (hu : u = s.advanceTo t0)
    (hv : v = ({ u with ctl := { u.ctl with wdtAt := none } }.coresFrom 1 0).count O.CTL_STAT 2 1)
    (first : (v.ob O.CTL_ERR).testBit 4 = false) : exec .criotteWdtExpire s = .next ((v.raise O.CTL_ERR 4).event [0] 8 4 0) := by
  subst hu
  change execCriotteWdtExpire s = _
  unfold execCriotteWdtExpire
  rw [live_of_up up, running]
  dsimp only
  rw [← hv, if_neg (ne_true_of_eq_false first)]

section CriotteCmd
variable {who : Path} {s t : State} (taken : s.Takes who O.CRIOTTE_CMD t)
include taken

theorem exec_criotteHalt : exec (.criotteHalt who) s = .next ((t.coresFrom 1 0).answered who O.CRIOTTE_CMD 0) :=
  congrArg Host.Outcome.next (State.access_answers taken.1 taken.2 rfl)

theorem exec_criotteRestart_of_loaded (loaded : t.ob O.FW_STATE = 3 ∨ t.ob O.FW_STATE = 4) : exec (.criotteRestart who) s =
    .next ((t.fwRestart.setOb O.PWR_WAKE_FROM (t.ob O.PWR_STATE)).answered who O.CRIOTTE_CMD 0) :=
  congrArg Host.Outcome.next (State.access_answers taken.1 taken.2 (if_pos loaded))

theorem exec_criotteRestart_of_noImage (noImage : t.ob O.FW_STATE < 3) :
    exec (.criotteRestart who) s = .next (t.answered who O.CRIOTTE_CMD 0x0A) :=
  congrArg Host.Outcome.next (State.access_answers taken.1 taken.2 (if_neg (by omega)))

end CriotteCmd

/-! ### The firmware (R514 to R517) -/

section FwPush
variable {s : State} (n : Nat)

theorem State.fwPush_of_busy (busy : 1 ≤ s.ob O.FW_STATE ∧ s.ob O.FW_STATE ≤ 4) : s.fwPush n = (s, 0x0D) := if_pos busy

theorem State.fwPush_of_network (idle : s.ob O.FW_STATE = 0) (network : s.netBoot = true) : s.fwPush n = (s, 0x09) :=
  (if_neg (by omega)).trans (if_pos network)

theorem State.fwPush_of_idle (idle : s.ob O.FW_STATE = 0) (local_ : s.netBoot = false) :
    s.fwPush n = ({ s.setFw 2 with ctl := { (s.setFw 2).ctl with fwVerify := some n } }, 0) :=
  (if_neg (by omega)).trans (if_neg (ne_true_of_eq_false local_))

end FwPush

theorem exec_fwPush {who : Path} {n : BitVec 64} {s t u : State} {st : Nat} (taken : s.Takes who O.FW_PUSH t)
    (answer : t.fwPush n.toNat = (u, st)) : exec (.fwPush who n) s = .next (u.answered who O.FW_PUSH st) :=
  congrArg Host.Outcome.next (State.access_answers taken.1 taken.2 answer)

theorem State.fwCheck_of_wrongMagic {s : State} {n : Nat} {h g p : List Byte} (magic : leAt h 0 4 ≠ 0x44563746) : s.fwCheck n h g p = 1 :=
  if_pos (.inl magic)

theorem State.fwJudge_eq (s : State) (n : Nat) (h g p : List Byte) : s.fwJudge n h g p = if s.fwCheck n h g p = 0 then
    ((s.fwLoad h g p).coresStart).setOb O.PWR_WAKE_FROM (s.ob O.PWR_STATE) else s.fwFail (s.fwCheck n h g p) := by
  unfold State.fwJudge
  cases s.fwCheck n h g p <;> rfl

/-- A verification ends: the staged image is judged by its header, its signatures and its payload. -/
theorem exec_fwVerifyDone {n : Nat} {s : State} (up : s.Up) (verifying : s.ctl.fwVerify = some n) : exec .fwVerifyDone s =
    .next ({ s with ctl := { s.ctl with fwVerify := none } }.fwJudge n (s.hbmRead stageBase 256) (s.hbmRead (stageBase + 256) 2924)
      (s.hbmRead (stageBase + 4096) (min (fwLen (s.hbmRead stageBase 256)) 0x40000000))) := by
  change execFwVerifyDone s = _
  unfold execFwVerifyDone
  rw [live_of_up up, verifying]

theorem exec_fwReady {who : Path} {s t : State} (taken : s.Takes who O.FW_READY t) (started : t.ob O.FW_STATE = 4) :
    exec (.fwReady who) s = .next ({ t with ctl := { t.ctl with ready := true } }.answered who O.FW_READY 0) :=
  congrArg Host.Outcome.next (State.access_answers taken.1 taken.2 (congrArg (·, 0) (if_pos started)))

/-- Settles O29: each clause is the rule above for the command or the moment it names. -/
theorem criotteAndFirmware : Obligations.CriotteAndFirmware := by
  unfold Obligations.CriotteAndFirmware
  refine ⟨?kick, ?expire, ?halt, ?restart, ?restartRefused, ?push, ?pushBusy, ?pushNetwork, ?wrongMagic, ?verified, ?ready⟩
  case kick =>
    rintro who w s t taken rfl
    exact exec_criotteWdtKick taken
  case expire => exact fun t0 s u v => exec_criotteWdtExpire
  case halt => exact fun who s serves => exec_criotteHalt ⟨serves, rfl⟩
  case restart => exact fun who s serves started => exec_criotteRestart_of_loaded ⟨serves, rfl⟩ (.inr started)
  case restartRefused => exact fun who s serves noImage => exec_criotteRestart_of_noImage ⟨serves, rfl⟩ noImage
  case push => exact fun who n s t taken idle local_ => exec_fwPush taken (State.fwPush_of_idle _ idle local_)
  case pushBusy => exact fun who n s t taken lo hi => exec_fwPush taken (State.fwPush_of_busy _ ⟨lo, hi⟩)
  case pushNetwork => exact fun who n s t taken idle network => exec_fwPush taken (State.fwPush_of_network _ idle network)
  case wrongMagic =>
    rintro n s u up verifying magic rfl
    rw [exec_fwVerifyDone up verifying, State.fwJudge_eq, State.fwCheck_of_wrongMagic magic, if_neg (by decide)]
  case verified =>
    rintro n h g p s u up verifying rfl rfl hp rfl
    rw [show (2 ^ 30 : Nat) = 0x40000000 by decide] at hp
    rw [exec_fwVerifyDone up verifying, ← hp, State.fwJudge_eq]
  case ready => exact fun who s t => exec_fwReady

/-! ### Network boot (R518) -/

theorem exec_bootReqSend {t0 : Nat} {m : List Byte} {s u : State} (waits : s.bootWaits = true) (due : s.ctl.netReqAt = some t0)
    (hu : u = s.advanceTo t0) (hm : m = beBytes 1 0x01 ++ beBytes 8 Config.serial.toNat ++ beBytes 6 mgmtMac) : exec .bootReqSend s =
      .next (({ u with ctl := { u.ctl with netReqAt := some (u.now + 1000000000) } }.emit (.boot false m)).emit (.boot true m)) := by
  subst hu hm
  refine (if_neg (by rw [waits]; decide)).trans ?_
  rw [due]
  rfl

/-- A datagram with data of an image that has begun to arrive. -/
structure State.BootData (s : State) (bytes data : List Byte) (off : Nat) : Prop where
  net   : s.netBoot = true
  begun : s.ob O.FW_STATE = 1
  place : off = beAt bytes 1 8
  rest  : data = bytes.drop 9
  code  : beAt bytes 0 1 = 0x02
  some_ : data ≠ []
  short : data.length ≤ 8192
  fits  : off + data.length ≤ s.common.resvGib * 2 ^ 30

/-- The state with `data` stored from `off` of the staging area on, and the timer of 10 s begun anew. -/
def State.bootStored (s : State) (off : Nat) (data : List Byte) : State :=
  let u := s.hbmWrite (stageBase + off) data
  { u with ctl := { u.ctl with netGot := (off, data.length) :: u.ctl.netGot, netBlocks := u.ctl.netBlocks + 1
                               netReqAt := none, netDataAt := some (u.now + 10000000000) } }

theorem exec_bootData {bytes data : List Byte} {off : Nat} {s : State} (h : s.BootData bytes data off)
    (noAck : (s.ctl.netBlocks + 1) % 64 ≠ 0) : exec (.bootData bytes) s = .next (s.bootStored off data) := by
  obtain ⟨net, begun, rfl, rfl, code, some_, short, fits⟩ := h
  refine (if_neg ?taken).trans ?_
  case taken =>
    rintro (idle | otherCode | empty | long | beyond)
    · simp [net, begun] at idle
    · exact otherCode code
    · exact some_ empty
    · omega
    · omega
  dsimp only
  rw [if_pos begun]
  exact congrArg Host.Outcome.next (if_neg noAck)

theorem exec_bootEnd {bytes : List Byte} {s u : State} (net : s.netBoot = true) (crook : s.crookUp = true) (begun : s.ob O.FW_STATE = 1)
    (code : beAt bytes 0 1 = 0x04) (hu : u = s.bootAck.setFw 2) : exec (.bootEnd bytes) s =
      .next { u with ctl := { u.ctl with fwVerify := some (beAt bytes 1 8), netDataAt := none } } := by
  subst hu
  exact if_pos ⟨net, crook, begun, code⟩

theorem exec_bootDataSilence {t0 : Nat} {s u : State} (due : s.ctl.netDataAt = some t0) (begun : s.ob O.FW_STATE = 1)
    (hu : u = (s.advanceTo t0).setFw 0) : exec .bootDataSilence s =
      .next { u with ctl := { u.ctl with netGot := [], netBlocks := 0, netDataAt := none, netReqAt := none } } := by
  subst hu
  change execBootDataSilence s = _
  rw [execBootDataSilence, due]
  exact if_pos begun

/-! ### The management port's addresses (R500) -/

/-- An ARP request for `target`: it is answered if that is the device's own address. -/
theorem State.mgmtAnswer_arp {s : State} {l : List Byte} (arp : beAt l 12 2 = 0x0806) (address : s.ob O.OXPIN_IPV4 ≠ 0)
    (ethernet : beAt l 14 2 = 1) (ip : beAt l 16 2 = 0x0800) (request : beAt l 20 2 = 1) :
    s.mgmtAnswer l = if beAt l 38 4 = s.ob O.OXPIN_IPV4 then
      some (beBytes 6 (beAt l 6 6) ++ beBytes 6 mgmtMac ++ beBytes 2 0x0806 ++ (l.drop 14).take 6 ++ beBytes 2 2 ++
        beBytes 6 mgmtMac ++ beBytes 4 (s.ob O.OXPIN_IPV4) ++ (l.drop 22).take 10) else none := by
  unfold State.mgmtAnswer
  dsimp only
  rw [if_pos arp]
  simp only [address, ethernet, ip, request, ne_eq, not_false_eq_true, true_and]

theorem exec_mgmtArpNdEcho {l : List Byte} {s : State} (crook : s.crookUp = true) :
    exec (.mgmtArpNdEcho l) s = .next (((s.mgmtAnswer l).map (fun r => s.emit (.mgmt r))).getD s) := by
  refine (if_neg (by simp [crook])).trans ?_
  cases s.mgmtAnswer l <;> rfl

/-! ### Oxpin's timers and its close (R504, R508) -/

theorem exec_oxpinOpenExpire {o : PendingOpen} {rest : List PendingOpen} {s u : State} (oldest : s.ctl.opens = o :: rest)
    (hu : u = s.advanceTo o.expire) :
    exec .oxpinOpenExpire s = .next ({ u with ctl := { u.ctl with opens := rest } }.count O.OXPIN_STAT 1 1) := by
  subst hu
  change execOxpinOpenExpire s = _
  rw [execOxpinOpenExpire, oldest]

theorem exec_oxpinSlotUnlock {k : Fin 8} {t0 : Nat} {s u : State} (locked : TMap.get 0 s.ctl.locked k.val = t0) (some_ : t0 ≠ 0)
    (hu : u = s.advanceTo t0) :
    exec (.oxpinSlotUnlock k) s = .next { u with ctl := { u.ctl with locked := TMap.put 0 u.ctl.locked k.val 0 } } := by
  subst hu locked
  exact if_neg some_

theorem exec_oxpinClose {who : Path} {i : BitVec 8} {s t u : State} {st : Nat} (taken : s.Takes who O.OXPIN_CLOSE t)
    (answer : t.oxpinClose i.toNat = (u, st)) : exec (.oxpinClose who i) s = .next (u.answered who O.OXPIN_CLOSE st) :=
  congrArg Host.Outcome.next (State.access_answers taken.1 taken.2 answer)

/-- Settles O30: each clause is the rule above for the message or the timer it names; what HBM reads after data is stored comes from the
laws of a memory. -/
theorem networkBoot : Obligations.NetworkBoot := by
  unfold Obligations.NetworkBoot
  refine ⟨?request, ?data, ?end_, ?silence, ?arp, ?openExpire, ?unlock, ?close⟩
  case request => exact fun t0 m s u => exec_bootReqSend
  case data =>
    intro bytes data off s ok net begun hoff hdata code some_ short fits noAck
    refine ⟨_, exec_bootData ⟨net, begun, hoff, hdata, code, some_, short, fits⟩ noAck, ?stands, ?others, rfl, rfl, rfl, rfl⟩
    case stands => exact State.hbmRead_hbmWrite_same ok _ data false
    case others => exact fun a outside => State.hbmRead_hbmWrite_other ok false outside
  case end_ => exact fun bytes s u => exec_bootEnd
  case silence => exact fun t0 s u => exec_bootDataSilence
  case arp =>
    intro l s crook arp address ethernet ip request
    rw [exec_mgmtArpNdEcho crook, State.mgmtAnswer_arp arp address ethernet ip request]
    split <;> rfl
  case openExpire => exact fun o rest s u => exec_oxpinOpenExpire
  case unlock => exact fun k t0 s u => exec_oxpinSlotUnlock
  case close =>
    intro who i s serves
    split
    next noRow => exact exec_oxpinClose ⟨serves, rfl⟩ (if_pos noRow)
    next row => exact exec_oxpinClose ⟨serves, rfl⟩ (if_neg row)

end Sys2Proof.Machine
end

section
/-!
SUPPORT and the settling of O31 (FeatureCommands), O32 (OxpinOpens) and O33 (OxpinSessions). What an Oxpin message of a session does rests on
what taking it in answers: nothing for one that is discarded, its row, its session and its text for one that verifies
(`State.oxTake_verifies`).
-/

namespace Sys2Proof.Machine

set_option Elab.async false

/-! ### Features (R509 to R513) -/

theorem subset_iff {a b : Nat} : subset a b = true ↔ a &&& b = a := beq_iff_eq

theorem exec_featAcceptWrite {who : Path} {v : BitVec 256} {s t u : State} {st : Nat} (taken : s.Takes who O.FEAT_ACCEPT t)
    (answer : t.writeAccept v.toNat = (u, st)) : exec (.featAcceptWrite who v) s = .next (u.answered who O.FEAT_ACCEPT st) :=
  congrArg Host.Outcome.next (State.access_answers taken.1 taken.2 answer)

theorem State.writeAccept_of_ok {s : State} {v : Nat} (device : v &&& s.ob O.FEAT_DEVICE = v) (mandatory : 0x300 &&& v = 0x300) :
    s.writeAccept v = ({ s.setOb O.FEAT_ACCEPT v with ctl := { s.ctl with featDue := s.ctl.featDue || v != s.ob O.FEAT_ACCEPT } }, 0) :=
  if_pos (by rw [subset_iff.mpr device, subset_iff.mpr mandatory]; rfl)

theorem State.writeAccept_of_lacking {s : State} {v : Nat} (lacking : 0x300 &&& v ≠ 0x300) : s.writeAccept v = (s, 0x0A) := by
  have out : subset 0x300 v = false := by simpa [subset] using lacking
  exact if_neg (by rw [out, Bool.and_false]; decide)

theorem exec_featApply {who : Path} {p : BitVec 16} {n : BitVec 64} {v : BitVec 256} {s t u : State} {st : Nat}
    (taken : s.Takes who O.FEAT_APPLY t) (answer : t.featApply p.toNat n.toNat v.toNat = (u, st)) :
    exec (.featApply who p n v) s = .next (u.answered who O.FEAT_APPLY st) :=
  congrArg Host.Outcome.next (State.access_answers taken.1 taken.2 answer)

theorem State.featApply_of_ok {s : State} {p n v : Nat} (pasture : p < 4096) (members : v &&& s.membersAccept p = v)
    (own : v &&& s.ob O.FEAT_ACCEPT = v) (ahead : s.bell + 16 ≤ n) (free : TMap.get none s.ctl.apply p = none) :
    s.featApply p n v = ({ s.setOb O.FEAT_APPLY_STATUS 0 with
      ctl := { s.ctl with apply := TMap.put none s.ctl.apply p (some (n, v)) } }, 0) := by
  simp [State.featApply, pasture, subset_iff.mpr members, subset_iff.mpr own, ahead, free]

theorem State.featApply_of_refused {s : State} {p n v : Nat} (refused : 4096 ≤ p ∨ n < s.bell + 16) :
    s.featApply p n v = (s.setOb O.FEAT_APPLY_STATUS 0x0A, 0x0A) := by
  obtain noPasture | soon := refused
  · simp [State.featApply, Nat.not_lt.mpr noPasture]
  · simp [State.featApply, Nat.not_le.mpr soon]

theorem exec_featApplyTake {p : Fin 4096} {n v : Nat} {s : State} (up : s.Up) (waiting : TMap.get none s.ctl.apply p.val = some (n, v)) :
    exec (.featApplyTake p) s = .next (if n ≤ s.bell then { s.setRow O.FEAT_PASTURE_ACTIVE p.val v with
      ctl := { s.ctl with apply := TMap.put none s.ctl.apply p.val none } } else s) := by
  refine (live_of_up up _).trans (congrArg Host.Outcome.next ?_)
  rw [State.featTake, waiting]

theorem exec_featuresFlood {s w u : State} (up : s.Up) (due : s.ctl.featDue = true)
    (hw : w = s.floodIssue 0x0E s.own 64 Config.serial.toNat s.bell 0 (beBytes 32 (s.ob O.FEAT_ACCEPT)))
    (hu : u = w.featuresTake w.own (s.ob O.FEAT_ACCEPT)) :
    exec .featuresFlood s = .next { u with ctl := { u.ctl with featSent := u.bell, featDue := false } } := by
  subst hu hw
  exact (live_of_up up _).trans (if_pos (.inl due))

/-! ### A communicator deleted (R384) -/

/-- The communicator of row `row`, whose identity is `id`, is gone, with all that was kept of it. -/
def State.commGone (s : State) (row id : Nat) : State :=
  let u := (s.setRow O.COLL_COMM_TABLE row 0).setOb O.COLL_COMM_STATUS 0
  { u with coll := { u.coll with
    posts := u.coll.posts.filter (fun p => p.comm != id), leads := u.coll.leads.filter (fun p => p.comm != id)
    ended := u.coll.ended.filter (fun p => p.1 != id), notes := u.coll.notes.filter (fun p => p.1 != row) } }

theorem State.commDelete_of_idle {s : State} {id row : Nat} (there : s.commRow id = some row) (idle : s.commBusy row = false) :
    s.commDelete id = (s.commGone row id, 0) := by
  rw [State.commDelete, there]
  exact if_neg (ne_true_of_eq_false idle)

theorem exec_collCommDelete {who : Path} {id : BitVec 16} {s t u : State} {st : Nat} (taken : s.Takes who O.COLL_COMM_OP t)
    (answer : t.commDelete id.toNat = (u, st)) : exec (.collCommDelete who id) s = .next (u.answered who O.COLL_COMM_OP st) :=
  congrArg Host.Outcome.next (State.access_answers taken.1 taken.2 answer)

/-- Settles O31: each clause is the rule above for the command or the moment it names. -/
theorem featureCommands : Obligations.FeatureCommands := by
  unfold Obligations.FeatureCommands
  refine ⟨?accept, ?acceptRefused, ?apply, ?applyRefused, ?take, ?delete, ?flood⟩
  case accept =>
    exact fun who v s t taken device mandatory => exec_featAcceptWrite taken (State.writeAccept_of_ok device mandatory)
  case acceptRefused =>
    exact fun who v s serves lacking => exec_featAcceptWrite ⟨serves, rfl⟩ (State.writeAccept_of_lacking lacking)
  case apply =>
    exact fun who p n v s t taken pasture members own ahead free =>
      exec_featApply taken (State.featApply_of_ok pasture members own ahead free)
  case applyRefused =>
    exact fun who p n v s serves refused => exec_featApply ⟨serves, rfl⟩ (State.featApply_of_refused refused)
  case take => exact fun p n v s => exec_featApplyTake
  case delete =>
    rintro who id row s t u taken there idle rfl
    exact exec_collCommDelete taken (State.commDelete_of_idle there idle)
  case flood => exact fun s w u => exec_featuresFlood

/-! ### Opens (R503, R504) -/

section Received
variable {field : Bool} {type : Nat} {m : List Byte} {s : State} (h : s.OxReceives field type m)
include h

theorem State.OxReceives.notDropped :
    ¬ ((!s.crookUp) = true ∨ (field = true ∧ (!s.fieldOn) = true) ∨ (!oxWhole m) = true ∨ oxType m ≠ type) := by
  obtain ⟨up, net, whole, type_⟩ := h
  rintro (down | ⟨fromField, closed⟩ | broken | otherType)
  · simp [up] at down
  · simp [net fromField] at closed
  · simp [whole] at broken
  · exact otherType type_

theorem State.OxReceives.fromOpenNet : ¬ (field = true ∧ (!s.fieldOn) = true) := fun closed => h.notDropped (.inr (.inl closed))

end Received

section OpenReq
variable {field : Bool} {m p : List Byte} {s : State} (received : s.OxReceives field 0x01 m) (whole : (oxPayload m).length = 35)
include received whole

theorem State.OxReceives.opens : ¬ ((!s.crookUp) = true ∨ (field = true ∧ (!s.fieldOn) = true) ∨ (!oxWhole m) = true ∨
    oxType m ≠ 0x01 ∨ (oxPayload m).length ≠ 35) := by
  rintro (down | closed | broken | otherType | otherLength)
  · exact received.notDropped (.inl down)
  · exact received.notDropped (.inr (.inl closed))
  · exact received.notDropped (.inr (.inr (.inl broken)))
  · exact received.notDropped (.inr (.inr (.inr otherType)))
  · exact otherLength whole

theorem exec_oxpinOpenReq_of_emptySlot (empty : s.slotValid (beAt (oxPayload m) 0 1) = false) :
    exec (.oxpinOpenReq field m) s = .next (s.openRefuse field 0x0C false) :=
  (if_neg (received.opens whole)).trans (if_pos (by rw [empty]; rfl))

theorem exec_oxpinOpenReq_of_lockedSlot (valid : s.slotValid (beAt (oxPayload m) 0 1) = true)
    (locked : s.slotLocked (beAt (oxPayload m) 0 1) = true) :
    exec (.oxpinOpenReq field m) s = .next (s.openRefuse field 0x0B false) :=
  (if_neg (received.opens whole)).trans ((if_neg (by rw [valid]; decide)).trans (if_pos locked))

end OpenReq

theorem State.openRefuse_empty (s : State) (field : Bool) :
    s.openRefuse field 0x0C false = (s.count O.OXPIN_STAT 1 1).oxPlain field 0x20 0 (beBytes 1 0x0C) := rfl

theorem State.openRefuse_locked (s : State) (field : Bool) : s.openRefuse field 0x0B false =
    ((s.count O.OXPIN_STAT 1 1).raise O.CTL_ERR 0 0x0B).oxPlain field 0x20 0 (beBytes 1 0x0B) := rfl

/-- The open that a request with payload `p` leaves waiting for its proof. -/
def State.openOf (s : State) (p : List Byte) : PendingOpen :=
  { ident := 1 + (Config.freeSession s.free).toNat % (2 ^ 32 - 1), slot := beAt p 0 1, role := beAt p 1 1, enc := beAt p 2 1 == 1
    nonceC := p.drop 3, nonceS := beBytes 32 (Config.freeNonce s.free).toNat, expire := s.now + 1000000000 }

/-- The MAC of the answer to an open (R503). -/
def State.openMac (s : State) (p : List Byte) : List Byte :=
  beBytes 48 (Config.hmac384 (s.slotKey (beAt p 0 1)) ([0x4F, 0x58, 0x50, 0x49, 0x4E, 0x2D, 0x53] ++ p.drop 3 ++ (s.openOf p).nonceS ++
    beBytes 4 (s.openOf p).ident ++ beBytes 1 (beAt p 1 1) ++ beBytes 1 (beAt p 2 1) ++ beBytes 8 Config.serial.toNat)).toNat

/-- A request that nothing refuses: its open waits, and is answered with the session's number, the nonce, the serial number and the MAC. -/
theorem exec_oxpinOpenReq_of_ok {field : Bool} {m p : List Byte} {s : State} (received : s.OxReceives field 0x01 m) (hp : p = oxPayload m)
    (whole : p.length = 35) (valid : s.slotValid (beAt p 0 1) = true) (unlocked : s.slotLocked (beAt p 0 1) = false)
    (room : s.sessionsFull = false) (role : 1 ≤ beAt p 1 1 ∧ beAt p 1 1 ≤ 3) (enc : beAt p 2 1 ≤ 1)
    (required : s.ob O.OXPIN_ENC_REQUIRED = 1 → beAt p 2 1 = 1) : exec (.oxpinOpenReq field m) s =
      .next (({ s.draw with ctl := { s.ctl with opens := s.ctl.opens ++ [s.openOf p] } } : State).oxPlain field 0x02 (s.openOf p).ident
        (beBytes 4 (s.openOf p).ident ++ (s.openOf p).nonceS ++ beBytes 8 Config.serial.toNat ++ s.openMac p)) := by
  subst hp
  have offered : ¬ (beAt (oxPayload m) 1 1 = 0 ∨ 3 < beAt (oxPayload m) 1 1 ∨ 1 < beAt (oxPayload m) 2 1 ∨
      (s.ob O.OXPIN_ENC_REQUIRED = 1 ∧ beAt (oxPayload m) 2 1 = 0)) := by
    rintro (noRole | otherRole | otherEnc | ⟨asked, plain⟩)
    · omega
    · omega
    · omega
    · have := required asked
      omega
  change execOxpinOpenReq field m s = _
  unfold execOxpinOpenReq
  dsimp only
  rw [if_neg (received.opens whole), if_neg (by rw [valid]; decide), if_neg (ne_true_of_eq_false unlocked),
    if_neg (ne_true_of_eq_false room), if_neg offered]
  rfl

/-! ### Proofs (R503, R504) -/

/-- The state once the open `o` no longer waits. -/
def State.withoutOpen (s : State) (o : PendingOpen) : State :=
  { s with ctl := { s.ctl with opens := s.ctl.opens.filter (fun x => x.ident != o.ident) } }

/-- The MAC that proves open `o` (R503). -/
def State.proofMac (s : State) (o : PendingOpen) : List Byte :=
  beBytes 48 (Config.hmac384 (s.slotKey o.slot) ([0x4F, 0x58, 0x50, 0x49, 0x4E, 0x2D, 0x43] ++ o.nonceS ++ o.nonceC ++
    beBytes 4 o.ident ++ beBytes 1 o.role ++ beBytes 1 (b2n o.enc))).toNat

/-- The state in which open `o` has become the session of row `i`. -/
def State.sessionOpened (s : State) (o : PendingOpen) (i : Nat) : State :=
  let v := (s.setSession i (some (s.sessionOf o))).count O.OXPIN_STAT 0 1
  { v with ctl := { v.ctl with fails := TMap.put 0 v.ctl.fails o.slot 0 } }

section Proof
variable {field : Bool} {m : List Byte} {o : PendingOpen} {s u : State} (received : s.OxReceives field 0x03 m)
  (waits : s.ctl.opens.find? (fun o => o.ident == oxSession m && decide (s.now ≤ o.expire)) = some o) (hu : u = s.withoutOpen o)
include received waits hu

theorem exec_oxpinOpenProof_of_locked (locked : u.slotLocked o.slot = true) : exec (.oxpinOpenProof field m) s =
    .next (((u.count O.OXPIN_STAT 1 1).raise O.CTL_ERR 0 0x0B).oxPlain field 0x04 o.ident (beBytes 1 0x0B)) := by
  subst hu
  refine (if_neg received.notDropped).trans ?_
  rw [waits]
  exact if_pos locked

variable (unlocked : u.slotLocked o.slot = false)
include unlocked

theorem exec_oxpinOpenProof_of_failed (fails : oxPayload m ≠ u.proofMac o) :
    exec (.oxpinOpenProof field m) s = .next ((u.proofFailed o.slot).oxPlain field 0x04 o.ident (beBytes 1 0x0B)) := by
  subst hu
  refine (if_neg received.notDropped).trans ?_
  rw [waits]
  exact (if_neg (ne_true_of_eq_false unlocked)).trans (if_pos fails)

theorem exec_oxpinOpenProof_of_free {i : Nat} (holds : oxPayload m = u.proofMac o)
    (free : (List.range 8).find? (fun i => (u.session i).isNone) = some i) :
    exec (.oxpinOpenProof field m) s = .next ((u.sessionOpened o i).oxPlain field 0x04 o.ident (beBytes 1 0)) := by
  subst hu
  refine (if_neg received.notDropped).trans ?_
  rw [waits]
  refine (if_neg (ne_true_of_eq_false unlocked)).trans ((if_neg (not_not_intro holds)).trans ?_)
  rw [State.withoutOpen] at free
  rw [free]
  rfl

end Proof

/-- Settles O32: each clause is the rule above for the request or the proof it names. -/
theorem oxpinOpens : Obligations.OxpinOpens := by
  unfold Obligations.OxpinOpens
  refine ⟨?empty, ?locked, ?accepted, ?proof⟩
  case empty =>
    intro field m s received whole empty
    rw [exec_oxpinOpenReq_of_emptySlot received whole empty, State.openRefuse_empty]
  case locked =>
    intro field m s received whole valid locked
    rw [exec_oxpinOpenReq_of_lockedSlot received whole valid locked, State.openRefuse_locked]
  case accepted =>
    rintro field m p ns mac k e ident s u received hp whole rfl valid unlocked room lo hi rfl enc required rfl rfl rfl rfl
    exact exec_oxpinOpenReq_of_ok received hp whole valid unlocked room ⟨lo, hi⟩ enc required
  case proof =>
    intro field m o s u received waits hu
    refine ⟨exec_oxpinOpenProof_of_locked received waits hu, ?_⟩
    rintro mac rfl unlocked
    refine ⟨exec_oxpinOpenProof_of_failed received waits hu unlocked, ?_⟩
    rintro i v holds free rfl
    exact exec_oxpinOpenProof_of_free received waits hu unlocked holds free

/-! ### Messages of a session (R506 to R508) -/

theorem State.oxTake_of_noSession {s : State} (type : Nat) {m : List Byte} (kept : Session → Bool)
    (noSession : s.sessionRow (oxSession m) = none) : s.oxTake type m kept = (s, none) := by
  unfold State.oxTake
  dsimp only
  rw [noSession, ite_self]

theorem State.oxTake_of_wrongMac {field : Bool} {type i : Nat} {m : List Byte} {x : Session} {s : State}
    (received : s.OxReceives field type m) (session : s.sessionRow (oxSession m) = some (i, x)) (wrong : m.drop (24 + oxLen m) ≠ x.macOf m)
    (kept : Session → Bool) : s.oxTake type m kept = ((s.count O.OXPIN_STAT 2 1).raise O.CTL_ERR 1, none) := by
  have known : ¬ ((!s.crookUp) = true ∨ (!oxWhole m) = true ∨ oxType m ≠ type) :=
    fun dropped => received.notDropped (dropped.imp_right .inr)
  refine (if_neg known).trans ?_
  rw [session]
  exact if_pos wrong

section Verified
variable {field : Bool} {type i : Nat} {m l : List Byte} {x : Session} {s : State} (received : s.OxReceives field type m)
  (verifies : s.OxVerifies m i x l)
include received verifies

theorem State.oxTake_of_new (kept : Session → Bool) (new : x.rxHigh < oxSeq m ∨ kept x = true) :
    s.oxTake type m kept = (s.setSession i (some (s.oxMoved x m)), some (i, s.oxMoved x m, l)) := by
  rw [State.oxTake_verifies received verifies kept, if_neg]
  rintro ⟨old, notKept⟩
  obtain new | isKept := new
  · omega
  · simp [notKept] at isKept

theorem State.oxTake_of_repeated (kept : Session → Bool) (old : oxSeq m ≤ x.rxHigh) (notKept : kept x = false) :
    s.oxTake type m kept = ((s.count O.OXPIN_STAT 3 1).raise O.CTL_ERR 1, none) := by
  rw [State.oxTake_verifies received verifies kept, if_pos ⟨old, notKept⟩]

end Verified

section Take
variable {m l : List Byte} {s u : State} {i : Nat} {x : Session}

theorem exec_oxpinCloseMessage_of_discarded (take : s.oxTake 0x1F m (fun _ => false) = (u, none)) :
    exec (.oxpinCloseMessage m) s = .next u := by
  change execOxpinCloseMessage m s = _
  rw [execOxpinCloseMessage, take]

theorem exec_oxpinCloseMessage_of_taken (take : s.oxTake 0x1F m (fun _ => false) = (u, some (i, x, l))) :
    exec (.oxpinCloseMessage m) s = .next (u.closeSession i) := by
  change execOxpinCloseMessage m s = _
  rw [execOxpinCloseMessage, take]

variable {field : Bool} (net : ¬ (field = true ∧ (!s.fieldOn) = true))
include net

theorem exec_oxpinSpdm_of_discarded (take : s.oxTake 0x13 m (fun _ => false) = (u, none)) :
    exec (.oxpinSpdm field m) s = .next u := by
  refine (if_neg net).trans ?_
  rw [take]

theorem exec_oxpinSpdm_of_taken (take : s.oxTake 0x13 m (fun _ => false) = (u, some (i, x, l))) :
    exec (.oxpinSpdm field m) s = .next (u.oxSend field i x 0x14 (Config.spdm u.attested l)).1 := by
  refine (if_neg net).trans ?_
  rw [take]

theorem exec_oxpinRequest_of_discarded (take : s.oxTake 0x10 m (fun x => x.kept.any (fun k => k.1 == oxSeq m)) = (u, none)) :
    exec (.oxpinRequest field m) s = .next u := by
  refine (if_neg net).trans ?_
  rw [take]

variable (take : s.oxTake 0x10 m (fun x => x.kept.any (fun k => k.1 == oxSeq m)) = (u, some (i, x, l)))
include take

/-- A request whose response is kept is answered with that response again. -/
theorem exec_oxpinRequest_of_kept {k : Nat × List Byte} (kept : x.kept.find? (fun k => k.1 == oxSeq m) = some k) :
    exec (.oxpinRequest field m) s = .next (u.emit (.oxpin field k.2)) := by
  refine (if_neg net).trans ?_
  rw [take]
  dsimp only
  rw [kept]

/-- A new request is executed; its response is sent and kept with the session, where that is still the one that asked. -/
theorem exec_oxpinRequest_of_new {y z : Session} {q : State × DictReply} {t : State × List Byte}
    (new : x.kept.find? (fun k => k.1 == oxSeq m) = none) (hq : q = u.requestBytes (.oxpin (Fin.ofNat 8 i)) field l)
    (session : q.1.session i = some y) (same : y.ident = x.ident) (ht : t = q.1.oxSend field i y 0x11 (q.2.bytes true))
    (session' : t.1.session i = some z) : exec (.oxpinRequest field m) s =
      .next (t.1.setSession i (some { z with kept := ((oxSeq m, t.2) :: z.kept).take 8 })) := by
  refine (if_neg net).trans ?_
  rw [take]
  dsimp only
  rw [new, ← hq]
  dsimp only
  rw [session]
  dsimp only
  rw [if_neg (not_not_intro same), ← ht, session']

end Take

/-- Settles O33: each clause is the rule above for what taking in its message answers. -/
theorem oxpinSessions : Obligations.OxpinSessions := by
  unfold Obligations.OxpinSessions
  refine ⟨?wrongMac, ?noSession, ?close, ?spdm, ?repeated, ?request⟩
  case wrongMac =>
    rintro field m i x s u session wrong rfl
    refine ⟨fun received => ?_, fun received => ?_, fun received => ?_⟩
    · exact exec_oxpinCloseMessage_of_discarded (State.oxTake_of_wrongMac received session wrong _)
    · exact exec_oxpinSpdm_of_discarded received.fromOpenNet (State.oxTake_of_wrongMac received session wrong _)
    · exact exec_oxpinRequest_of_discarded received.fromOpenNet (State.oxTake_of_wrongMac received session wrong _)
  case noSession =>
    intro field m s _ noSession
    refine ⟨exec_oxpinCloseMessage_of_discarded (State.oxTake_of_noSession _ _ noSession), ?_, ?_⟩
    · by_cases net : field = true ∧ (!s.fieldOn) = true
      · exact if_pos net
      · exact exec_oxpinSpdm_of_discarded net (State.oxTake_of_noSession _ _ noSession)
    · by_cases net : field = true ∧ (!s.fieldOn) = true
      · exact if_pos net
      · exact exec_oxpinRequest_of_discarded net (State.oxTake_of_noSession _ _ noSession)
  case close =>
    intro m i x l s received verifies
    exact ⟨fun old => exec_oxpinCloseMessage_of_discarded (State.oxTake_of_repeated received verifies _ old rfl),
      fun new => exec_oxpinCloseMessage_of_taken (State.oxTake_of_new received verifies _ (.inl new))⟩
  case spdm =>
    rintro field m i x y l s u received verifies new rfl rfl
    exact exec_oxpinSpdm_of_taken received.fromOpenNet (State.oxTake_of_new received verifies _ (.inl new))
  case repeated =>
    intro field m i x l k s received verifies _ kept
    have isKept : x.kept.any (fun k => k.1 == oxSeq m) = true := by
      rw [List.any_eq_true]
      exact ⟨k, List.mem_of_find?_eq_some kept, List.find?_some (p := fun k : Nat × List Byte => k.1 == oxSeq m) kept⟩
    have take := State.oxTake_of_new received verifies (fun x => x.kept.any (fun k => k.1 == oxSeq m)) (.inr isKept)
    exact exec_oxpinRequest_of_kept received.fromOpenNet take kept
  case request =>
    intro field m i x y z l q t s received verifies new unknown hq session same ht session'
    have take := State.oxTake_of_new received verifies (fun x => x.kept.any (fun k => k.1 == oxSeq m)) (.inl new)
    exact exec_oxpinRequest_of_new received.fromOpenNet take unknown hq session same ht session'

end Sys2Proof.Machine
end

section
/-!
SUPPORT and the settling of O42 (ColdResetReach, refuted), O43 (PowerCommands), O44 (TemperaturesRailsAndClocks, refuted) and O7
(ResetReadsDefaults). A command of PWR_CMD or PWR_GATE is read off what its body answers, by the power state and the unit's kind.
-/

namespace Sys2Proof.Machine

set_option Elab.async false

/-! ### Filtered tables -/

theorem TMap.get_filter_of_gone {α : Type} {d : α} {p : Nat × α → Bool} {i : Nat} (gone : ∀ v, p (i, v) = false) (m : TMap α) :
    TMap.get d (m.filter p) i = d := by
  induction m with
  | nil => rfl
  | cons e m ih =>
    obtain ⟨k, v⟩ := e
    rw [List.filter_cons]
    split
    · rename_i stays
      have other : i ≠ k := by rintro rfl; simp [gone] at stays
      rw [TMap.get, if_neg other, ih, ite_self]
    · exact ih

/-! ### What a cold reset leaves (R587) -/

/-- A device whose count of cold resets holds more than its 64 bits, which the canonical form of the tables does not exclude. -/
def wideCount : State := { State.reset with objs := [(okey O.RST_COUNT 1, 2 ^ 64)] }

theorem wideCount_may : wideCount.tablesOk = true ∧ wideCount.crookUp = true ∧ wideCount.anyHot 105 = false ∧
    wideCount.ob O.PWR_STATE ≠ 4 ∧ wideCount.row O.RST_COUNT 1 = 2 ^ 64 := by
  decide +kernel

/-- The count goes on in its 64 bits and leaves the others as they are. -/
theorem row_assertReset_wideCount : (wideCount.assertReset .coldPin 2 1 1 false).row O.RST_COUNT 1 = 2 ^ 64 + 1 := by
  decide +kernel

/-- Refutes O42: a row of RST_COUNT that holds 2^64 reads 2^64 + 1 after the reset, where the statement has it reduced to 64 bits. -/
theorem not_coldResetReach : ¬ Obligations.ColdResetReach := by
  unfold Obligations.ColdResetReach
  rintro ⟨cold, -⟩
  obtain ⟨ok, crook, cool, awake, wide⟩ := wideCount_may
  obtain ⟨t, ran, -, -, counted, -⟩ := cold wideCount ok crook cool awake
  have same : wideCount.assertReset .coldPin 2 1 1 false = t := Host.Outcome.next.inj ((exec_coldResetPin crook).symm.trans ran)
  rw [← same, row_assertReset_wideCount, wide] at counted
  exact absurd counted (by decide)

/-! ### Power states (R588 to R590) -/

section Command
variable {who : Path} {v : BitVec 8} {s t : State}

theorem exec_pwrCmd {st : Nat} {u : State} (taken : s.Takes who O.PWR_CMD t) (answers : t.pwrCmd who v.toNat = (u, st)) :
    exec (.pwrCmd who v) s = .next (u.answered who O.PWR_CMD st) :=
  congrArg Host.Outcome.next (State.access_answers taken.1 taken.2 answers)

section NotCores
variable (notCores : who ≠ .cores)
include notCores

theorem State.pwrCmd_of_busy (busy : t.power.target.isSome = true) (n : Nat) : t.pwrCmd who n = (t, 0x0D) := by
  rw [State.pwrCmd, if_neg notCores, if_pos (.inl busy)]

theorem State.pwrCmd_of_free (noTarget : t.power.target = none) (noReset : t.power.width = 0) (n : Nat) :
    t.pwrCmd who n = if 4 < n then (t, 0x0A) else if n = t.ob O.PWR_STATE then (t.setOb O.PWR_CMD_STATUS 0, 0)
      else ({ t.setOb O.PWR_CMD_STATUS 0xFF with power := { t.power with target := some n, slow := false } }, 0) := by
  have free : ¬(t.power.target.isSome = true ∨ t.power.width ≠ 0) := by rw [noTarget, noReset]; decide
  rw [State.pwrCmd, if_neg notCores, if_neg free]

end NotCores
end Command

/-- The state after the step towards `n`, with a step that took too long noted. -/
theorem exec_powerStepDone {late : Bool} {n : Nat} {s t : State} (up : s.Awake) (target : s.power.target = some n)
    (ht : t = (if late then ({ s with power := { s.power with slow := true } }).raise O.RST_ERR 3 8 else s).powerMove n) :
    exec (.powerStepDone late) s = .next (if t.ob O.PWR_STATE = n then t.powerReached else t) := by
  have step : s.powerStep late = if t.ob O.PWR_STATE = n then t.powerReached else t := by
    rw [State.powerStep, target, ht]
  exact congrArg Host.Outcome.next ((if_pos up).trans step)

/-- The state DS1, the Drove on its slow clock. -/
def State.slowed (s : State) : State :=
  { s.setOb O.PWR_STATE 1 with drove := { s.drove with slow := true }, power := { s.power with woken := false } }

/-- From DS0 to DS1: the state, then the slow clock of the Drove, then what PWR_WAKE_FROM holds. -/
theorem State.powerMove_one {s : State} (shallow : s.ob O.PWR_STATE = 0) : ∃ m, s.powerMove 1 = s.slowed.setOb O.PWR_WAKE_FROM m := by
  unfold State.powerMove
  rw [shallow]
  exact ⟨_, rfl⟩

/-! ### Gates (R593) -/

section Gates
variable {who : Path} {k : BitVec 8} {u : BitVec 16} {s t v : State} {st : Nat}

theorem exec_pwrGate (taken : s.Takes who O.PWR_GATE t) (answers : t.pwrGate 1 k.toNat u.toNat = (v, st)) :
    exec (.pwrGate who k u) s = .next (v.answered who O.PWR_GATE st) :=
  congrArg Host.Outcome.next (State.access_answers taken.1 taken.2 answers)

theorem exec_pwrUngate (taken : s.Takes who O.PWR_GATE t) (answers : t.pwrGate 2 k.toNat u.toNat = (v, st)) :
    exec (.pwrUngate who k u) s = .next (v.answered who O.PWR_GATE st) :=
  congrArg Host.Outcome.next (State.access_answers taken.1 taken.2 answers)

end Gates

/-- A gate or ungate may be commanded now, of a unit that is there. -/
structure State.MayGate (t : State) (kind u : Nat) : Prop where
  noTarget : t.power.target = none
  shallow : t.ob O.PWR_STATE < 3
  quiet : t.power.gating = []
  there : u < gateUnits kind

theorem kind_of_gateUnits {k : BitVec 8} (some : 0 < gateUnits k.toNat) : k = 1 ∨ k = 2 ∨ k = 3 ∨ k = 4 := by
  revert k
  decide

/-- What a gate of an ungated unit does, by the unit's kind. -/
def State.gates (t : State) (kind u : Nat) : State × Nat :=
  match kind with
  | 1 => ((t.gateBlock u true).setOb O.PWR_GATE_STATUS 0, 0)
  | 2 => ((t.gateTile u).setOb O.PWR_GATE_STATUS 0, 0)
  | 3 => (t.gateStack u, 0)
  | _ => ((t.gatePaddock u).gateStack u, 0)

/-- What an ungate of a gated unit leaves, by the unit's kind. -/
def State.ungates (t : State) (kind u : Nat) : State :=
  match kind with
  | 1 => (t.gateBlock u false).blockStart u
  | 2 => t.ungateTile u
  | 3 => t.ungateStack u
  | _ => t.ungatePaddock u

section MayGate
variable {t : State} {kind u : Nat} (may : t.MayGate kind u)
include may

theorem State.MayGate.free : ¬(t.power.target.isSome = true ∨ 3 ≤ t.ob O.PWR_STATE ∨ (!t.power.gating.isEmpty) = true) := by
  rintro (target | deep | gating)
  · rw [may.noTarget] at target
    cases target
  · exact absurd may.shallow (Nat.not_lt.mpr deep)
  · rw [may.quiet] at gating
    cases gating

theorem State.pwrGate_gate : t.pwrGate 1 kind u =
    if t.isGated kind u = true then (t.setOb O.PWR_GATE_STATUS 0, 0)
    else if t.gateOk kind u = false then (t.setOb O.PWR_GATE_STATUS 0x0A, 0x0A) else t.gates kind u := by
  have unit : ¬(gateUnits kind ≤ u ∨ ((1 : Nat) ≠ 1 ∧ (1 : Nat) ≠ 2)) := by have := may.there; omega
  refine (if_neg may.free).trans ((if_neg unit).trans ?_)
  cases t.isGated kind u with
  | true => rfl
  | false => cases t.gateOk kind u <;> rfl

theorem State.pwrGate_ungate : t.pwrGate 2 kind u =
    (if t.isGated kind u = false then t.setOb O.PWR_GATE_STATUS 0 else (t.ungates kind u).setOb O.PWR_GATE_STATUS 0, 0) := by
  have unit : ¬(gateUnits kind ≤ u ∨ ((2 : Nat) ≠ 1 ∧ (2 : Nat) ≠ 2)) := by have := may.there; omega
  refine (if_neg may.free).trans ((if_neg unit).trans ?_)
  cases t.isGated kind u with
  | false => rfl
  | true =>
    match kind with
    | 0 | 1 | 2 | 3 | _ + 4 => rfl

end MayGate

/-- Settles O43: a power state is commanded, moved and reached by the equations of PWR_CMD and of a step, and a gate or an ungate by
its unit's kind. -/
theorem powerCommands : Obligations.PowerCommands := by
  unfold Obligations.PowerCommands
  refine ⟨?starts, ?busy, ?absent, ?step, ?slow, ?gate, ?ungate⟩
  case starts =>
    intro who v s t taken notCores noTarget noReset known other
    refine exec_pwrCmd taken ?_
    rw [State.pwrCmd_of_free notCores noTarget noReset, if_neg (Nat.not_lt.mpr known), if_neg other]
  case busy => exact fun who v s t taken notCores busy => exec_pwrCmd taken (State.pwrCmd_of_busy notCores busy _)
  case absent =>
    intro who v s t taken notCores noTarget noReset unknown
    exact exec_pwrCmd taken ((State.pwrCmd_of_free notCores noTarget noReset _).trans (if_pos unknown))
  case step => exact fun late n s t up target ht => exec_powerStepDone up target ht
  case slow =>
    intro s ok up target fast shallow
    obtain ⟨m, moved⟩ := State.powerMove_one shallow
    have ran := exec_powerStepDone (late := false) (t := s.powerMove 1) up target rfl
    rw [moved] at ran
    have uOk : s.slowed.tablesOk = true := (State.setOb_keeps (Keeps.refl s) O.PWR_STATE 1).tables ok
    have wOk : (s.slowed.setOb O.PWR_WAKE_FROM m).tablesOk = true := (State.setOb_keeps (Keeps.refl s.slowed) _ _).tables uOk
    have deeper : (s.slowed.setOb O.PWR_WAKE_FROM m).ob O.PWR_STATE = 1 :=
      (State.row_setRow_other uOk _ (by decide)).trans (State.row_setRow_same ok O.PWR_STATE 0 1)
    rw [if_pos deeper] at ran
    refine ⟨_, ran, (State.row_setRow_other wOk _ (by decide)).trans deeper, ?_, rfl, rfl, rfl, rfl⟩
    have still : (s.slowed.setOb O.PWR_WAKE_FROM m).power.slow = false := fast
    exact (State.row_setRow_same wOk _ _ _).trans (if_neg (by rw [still]; decide))
  case gate =>
    rintro who k u F s t taken noTarget shallow quiet there rfl
    have may : t.MayGate k.toNat u.toNat := ⟨noTarget, shallow, quiet, there⟩
    have answer := State.pwrGate_gate may
    refine ⟨fun gated => exec_pwrGate taken (answer.trans (if_pos gated)), fun free bad => ?notOk, fun free good => ?accepted⟩
    case notOk => exact exec_pwrGate taken (answer.trans ((if_neg (by rw [free]; decide)).trans (if_pos bad)))
    case accepted =>
      have gates : t.pwrGate 1 k.toNat u.toNat = t.gates k.toNat u.toNat :=
        answer.trans ((if_neg (by rw [free]; decide)).trans (if_neg (by rw [good]; decide)))
      refine ⟨?_, ?_, ?_, ?_⟩ <;> (rintro rfl; exact exec_pwrGate taken gates)
  case ungate =>
    rintro who k u F s t taken noTarget shallow quiet there rfl
    have may : t.MayGate k.toNat u.toNat := ⟨noTarget, shallow, quiet, there⟩
    refine (exec_pwrUngate taken (State.pwrGate_ungate may)).trans ?_
    split
    next free => rfl
    next gated =>
      obtain kind | kind | kind | kind := kind_of_gateUnits (Nat.zero_lt_of_lt there) <;> (subst kind; rfl)

/-! ### Temperatures and clocks (R594, R606, R609) -/

/-- A device that warns of a paddock at 115 °C, and whose PF takes the events of the error log with an unmasked vector. -/
def warningDevice : State :=
  { State.reset with pcie := { State.reset.pcie with fns := [(0, { evqCfg := 6 + 2 ^ 5 + 2 ^ 17 + 2 ^ 40, msix := [(0, 1)] })] } }

/-- What `warningDevice` holds once the sample is recorded, before its warning. -/
def warningSampled : State :=
  let u := warningDevice.advanceTo warningDevice.power.sampleAt
  (List.range 17).foldl (fun s i => s.setRow O.PWR_EST_W i (bits (0 : BitVec 272).toNat (16 * i) 16))
    ((List.range 13).foldl (fun s i => s.setRow O.PWR_RAIL_MV i (bits (0 : BitVec 208).toNat (16 * i) 16))
      ((List.range 16).foldl (fun s i => s.setRow O.THERM_PADDOCK i (bits (1840 : BitVec 256).toNat (16 * i) 16))
        { u with power := { u.power with sampleAt := u.now + 100000 } }))

theorem warningSampled_warns : warningDevice.crookUp = true ∧ warningDevice.out.length = 0 ∧ warningSampled.warn.out.length = 1 ∧
    warningSampled.warn.power.tripAt.isNone = true ∧ warningSampled.warn.anyHot 115 = true := by
  decide +kernel

/-- The first stage of the trip sends no message back: what the warning sent, stays sent. -/
theorem exec_thermalSample_warningDevice :
    exec (.thermalSample 1840 0 0) warningDevice = .next warningSampled.warn.firstStage := by
  obtain ⟨crook, -⟩ := warningSampled_warns
  exact congrArg Host.Outcome.next (if_pos crook)

/-- Refutes O44: the warning of a sample at 115 °C puts an event to the PF, whose message is sent. -/
theorem not_temperaturesRailsAndClocks : ¬ Obligations.TemperaturesRailsAndClocks := by
  unfold Obligations.TemperaturesRailsAndClocks
  rintro ⟨sample, -⟩
  obtain ⟨crook, quiet, sent, noTrip, hot⟩ := warningSampled_warns
  obtain ⟨-, trip⟩ := sample 1840 0 0 warningDevice _ _ warningSampled crook rfl rfl rfl
  obtain ⟨t, ran, -, -, same⟩ := trip (Option.isNone_iff_eq_none.mp noTrip) hot
  have ended : warningSampled.warn.firstStage = t := Host.Outcome.next.inj (exec_thermalSample_warningDevice.symm.trans ran)
  have stays : warningSampled.warn.out.length ≤ t.out.length := by
    rw [← ended]
    exact (State.firstStage_keeps (Keeps.refl _)).out.length_le
  rw [same] at stays
  omega

/-! ### What a reset leaves to read (R20, R574) -/

theorem memRead_nil (a n : Nat) : memRead [] a n = List.replicate n 0 := by
  induction n generalizing a with
  | zero => rfl
  | succ n ih => rw [memRead, ih, List.replicate_succ, TMap.get]

theorem State.reset_reads : (∀ oid row, State.reset.row oid row = okeyDefault (okey oid row)) ∧ (∀ oid, State.reset.blob oid = []) ∧
    (∀ off, State.reset.reg off = 0) ∧ (∀ n, State.reset.ctr n = 0) ∧ (∀ a n, State.reset.hbmRead a n = List.replicate n 0) ∧
    (∀ a n, State.reset.hostRead a n = List.replicate n 0) ∧ State.reset.pending = [] :=
  ⟨fun _ _ => rfl, fun _ => rfl, fun _ => rfl, fun _ => rfl, memRead_nil, memRead_nil, rfl⟩

/-! ### The host interface and its units (R541, R542, R581) -/

theorem exec_functionLevelReset {f : Fin 33} {s : State} (up : s.Awake) (there : s.fnUp f.val = true) :
    exec (.functionLevelReset f) s = .next (s.flr f.val) :=
  (awake_of_awake up _).trans (congrArg Host.Outcome.next (if_pos there))

theorem exec_pcieHotReset_of_perst {s : State} (perst : s.pcie.perst = true) : exec .pcieHotReset s = .next s :=
  congrArg Host.Outcome.next (if_pos (by rw [perst, Bool.true_or]))

theorem exec_perstAssert_of_perst {s : State} (perst : s.pcie.perst = true) : exec .perstAssert s = .next s := if_pos (.inl perst)

section LinkUp
variable {s : State} (noPerst : s.pcie.perst = false) (on : s.pcieOn = true)
include noPerst on

theorem exec_pcieHotReset : exec .pcieHotReset s = .next s.hostReset :=
  congrArg Host.Outcome.next (if_neg (by rw [noPerst, on]; decide))

theorem exec_perstAssert : exec .perstAssert s = .next
    { (if s.hostReset.power.width = 0 then s.hostReset else s.hostReset.setOb O.RST_LAST (setBit (s.hostReset.ob O.RST_LAST) 68)) with
      pcie := { s.hostReset.pcie with perst := true, rate := 0, width := 0, flit := false, l0p := false } } := by
  have taken : ¬(s.pcie.perst = true ∨ (!s.pcieOn) = true) := by rw [noPerst, on]; decide
  refine (if_neg taken).trans ?_
  dsimp only
  split <;> rfl

end LinkUp

theorem State.reg_hostReset {s : State} {o : Nat} (lo : 0x1E0000 ≤ o) (hi : o < 0x1E0600) : s.hostReset.reg o = 0 := by
  have gone : ¬(o < 0x1E0000 ∨ 0x1E0600 ≤ o) := by omega
  rw [State.hostReset, State.reg, TMap.get_filter_of_gone (fun _ => decide_eq_false gone)]
  rfl

theorem State.pcieUp_of_on {s : State} (on : s.pcieOn = true) (noPerst : s.pcie.perst = false) (fast8 : s.strap ≠ 8) (fast9 : s.strap ≠ 9)
    (rate width : Nat) : s.pcieUp rate width = { s with pcie := { s.pcie with
      rate := rate, width := if rate = 0 then 0 else width, flit := decide (rate = 6) } } := by
  have free : ¬(s.strap = 8 ∨ s.strap = 9) := by rintro (h | h) <;> contradiction
  have there : (s.pcieOn && !s.pcie.perst) = true := by rw [on, noPerst]; rfl
  unfold State.pcieUp
  rw [if_neg free]
  exact if_pos there

theorem exec_perstRelease {rate : Fin 7} {width : Fin 5} {s : State} (perst : s.pcie.perst = true) (on : s.pcieOn = true) (up : s.Awake)
    (fast8 : s.strap ≠ 8) (fast9 : s.strap ≠ 9) : exec (.perstRelease rate width) s = .next { s with pcie := { s.pcie with
      perst := false, rate := rate.val, width := if rate.val = 0 then 0 else 2 ^ width.val, flit := decide (rate.val = 6) } } := by
  have held : ¬(!s.pcie.perst) = true := by rw [perst]; decide
  exact (if_neg held).trans (congrArg Host.Outcome.next ((if_pos up).trans
    (State.pcieUp_of_on (s := { s with pcie := { s.pcie with perst := false } }) on rfl fast8 fast9 _ _)))

section BlockReset
variable {who : Path} {k : BitVec 8} {n : BitVec 32} {s t : State}

theorem exec_rstCmdBlock (taken : s.Takes who O.RST_CMD t) (noReset : t.power.width = 0) :
    exec (.rstCmdBlock who k n) s = .next (if n.toNat < resetUnits k.toNat then
      ((t.blockReset k.toNat n.toNat).setOb O.RST_CMD_STATUS 0).answered who O.RST_CMD 0
      else (t.setOb O.RST_CMD_STATUS 0x0A).answered who O.RST_CMD 0x0A) := by
  have free : ¬(t.power.width ≠ 0) := not_not_intro noReset
  split
  next there => exact congrArg Host.Outcome.next (State.access_answers taken.1 taken.2 ((if_neg free).trans (if_pos there)))
  next absent => exact congrArg Host.Outcome.next (State.access_answers taken.1 taken.2 ((if_neg free).trans (if_neg absent)))

end BlockReset

/-- A block reset written to a unit that is not in one begins, is counted, and does what its kind of unit does. -/
theorem exec_blockReset {kind : Fin 6} {u : Fin 144} {s t : State} (up : s.Up) (there : u.val < resetUnits kind.val)
    (notIn : s.unitInReset (256 * kind.val + u.val) = false)
    (ht : t = { s.count O.RST_COUNT 6 1 with power := { s.power with
      inReset := TMap.put 0 s.power.inReset (256 * kind.val + u.val) (s.now + 32) } }) :
    exec (.blockReset kind u) s = .next (if kind.val = 1 then t.resetPort u.val else if kind.val = 2 then t.resetTile u.val
      else if kind.val = 3 then t.resetTu u.val else if kind.val = 4 then t.resetDma u.val else t.resetStack u.val) := by
  have begins : s.blockReset kind.val u.val = if kind.val = 1 then t.resetPort u.val else if kind.val = 2 then t.resetTile u.val
      else if kind.val = 3 then t.resetTu u.val else if kind.val = 4 then t.resetDma u.val else t.resetStack u.val := by
    unfold State.blockReset
    dsimp only
    rw [notIn, if_neg Bool.false_ne_true, ht]
    match kind, there with
    | 1, _ | 2, _ | 3, _ | 4, _ | 5, _ => rfl
  exact (live_of_up up _).trans ((if_pos there).trans (congrArg Host.Outcome.next begins))

/-- A translation unit that holds nothing forgets its lookaside entries and its record of faults. -/
theorem State.resetTu_of_idle {s : State} (noReq : s.common.reqs = []) (noWalk : s.common.walks = []) (p : Nat) :
    s.resetTu p = ({ s with common := { s.common with
      tlb2 := TMap.put [] s.common.tlb2 p [], tlb1 := TMap.put [] s.common.tlb1 p [], walks := [] } }.setReg (0x1A0010 + 8 * p) 0) := by
  unfold State.resetTu
  rw [noReq, noWalk]
  dsimp only [List.filter_nil, List.foldl_nil]
  rw [noWalk]
  rfl

/-- Settles O7: each reset by the equation of its command, and what a reset state reads by the empty tables. -/
theorem resetReadsDefaults : Obligations.ResetReadsDefaults := by
  unfold Obligations.ResetReadsDefaults
  refine ⟨State.reset_reads, ?flr, ?inPerst, ?hot, ?assert, ?release, ?command, ?register, ?idleUnit⟩
  case flr =>
    intro f r s up there hr
    have ran := exec_functionLevelReset up there
    unfold State.flr at ran
    dsimp only at ran
    rw [← hr] at ran
    exact ran
  case inPerst => exact fun s perst => ⟨exec_pcieHotReset_of_perst perst, exec_perstAssert_of_perst perst⟩
  case hot =>
    intro s noPerst on
    exact ⟨_, exec_pcieHotReset noPerst on, rfl, rfl, rfl, fun o lo hi => State.reg_hostReset lo hi⟩
  case assert => exact fun s noPerst on => ⟨_, exec_perstAssert noPerst on, rfl, rfl, rfl⟩
  case release => exact fun rate width s perst on up fast8 fast9 => exec_perstRelease perst on up fast8 fast9
  case command => exact fun who k n s t taken noReset => exec_rstCmdBlock taken noReset
  case register => exact fun kind u s t up there notIn ht => exec_blockReset up there notIn ht
  case idleUnit => exact fun p s noReq noWalk => State.resetTu_of_idle noReq noWalk p

end Sys2Proof.Machine
end

section
/-!
SUPPORT and the settling of O11 (LinkBringUpSteps), O12 (LinkErrorsAndHold), O13 (HoldKeepsTheReplayBuffer) and O14 (FlockLinksAndRetrain).
A block that was written reads as it was written when that is not an empty block, which a block in a bring-up step, or one with a state
of its port, never is. What the start of training does to a block is said once (`State.tryTrain_block`).
-/

namespace Sys2Proof.Machine

set_option Elab.async false

/-! ### What a transmission leaves alone -/

section Transmit
variable (s : State) (b : Nat) (o : Out)

/-- A transmission adds to what was sent, or, with the lanes idle, does nothing. -/
theorem State.transmit_eq : s.transmit b o = { s with out := (s.transmit b o).out } := by
  unfold State.transmit
  split <;> rfl

theorem State.transmit_blocks : (s.transmit b o).blocks = s.blocks := by rw [State.transmit_eq]
theorem State.transmit_block (i : Nat) : (s.transmit b o).block i = s.block i := by rw [State.block, State.transmit_blocks]; rfl
theorem State.transmit_fold : (s.transmit b o).fold = s.fold := by rw [State.transmit_eq]
theorem State.transmit_now : (s.transmit b o).now = s.now := by rw [State.transmit_eq]
theorem State.transmit_objs : (s.transmit b o).objs = s.objs := by rw [State.transmit_eq]
theorem State.transmit_hbm : (s.transmit b o).hbm = s.hbm := by rw [State.transmit_eq]

end Transmit

/-! ### Blocks that are not empty -/

theorem Block.ne_default_of_inner {x : Block} (h : x.inner ≠ 0) : x ≠ {} := by rintro rfl; exact h rfl

theorem Block.ne_default_of_signal {x : Block} (h : x.signal ≠ 0) : x ≠ {} := by rintro rfl; exact h rfl

theorem Block.ne_default_of_locked {x : Block} (h : x.locked ≠ 0) : x ≠ {} := by rintro rfl; exact h rfl

theorem Block.ne_default_of_states {x : Block} {i : Nat} (h : TMap.get 0 x.states i ≠ 0) : x ≠ {} := by rintro rfl; exact h rfl

theorem Block.ne_default_of_holdAt {x : Block} (h : x.holdAt ≠ none) : x ≠ {} := by rintro rfl; exact h rfl

theorem Block.ne_default_of_stepAt {x : Block} (h : x.stepAt ≠ none) : x ≠ {} := by rintro rfl; exact h rfl

theorem Block.ne_default_of_darkAt {x : Block} (h : x.darkAt ≠ none) : x ≠ {} := by rintro rfl; exact h rfl

/-- A block that differs from an empty one in more than the states of its ports. -/
def Block.Stands (x : Block) : Prop := ∀ st, { x with states := st } ≠ ({} : Block)

theorem Block.stands_of_inner {x : Block} (h : x.inner ≠ 0) : x.Stands := fun _ => Block.ne_default_of_inner h

theorem Block.stands_of_holdAt {x : Block} (h : x.holdAt ≠ none) : x.Stands := fun _ => Block.ne_default_of_holdAt h

theorem Block.stands_of_trained {x : Block} (h : x.trained ≠ 0) : x.Stands := fun _ same => h (congrArg Block.trained same)

theorem Block.stands_of_stepAt {x : Block} (h : x.stepAt ≠ none) : x.Stands := fun _ => Block.ne_default_of_stepAt h

theorem State.block_setPortState {s : State} {b v : Nat} (stands : (s.block b).Stands) :
    (s.setPortState (8 * b) v).block b = { s.block b with states := TMap.put 0 (s.block b).states (8 * b % 8) v } := by
  unfold State.setPortState
  rw [Nat.mul_div_cancel_left b (by decide)]
  exact State.block_modBlock (stands _)

theorem State.portState_link (s : State) (b : Nat) : s.portState (8 * b) = TMap.get 0 (s.block b).states (8 * b % 8) := by
  rw [State.portState, Nat.mul_div_cancel_left b (by decide)]

/-! ### The start of training (R194, R252) -/

/-- A block in wait with signal on all lanes of a link that may send. -/
structure State.MayTrain (s : State) (b : Nat) : Prop where
  link : s.isLink b = true
  waits : (s.block b).inner = 1
  signal : (s.block b).signal = 255
  notFenced : s.blockFenced b = false
  clocked : s.unclocked b = false

/-- A step of bring-up shows in the state of the port, unless the link is in hold. -/
def State.stepState (s : State) (b v : Nat) : State := if s.portState (8 * b) = 7 then s else s.setPortState (8 * b) v

/-- The first training idle flit goes out, and the step has 50 ms. -/
def State.trainBegins (s : State) (b : Nat) : State :=
  (s.modBlock b (fun x => { x with inner := 2, stepAt := some (s.now + 50000000), lastUsed := false })).sendTraining b

/-- The preset for the expected peer, if there is one, is loaded. -/
def State.presetLoad (s : State) (b : Nat) : State :=
  let ex := s.row O.CIRC_EXPECT b
  if s.keepsPresets b && exValid ex && s.lFeature b 7 then
    match s.presetFor b (exSerial ex) (exBlock ex) with
    | some i =>
      let r := s.row O.CIRC_PRESET (64 * b + i)
      let uses := min 0xFFFFFFFF (bits r 128 32 + 1)
      let s := s.setRow O.CIRC_PRESET (64 * b + i) (setBits (setBits r 96 32 s.bell) 128 32 uses)
      s.modBlock b (fun x => { x with presetSlot := some i, presetAt := some (s.now + 20000), stepAt := none, lastSlot := i
                                      preset := r })
    | none => s.count O.CIRC_STAT 3 1
  else s

theorem State.tryTrain_of_may {s : State} {b : Nat} (may : s.MayTrain b) : s.tryTrain b = ((s.stepState b 2).trainBegins b).presetLoad b := by
  obtain ⟨link, waits, signal, notFenced, clocked⟩ := may
  refine (if_neg ?_).trans rfl
  rw [link, waits, signal, notFenced, clocked]
  decide

theorem State.tryTrain_of_not {s : State} {b : Nat} (not : ¬s.MayTrain b) : s.tryTrain b = s := by
  refine if_pos (Decidable.byContradiction fun may => ?_)
  simp only [Bool.or_eq_true, not_or, Bool.not_eq_true, Bool.not_eq_false', bne_eq_false_iff_eq] at may
  obtain ⟨⟨⟨⟨link, waits⟩, signal⟩, notFenced⟩, clocked⟩ := may
  exact not ⟨link, waits, signal, notFenced, clocked⟩

/-- What the start of training changes of a block. -/
structure Block.Trains (x y : Block) : Prop where
  same : y = { x with states := y.states, inner := y.inner, stepAt := y.stepAt, lastUsed := y.lastUsed, presetSlot := y.presetSlot
                      presetAt := y.presetAt, lastSlot := y.lastSlot, preset := y.preset }

theorem Block.Trains.refl (x : Block) : x.Trains x := ⟨rfl⟩

theorem Block.Trains.trans {x y z : Block} (h : x.Trains y) (k : y.Trains z) : x.Trains z := by
  refine ⟨k.same.trans ?_⟩
  rw [h.same]

theorem State.stepState_block {s : State} {b : Nat} (stands : (s.block b).Stands) (v : Nat) :
    ∃ st, (s.stepState b v).block b = { s.block b with states := st } := by
  unfold State.stepState
  split
  · exact ⟨_, rfl⟩
  · exact ⟨_, State.block_setPortState stands⟩

theorem State.stepState_objs (s : State) (b v : Nat) : (s.stepState b v).objs = s.objs := by
  unfold State.stepState
  split <;> rfl

theorem State.trainBegins_block (s : State) (b : Nat) :
    (s.trainBegins b).block b = { s.block b with inner := 2, stepAt := some (s.now + 50000000), lastUsed := false } := by
  refine (State.transmit_block _ _ _ _).trans ?_
  exact State.block_modBlock (Block.ne_default_of_inner (x := { s.block b with inner := 2, stepAt := _, lastUsed := _ }) (by simp))

theorem State.presetLoad_block {s : State} {b : Nat} (trains : (s.block b).inner = 2) :
    (s.block b).Trains ((s.presetLoad b).block b) ∧ ((s.presetLoad b).block b).inner = 2 ∧
      (((s.presetLoad b).block b).stepAt = (s.block b).stepAt ∨
        ((s.presetLoad b).block b).stepAt = none ∧ ((s.presetLoad b).block b).presetAt = some (s.now + 20000)) := by
  unfold State.presetLoad
  dsimp only
  split
  · split
    · rw [State.block_modBlock (Block.ne_default_of_inner (by dsimp only; exact trains ▸ (by decide)))]
      exact ⟨⟨rfl⟩, trains, .inr ⟨rfl, rfl⟩⟩
    · exact ⟨.refl _, trains, .inl rfl⟩
  · exact ⟨.refl _, trains, .inl rfl⟩

/-- What the start of training leaves of the other parts of the state that later steps rest on. -/
structure State.TrainsOnly (s t : State) : Prop where
  fold : t.fold = s.fold
  now : t.now = s.now
  hbm : t.hbm = s.hbm

theorem State.TrainsOnly.refl (s : State) : s.TrainsOnly s := ⟨rfl, rfl, rfl⟩

theorem State.TrainsOnly.trans {s t u : State} (h : s.TrainsOnly t) (k : t.TrainsOnly u) : s.TrainsOnly u :=
  ⟨k.fold.trans h.fold, k.now.trans h.now, k.hbm.trans h.hbm⟩

theorem State.stepState_only (s : State) (b v : Nat) : s.TrainsOnly (s.stepState b v) := by
  unfold State.stepState
  split <;> exact ⟨rfl, rfl, rfl⟩

theorem State.trainBegins_only (s : State) (b : Nat) : s.TrainsOnly (s.trainBegins b) :=
  ⟨State.transmit_fold _ _ _, State.transmit_now _ _ _, State.transmit_hbm _ _ _⟩

theorem State.presetLoad_only (s : State) (b : Nat) : s.TrainsOnly (s.presetLoad b) := by
  unfold State.presetLoad
  dsimp only
  split
  · split <;> exact ⟨rfl, rfl, rfl⟩
  · exact .refl s

theorem State.tryTrain_only (s : State) (b : Nat) : s.TrainsOnly (s.tryTrain b) := by
  by_cases may : s.MayTrain b
  · rw [State.tryTrain_of_may may]
    exact ((s.stepState_only b 2).trans (State.trainBegins_only _ b)).trans (State.presetLoad_only _ b)
  · rw [State.tryTrain_of_not may]
    exact .refl s

/-- A block that starts to train: its step has 50 ms, or it adapts from a preset. -/
theorem State.tryTrain_block_of_may {s : State} {b : Nat} (may : s.MayTrain b) :
    (s.block b).Trains ((s.tryTrain b).block b) ∧ ((s.tryTrain b).block b).inner = 2 ∧
      (((s.tryTrain b).block b).stepAt = some (s.now + 50000000) ∨
        ((s.tryTrain b).block b).stepAt = none ∧ ((s.tryTrain b).block b).presetAt = some (s.now + 20000)) := by
  obtain ⟨st, first⟩ := State.stepState_block (Block.stands_of_inner (by rw [may.waits]; decide)) 2
  have second := State.trainBegins_block (s.stepState b 2) b
  have trains : (((s.stepState b 2).trainBegins b).block b).inner = 2 := by rw [second]
  obtain ⟨third, inner, step⟩ := State.presetLoad_block trains
  have now : ((s.stepState b 2).trainBegins b).now = s.now :=
    ((State.trainBegins_only _ b).now).trans (s.stepState_only b 2).now
  have since : (((s.stepState b 2).trainBegins b).block b).stepAt = some (s.now + 50000000) := by
    rw [second, (s.stepState_only b 2).now]
  rw [State.tryTrain_of_may may]
  rw [since, now] at step
  exact ⟨Block.Trains.trans ⟨by rw [second, first]⟩ third, inner, step⟩

theorem State.tryTrain_block (s : State) (b : Nat) : (s.block b).Trains ((s.tryTrain b).block b) := by
  by_cases may : s.MayTrain b
  · exact (State.tryTrain_block_of_may may).1
  · rw [State.tryTrain_of_not may]
    exact .refl _

/-! ### Codeword lock (R194, R196) -/

theorem State.toLock_eq (s : State) (b : Nat) : s.toLock b =
    (s.stepState b 3).modBlock b (fun x => { x with inner := 3, presetAt := none, stepAt := some (s.now + 20000) }) := by
  unfold State.toLock State.stepState
  dsimp only
  split <;> rfl

/-- Every lane has trained: the step of codeword lock begins. -/
theorem State.toLock_block {s : State} {b : Nat} (stands : (s.block b).Stands) : ∃ st, (s.toLock b).block b =
    { s.block b with states := st, inner := 3, presetAt := none, stepAt := some (s.now + 20000) } := by
  obtain ⟨st, shown⟩ := State.stepState_block stands 3
  rw [State.toLock_eq]
  exact ⟨st, (State.block_modBlock (Block.ne_default_of_inner (Nat.succ_ne_zero _))).trans (by rw [shown])⟩

theorem State.toLock_only (s : State) (b : Nat) : s.TrainsOnly (s.toLock b) := by
  rw [State.toLock_eq]
  exact (s.stepState_only b 3).trans ⟨rfl, rfl, rfl⟩

theorem State.toLock_objs (s : State) (b : Nat) : (s.toLock b).objs = s.objs := by
  rw [State.toLock_eq]
  exact s.stepState_objs b 3

/-! ### Bring-up, step by step (R194 to R198, R204, R249) -/

/-- Lane `lane` shows signal: since now, where it is the last of the eight. -/
def State.lit (s : State) (b lane : Nat) : State := s.modBlock b (fun x =>
  { x with signal := setBit x.signal lane
           lightAt := if x.signal ≠ 255 ∧ setBit x.signal lane = 255 then s.now else x.lightAt })

/-- The last lane shows signal. -/
theorem exec_laneSignalDetect {b : Fin 128} {lane : Fin 8} {s : State} (up : s.Up) (link : s.isLink b.val = true)
    (waits : (s.block b.val).inner = 1) (all : setBit (s.block b.val).signal lane.val = 255) (notFenced : s.blockFenced b.val = false)
    (clocked : s.unclocked b.val = false) :
    ∃ t, exec (.laneSignalDetect b lane) s = .next t ∧ (t.block b.val).inner = 2 ∧ (t.block b.val).signal = 255 ∧ t.fold = s.fold ∧
      ((t.block b.val).stepAt = some (s.now + 50000000) ∨
        ((t.block b.val).stepAt = none ∧ (t.block b.val).presetAt = some (s.now + 20000))) := by
  have seen : (s.lit b.val lane.val).block b.val = { s.block b.val with
      signal := 255, lightAt := if (s.block b.val).signal ≠ 255 ∧ True then s.now else (s.block b.val).lightAt } := by
    rw [State.lit, State.block_modBlock (Block.ne_default_of_signal (by dsimp only; exact all ▸ (by decide)))]
    simp only [all]
  have may : (s.lit b.val lane.val).MayTrain b.val := ⟨link, by rw [seen]; exact waits, by rw [seen], notFenced, clocked⟩
  obtain ⟨trains, inner, step⟩ := State.tryTrain_block_of_may may
  refine ⟨(s.lit b.val lane.val).tryTrain b.val, live_of_up up _, inner, ?_, (State.tryTrain_only _ b.val).fold, step⟩
  rw [trains.same, seen]

/-- The equalisers of lane `lane` have adapted, at the SNR `snr`. -/
def State.adapts (s : State) (b lane snr lanes : Nat) : State := (s.setRow (blockOid O.PORT_LANE_SNR b) lane snr).modBlock b (fun x =>
  { x with trained := setBit x.trained lane, laneState := TMap.put 0 x.laneState lane (setBits lanes 0 16 snr) })

/-- A lane's equalisers have adapted. -/
theorem exec_laneTrainComplete {b : Fin 128} {lane : Fin 8} {snr : BitVec 16} {lanes : BitVec 224} {s : State} (up : s.Up)
    (trains : (s.block b.val).inner = 2) (noPreset : (s.block b.val).presetAt = none) :
    ∃ t, exec (.laneTrainComplete b lane snr lanes) s = .next t ∧
      t.objs = (s.setRow (blockOid O.PORT_LANE_SNR b.val) lane.val snr.toNat).objs ∧
      (t.block b.val).trained = setBit (s.block b.val).trained lane.val ∧
      (t.block b.val).inner = (if setBit (s.block b.val).trained lane.val = 255 then 3 else 2) ∧ t.fold = s.fold ∧ t.hbm = s.hbm := by
  have goes : ¬((s.block b.val).inner ≠ 2 ∨ (s.block b.val).presetAt.isSome = true) := by rw [trains, noPreset]; decide
  have adapted : (s.adapts b.val lane.val snr.toNat lanes.toNat).block b.val = { s.block b.val with
      trained := setBit (s.block b.val).trained lane.val
      laneState := TMap.put 0 (s.block b.val).laneState lane.val (setBits lanes.toNat 0 16 snr.toNat) } :=
    State.block_modBlock (Block.ne_default_of_inner (by
      change (s.block b.val).inner ≠ 0
      rw [trains]
      decide))
  have ran : exec (.laneTrainComplete b lane snr lanes) s =
      if ((s.adapts b.val lane.val snr.toNat lanes.toNat).block b.val).trained = 255 then
        .next ((s.adapts b.val lane.val snr.toNat lanes.toNat).toLock b.val)
      else .next (s.adapts b.val lane.val snr.toNat lanes.toNat) :=
    (live_of_up up _).trans (if_neg goes)
  rw [adapted] at ran
  dsimp only at ran
  split at ran
  next all =>
    have starts : ((s.adapts b.val lane.val snr.toNat lanes.toNat).block b.val).inner ≠ 0 := by
      rw [adapted]
      exact trains ▸ (by decide)
    obtain ⟨st, locks⟩ := State.toLock_block (Block.stands_of_inner starts)
    have only := (s.adapts b.val lane.val snr.toNat lanes.toNat).toLock_only b.val
    refine ⟨_, ran, State.toLock_objs _ b.val, by rw [locks, adapted], by rw [locks, if_pos all], only.fold, only.hbm⟩
  next some =>
    rw [if_neg some]
    refine ⟨_, ran, rfl, by rw [adapted], by rw [adapted]; exact trains, rfl, rfl⟩


theorem Rest.block {s t : State} (h : Rest s t) (b : Nat) : t.block b = s.block b := by
  rw [State.block, h.blocks]
  rfl

/-- The SNR of each lane that bounded adaptation reached is recorded at its end. -/
def State.adaptRecorded (s : State) (b t0 snr : Nat) : State :=
  (List.range 8).foldl (fun s l => s.setRow (blockOid O.PORT_LANE_SNR b) l (bits snr (16 * l) 16)) (s.advanceTo t0)

theorem State.adaptRecorded_rest (s : State) (b t0 snr : Nat) : Rest s (s.adaptRecorded b t0 snr) :=
  (State.advanceTo_rest (Rest.refl s) t0).foldl (fun _ _ h => State.setRow_rest h _ _ _)

/-- The lane states, as a preset stores them, each with its SNR. -/
def adaptedLanes (snr lanes : Nat) : TMap Nat :=
  (List.range 8).foldl (fun m l => TMap.put 0 m l (setBits (bits lanes (224 * l) 224) 0 16 (bits snr (16 * l) 16))) []

section PresetAdapt
variable {b : Fin 128} {snr : BitVec 128} {lanes : BitVec 1792} {i t0 : Nat} {s u : State} (up : s.Up)
  (loaded : (s.block b.val).presetSlot = some i) (adapts : (s.block b.val).presetAt = some t0)
  (hu : u = s.adaptRecorded b.val t0 snr.toNat)
include up loaded adapts hu

theorem exec_presetAdaptDone : exec (.presetAdaptDone b (snr, lanes)) s =
    if (List.range 8).all (fun l => decide (bits (s.block b.val).preset (256 + 224 * l) 16 ≤ bits snr.toNat (16 * l) 16 + 384)) = true then
      .next ((u.modBlock b.val (fun x => { x with
        trained := 255, lastUsed := true, laneState := adaptedLanes snr.toNat lanes.toNat })).toLock b.val)
    else .next (((u.count O.CIRC_STAT 2 1).raise O.CIRC_ERR 4).modBlock b.val (fun x => { x with
      presetSlot := none, presetAt := none, trained := 0, stepAt := some (((u.count O.CIRC_STAT 2 1).raise O.CIRC_ERR 4).now + 50000000) })) := by
  refine (live_of_up up _).trans ?_
  dsimp only
  rw [loaded, adapts, hu]
  rfl

/-- The lane state that bounded adaptation reached is taken over, or the preset is given up and training begins anew. -/
theorem exec_presetAdaptDone_block :
    ∃ t, exec (.presetAdaptDone b (snr, lanes)) s = .next t ∧ (t.block b.val).presetAt = none ∧
      (if (List.range 8).all (fun l => decide (bits (s.block b.val).preset (256 + 224 * l) 16 ≤ bits snr.toNat (16 * l) 16 + 384)) = true then
        (t.block b.val).trained = 255 ∧ (t.block b.val).lastUsed = true ∧ (t.block b.val).inner = 3
       else (t.block b.val).trained = 0 ∧ (t.block b.val).presetSlot = none ∧ (t.block b.val).stepAt = some (t.now + 50000000)) := by
  rw [exec_presetAdaptDone up loaded adapts hu]
  split
  next near =>
    have taken := State.block_modBlock (s := u) (b := b.val) (f := fun x => { x with
      trained := 255, lastUsed := true, laneState := adaptedLanes snr.toNat lanes.toNat })
      (Block.stands_of_trained (x := { u.block b.val with
        trained := 255, lastUsed := true, laneState := adaptedLanes snr.toNat lanes.toNat }) (by dsimp only; decide) _)
    obtain ⟨st, locks⟩ := State.toLock_block (Block.stands_of_trained (by rw [taken]; dsimp only; decide))
    refine ⟨_, rfl, ?_⟩
    rw [locks, taken]
    exact ⟨rfl, rfl, rfl, rfl⟩
  next far =>
    refine ⟨_, rfl, ?_⟩
    rw [State.block_modBlock (Block.ne_default_of_stepAt (Option.some_ne_none _))]
    exact ⟨rfl, rfl, rfl, rfl⟩

end PresetAdapt

theorem State.advertise_block (s : State) (b : Nat) (begins : (s.block b).inner ≠ 0) : ∃ r n, (s.advertise b).block b =
    { s.block b with rsvInUse := r, spaceInUse := n } := by
  unfold State.advertise
  split
  · exact ⟨_, _, rfl⟩
  · exact ⟨_, _, State.block_modBlock (Block.ne_default_of_inner begins)⟩

/-- Lock on every lane: the hello step begins, under a new link_epoch unless the block asks to resume. -/
def State.helloBegins (s : State) (b : Nat) : State :=
  ((s.stepState b 4).modBlock b (fun x => { x with inner := 4, stepAt := some (s.now + 10000000)
                                                   epochInc := if x.askResume then x.epochInc else x.epochInc + 1 })).advertise b

theorem State.helloBegins_block {s : State} {b : Nat} (stands : (s.block b).Stands) : ∃ st r n, (s.helloBegins b).block b =
    { s.block b with states := st, rsvInUse := r, spaceInUse := n, inner := 4, stepAt := some (s.now + 10000000)
                     epochInc := if (s.block b).askResume then (s.block b).epochInc else (s.block b).epochInc + 1 } := by
  obtain ⟨st, shown⟩ := State.stepState_block stands 4
  have begins := State.block_modBlock (s := s.stepState b 4) (b := b) (f := fun x => { x with
    inner := 4, stepAt := some (s.now + 10000000), epochInc := if x.askResume then x.epochInc else x.epochInc + 1 })
    (Block.ne_default_of_inner (Nat.succ_ne_zero _))
  obtain ⟨r, n, offers⟩ := State.advertise_block _ b (show (((s.stepState b 4).modBlock b (fun x => { x with
    inner := 4, stepAt := some (s.now + 10000000), epochInc := if x.askResume then x.epochInc else x.epochInc + 1 })).block b).inner ≠ 0 by
      rw [begins]; exact Nat.succ_ne_zero 3)
  rw [begins, shown] at offers
  exact ⟨st, r, n, offers⟩

theorem exec_codewordLock {b : Fin 128} {lane : Fin 8} {s u : State} (up : s.Up) (link : s.isLink b.val = true)
    (locks : (s.block b.val).inner = 3) (all : setBit (s.block b.val).locked lane.val = 255)
    (hu : u = s.modBlock b.val (fun x => { x with locked := setBit x.locked lane.val })) :
    exec (.codewordLock b lane true) s = .next (u.helloBegins b.val) ∧ u.block b.val = { s.block b.val with locked := 255 } := by
  have locked : u.block b.val = { s.block b.val with locked := 255 } := by
    rw [hu, State.block_modBlock (Block.ne_default_of_inner (by dsimp only; exact locks ▸ (by decide)))]
    simp only [all]
  have ready : (u.isLink b.val && (u.block b.val).inner == 3 && (u.block b.val).locked == 255 && true) = true := by
    rw [locked, hu]
    change (s.isLink b.val && (s.block b.val).inner == 3 && (255 : Nat) == 255 && true) = true
    rw [link, locks]
    rfl
  refine ⟨(live_of_up up _).trans ?_, locked⟩
  dsimp only
  rw [← hu, if_pos ready]
  unfold State.helloBegins State.stepState
  split <;> rfl

/-! ### Hellos (R195, R204) -/

theorem State.isLink_role {s : State} {b : Nat} (link : s.isLink b = true) : s.role b ≠ 0 := by
  have two := (of_decide_eq_true link).1
  omega

theorem State.advertise_eq (s : State) (b : Nat) : s.advertise b = { s with blocks := (s.advertise b).blocks } := by
  unfold State.advertise
  split <;> rfl

/-- Lanes that may send. -/
theorem State.transmit_of_clear {s : State} {b : Nat} (role : s.role b ≠ 0) (notFenced : s.blockFenced b = false)
    (free : (s.ob O.CROOK_SQUELCH).testBit b = false) (clocked : s.unclocked b = false) (o : Out) : s.transmit b o = s.emit o := by
  refine if_neg ?_
  rw [beq_eq_false_iff_ne.mpr role, notFenced, free, clocked]
  decide

/-- A block in the hello step with lanes that may send: the hello goes out and is counted. -/
theorem exec_helloSend {b : Fin 128} {s u : State} (up : s.Up) (link : s.isLink b.val = true) (hello : (s.block b.val).inner = 4)
    (free : (s.ob O.CROOK_SQUELCH).testBit b.val = false) (clocked : s.unclocked b.val = false) (notFenced : s.blockFenced b.val = false)
    (hu : u = (s.advertise b.val).modBlock b.val (fun x => { x with helloSent := x.helloSent + 1 })) :
    ∃ h, exec (.helloSend b) s =
      .next (u.emit (.flit b.val none h (beBytes 128 ((s.advertise b.val).helloRecord b.val) ++ List.replicate 512 0))) := by
  have sameRole : u.role b.val = s.role b.val := by rw [hu, State.advertise_eq]; rfl
  have sameFence : u.blockFenced b.val = s.blockFenced b.val := by rw [hu, State.advertise_eq]; rfl
  have sameSquelch : u.ob O.CROOK_SQUELCH = s.ob O.CROOK_SQUELCH := by rw [hu, State.advertise_eq]; rfl
  have sameClock : u.unclocked b.val = s.unclocked b.val := by rw [hu, State.advertise_eq]; rfl
  have sends := State.transmit_of_clear (sameRole ▸ State.isLink_role link) (sameFence.trans notFenced) (sameSquelch ▸ free)
    (sameClock.trans clocked)
  have ran : exec (.helloSend b) s = .next _ :=
    (live_of_up up _).trans (congrArg Host.Outcome.next (if_neg (not_not_intro hello)))
  rw [← hu, sends] at ran
  exact ⟨_, ran⟩

theorem helloSent_of_advertise {s u : State} {b : Nat} (hello : (s.block b).inner = 4)
    (hu : u = (s.advertise b).modBlock b (fun x => { x with helloSent := x.helloSent + 1 })) :
    (u.block b).helloSent = (s.block b).helloSent + 1 := by
  obtain ⟨r, n, offers⟩ := State.advertise_block s b (hello ▸ Nat.succ_ne_zero 3)
  rw [hu, State.block_modBlock (Block.ne_default_of_inner (by dsimp only; rw [offers]; exact hello ▸ Nat.succ_ne_zero 3)), offers]

/-- A peer's hello on a link that is up, or in ctrl, and not armed: hold. -/
theorem exec_helloReceive {b : Fin 128} {rec : BitVec 1024} {s : State} (up : s.Up) (link : s.isLink b.val = true)
    (notFenced : s.blockFenced b.val = false) (linked : s.portState (8 * b.val) = 5 ∨ s.portState (8 * b.val) = 6)
    (noArm : (s.block b.val).armAt = none) : exec (.helloReceive b rec) s =
      .next ((s.setOb (blockOid O.PORT_PEER b.val) (leNum (beBytes 128 rec.toNat))).linkHold b.val) := by
  have there : ¬(!s.isLink b.val || s.blockFenced b.val) = true := by rw [link, notFenced]; decide
  have flits : s.portState (8 * b.val) = 5 ∨ s.portState (8 * b.val) = 6 ∨ s.portState (8 * b.val) = 9 := by omega
  refine (live_of_up up _).trans (congrArg Host.Outcome.next ((if_neg there).trans ((if_pos flits).trans (if_neg ?_))))
  rw [noArm]
  decide

/-- Settles O11: each step of a bring-up by what its command does to the block. -/
theorem linkBringUpSteps : Obligations.LinkBringUpSteps := by
  unfold Obligations.LinkBringUpSteps
  refine ⟨?signal, ?train, ?preset, ?lock, ?hello, ?peer⟩
  case signal => exact fun b lane s up link waits all notFenced clocked => exec_laneSignalDetect up link waits all notFenced clocked
  case train => exact fun b lane snr lanes s up trains noPreset => exec_laneTrainComplete up trains noPreset
  case preset => exact fun b snr lanes i t0 s up loaded adapts => exec_presetAdaptDone_block up loaded adapts rfl
  case lock =>
    intro b lane s up link locks all
    obtain ⟨ran, locked⟩ := exec_codewordLock up link locks all rfl
    obtain ⟨st, r, n, begins⟩ := State.helloBegins_block (Block.stands_of_inner (by rw [locked]; exact locks ▸ Nat.succ_ne_zero 2))
    refine ⟨_, ran, by rw [begins], by rw [begins]; rfl, ?_⟩
    rw [begins, locked]
    dsimp only
    split <;> rfl
  case hello =>
    intro b s up link hello free clocked notFenced
    obtain ⟨h, ran⟩ := exec_helloSend up link hello free clocked notFenced rfl
    have counted := helloSent_of_advertise (s := s) hello rfl
    refine ⟨_, h, ran, counted, ?_⟩
    rw [State.advertise_eq]
    rfl
  case peer => exact fun b rec s up link notFenced linked noArm => exec_helloReceive up link notFenced linked noArm

end Sys2Proof.Machine
end

section
/-!
SUPPORT and the settling of O12 (LinkErrorsAndHold), O13 (HoldKeepsTheReplayBuffer) and O14 (FlockLinksAndRetrain). What a hold keeps is
what the start of training leaves of a block (`State.tryTrain_block`).
-/

namespace Sys2Proof.Machine

set_option Elab.async false

/-! ### Flits (R190, R193, R203, R216) -/

/-- A flit that reaches a link that carries flits. -/
structure State.FlitIn (s u : State) (b errs : Nat) : Prop where
  counted : u = s.countFec b errs
  role : s.role b ≠ 0
  notFenced : s.blockFenced b = false
  notFar : s.bob b O.PORT_LOOPBACK ≠ 2
  link : u.isLink b = true
  flits : carries (u.portState (8 * b)) = true

section FlitIn
variable {b : Fin 128} {h : BitVec 160} {payload : List Byte} {errs : BitVec 10} {s u : State} (up : s.Up) (arrives : s.FlitIn u b.val errs.toNat)
include up arrives

/-- The checks of a flit, in order: symbol errors, CRC, type, number. -/
theorem exec_flitReceive : exec (.flitReceive b h payload errs) s = .next
    (if u.fecLimit b.val < errs.toNat then (u.portErr b.val 1).flitNak b.val
     else if bits h.toNat 0 24 ≠ crc24 h.toNat payload then ((u.portCount b.val 2 1).portErr b.val 1).flitNak b.val
     else if bits h.toNat 152 8 = 0 then u
     else if bits h.toNat 152 8 = 2 then u.helloReceive b.val (beAt payload 0 128)
     else if bits h.toNat 152 8 ≠ 1 then u.portCount b.val 2 1
     else if (bits h.toNat 128 24 + 2 ^ 24 - (u.block b.val).rxSeq) % 2 ^ 24 = 0 then
       (u.flitDeliver b.val h.toNat payload).skewRun b.val ((u.flitDeliver b.val h.toNat payload).block b.val).skewed.length
     else if (bits h.toNat 128 24 + 2 ^ 24 - (u.block b.val).rxSeq) % 2 ^ 24 < 2 ^ 23 then
       u.flitAhead b.val h.toNat payload ((bits h.toNat 128 24 + 2 ^ 24 - (u.block b.val).rxSeq) % 2 ^ 24)
     else u) := by
  obtain ⟨counted, role, notFenced, notFar, link, flits⟩ := arrives
  have goes : ¬(s.role b.val = 0 ∨ s.blockFenced b.val = true) := by simp [role, notFenced]
  have near : ¬(s.isLink b.val = true ∧ s.bob b.val O.PORT_LOOPBACK = 2) := fun far => notFar far.2
  have taken : ¬(!u.isLink b.val || !carries (u.portState (8 * b.val))) = true := by rw [link, flits]; decide
  refine (live_of_up up _).trans (congrArg Host.Outcome.next ((if_neg goes).trans ((if_neg near).trans ?_)))
  rw [← counted]
  exact if_neg taken

theorem exec_flitReceive_of_errors (errors : u.fecLimit b.val < errs.toNat) :
    exec (.flitReceive b h payload errs) s = .next ((u.portErr b.val 1).flitNak b.val) :=
  (exec_flitReceive up arrives).trans (congrArg Host.Outcome.next (if_pos errors))

theorem exec_flitReceive_of_badCrc (corrected : errs.toNat ≤ u.fecLimit b.val) (bad : bits h.toNat 0 24 ≠ crc24 h.toNat payload) :
    exec (.flitReceive b h payload errs) s = .next (((u.portCount b.val 2 1).portErr b.val 1).flitNak b.val) :=
  (exec_flitReceive up arrives).trans (congrArg Host.Outcome.next ((if_neg (Nat.not_lt.mpr corrected)).trans (if_pos bad)))

theorem exec_flitReceive_in_order (corrected : errs.toNat ≤ u.fecLimit b.val) (good : bits h.toNat 0 24 = crc24 h.toNat payload)
    (data : bits h.toNat 152 8 = 1) (next : bits h.toNat 128 24 = (u.block b.val).rxSeq) :
    exec (.flitReceive b h payload errs) s =
      .next ((u.flitDeliver b.val h.toNat payload).skewRun b.val ((u.flitDeliver b.val h.toNat payload).block b.val).skewed.length) := by
  rw [exec_flitReceive up arrives, if_neg (Nat.not_lt.mpr corrected), if_neg (not_not_intro good), if_neg (by rw [data]; decide),
    if_neg (by rw [data]; decide), if_neg (not_not_intro data), if_pos (by rw [next]; omega)]

end FlitIn

theorem State.countFec_of_errors {s : State} {b n : Nat} (errors : n ≠ 0) : s.countFec b n = if n ≤ s.fecLimit b then
    ((s.portCount b 0 1).holdCount (fecOff b) 0 1).tally 0x0202 b else (s.portCount b 1 1).holdCount (fecOff b) 32 1 := if_neg errors

/-! ### Loss and hold (R203 to R206, R210) -/

section Link
variable {b : Fin 128} {lane : Fin 8} {s u : State} (up : s.Up)
include up

theorem exec_ackTimeoutReplay (waits : (s.block b.val).replay.isEmpty = false) (flits : carries (s.portState (8 * b.val)) = true) :
    exec (.ackTimeoutReplay b) s =
      .next ((s.advanceTo ((s.block b.val).ackAt + 2 * s.bob b.val O.PORT_RTT_NS + 1000)).replayLink b.val) := by
  refine (live_of_up up _).trans (if_neg ?_)
  rw [waits, flits]
  decide

/-- Lane `lane` has lost its signal, and its codeword lock with it, now. -/
def State.dark (s : State) (b lane : Nat) : State := s.modBlock b (fun x =>
  { x with signal := clearBit x.signal lane, locked := clearBit x.locked lane, darkAt := some s.now })

theorem exec_lossOfSignal (was : (s.block b.val).signal.testBit lane.val = true) (link : s.isLink b.val = true)
    (notFenced : s.blockFenced b.val = false) (flits : carries (s.portState (8 * b.val)) = true) (noArm : (s.block b.val).armAt = none)
    (hu : u = (s.modBlock b.val (fun x => { x with signal := clearBit x.signal lane.val, locked := clearBit x.locked lane.val
                                                   darkAt := some s.now })).portErr b.val 0)
    (still : u.isLink b.val = true) : exec (.lossOfSignal b lane) s = .next (u.linkHold b.val) := by
  have hv : u = (s.dark b.val lane.val).portErr b.val 0 := hu
  have taken : ¬(!(s.block b.val).signal.testBit lane.val || decide ((s.dark b.val lane.val).role b.val = 0) ||
      (s.dark b.val lane.val).blockFenced b.val) = true := by
    have role : (s.dark b.val lane.val).role b.val ≠ 0 := State.isLink_role link
    have free : (s.dark b.val lane.val).blockFenced b.val = false := notFenced
    rw [was, decide_eq_false role, free]
    decide
  have block : (u.block b.val).armAt = none := by
    have quiet : ((s.dark b.val lane.val).portErr b.val 0).block b.val = (s.dark b.val lane.val).block b.val :=
      (State.raise_rest (Rest.refl _) _ _ _ _ _ _).block b.val
    rw [hv, quiet, State.dark, State.block_modBlock (Block.ne_default_of_darkAt (Option.some_ne_none _))]
    exact noArm
  refine (live_of_up up _).trans ((if_neg taken).trans ?_)
  rw [← hu, if_neg (by rw [still]; decide), if_pos flits, if_neg (by rw [block]; decide)]

theorem exec_codewordLockLoss (link : s.isLink b.val = true) (flits : carries (s.portState (8 * b.val)) = true) :
    exec (.codewordLockLoss b lane) s =
      .next ((s.modBlock b.val (fun x => { x with locked := clearBit x.locked lane.val })).linkHold b.val) := by
  have still : ¬(!(s.modBlock b.val (fun x => { x with locked := clearBit x.locked lane.val })).isLink b.val) = true := by
    rw [show (s.modBlock b.val _).isLink b.val = s.isLink b.val from rfl, link]
    decide
  exact (live_of_up up _).trans ((if_neg still).trans (if_pos flits))

theorem exec_holdExpire {t0 : Nat} (held : (s.block b.val).holdAt = some t0) (hu : u = ((s.advanceTo t0).portErr b.val 3).linkClear b.val) :
    exec (.holdExpire b) s = .next (u.setPortState (8 * b.val) (u.block b.val).inner) := by
  refine (live_of_up up _).trans ?_
  rw [held, hu]

theorem exec_bringupTimeout {t0 : Nat} (step : (s.block b.val).stepAt = some t0) (notHeld : s.portState (8 * b.val) ≠ 7)
    (hu : u = ((s.advanceTo t0).portCount b.val 4 1).portErr b.val 5) : exec (.bringupTimeout b) s =
      .next ((u.setPortState (8 * b.val) 1).restartWait b.val ((u.setPortState (8 * b.val) 1).block b.val).askResume) := by
  have rest : Rest s u := hu ▸ State.raise_rest (State.count_rest (State.advanceTo_rest (Rest.refl s) t0) _ _ _) _ _ _ _ _ _
  have same : u.portState (8 * b.val) = s.portState (8 * b.val) := by rw [State.portState_link, rest.block, State.portState_link]
  refine (live_of_up up _).trans ?_
  rw [step]
  dsimp only
  rw [← hu, if_neg (by rw [same, beq_eq_false_iff_ne.mpr notHeld]; decide)]

end Link

/-- Settles O12: each error of a link in operation by the equation of its command. -/
theorem linkErrorsAndHold : Obligations.LinkErrorsAndHold := by
  unfold Obligations.LinkErrorsAndHold
  refine ⟨?flit, ?fec, ?replay, ?signal, ?lock, ?expire, ?step⟩
  case flit =>
    intro b h payload errs s u up role notFenced notFar counted link flits
    have arrives : s.FlitIn u b.val errs.toNat := ⟨counted, role, notFenced, notFar, link, flits⟩
    exact ⟨exec_flitReceive_of_errors up arrives, exec_flitReceive_of_badCrc up arrives, exec_flitReceive_in_order up arrives⟩
  case fec => exact fun b n s errors => State.countFec_of_errors errors
  case replay => exact fun b s up waits flits => exec_ackTimeoutReplay up waits flits
  case signal => exact fun b lane s u up was link notFenced flits noArm hu still => exec_lossOfSignal up was link notFenced flits noArm hu still
  case lock => exact fun b lane s up link flits => exec_codewordLockLoss up link flits
  case expire => exact fun b t0 s u up held hu => exec_holdExpire up held hu
  case step => exact fun b t0 s u up step notHeld hu => exec_bringupTimeout up step notHeld hu

/-! ### What a hold keeps (R204) -/

/-- A block in hold until `till`. -/
def Block.inHold (x : Block) (till : Nat) : Block := { x with quiesceAt := none, holdAt := some till }

/-- A hold that begins: its end is set, the port shows it, and bring-up starts from wait. -/
theorem State.linkHold_of_time {s : State} {b : Nat} (time : s.bob b O.PORT_HOLD_MS ≠ 0) (fresh : (s.block b).holdAt = none) :
    s.linkHold b =
      ((s.setBlock b ((s.block b).inHold (s.now + s.bob b O.PORT_HOLD_MS * 1000000))).setPortState (8 * b) 7).restartWait b true := by
  refine (if_neg time).trans ?_
  dsimp only
  rw [fresh, Block.inHold]

/-- Block `b` back in wait, before it trains (R194); `ask` as in `restartWait`. -/
def State.waiting (s : State) (b : Nat) (ask : Bool) : State := s.modBlock b (fun x => { x with
  inner := 1, stepAt := none, trained := 0, locked := 0, askResume := ask && s.lFeature b 6 && x.armAt.isNone
  nakDue := false, skewed := [], helloSeen := false, helloSent := 0, echoes := 0, rttMin := 0, presetSlot := none, presetAt := none })

/-- What a restart of bring-up leaves of a block: its queues, its credits, its numbers and the end of its hold. -/
structure Block.Waits (x y : Block) : Prop where
  replay : y.replay = x.replay
  credits : y.credits = x.credits
  partialRx : y.partialRx = x.partialRx
  rxSeq : y.rxSeq = x.rxSeq
  txSeq : y.txSeq = x.txSeq
  holdAt : y.holdAt = x.holdAt

theorem State.restartWait_block (s : State) (b : Nat) (ask : Bool) : (s.block b).Waits ((s.restartWait b ask).block b) := by
  have waits : (s.block b).Waits ((s.waiting b ask).block b) := by
    rw [State.waiting, State.block_modBlock (Block.ne_default_of_inner (Nat.succ_ne_zero _))]
    exact ⟨rfl, rfl, rfl, rfl, rfl, rfl⟩
  have trains := (State.tryTrain_block (s.waiting b ask) b).same
  have same : (s.restartWait b ask).block b = ((s.waiting b ask).tryTrain b).block b := rfl
  rw [same, trains]
  exact ⟨waits.replay, waits.credits, waits.partialRx, waits.rxSeq, waits.txSeq, waits.holdAt⟩

theorem State.restartWait_fold (s : State) (b : Nat) (ask : Bool) : (s.restartWait b ask).fold = s.fold := (State.tryTrain_only _ b).fold

theorem State.linkHold_keeps_queues {s : State} {b : Nat} (time : s.bob b O.PORT_HOLD_MS ≠ 0) (fresh : (s.block b).holdAt = none) :
    ({ s.block b with holdAt := some (s.now + s.bob b O.PORT_HOLD_MS * 1000000) } : Block).Waits ((s.linkHold b).block b) ∧
      (s.linkHold b).fold = s.fold := by
  rw [State.linkHold_of_time time fresh]
  have set_ := State.block_setBlock (s := s) (b := b) (x := (s.block b).inHold (s.now + s.bob b O.PORT_HOLD_MS * 1000000))
    (Block.ne_default_of_holdAt (Option.some_ne_none _))
  have shown := State.block_setPortState (v := 7) (Block.stands_of_holdAt (by rw [set_]; exact Option.some_ne_none _))
  have kept := State.restartWait_block
    ((s.setBlock b ((s.block b).inHold (s.now + s.bob b O.PORT_HOLD_MS * 1000000))).setPortState (8 * b) 7) b true
  rw [shown, set_] at kept
  exact ⟨⟨kept.replay, kept.credits, kept.partialRx, kept.rxSeq, kept.txSeq, kept.holdAt⟩, State.restartWait_fold _ _ _⟩

theorem exec_codewordLockLoss_keeps {b : Fin 128} {lane : Fin 8} {s : State} (up : s.Up) (link : s.isLink b.val = true)
    (flits : carries (s.portState (8 * b.val)) = true) (time : s.bob b.val O.PORT_HOLD_MS ≠ 0) (fresh : (s.block b.val).holdAt = none) :
    ∃ t, exec (.codewordLockLoss b lane) s = .next t ∧
      ({ s.block b.val with holdAt := some (s.now + s.bob b.val O.PORT_HOLD_MS * 1000000) } : Block).Waits (t.block b.val) ∧ t.fold = s.fold := by
  have state : TMap.get 0 (s.block b.val).states (8 * b.val % 8) ≠ 0 := by
    intro zero
    rw [State.portState_link, zero] at flits
    exact absurd flits (by decide)
  have unlocked : (s.modBlock b.val (fun x => { x with locked := clearBit x.locked lane.val })).block b.val =
      { s.block b.val with locked := clearBit (s.block b.val).locked lane.val } :=
    State.block_modBlock (Block.ne_default_of_states state)
  obtain ⟨kept, fold⟩ := State.linkHold_keeps_queues (b := b.val) (s := State.modBlock _ _ _) time (by rw [unlocked]; exact fresh)
  rw [unlocked] at kept
  exact ⟨_, exec_codewordLockLoss up link flits, ⟨kept.replay, kept.credits, kept.partialRx, kept.rxSeq, kept.txSeq, kept.holdAt⟩, fold⟩

/-! ### Arms and presets (R245 to R247, R254 to R256, R263) -/

/-- What an arm asks for (R254, R255). -/
structure State.MayArm (t : State) (b : Nat) : Prop where
  feature : t.lFeature b 7 = true
  presets : t.keepsPresets b = true
  notFenced : t.blockFenced b = false
  expects : exValid (t.row O.CIRC_EXPECT b) = true
  drained : t.drained b = true
  notHeld : t.portState (8 * b) ≠ 7

theorem State.arm_of_may {t : State} {b : Nat} (may : t.MayArm b) : t.arm b =
    ((t.modBlock b (fun x => { x with armAt := some (t.now + t.ob O.CIRC_ARM_TIMEOUT_MS * 1000000) })).count O.CIRC_STAT 0 1, 0) := by
  obtain ⟨feature, presets, notFenced, expects, drained, notHeld⟩ := may
  have fit : ¬(!t.keepsPresets b || t.blockFenced b || !exValid (t.row O.CIRC_EXPECT b) ||
      ((t.portState (8 * b) == 5 || t.portState (8 * b) == 6) && !t.drained b)) = true := by
    rw [presets, notFenced, expects, drained]
    simp
  refine (if_neg (by rw [feature]; decide)).trans ((if_neg fit).trans ?_)
  rw [if_neg notHeld]

theorem exec_circArmTimeout {b : Fin 128} {t0 : Nat} {s u : State} (up : s.Up) (armed : (s.block b.val).armAt = some t0)
    (hu : u = ((s.advanceTo t0).modBlock b.val (fun x => { x with armAt := none })).modBlock b.val (fun x => { x with lastOut := 4 })) :
    exec (.circArmTimeout b) s = .next ((u.count O.CIRC_STAT 5 1).raise O.CIRC_ERR 3 0 2 b.val 0) := by
  refine (live_of_up up _).trans ?_
  rw [armed, hu]
  rfl

theorem State.presetOp_of_used {t : State} {op b slot : Nat} (known : 1 ≤ op ∧ op ≤ 3) (block : b < 128) (there : slot < 64)
    (used : (t.row O.CIRC_PRESET (64 * b + slot)).testBit 71 = true) : t.presetOp op b slot =
      ((t.setOb O.CIRC_PRESET_OP_STATUS 0).setRow O.CIRC_PRESET (64 * b + slot)
        (if op = 1 then setBit (t.row O.CIRC_PRESET (64 * b + slot)) 72
         else if op = 2 then clearBit (t.row O.CIRC_PRESET (64 * b + slot)) 72 else 0), 0) := by
  have valid : ¬(op = 0 ∨ 3 < op ∨ 128 ≤ b ∨ 64 ≤ slot) := by omega
  exact (if_neg valid).trans (if_neg (by rw [used]; decide))

/-- Settles O13: what a hold keeps, by the blocks that the start of training leaves; arms and presets by their commands' bodies. -/
theorem holdKeepsTheReplayBuffer : Obligations.HoldKeepsTheReplayBuffer := by
  unfold Obligations.HoldKeepsTheReplayBuffer
  refine ⟨?hold, ?arm, ?disarm, ?timeout, ?presets⟩
  case hold =>
    intro b lane s up link flits time fresh
    obtain ⟨t, ran, kept, fold⟩ := exec_codewordLockLoss_keeps (lane := lane) up link flits time fresh
    exact ⟨t, ran, kept.replay, kept.credits, kept.partialRx, kept.rxSeq, kept.txSeq, kept.holdAt, fold⟩
  case arm =>
    intro who b s t taken feature presets notFenced expects drained notHeld
    exact congrArg Host.Outcome.next (State.access_answers taken.1 taken.2
      (State.arm_of_may ⟨feature, presets, notFenced, expects, drained, notHeld⟩))
  case disarm => exact fun who b s t taken => congrArg Host.Outcome.next (State.access_answers taken.1 taken.2 rfl)
  case timeout => exact fun b t0 s u up armed hu => exec_circArmTimeout up armed hu
  case presets =>
    intro who b slot s t taken used
    have op : ∀ op, 1 ≤ op ∧ op ≤ 3 → _ := fun op known => State.presetOp_of_used known b.isLt slot.isLt used
    exact ⟨congrArg Host.Outcome.next (State.access_answers taken.1 taken.2 (op 1 (by decide))),
      congrArg Host.Outcome.next (State.access_answers taken.1 taken.2 (op 2 (by decide))),
      congrArg Host.Outcome.next (State.access_answers taken.1 taken.2 (op 3 (by decide)))⟩

/-! ### Flock ports and retraining (R187, R189, R207, R215) -/

section Flock
variable {port : Fin 1024} {s u : State} (up : s.Up)
include up

theorem exec_flockLinkDown (flock : s.isFlockPort port.val = true) (linked : s.portState port.val = 6 ∨ s.portState port.val = 9)
    (hu : u = (s.flushDown port.val).setPortState port.val 1) :
    exec (.flockLinkDown port) s = .next (if u.bob (port.val / 8) O.PORT_HOLD_MS = 0 then
      (u.dropPort port.val).1.portCount (port.val / 8) 6 (u.dropPort port.val).2
      else u.modBlock (port.val / 8) (fun x => { x with
        portDownAt := TMap.put 0 x.portDownAt (port.val % 8) (u.now + u.bob (port.val / 8) O.PORT_HOLD_MS * 1000000) })) := by
  have goes : (s.isFlockPort port.val && (s.portState port.val == 6 || s.portState port.val == 9)) = true := by
    obtain six | nine := linked
    · rw [flock, six]; rfl
    · rw [flock, nine]; rfl
  refine (live_of_up up _).trans ((if_pos goes).trans ?_)
  rw [hu]
  rfl

theorem exec_flockHoldExpire {t0 : Nat} (held : TMap.get 0 (s.block (port.val / 8)).portDownAt (port.val % 8) = t0) (runs : t0 ≠ 0)
    (hu : u = (s.advanceTo t0).modBlock (port.val / 8) (fun x => { x with portDownAt := TMap.put 0 x.portDownAt (port.val % 8) 0 })) :
    exec (.flockHoldExpire port) s = .next ((u.dropPort port.val).1.portCount (port.val / 8) 6 (u.dropPort port.val).2) := by
  subst held
  refine (live_of_up up _).trans ((if_neg runs).trans ?_)
  rw [hu]

theorem exec_flockLinkUp (flock : s.isFlockPort port.val = true) (notFenced : s.blockFenced (port.val / 8) = false)
    (clocked : s.unclocked (port.val / 8) = false) : exec (.flockLinkUp port) s =
      .next ((s.setPortState port.val 6).modBlock (port.val / 8) (fun x => { x with portDownAt := TMap.put 0 x.portDownAt (port.val % 8) 0 })) := by
  refine (live_of_up up _).trans (if_pos ?_)
  rw [flock, notFenced, clocked]
  rfl

theorem exec_quiesceTimeout {b : Fin 128} {t0 : Nat} (quiets : (s.block b.val).quiesceAt = some t0) :
    exec (.quiesceTimeout b) s = .next ((s.advanceTo t0).linkReset b.val) := by
  refine (live_of_up up _).trans ?_
  rw [quiets]

end Flock

section Retrain
variable {t : State} {b : Nat} (link : t.isLink b = true) (notFenced : t.blockFenced b = false)
include link notFenced

theorem State.retrain_of_link {v : Nat} (known : v = 1 ∨ v = 2) : t.retrain b v =
    if v = 1 ∧ (t.portState (8 * b) = 5 ∨ t.portState (8 * b) = 6) then
      (((t.setPortState (8 * b) 9).modBlock b (fun x => { x with
        quiesceAt := some (t.now + t.bob b O.PORT_HOLD_MS * 1000000) })).quiesceDone b, 0)
    else (t.linkReset b, 0) := by
  have role := State.isLink_role link
  have valid : ¬((v ≠ 1 ∧ v ≠ 2) ∨ t.role b = 0 ∨ t.blockFenced b = true) := by
    rw [notFenced]
    simp only [Bool.false_eq_true, or_false]
    omega
  exact (if_neg valid).trans (if_pos link)

end Retrain

/-- A length that the block's communicators and buckets allow (R120, R189). -/
theorem State.writeMaxFrame_of_ok {t : State} {b v : Nat} (lo : 1518 ≤ v) (hi : v ≤ 9216)
    (named : (∃ x ∈ t.rowsOf O.COLL_COMM_TABLE, ∃ j < cmM x.2, cmPort x.2 j / 8 = b) → 8282 ≤ v)
    (fit : ∀ i, i < 8 → (t.setOb (blockOid O.PORT_MAX_FRAME b) v).burstsFit (8 * b + i) = true) :
    t.writeMaxFrame b v = (t.setOb (blockOid O.PORT_MAX_FRAME b) v, 0) := by
  have ok : ¬(v < 1518 ∨ 9216 < v ∨ ((t.rowsOf O.COLL_COMM_TABLE).any (fun x =>
      (List.range (cmM x.2)).any (fun j => cmPort x.2 j / 8 == b)) = true ∧ v < 8282)) := by
    rintro (low | high | ⟨names, short⟩)
    · omega
    · omega
    · obtain ⟨x, hx, hj⟩ := List.any_eq_true.mp names
      obtain ⟨j, hj, block⟩ := List.any_eq_true.mp hj
      have long := named ⟨x, hx, j, List.mem_range.mp hj, beq_iff_eq.mp block⟩
      omega
  exact (if_neg ok).trans (if_pos (List.all_eq_true.mpr fun i hi => fit i (List.mem_range.mp hi)))

theorem State.writeMaxFrame_of_bad {t : State} {b v : Nat} (bad : v < 1518 ∨ 9216 < v) : t.writeMaxFrame b v = (t, 0x0A) :=
  if_pos (bad.elim .inl (fun high => .inr (.inl high)))

/-- Settles O14: each change of a flock port by the equation of its command, retraining and PORT_MAX_FRAME by their bodies. -/
theorem flockLinksAndRetrain : Obligations.FlockLinksAndRetrain := by
  unfold Obligations.FlockLinksAndRetrain
  refine ⟨?down, ?expire, ?up, ?quiesce, ?now, ?timeout, ?length, ?badLength⟩
  case down => exact fun port s u up flock linked hu => exec_flockLinkDown up flock linked hu
  case expire => exact fun port t0 s u up held runs hu => exec_flockHoldExpire up held runs hu
  case up => exact fun port s up flock notFenced clocked => exec_flockLinkUp up flock notFenced clocked
  case quiesce =>
    intro who b s t taken link notFenced linked
    exact congrArg Host.Outcome.next (State.access_answers taken.1 taken.2
      ((State.retrain_of_link link notFenced (.inl rfl)).trans (if_pos ⟨rfl, linked⟩)))
  case now =>
    intro who b s t taken link notFenced
    exact congrArg Host.Outcome.next (State.access_answers taken.1 taken.2
      ((State.retrain_of_link link notFenced (.inr rfl)).trans (if_neg (fun one => absurd one.1 (by decide)))))
  case timeout => exact fun b t0 s up quiets => exec_quiesceTimeout up quiets
  case length =>
    intro who b v s t taken lo hi named fit
    exact congrArg Host.Outcome.next (State.access_answers taken.1 taken.2 (State.writeMaxFrame_of_ok lo hi named fit))
  case badLength =>
    intro who b v s serves bad
    exact congrArg Host.Outcome.next (State.access_answers serves rfl (State.writeMaxFrame_of_bad bad))

end Sys2Proof.Machine
end

section
/-!
SUPPORT and the settling of O10 (PlacementAndPortWrites), O15 (ModulesAndCircuits) and O16 (AdmissionDecisions). A write that shapes the
fabric or a port is read off its body; an admission is decided in a state whose head is known (`State.Decides`), and each decision is one
case of `State.decideHead_of_decides`.
-/

namespace Sys2Proof.Machine

set_option Elab.async false

/-! ### Placement, roles and splits (R32 to R37, R186, R188) -/

section Placement
variable {who : Path} {e : Fin 8} {v : BitVec 32} {s t u : State} (notZero : e.val ≠ 0)
include notZero

theorem exec_placementWrite {st : Nat} (taken : s.Takes who (O.FAB_DIM_X - 1 + e.val) t) (answers : t.writePlacement e.val v.toNat = (u, st)) :
    exec (.placementWrite who e v) s = .next (u.answered who (O.FAB_DIM_X - 1 + e.val) st) :=
  (if_neg notZero).trans (congrArg Host.Outcome.next (State.access_answers taken.1 taken.2 answers))

end Placement

theorem State.writePlacement_of_ok {t u w : State} {e v : Nat} {l : List Nat} (ok : placementOk e v = true)
    (hu : u = t.setOb (O.FAB_DIM_X - 1 + e) (if e = 4 then v % 8 else v))
    (hl : l = (List.range 128).filter (fun b => (u.setOb O.FAB_PLACED (b2n u.isPlaced)).isLink b))
    (hw : w = l.foldl (fun s b => s.modBlock b (fun x => { x with recheck := true })) (u.setOb O.FAB_PLACED (b2n u.isPlaced))) :
    t.writePlacement e v = (if w.placed = true then l.foldl (fun s b =>
      if s.portState (8 * b) = 5 ∨ s.portState (8 * b) = 6 ∨ s.portState (8 * b) = 9 then s.linkHold b else s) w else w, 0) := by
  have good : ¬(!placementOk e v) = true := by rw [ok]; decide
  unfold State.writePlacement
  rw [if_neg good]
  dsimp only
  rw [← hu, ← hl, ← hw]
  split <;> rfl

theorem State.writePlacement_of_bad {t : State} {e v : Nat} (bad : placementOk e v = false) : t.writePlacement e v = (t, 0x0A) :=
  if_pos (by rw [bad]; rfl)

/-- A role that is written unchanged ends an arm alone; another takes the block down and starts it anew. -/
theorem State.writeRole_of_ok {t u : State} {b v n : Nat} (hn : n = v % 256 &&& 0x77) (ok : t.roleOk b n = true)
    (hu : u = (((t.blockDown b).disarm b).setOb (blockOid O.PORT_ROLE b) n).pfcDefault b) :
    t.writeRole b v = (if n = t.bob b O.PORT_ROLE then t.disarm b
      else (if 2 ≤ bits n 0 3 then u.raiseReserves b else u.setReg (ringEntryOff b) 0).blockStart b, 0) := by
  have good : ¬(!t.roleOk b n) = true := by rw [ok]; decide
  unfold State.writeRole
  dsimp only
  rw [← hn, if_neg good, ← hu]
  split <;> rfl

theorem State.writeRole_of_bad {t : State} {b v : Nat} (bad : 5 ≤ v % 8) : t.writeRole b v = (t, 0x0A) := by
  have role : bits (v % 256 &&& 0x77) 0 3 = v % 8 := by
    unfold bits
    rw [Nat.shiftRight_zero, Nat.and_mod_two_pow, show (0x77 : Nat) % 2 ^ 3 = 2 ^ 3 - 1 from rfl, Nat.and_two_pow_sub_one_eq_mod]
    omega
  have notOk : t.roleOk b (v % 256 &&& 0x77) = false := by
    unfold State.roleOk
    rw [role]
    dsimp only
    rw [decide_eq_false (by omega : ¬v % 8 ≤ 4)]
    rfl
  exact if_pos (by rw [notOk]; rfl)

theorem State.writeSplit_of_ok {t : State} {b v k : Nat} {rate : Bool} (hk : k = blockOid (if rate then O.PORT_LANE_RATE else O.PORT_SPLIT) b)
    (ok : splitOk (if rate then t.bob b O.PORT_SPLIT else v) (if rate then v else t.bob b O.PORT_LANE_RATE) = true)
    (link : t.isLink b = true → (if rate then t.bob b O.PORT_SPLIT else v) = 1) :
    t.writeSplit b rate v = (if v = t.ob k then (if rate then t else t.disarm b)
      else ((((t.blockDown b).disarm b).setOb k v).pfcDefault b).blockStart b, 0) := by
  have good : ¬(!splitOk (if rate then t.bob b O.PORT_SPLIT else v) (if rate then v else t.bob b O.PORT_LANE_RATE) ||
      (t.isLink b && (if rate then t.bob b O.PORT_SPLIT else v) != 1)) = true := by
    rw [ok]
    cases known : t.isLink b with
    | false => simp
    | true => simp [link known]
  unfold State.writeSplit
  dsimp only
  rw [if_neg good, ← hk]
  split <;> rfl

theorem State.writeSplit_of_bad {t : State} {b v : Nat} (one : v ≠ 1) (two : v ≠ 2) (four : v ≠ 4) (eight : v ≠ 8) :
    t.writeSplit b false v = (t, 0x0A) := by
  refine if_pos ?_
  have notOk : splitOk v (t.bob b O.PORT_LANE_RATE) = false := by
    unfold splitOk
    rw [beq_eq_false_iff_ne.mpr one, beq_eq_false_iff_ne.mpr two, beq_eq_false_iff_ne.mpr four, beq_eq_false_iff_ne.mpr eight]
    rfl
  change (!splitOk v (t.bob b O.PORT_LANE_RATE) || _) = true
  rw [notOk]
  rfl

/-- Settles O10: each write by what its body answers. -/
theorem placementAndPortWrites : Obligations.PlacementAndPortWrites := by
  unfold Obligations.PlacementAndPortWrites
  refine ⟨?place, ?role, ?split, ?badPlace, ?badRole, ?badSplit⟩
  case place =>
    intro who e v s t u w l notZero taken ok hu hl hw
    exact exec_placementWrite notZero taken (State.writePlacement_of_ok ok hu hl hw)
  case role =>
    intro who b v n s t u taken hn ok hu
    exact congrArg Host.Outcome.next (State.access_answers taken.1 taken.2 (State.writeRole_of_ok hn ok hu))
  case split =>
    intro who b rate v k s t hk taken ok link
    have answers := State.writeSplit_of_ok hk ok link
    subst hk
    exact congrArg Host.Outcome.next (State.access_answers taken.1 taken.2 answers)
  case badPlace =>
    intro who e v s notZero serves bad
    exact exec_placementWrite notZero ⟨serves, rfl⟩ (State.writePlacement_of_bad bad)
  case badRole =>
    intro who b v s serves bad
    exact congrArg Host.Outcome.next (State.access_answers serves rfl (State.writeRole_of_bad bad))
  case badSplit =>
    intro who b v s serves one two four eight
    exact congrArg Host.Outcome.next (State.access_answers serves rfl (State.writeSplit_of_bad one two four eight))

/-! ### Modules (R211 to R213) -/

section Module
variable {b : Fin 128} {i : Fin 2} {s u : State} (up : s.Up)
include up

theorem exec_moduleDataPathActivated {state : BitVec 11} {p : Nat} (waits : (s.modl b.val i.val).step = 6)
    (hp : p = s.bob b.val O.PORT_MOD_POLL_MS) :
    exec (.moduleDataPathActivated b i state) s = .next ((s.setOb (modStateOid b.val i.val) state.toNat).setModl b.val i.val
      { step := 7, deadline := if p = 0 then none else some (s.now + p * 1000000) }) := by
  subst hp
  exact (live_of_up up _).trans (if_pos waits)

section Due
variable {t0 : Nat} (due : (s.modl b.val i.val).deadline = some t0)
include due

theorem exec_moduleReadyTimeout (waits : (s.modl b.val i.val).step = 6) :
    exec (.moduleReadyTimeout b i) s = .next ((s.advanceTo t0).setModl b.val i.val { step := 8 }) := by
  refine (live_of_up up _).trans ?_
  rw [due]
  exact if_pos waits

theorem exec_modulePoll {answer : Option (BitVec 13)} {p : Nat} {d : Option Nat} (polls : (s.modl b.val i.val).step = 7)
    (hu : u = (s.advanceTo t0).modAccess b.val i.val 7) (hp : p = u.bob b.val O.PORT_MOD_POLL_MS)
    (hd : d = if p = 0 then none else some (u.now + p * 1000000)) : exec (.modulePoll b i answer) s = .next (match answer with
      | some v => (u.setOb (modStateOid b.val i.val) (clearBit v.toNat 11)).setModl b.val i.val { step := 7, fails := 0, deadline := d }
      | none => if 2 ≤ (s.modl b.val i.val).fails then u.moduleAbsent b.val i.val
        else u.setModl b.val i.val { s.modl b.val i.val with fails := (s.modl b.val i.val).fails + 1, deadline := d }) := by
  subst hp hd
  refine (live_of_up up _).trans ?_
  dsimp only
  rw [due]
  refine (if_neg (not_not_intro polls)).trans ?_
  rw [← hu]
  cases answer with
  | some v => rfl
  | none =>
    dsimp only
    split <;> rfl

theorem exec_moduleRetry {a : ModuleAnswer} (ended : (s.modl b.val i.val).step = 0) (absent : (s.modl b.val i.val).fails = 3) :
    exec (.moduleRetry b i a) s = .next ((s.advanceTo t0).moduleStart b.val i.val a) := by
  refine (live_of_up up _).trans ?_
  rw [due]
  exact if_pos ⟨ended, absent⟩

end Due
end Module

theorem State.keepsPresets_iff (s : State) (b : Nat) : s.keepsPresets b = true ↔ s.role b = 2 ∨ s.role b = 4 := by
  rw [State.keepsPresets, Bool.or_eq_true, beq_iff_eq, beq_iff_eq]

/-- Settles O15: the sequence of a module by what it answers, its polls by the equation of the command. -/
theorem modulesAndCircuits : Obligations.ModulesAndCircuits := by
  unfold Obligations.ModulesAndCircuits
  refine ⟨?path, ?start, ?activated, ?timeout, ?poll, ?presets, ?retry⟩
  case path =>
    rintro who b i v a s t u taken rfl
    exact congrArg Host.Outcome.next (State.access_answers taken.1 taken.2 rfl)
  case start =>
    intro b i a s
    cases a <;> rfl
  case activated => exact fun b i state p s up waits hp => exec_moduleDataPathActivated up waits hp
  case timeout => exact fun b i t0 s up due waits => exec_moduleReadyTimeout up due waits
  case poll =>
    intro b i v t0 p d s u up due polls hu hp hd
    exact ⟨exec_modulePoll (answer := some v) up due polls hu hp hd, exec_modulePoll (answer := none) up due polls hu hp hd⟩
  case presets => exact fun b s => s.keepsPresets_iff b
  case retry => exact fun b i a t0 s up due ended absent => exec_moduleRetry up due ended absent

/-! ### Admission (R82 to R84, R226, R229) -/

theorem exec_voqHeadAdmission {input : Fin 144} {dest : Fin 1040} {cls : Fin 8} {s : State} (up : s.Up) :
    exec (.voqHeadAdmission input dest cls) s = .next (s.decideHead (voqKey input.val dest.val cls.val)) := live_of_up up _

/-- Whether every member of the copies that are admitted with copy `id` passes admission. -/
def State.allPass (u : State) (id : Nat) : Bool :=
  (u.jointIds id).all (fun j => (u.copy j).members.all (fun q => u.memberPasses (u.copy j) q))

section Decides
variable {k id : Nat} {c : Copy} {s u : State} (decides : s.Decides k id c u)
include decides

/-- A head that may be decided: admitted, held, or refused. -/
theorem State.decideHead_of_decides : s.decideHead k =
    if u.allPass id then (u.jointIds id).foldl (fun s j => s.admitCopy j) u
    else if c.frame.lossless = true ∨ c.members.any (fun q => u.hurdleOnly c q) = true then u.holdHead id c
    else
      let lost := c.members.filter (fun q => !u.memberPasses c q)
      let v := (u.refuse id c lost).count O.FOLD_LOSSY_DROPS 0 lost.length
      if (v.copy id).members.isEmpty then v.discardCopy id else v.admitCopy id := by
  obtain ⟨⟨rest, head⟩, copy, waiting, heads, open_, near, after, same, members, log⟩ := decides
  have noneLate : c.members.filter (fun q => s.beyondHorizon c.frame (q / 12)) = [] :=
    List.filter_eq_nil_iff.mpr fun q hq => by rw [near q hq]; decide
  have may : ¬(c.stage ≠ .waiting ∨ (!(s.jointIds id).all s.heads) = true) := by rw [heads]; simp [waiting]
  have some : ¬c.members.isEmpty = true := by rw [List.isEmpty_iff]; exact members
  unfold State.decideHead
  rw [head]
  dsimp only
  rw [copy, if_neg may, if_neg (by rw [open_]; decide), noneLate, ← after, List.foldl_nil, same, if_neg some, if_neg (by rw [log]; decide)]
  rfl

theorem State.decides_voq (k' : Nat) : u.voq k' = s.voq k' := by
  rw [decides.after]
  rfl

end Decides

theorem foldl_fold {α : Type} {f : State → α → State} (same : ∀ s a, (f s a).fold = s.fold) (l : List α) (s : State) :
    (l.foldl f s).fold = s.fold := by
  induction l generalizing s with
  | nil => rfl
  | cons a l ih => exact (ih (f s a)).trans (same s a)

theorem State.tally_fold (s : State) (e u k : Nat) : (s.tally e u k).fold = s.fold := (State.tally_rest (Rest.refl s) e u k).fold

/-- A head that is held stays where it is in its VOQs. -/
theorem State.holdHead_voq (u : State) (id : Nat) (c : Copy) (k : Nat) : (u.holdHead id c).voq k = u.voq k := by
  have counted := foldl_fold (f := fun s q =>
    if s.hurdleOnly c q then (s.holdCount (ringEntryOff (q / 96)) 0 1).tally 0x0304 c.input 4 else s)
    (fun s q => by
      split
      · exact State.tally_fold _ _ _ _
      · rfl) c.members u
  have same : (u.holdHead id c).fold.voqs = u.fold.voqs := by
    unfold State.holdHead
    dsimp only
    split
    · rw [counted]
    · split
      · rw [State.tally_fold]
        exact congrArg (·.voqs) counted
      · exact congrArg (·.voqs) counted
  rw [State.voq, State.voq, same]

/-! ### The far fold and the pools (R86, R208, R391) -/

theorem State.writeFarSize_of_ok {t : State} {v : Nat} (whole : v % 16 = 0) (lo : 1 ≤ v) (hi : v ≤ 1024)
    (fits : layoutFits v (t.ob O.CRIOTTE_RESV_GIB) (t.ob O.MUSTER_LOG_MIB) = true) (pools : ∀ d, d < 4 → t.reachMib d ≤ farMib v) :
    t.writeFarSize v = (t.setOb O.FOLD_FAR_SIZE_GIB v, 0) := by
  have size : ¬(v % 16 ≠ 0 ∨ v = 0 ∨ 1024 < v) := by omega
  have room : ¬[0, 1, 2, 3].any (fun d => decide (farMib v < t.reachMib d)) = true := by
    rw [List.any_eq_true]
    rintro ⟨d, die, over_⟩
    have small : d < 4 := by
      simp only [List.mem_cons, List.not_mem_nil, or_false] at die
      omega
    exact absurd (pools d small) (Nat.not_le.mpr (of_decide_eq_true over_))
  exact (if_neg size).trans ((if_neg (by rw [fits]; decide)).trans (if_neg room))

theorem State.writeFarSize_of_bad {t : State} {v : Nat} (bad : v % 16 ≠ 0 ∨ v = 0 ∨ 1024 < v) : t.writeFarSize v = (t, 0x0A) := if_pos bad

theorem State.writePool_of_ok {t : State} {b v : Nat} (notReach : t.role b ≠ 3) (size : v = 0 ∨ (16 ≤ v ∧ v ≤ 512))
    (room : t.reachMib (b / 32) + 2 * v ≤ farMib t.farForChecks) :
    t.writePool b v = (t.setOb (blockOid O.PORT_POOL_MIB b) v, 0) := by
  refine if_neg ?_
  rintro (reach | bad | full)
  · exact notReach reach
  · omega
  · omega

theorem State.writePool_of_bad {t : State} {b v : Nat} (bad : (1 ≤ v ∧ v < 16) ∨ 512 < v) : t.writePool b v = (t, 0x0A) :=
  if_pos (.inr (.inl (by omega)))

/-- Settles O16: each decision of an admission is one case of what is done with a head that may be decided. -/
theorem admissionDecisions : Obligations.AdmissionDecisions := by
  unfold Obligations.AdmissionDecisions
  refine ⟨?lossy, ?admitted, ?held, ?retry, ?far, ?badFar, ?pool, ?badPool⟩
  case lossy =>
    intro input dest cls id lost c s u v up decides lossy alone noHurdle hlost some hv
    have same := decides.same
    have single : u.jointIds id = [id] := by
      unfold State.jointIds
      rw [same]
      exact if_neg (by rw [alone]; decide)
    have refused : ¬u.allPass id = true := by
      intro all
      refine some (hlost.trans (List.filter_eq_nil_iff.mpr fun q hq => ?_))
      unfold State.allPass at all
      rw [single, List.all_cons, List.all_nil, Bool.and_true, same] at all
      rw [List.all_eq_true.mp all q hq]
      decide
    have drops : ¬(c.frame.lossless = true ∨ c.members.any (fun q => u.hurdleOnly c q) = true) := by
      rw [lossy, noHurdle]
      decide
    rw [exec_voqHeadAdmission up, State.decideHead_of_decides decides, if_neg refused, if_neg drops, ← hlost]
    dsimp only
    rw [← hv]
  case admitted =>
    intro input dest cls id c s u up decides pass
    have all : u.allPass id = true := List.all_eq_true.mpr fun j hj => List.all_eq_true.mpr fun q hq => pass j hj q hq
    rw [exec_voqHeadAdmission up, State.decideHead_of_decides decides, if_pos all]
  case held =>
    rintro input dest cls id c s u up decides ⟨j, hj, q, hq, fails⟩ waits
    have refused : ¬u.allPass id = true := by
      intro all
      have passes := List.all_eq_true.mp (List.all_eq_true.mp all j hj) q hq
      rw [fails] at passes
      exact Bool.false_ne_true passes
    rw [exec_voqHeadAdmission up, State.decideHead_of_decides decides, if_neg refused, if_pos waits]
    exact ⟨rfl, fun k => (State.holdHead_voq u id c k).trans (State.decides_voq decides k)⟩
  case retry =>
    intro input dest cls id rest s up head waited
    refine ⟨_, (live_of_up up _).trans ?_, exec_voqHeadAdmission up⟩
    rw [head]
    exact if_pos waited
  case far =>
    intro who v s t taken whole lo hi fits pools
    exact congrArg Host.Outcome.next (State.access_answers taken.1 taken.2 (State.writeFarSize_of_ok whole lo hi fits pools))
  case badFar =>
    intro who v s serves bad
    exact congrArg Host.Outcome.next (State.access_answers serves rfl (State.writeFarSize_of_bad bad))
  case pool =>
    intro who b v s t taken notReach size room
    exact congrArg Host.Outcome.next (State.access_answers taken.1 taken.2 (State.writePool_of_ok notReach size room))
  case badPool =>
    intro who b v s serves bad
    exact congrArg Host.Outcome.next (State.access_answers serves rfl (State.writePool_of_bad bad))

end Sys2Proof.Machine
end

section
/-!
SUPPORT and the settling of O17 (GateAndRidge) and O18 (EvictionAndFetch). What a matching leaves alone is one relation (`State.GateKeeps`),
which every operation of the gate matcher keeps, and what it takes are transfers of at most a cell (`Matching.Small`).
-/

namespace Sys2Proof.Machine

set_option Elab.async false

/-! ### What the gate matcher leaves alone (R69, R70) -/

/-- The transfers in flight, the blocks and the engines are as before. -/
structure State.GateKeeps (s t : State) : Prop where
  inflight : t.fold.inflight = s.fold.inflight
  blocks : t.blocks = s.blocks
  drove : t.drove = s.drove
  common : t.common = s.common

theorem State.GateKeeps.refl (s : State) : s.GateKeeps s := ⟨rfl, rfl, rfl, rfl⟩

theorem State.GateKeeps.trans {s t u : State} (h : s.GateKeeps t) (k : t.GateKeeps u) : s.GateKeeps u :=
  ⟨k.inflight.trans h.inflight, k.blocks.trans h.blocks, k.drove.trans h.drove, k.common.trans h.common⟩

theorem State.GateKeeps.foldl {α : Type} {f : State → α → State} (keeps : ∀ (s : State) (a : α), s.GateKeeps (f s a)) (l : List α) (s : State) :
    s.GateKeeps (l.foldl f s) := by
  induction l generalizing s with
  | nil => exact .refl s
  | cons a l ih => exact (keeps s a).trans (ih (f s a))

theorem State.GateKeeps.ite {p : Prop} [Decidable p] {s t u : State} (h : s.GateKeeps t) (k : s.GateKeeps u) :
    s.GateKeeps (if p then t else u) := by
  split
  · exact h
  · exact k

theorem State.tally_gateKeeps (s : State) (e u k : Nat) : s.GateKeeps (s.tally e u k) := by
  have rest := State.tally_rest (Rest.refl s) e u k
  exact ⟨congrArg (·.inflight) rest.fold, rest.blocks, rest.drove, rest.common⟩

theorem State.holdCount_gateKeeps (s : State) (off lo n : Nat) : s.GateKeeps (s.holdCount off lo n) := ⟨rfl, rfl, rfl, rfl⟩

theorem State.setRidge_gateKeeps (s : State) (d : Nat) (x : RidgeDir) : s.GateKeeps (s.setRidge d x) := ⟨rfl, rfl, rfl, rfl⟩

theorem State.setCopy_gateKeeps (s : State) (id : Nat) (c : Copy) : s.GateKeeps (s.setCopy id c) := ⟨rfl, rfl, rfl, rfl⟩

theorem State.servedLocal_gateKeeps (s : State) (d n : Nat) : s.GateKeeps (s.servedLocal d n) :=
  .ite (s.setRidge_gateKeeps d _) (s.setRidge_gateKeeps d _)

theorem State.setVoq_gateKeeps (s : State) (k : Nat) (l : List Nat) : s.GateKeeps (s.setVoq k l) := ⟨rfl, rfl, rfl, rfl⟩

theorem State.leaveVoqs_gateKeeps (s : State) (id : Nat) (c : Copy) (l : List Nat) : s.GateKeeps (s.leaveVoqs id c l) := by
  unfold State.leaveVoqs
  exact .foldl (fun s _ => s.setVoq_gateKeeps _ _) l s

theorem State.gateStats_gateKeeps (s : State) (limit : Nat) (heads : List (Nat × List Nat)) (m : Matching) :
    s.GateKeeps (s.gateStats limit heads m) := by
  unfold State.gateStats
  extract_lets left spare s1 s2 short s3 s4 relayed
  have h1 : s.GateKeeps s1 := .ite (.refl s) (s.holdCount_gateKeeps _ _ _)
  have h2 : s1.GateKeeps s2 := .foldl (fun _ _ => State.tally_gateKeeps _ _ _ _) _ s1
  have h3 : s2.GateKeeps s3 := .ite (.refl s2) (s2.holdCount_gateKeeps _ _ _)
  have h4 : s3.GateKeeps s4 := .foldl (fun _ _ => State.tally_gateKeeps _ _ _ _) _ s3
  exact (((h1.trans h2).trans h3).trans h4).trans (.foldl (fun _ _ => State.holdCount_gateKeeps _ _ _ _) _ s4)

/-! ### What a matching takes (R54, R69) -/

/-- Transfers of at most a cell, none of them held at a relay. -/
def Matching.Small (m : Matching) : Prop := ∀ x ∈ m.taken, x.sectors ≤ 4 ∧ x.held = none

/-- A step of the matching from `s`: the state it reaches leaves the rest alone, and what it takes is small. -/
structure State.MatchStep (s : State) (a : State × Matching) : Prop where
  keeps : s.GateKeeps a.1
  small : a.2.Small

theorem nextSectors_le (c : Copy) : nextSectors c ≤ 4 := Nat.min_le_left _ _

theorem Matching.small_take {m m' : Matching} {x : Transfer} (small : m.Small) (one : x.sectors ≤ 4 ∧ x.held = none)
    (takes : m'.taken = m.taken ++ [x]) : m'.Small := by
  intro y hy
  rw [takes] at hy
  obtain old | new := List.mem_append.mp hy
  · exact small y old
  · rw [List.mem_singleton.mp new]
    exact one

theorem State.accept_step {s : State} {m : Matching} (small : m.Small) (limit i : Nat) (first : Bool) (ks mine : List Nat) :
    s.MatchStep (s.accept m limit i first ks mine) := by
  unfold State.accept
  split
  · exact ⟨.refl s, small⟩
  · dsimp only
    split
    · exact ⟨.refl s, small⟩
    · split
      · exact ⟨⟨rfl, rfl, rfl, rfl⟩, Matching.small_take small ⟨nextSectors_le _, rfl⟩ rfl⟩
      · exact ⟨.refl s, Matching.small_take small ⟨nextSectors_le _, rfl⟩ rfl⟩

theorem State.MatchStep.trans {s : State} {a c : State × Matching} (h : s.MatchStep a) (k : a.1.MatchStep c) :
    s.MatchStep c := ⟨h.keeps.trans k.keeps, k.small⟩

theorem State.MatchStep.foldl {α : Type} {s : State} {a : State × Matching} {f : State × Matching → α → State × Matching} (h : s.MatchStep a)
    (steps : ∀ (c : State × Matching) (x : α), c.2.Small → c.1.MatchStep (f c x)) (l : List α) : s.MatchStep (l.foldl f a) := by
  induction l generalizing a with
  | nil => exact h
  | cons x l ih => exact ih (h.trans (steps a x h.small))

theorem State.iterate_step {s : State} {m : Matching} (small : m.Small) (limit : Nat) (first : Bool) (heads : List (Nat × List Nat)) :
    s.MatchStep (s.iterate limit first heads m) := by
  unfold State.iterate
  extract_lets reqs ask grants
  have start : s.MatchStep (s, m) := ⟨.refl s, small⟩
  exact start.foldl (fun a r small => State.accept_step small _ _ _ _ _) reqs

/-- A matching adds small transfers to those in flight and leaves the blocks and the engines alone. -/
theorem State.gateMatch_adds (s : State) : ∃ added : List Transfer, (s.gateMatch).fold.inflight = s.fold.inflight ++ added ∧
    (∀ x ∈ added, x.sectors ≤ 4 ∧ x.held = none) ∧ s.gateMatch.blocks = s.blocks ∧ s.gateMatch.drove = s.drove ∧
    s.gateMatch.common = s.common := by
  unfold State.gateMatch
  extract_lets limit inputs heads r1 r2 r3 s3 m s4 s5 s6 s7 fold s8
  have h1 : s.MatchStep r1 := State.iterate_step (fun x hx => absurd hx List.not_mem_nil) limit true heads
  have h2 : s.MatchStep r2 := h1.trans (State.iterate_step h1.small limit false heads)
  have h3 : s.MatchStep r3 := h2.trans (State.iterate_step h2.small limit false heads)
  have h4 : s3.GateKeeps s4 := .foldl (fun s r => by split <;> exact ⟨rfl, rfl, rfl, rfl⟩) heads s3
  have h5 : s4.GateKeeps s5 := s4.gateStats_gateKeeps limit heads m
  have h6 : s5.GateKeeps s6 := .foldl (fun s x =>
    ((State.tally_gateKeeps s _ _ _).trans (State.setRidge_gateKeeps _ _ _)).trans (State.servedLocal_gateKeeps _ _ _)) m.ridge s5
  have h7 : s6.GateKeeps s7 := .foldl (fun _ _ => State.setCopy_gateKeeps _ _ _) m.sent s6
  have upTo : s.GateKeeps s7 := (((h3.keeps.trans h4).trans h5).trans h6).trans h7
  have last : s8.GateKeeps (m.sent.foldl (fun s x => if s.unsent {} x.1 then s else s.leaveVoqs x.1 (s.copy x.1) (s.copy x.1).members) s8) :=
    .foldl (fun s x => .ite (.refl s) (s.leaveVoqs_gateKeeps _ _ _)) m.sent s8
  refine ⟨m.taken, last.inflight.trans ?_, h3.small, last.blocks.trans upTo.blocks, last.drove.trans upTo.drove,
    last.common.trans upTo.common⟩
  exact congrArg (· ++ m.taken) upTo.inflight

/-! ### Transfers (R71, R74, R75, R77) -/

section Transfer
variable {i : Nat} {x : Transfer} {s u : State} (up : s.Up) (there : s.fold.inflight[i]? = some x)
include up there

/-- A transfer at place `i`: it waits, or leaves its input for the relay, or is written. -/
theorem exec_gateTransferWrite : exec (.gateTransferWrite i) s = .next
    (if x.held.isSome || s.unread x then s else match x.hops with
      | d :: e :: rest =>
        let s := s.leftInput x
        { s with fold := { s.fold with inflight := s.fold.inflight.set i { x with hops := e :: rest, held := some d, left := true } } }
      | hops =>
        if s.behindOwn i x then s
        else
          let s := if x.left then s else s.leftInput x
          let s := match hops with | d :: _ => s.ridgeGive d x.sectors | [] => s
          (s.dropTransfer i).writeSectors x) := by
  refine (live_of_up up _).trans (congrArg Host.Outcome.next ?_)
  unfold State.transferWrite
  rw [there] <;> rfl

section Goes
variable (free : x.held = none) (read : s.unread x = false)
include free read

theorem exec_gateTransferWrite_short {rest : Option Nat} (hops : x.hops = rest.toList) (first : s.behindOwn i x = false)
    (hu : u = if x.left then s else s.leftInput x) : exec (.gateTransferWrite i) s =
      .next (((match rest with | some d => u.ridgeGive d x.sectors | none => u).dropTransfer i).writeSectors x) := by
  rw [exec_gateTransferWrite up there, if_neg (by rw [free, read]; decide), hops]
  cases rest with
  | none =>
    dsimp only [Option.toList]
    rw [if_neg (by rw [first]; decide), ← hu]
  | some d =>
    dsimp only [Option.toList]
    rw [if_neg (by rw [first]; decide), ← hu]

theorem exec_gateTransferWrite_diagonal {d e : Nat} {rest : List Nat} (hops : x.hops = d :: e :: rest) (hu : u = s.leftInput x) :
    exec (.gateTransferWrite i) s = .next { u with fold := { u.fold with
      inflight := u.fold.inflight.set i { x with hops := e :: rest, held := some d, left := true } } } := by
  rw [exec_gateTransferWrite up there, if_neg (by rw [free, read]; decide), hops, hu]

end Goes

theorem exec_gateTransferWrite_waits
    (waits : s.unread x = true ∨ x.held.isSome = true ∨ (x.hops.length ≤ 1 ∧ s.behindOwn i x = true)) :
    exec (.gateTransferWrite i) s = .next s := by
  rw [exec_gateTransferWrite up there]
  split
  next => rfl
  next goes =>
    have behind : x.hops.length ≤ 1 ∧ s.behindOwn i x = true := by
      simp only [Bool.or_eq_true, not_or] at goes
      obtain ⟨notHeld, read⟩ := goes
      exact (waits.resolve_left read).resolve_left notHeld
    split
    next d e rest long =>
      have short := behind.1
      rw [long] at short
      simp at short
    next => rw [if_pos behind.2]

/-- A transfer held at the relay die of `d`, with direction `e` before it (R75). -/
theorem exec_ridgeRelayForward {d e : Nat} {rest : List Nat} (held : x.held = some d) (hops : x.hops = e :: rest)
    (hu : u = ((((s.ridgeUse e x.sectors).ridgeGive d x.sectors).servedRelay e x.sectors).tally 0x0600 e x.sectors).tally 0x0601 e x.sectors) :
    exec (.ridgeRelayForward i) s = .next (if s.ridgeFree e < x.sectors ∨ (s.localWaits e = true ∧ s.relayTurnOf e 0 = false) then s
      else { u with fold := { u.fold with inflight := u.fold.inflight.set i { x with held := none } } }) := by
  refine (live_of_up up _).trans (congrArg Host.Outcome.next ?_)
  have turn : (!s.relayTurnOf e 0) = true ↔ s.relayTurnOf e 0 = false := by rw [Bool.not_eq_true']
  unfold State.relayForward
  rw [there]
  dsimp only
  rw [held, hops, hu]
  simp only [turn]

end Transfer

/-! ### The near zone (R91, R92) -/

section Queue
variable {qid : Fin 12480} {i : Nat} {s : State} (up : s.Up)
include up

section Evicting
variable (first : (s.eq qid.val).groupAt (fun g => g.place.isEvicting) = some i)
include first

theorem exec_evictionWriteAck_near (near : i < s.nearZone) :
    exec (.evictionWriteAck qid) s = .next ((s.setPlace qid.val i .near).slotFree (dieOf (qid.val / 12)) 1) := by
  refine (live_of_up up _).trans ?_
  dsimp only
  rw [first]
  exact if_pos near

theorem exec_evictionWriteAck_far {k : Nat} {g : CellGroup} (far : s.nearZone ≤ i) (group : (s.eq qid.val).groups[i]? = some g)
    (place : g.place = .evicting k) :
    exec (.evictionWriteAck qid) s = .next (if s.fetchWaits k = true ∨ s.logWaits k = true then s
      else (((s.setPlace qid.val i (.far k)).releaseNear g.cells).count O.FOLD_EVICTED 0 1).tally 0x0401 (dieOf (qid.val / 12))) := by
  refine (live_of_up up _).trans ?_
  dsimp only
  rw [first]
  refine (if_neg (Nat.not_lt.mpr far)).trans ?_
  rw [group]
  dsimp only
  rw [place]
  dsimp only [GroupPlace.stack, Option.getD_some]
  simp only [Bool.or_eq_true]
  split <;> rfl

end Evicting

theorem exec_groupFetch_far {k : Nat} {g : CellGroup}
    (first : ((s.eq qid.val).groups.take s.nearZone).findIdx? (fun g => g.place.isEvicting || g.place.isFar) = some i)
    (group : (s.eq qid.val).groups[i]? = some g) (place : g.place = .far k) :
    exec (.groupFetch qid) s = .next (s.setPlace qid.val i (.fetching k)) := by
  refine (live_of_up up _).trans ?_
  rw [first]
  dsimp only
  rw [group]
  dsimp only
  rw [place]

end Queue

/-- Settles O17: a matching by what each of its operations keeps, a transfer and a group by the cases of their commands. -/
theorem gateAndRidge : Obligations.GateAndRidge := by
  unfold Obligations.GateAndRidge
  refine ⟨?matching, ?inDie, ?lastHop, ?diagonal, ?waits, ?relay, ?cancel, ?fetch⟩
  case matching =>
    intro s up
    obtain ⟨added, adds⟩ := s.gateMatch_adds
    exact ⟨_, added, live_of_up up _, adds⟩
  case inDie => exact fun i x s u up there free read hops first hu => exec_gateTransferWrite_short (rest := none) up there free read hops first hu
  case lastHop =>
    exact fun i d x s u up there free read hops first hu => exec_gateTransferWrite_short (rest := some d) up there free read hops first hu
  case diagonal => exact fun i d e rest x s u up there free read hops hu => exec_gateTransferWrite_diagonal up there free read hops hu
  case waits => exact fun i x s up there waits => exec_gateTransferWrite_waits up there waits
  case relay => exact fun i d e rest x s u up there held hops hu => exec_ridgeRelayForward up there held hops hu
  case cancel => exact fun qid i s up first near => exec_evictionWriteAck_near up first near
  case fetch => exact fun qid i k g s up first group place => exec_groupFetch_far up first group place

/-! ### Eviction and fetch (R87, R90, R91, R97) -/

theorem State.evictStart_of_full {u : State} {qid : Nat} (full : ∀ j, j < 4 → u.slotFreeOn (4 * dieOf (qid / 12) + j) = false) (i busy : Nat) :
    u.evictStart qid i busy = u.raise O.FOLD_ERR 3 := by
  refine if_pos (List.all_eq_true.mpr fun j die => ?_)
  have small : j < 4 := by
    simp only [List.mem_cons, List.not_mem_nil, or_false] at die
    omega
  rw [full j small]
  rfl

theorem State.evictStart_of_free {u v : State} {qid i busy k : Nat} (free : ∃ j, j < 4 ∧ u.slotFreeOn (4 * dieOf (qid / 12) + j) = true)
    (next : u.nextStack (dieOf (qid / 12)) busy = some k)
    (hv : v = u.setOb (O.FOLD_FAR_USED + dieOf (qid / 12)) (u.ob (O.FOLD_FAR_USED + dieOf (qid / 12)) + 1)) :
    u.evictStart qid i busy = State.modEq { v with fold := { v.fold with
      rotate := TMap.put 0 v.fold.rotate (dieOf (qid / 12)) ((k + 1) % 4) } } qid
      (fun q => { q with groups := q.groups.modify i (fun g => { g with place := .evicting (4 * dieOf (qid / 12) + k), complete := true }) }) := by
  have some : ¬[0, 1, 2, 3].all (fun j => !u.slotFreeOn (4 * dieOf (qid / 12) + j)) = true := by
    obtain ⟨j, hj, slot⟩ := free
    intro all
    have none := List.all_eq_true.mp all j (by simp; omega)
    rw [slot] at none
    exact absurd none (by decide)
  unfold State.evictStart
  dsimp only
  rw [if_neg some, next, hv]

section Evict
variable {qid : Fin 12480} {busy : BitVec 4} {i : Nat} {s u : State} (up : s.Up) (hu : u = s.seeLimit (dieOf (qid.val / 12)) busy.toNat)
  (oldest : (u.evictable qid.val true).head? = some i)
include up hu oldest

theorem exec_evictionAge : exec (.evictionAge qid busy) s = .next (u.evictStart qid.val i busy.toNat) := by
  refine (live_of_up up _).trans ?_
  rw [← hu, oldest]

end Evict

/-- What occupancy does to a die whose eviction is on. -/
def State.evictFullest (s : State) (die busy : Nat) (on : Bool) : Ans :=
  let s := { s with fold := { s.fold with occEvict := setBits s.fold.occEvict die 1 (b2n on) } }
  let s := s.seeLimit die busy
  if on ∧ !s.ageDue die then
    match s.fullest die with
    | some qid =>
      match (if s.ob O.FOLD_EVICT_ORDER = 1 then (s.evictable qid false).head? else (s.evictable qid false).getLast?) with
      | some i => .next (s.evictStart qid i busy)
      | none => .next s
    | none => .next s
  else .next s

/-- Whether occupancy eviction of a die is on (R90). -/
def State.occupied (s : State) (die : Nat) : Bool :=
  decide (s.ob O.FOLD_EVICT_HI * 196608 / 100 ≤ s.ob (O.FOLD_NEAR_USED + die)) ||
    (s.fold.occEvict.testBit die && decide (s.ob O.FOLD_EVICT_LO * 196608 / 100 ≤ s.ob (O.FOLD_NEAR_USED + die)))

theorem State.occupied_iff (s : State) (die : Nat) : s.occupied die = true ↔
    s.ob O.FOLD_EVICT_HI * 196608 / 100 ≤ s.ob (O.FOLD_NEAR_USED + die) ∨
      (s.fold.occEvict.testBit die = true ∧ s.ob O.FOLD_EVICT_LO * 196608 / 100 ≤ s.ob (O.FOLD_NEAR_USED + die)) := by
  rw [State.occupied, Bool.or_eq_true, Bool.and_eq_true, decide_eq_true_iff, decide_eq_true_iff]

theorem execEvictionOccupancy_eq (die : Fin 4) (busy : BitVec 4) (s : State) :
    execEvictionOccupancy die busy s = live s (s.evictFullest die.val busy.toNat (s.occupied die.val)) := by
  unfold execEvictionOccupancy State.evictFullest State.occupied
  rfl

theorem exec_evictionOccupancy {die : Fin 4} {busy : BitVec 4} {s : State} (up : s.Up) :
    exec (.evictionOccupancy die busy) s = s.evictFullest die.val busy.toNat (s.occupied die.val) :=
  (execEvictionOccupancy_eq die busy s).trans (live_of_up up _)

theorem State.evictFullest_of_on {die busy qid i : Nat} {s u : State}
    (hu : u = ({ s with fold := { s.fold with occEvict := setBits s.fold.occEvict die 1 1 } } : State).seeLimit die busy)
    (noAge : u.ageDue die = false) (fullest : u.fullest die = some qid)
    (group : (if u.ob O.FOLD_EVICT_ORDER = 1 then (u.evictable qid false).head? else (u.evictable qid false).getLast?) = some i) :
    s.evictFullest die busy true = .next (u.evictStart qid i busy) := by
  unfold State.evictFullest
  dsimp only
  rw [show b2n true = 1 from rfl, ← hu, if_pos ⟨rfl, by rw [noAge]; rfl⟩, fullest]
  dsimp only
  rw [group]

theorem exec_fetchComplete {qid : Fin 12480} {crc : BitVec 16} {ue : Bool} {i d : Nat} {g : CellGroup} {bad : List Nat} {s u v : State}
    (up : s.Up) (first : (s.eq qid.val).groupAt (fun g => g.place.isFetching) = some i) (group : (s.eq qid.val).groups[i]? = some g)
    (hd : d = dieOf (qid.val / 12)) (room : g.cells.length ≤ s.dieFree d)
    (hbad : bad = (List.range g.cells.length).filter (fun j => ue || g.fenced || crc.toNat.testBit j))
    (hu : u = bad.foldl (fun s j => s.poisonCopy (g.cells.getD j (0, 0)).1) (g.cells.foldl (fun s x => s.fetchCell d x) s))
    (hv : v = if ue = true then u.raise O.FOLD_ERR 2 3 5 (g.place.stack.getD 0) 0
      else if g.fenced = false ∧ bad ≠ [] then u.raise O.FOLD_ERR 0 3 else u) :
    exec (.fetchComplete qid (crc, ue)) s = .next (((((if bad = [] then v else v.countPoison d bad.length).setPlace qid.val i .near).slotFree
      d 1).count O.FOLD_FETCHED 0 1).tally 0x0402 d) := by
  subst hd
  have raised : (if !ue && !g.fenced && !bad.isEmpty then
      (if ue then u.raise O.FOLD_ERR 2 3 5 (g.place.stack.getD 0) 0 else u).raise O.FOLD_ERR 0 3
      else if ue then u.raise O.FOLD_ERR 2 3 5 (g.place.stack.getD 0) 0 else u) = v := by
    rw [hv]
    cases ue with
    | true => simp
    | false => simp
  have empty : bad.isEmpty = true ↔ bad = [] := List.isEmpty_iff
  refine (live_of_up up _).trans ?_
  dsimp only
  rw [first]
  dsimp only
  rw [group]
  refine (if_neg (Nat.not_lt.mpr room)).trans ?_
  unfold State.fetchDone
  dsimp only
  rw [← hbad, ← hu, raised]
  simp only [empty]

/-- Settles O18: each step of an eviction or a fetch by the equation of its command. -/
theorem evictionAndFetch : Obligations.EvictionAndFetch := by
  unfold Obligations.EvictionAndFetch
  refine ⟨?age, ?full, ?occupancy, ?ack, ?fetch⟩
  case age =>
    rintro qid busy i k d s u v up rfl hu oldest free next hv
    rw [exec_evictionAge up hu oldest, State.evictStart_of_free free next hv]
  case full =>
    rintro qid busy i d s u up rfl hu oldest full
    rw [exec_evictionAge up hu oldest, State.evictStart_of_full full]
  case occupancy =>
    rintro die busy qid i n s u up rfl high hu noAge fullest group
    rw [exec_evictionOccupancy up, (s.occupied_iff die.val).mpr high]
    exact State.evictFullest_of_on hu noAge fullest group
  case ack => exact fun qid i k g s up first far group place => exec_evictionWriteAck_far up first far group place
  case fetch =>
    exact fun qid crc ue i d g bad s u v up first group hd room hbad hu hv => exec_fetchComplete up first group hd room hbad hu hv

end Sys2Proof.Machine
end

section
/-!
SUPPORT and the settling of O19 (QueuesAndPauses), O20 (SelectionAndDeparture, refuted) and O21 (IngressChecks). A frame at a flock port is
read off the checks of the ingress pipeline, in their order.
-/

namespace Sys2Proof.Machine

set_option Elab.async false

/-! ### Queue records and pauses (R110, R119, R120, R130, R131, R137) -/

/-- What R119, R120 and R132 ask of a row of EGR_QCFG. -/
structure State.QcfgOk (t : State) (qid v : Nat) : Prop where
  rate : rateOk (qRate v) = true
  burst : qRate v ≠ 0 → qRate v ≠ rateOpen → 1 ≤ qBurst v ∧ qBurst v ≤ 67108864
  longest : qid / 12 < 1024 → burstOk (qRate v) (qBurst v) (t.maxFrame (qid / 96) + pOverhead (t.row O.EGR_PORTCFG (qid / 12))) = true
  selected : qRecSel v = true → qRecSel (t.row O.EGR_QCFG qid) = false → t.recSelected < 1024

theorem State.writeQcfg_of_ok {t u : State} {qid v n o : Nat} (ho : o = t.row O.EGR_QCFG qid) (ok : t.QcfgOk qid v)
    (hn : n = v &&& (0x1FFF7 + 0xFFFFFFFF <<< 32 + 0x3FFFFF <<< 64 + 0x7FFFFFF <<< 96))
    (hu : u = (t.setRow O.EGR_QCFG qid n).modEq qid (fun q => { q with deficit := 0, short := 0 })) :
    t.writeQcfg qid v = (if qPauseEn o = true ∧ (qPauseEn n = false ∨ qPausePrio o ≠ qPausePrio n) then u.pauseEnd qid else u, 0) := by
  obtain ⟨rate, burst, longest, selected⟩ := ok
  have shaped : ¬((qRate v != 0 && qRate v != rateOpen) && decide (qBurst v = 0 ∨ 67108864 < qBurst v)) = true := by
    simp only [Bool.and_eq_true, bne_iff_ne, decide_eq_true_iff]
    rintro ⟨⟨some, closed⟩, bad⟩
    have good := burst some closed
    omega
  have port : ¬(qid / 12 < 1024 ∧ (!burstOk (qRate v) (qBurst v) (t.maxFrame (qid / 12 / 8) + pOverhead (t.row O.EGR_PORTCFG (qid / 12)))) = true) := by
    rintro ⟨device, short⟩
    rw [Nat.div_div_eq_div_mul, longest device] at short
    exact absurd short (by decide)
  have few : ¬(qRecSel v && !qRecSel o && decide (1024 ≤ t.recSelected)) = true := by
    simp only [Bool.and_eq_true, Bool.not_eq_true', decide_eq_true_iff]
    rintro ⟨⟨new, old⟩, full⟩
    have free := selected new (ho ▸ old)
    omega
  have freed : (qPauseEn o && (!qPauseEn n || qPausePrio o != qPausePrio n)) = true ↔
      qPauseEn o = true ∧ (qPauseEn n = false ∨ qPausePrio o ≠ qPausePrio n) := by
    rw [Bool.and_eq_true, Bool.or_eq_true, Bool.not_eq_true', bne_iff_ne]
  unfold State.writeQcfg
  dsimp only
  rw [← ho, if_neg (by rw [rate]; decide), if_neg shaped, if_neg port, if_neg few, ← hn, ← hu]
  simp only [freed]

section Pause
variable {qid : Fin 12480} {s : State} (up : s.Up)
include up

theorem exec_pfcPauseExpire {t0 : Nat} (paused : (s.eq qid.val).pauseUntil = some t0) : exec (.pfcPauseExpire qid) s =
    .next ((s.advanceTo t0).modEq qid.val (fun q => { q with pauseUntil := none, pauseSince := none, wdFired := false })) := by
  refine (live_of_up up _).trans ?_
  rw [paused]
  rfl

theorem exec_pfcWatchdogExpire {t0 u0 wd : Nat}
    (hwd : wd = bits (s.row O.PFC_CFG (8 * (qid.val / 12) + qPausePrio (s.row O.EGR_QCFG qid.val))) 32 16 * 1000000) (on : wd ≠ 0)
    (since : (s.eq qid.val).pauseSince = some t0) (till : (s.eq qid.val).pauseUntil = some u0) (fresh : (s.eq qid.val).wdFired = false)
    (long : t0 + wd ≤ u0) : exec (.pfcWatchdogExpire qid) s =
      .next ((((s.advanceTo (t0 + wd)).modEq qid.val (fun x => { x with wdFired := true })).count O.PFC_WD_EVENTS 0 1).raise O.EGR_ERR 1) := by
  have fires : ¬(wd = 0 ∨ (s.eq qid.val).wdFired = true ∨ u0 < t0 + wd) := by
    rw [fresh]
    simp [on, long]
  change execPfcWatchdogExpire qid s = _
  unfold execPfcWatchdogExpire
  rw [live_of_up up]
  dsimp only
  rw [← hwd, since, till]
  exact if_neg fires

end Pause

section PfcFrame
variable {port : Fin 1024} {en : BitVec 8} {q : BitVec 128} {s : State} (up : s.Up)
include up

theorem exec_pfcFrameReceive_link (link : s.isLink (port.val / 8) = true) :
    exec (.pfcFrameReceive port en q) s = .next (s.count O.PFC_PAUSE_IGNORED 0 1) :=
  (live_of_up up _).trans (congrArg Host.Outcome.next (if_pos link))

theorem exec_pfcFrameReceive_flock (flock : s.isFlockPort port.val = true) (notLink : s.isLink (port.val / 8) = false) :
    exec (.pfcFrameReceive port en q) s = .next ((List.range 12).foldl (fun (s : State) i =>
      let id := 12 * port.val + i
      let p := qPausePrio (s.row O.EGR_QCFG id)
      let n := bits q.toNat (16 * p) 16
      if qPauseEn (s.row O.EGR_QCFG id) && en.toNat.testBit p then
        if n = 0 then s.pauseEnd id
        else s.modEq id (fun x => { x with pauseUntil := some (s.now + s.quantaNs port.val n)
                                           pauseSince := some (match x.pauseSince with | some t => t | none => s.now) })
      else s) s) :=
  (live_of_up up _).trans (congrArg Host.Outcome.next ((if_neg (by rw [notLink]; decide)).trans (if_neg (by rw [flock]; decide))))

end PfcFrame

theorem exec_qrecRingWriteFault {s : State} (up : s.Up) (on : s.ob O.EGR_QREC_SIZE ≠ 0) :
    exec .qrecRingWriteFault s = .next ((s.setOb O.EGR_QREC_SIZE 0).raise O.EGR_ERR 6) := (live_of_up up _).trans (if_neg on)

/-- Settles O19: a queue record by its checks, a pause and the watchdog by the equations of their commands. -/
theorem queuesAndPauses : Obligations.QueuesAndPauses := by
  unfold Obligations.QueuesAndPauses
  refine ⟨?record, ?frame, ?expire, ?watchdog, ?ring⟩
  case record =>
    rintro who qid v n o s t u taken ho rate burst longest selected hn hu
    have ok : t.QcfgOk qid.val v.toNat := ⟨rate, burst, longest, ho ▸ selected⟩
    exact congrArg Host.Outcome.next (State.access_answers taken.1 taken.2 (State.writeQcfg_of_ok ho ok hn hu))
  case frame =>
    exact fun port en q s up => ⟨fun link => exec_pfcFrameReceive_link up link,
      fun flock notLink => exec_pfcFrameReceive_flock up flock notLink⟩
  case expire => exact fun qid t0 s up paused => exec_pfcPauseExpire up paused
  case watchdog => exact fun qid t0 u0 wd s up hwd on since till fresh long => exec_pfcWatchdogExpire up hwd on since till fresh long
  case ring => exact fun s up on => exec_qrecRingWriteFault up on

/-! ### A cell read for departure (R57, R82) -/

/-- A device whose port 0 departs a frame of two cells, none of which has been read. -/
def departingDevice : State :=
  { State.reset with fold := { State.reset.fold with
      copies := [(1, { arr := 1, frame := { bytes := List.replicate 600 0 }, members := [0], stage := .queued, groups := [0, 0] })]
      eports := [(0, { dep := some { copy := 1, queue := 0, started := true } })]
      queues := [(0, { frames := [1], used := 2 })] } }

theorem departingDevice_departs : departingDevice.serverInReset = false ∧
    (departingDevice.ep 0).dep = some { copy := 1, queue := 0, started := true } ∧ (departingDevice.copy 1).groups.getD 0 128 = 0 ∧
    (departingDevice.copy 1).frame.cells = 2 ∧ (departingDevice.copy 1).freed = 0 := by
  decide +kernel

/-- The cell read is free: the copy records it. -/
theorem freed_readDepart : ((departingDevice.readDepart 0 0 0 true).copy 1).freed = 1 := by
  decide +kernel

/-- Refutes O20: the first cell of a departing frame, read without error, is freed, which its copy records. -/
theorem not_selectionAndDeparture : ¬ Obligations.SelectionAndDeparture := by
  unfold Obligations.SelectionAndDeparture
  rintro ⟨-, -, -, -, -, -, reads, -⟩
  obtain ⟨up, departs, near, cells, notFreed⟩ := departingDevice_departs
  obtain ⟨t, u, ran, same, -⟩ := reads 0 _ 0 0 departingDevice up departs rfl rfl near (by decide) (cells ▸ by decide)
  have read : exec (.cellRead (.depart 0) true 0 0) departingDevice = .next (departingDevice.readDepart 0 0 0 true) := live_of_up up _
  have ends : departingDevice.readDepart 0 0 0 true = t := Host.Outcome.next.inj (read.symm.trans ran)
  have kept : (departingDevice.readDepart 0 0 0 true).copy 1 = departingDevice.copy 1 := by
    rw [ends, State.copy, same]
    rfl
  have freed := freed_readDepart
  rw [kept, notFreed] at freed
  exact absurd freed (by decide)

/-! ### A frame at a flock port (R141, R215) -/

section Ingress
variable {port : Fin 1024} {bytes : List Byte} {ok : Bool} {fifo : Fin 257} {s u : State}

theorem exec_ingressFrame_of_open (open_ : s.FlockOpen port.val) (hu : u = s.setFifo (port.val / 8) fifo.val) :
    exec (.ingressFrame port bytes ok fifo) s = .next (u.ingress port.val bytes ok none) := by
  obtain ⟨up, exists_, fence, link, loop⟩ := open_
  change execIngressFrame port bytes ok fifo s = _
  unfold execIngressFrame
  rw [live_of_up up, link, loop, exists_, fence, hu]
  rfl

theorem exec_ingressFrame_of_loop {l : Nat} (up : s.Up) (hl : l = s.bob (port.val / 8) O.PORT_LOOPBACK)
    (notLink : s.isLink (port.val / 8) = false) : exec (.ingressFrame port bytes ok fifo) s =
      if (!s.portExists port.val) = true ∨ s.blockFenced (port.val / 8) = true ∨ l = 1 then .next s
      else if l = 2 then .next (s.transmit (port.val / 8) (.eth port.val bytes (!ok)))
      else .next ((s.setFifo (port.val / 8) fifo.val).ingress port.val bytes ok none) := by
  change execIngressFrame port bytes ok fifo s = _
  unfold execIngressFrame
  rw [live_of_up up, notLink, hl]
  rfl

theorem State.ingress_of_badFcs : u.ingress port.val bytes false none = (u.portCount (port.val / 8) 2 1).tally 0x0104 port.val := rfl

section Flock
variable (notLink : u.isLink (port.val / 8) = false)
include notLink

theorem flockLength : (if u.isLink (port.val / 8) then bytes.length else bytes.length + 4) = bytes.length + 4 :=
  if_neg (by rw [notLink]; decide)

theorem shortLimit : (if u.isLink (port.val / 8) then 32 else 64) = 64 := if_neg (by rw [notLink]; decide)

theorem longLimit : (if u.isLink (port.val / 8) then 16896 else u.bob (port.val / 8) O.PORT_MAX_FRAME) =
    u.bob (port.val / 8) O.PORT_MAX_FRAME := if_neg (by rw [notLink]; decide)

theorem State.ingress_of_runt (short : bytes.length < 60) : u.ingress port.val bytes true none =
    ((u.portCount (port.val / 8) 7 1).portErr (port.val / 8) 7).tally 0x0105 port.val := by
  refine if_pos ?_
  rw [flockLength notLink, shortLimit notLink]
  omega

theorem State.ingress_of_long (whole : 60 ≤ bytes.length) (long : u.bob (port.val / 8) O.PORT_MAX_FRAME < bytes.length + 4) :
    u.ingress port.val bytes true none = ((u.portCount (port.val / 8) 8 1).portErr (port.val / 8) 7).tally 0x0105 port.val := by
  refine (if_neg ?_).trans (if_pos ?_)
  · rw [flockLength notLink, shortLimit notLink]
    omega
  · rw [flockLength notLink, longLimit notLink]
    exact long

/-- A frame without a fabric header that is neither PAUSE nor PFC, and is lossless or finds room and no hold. -/
theorem State.ingress_of_plain {f0 f : Frame} {p : Parsed} {n : Nat} {w : State} (whole : 60 ≤ bytes.length)
    (fits : bytes.length + 4 ≤ u.bob (port.val / 8) O.PORT_MAX_FRAME) (hw : w = (u.tally 0x0100 port.val).tally 0x0101 port.val bytes.length)
    (hf0 : f0 = { bytes := bytes, port := port.val, rx := time112 w.time.dev, etype := w.ob O.FWD_ETHERTYPE })
    (hp : p = parseFrame f0.etype f0) (noFab : p.fab = none) (notPause : p.etype ≠ 0x8808)
    (hn : n = if p.tags = 0 then bits (w.row O.FWD_PORTCFG port.val) 12 3 else p.pcp)
    (hf : f = { f0 with prio := n, lossless := pfcEnabled (w.row O.PFC_CFG (8 * port.val + n))
                        pasture := bits (w.row O.FWD_PORTCFG port.val) 0 12, cls := w.flockClass port.val p })
    (goes : f.lossless = true ∨ ((w.block (port.val / 8)).fifo < 256 ∧ w.row O.ROUTE_HOLD f.pasture = 0)) :
    u.ingress port.val bytes true none = w.classify (port.val / 8) (port.val / 8 / 32) f p := by
  have notRunt : ¬(if u.isLink (port.val / 8) then bytes.length else bytes.length + 4) < (if u.isLink (port.val / 8) then 32 else 64) := by
    rw [flockLength notLink, shortLimit notLink]
    omega
  have notLong : ¬(if u.isLink (port.val / 8) then 16896 else u.bob (port.val / 8) O.PORT_MAX_FRAME) <
      (if u.isLink (port.val / 8) then bytes.length else bytes.length + 4) := by
    rw [flockLength notLink, longLimit notLink]
    omega
  have lossless : f.lossless = pfcEnabled (w.row O.PFC_CFG (8 * port.val + n)) := by rw [hf]
  have room : ¬((!f.lossless) = true ∧ 256 ≤ (w.block (port.val / 8)).fifo) := by
    rintro ⟨lossy, full⟩
    obtain free | ⟨some, -⟩ := goes
    · rw [free] at lossy
      cases lossy
    · omega
  have noHold : ¬((!f.lossless) = true ∧ w.row O.ROUTE_HOLD f.pasture ≠ 0) := by
    rintro ⟨lossy, held⟩
    obtain free | ⟨-, none⟩ := goes
    · rw [free] at lossy
      cases lossy
    · exact held none
  refine (if_neg notRunt).trans ((if_neg notLong).trans ?_)
  have parsed : parseFrame (w.ob O.FWD_ETHERTYPE)
      { bytes := bytes, port := port.val, rx := time112 w.time.dev, etype := w.ob O.FWD_ETHERTYPE } = p := by rw [hp, hf0]
  have plain : ¬((!false) = true ∧ p.etype = 0x8808) := fun pause => notPause pause.2
  have pasture : f.pasture = bits (w.row O.FWD_PORTCFG port.val) 0 12 := by rw [hf]
  rw [lossless] at room noHold
  rw [pasture] at noHold
  subst hw
  subst hn
  simp only [notLink, parsed]
  refine (if_neg plain).trans ((if_neg room).trans ?_)
  rw [noFab]
  refine (if_neg noHold).trans ?_
  rw [hf, hf0]
  rfl

end Flock
end Ingress

theorem exec_pfcXoffRepeat {port : Fin 1024} {prio : Fin 8} {t0 : Nat} {s u : State} (up : s.Up)
    (stopped : (s.ep port.val).xoff.testBit prio.val = true) (ht0 : TMap.get 0 (s.ep port.val).xoffAt prio.val = t0) (hu : u = s.advanceTo t0) :
    exec (.pfcXoffRepeat port prio) s = .next (((u.modEp port.val (fun e => { e with
      xoffAt := TMap.put 0 e.xoffAt prio.val (t0 + u.quantaNs port.val 0xFFFF / 2) })).transmit (port.val / 8)
        (.pfc port.val (2 ^ prio.val) 0xFFFF)).tally 0x0106 port.val) := by
  refine (live_of_up up _).trans ((if_pos stopped).trans ?_)
  rw [ht0, hu]

/-- Settles O21: each check of a frame by its place in the ingress pipeline. -/
theorem ingressChecks : Obligations.IngressChecks := by
  unfold Obligations.IngressChecks
  refine ⟨?fcs, ?runt, ?long, ?plain, ?loop, ?xoff⟩
  case fcs => exact fun port bytes fifo s u open_ hu => exec_ingressFrame_of_open open_ hu
  case runt =>
    intro port bytes fifo s u open_ hu notLink short
    rw [exec_ingressFrame_of_open open_ hu, State.ingress_of_runt notLink short]
  case long =>
    intro port bytes fifo s u open_ hu notLink whole long
    rw [exec_ingressFrame_of_open open_ hu, State.ingress_of_long notLink whole long]
  case plain =>
    intro port bytes fifo f0 f p n s u w open_ hu notLink whole fits hw hf0 hp noFab notPause hn hf goes
    rw [exec_ingressFrame_of_open open_ hu, State.ingress_of_plain notLink whole fits hw hf0 hp noFab notPause hn hf goes]
  case loop =>
    intro port bytes ok fifo l s up hl notLink
    have ran := exec_ingressFrame_of_loop (bytes := bytes) (ok := ok) (fifo := fifo) up hl notLink
    refine ⟨fun none => ran.trans (if_pos ?_), fun there notFenced far => ran.trans ((if_neg ?_).trans (if_pos far))⟩
    · obtain absent | near := none
      · exact .inl (by rw [absent]; rfl)
      · exact .inr (.inr near)
    · rw [there, notFenced, far]
      decide
  case xoff => exact fun port prio t0 s u up stopped ht0 hu => exec_pfcXoffRepeat up stopped ht0 hu

end Sys2Proof.Machine
end

section
/-!
SUPPORT and the settling of O22 (HeftCommands) and O23 (ForwardingCommands). A command of the Heft on the mask of one die acts on that
die alone; the rest is read off one definition at a time.
-/

namespace Sys2Proof.Machine

set_option Elab.async false

/-! ### The Heft (R157, R161, R164) -/

/-- A mask of one die names that die alone. -/
theorem setBitsOf_one : ∀ d : Fin 4, setBitsOf 4 (1#4 <<< d.val).toNat = [d.val] := by decide

theorem oneDie_mask : ∀ d : Fin 4, ((1#4 <<< d.val).toNat % 16 == 0) = false := by decide

theorem ePasture_place : ∀ p : Fin 4096, ePasture (p.val <<< 48) = p.val := by
  intro p
  have low := p.isLt
  simp only [ePasture, bits, Nat.shiftLeft_eq]
  omega

theorem eDev_place (dev : Fin 512) (port : Fin 1024) : eDev (dev.val <<< 64 + port.val <<< 73) = dev.val := by
  have low := dev.isLt
  simp only [eDev, bits, Nat.shiftLeft_eq]
  omega

theorem ePort_place (dev : Fin 512) (port : Fin 1024) : ePort (dev.val <<< 64 + port.val <<< 73) = port.val := by
  have low := dev.isLt
  have high := port.isLt
  simp only [ePort, bits, Nat.shiftLeft_eq]
  omega

section Heft
variable {s t u : State} {d : Fin 4}

theorem State.heftLearn_of_known {die e port i : Nat} {rest : List (Nat × Nat)} (front : (s.heft die).learn = (e, port) :: rest)
    (hu : u = s.setHeft die { s.heft die with learn := rest }) (known : (u.heft die).find (eStamp e u.heftStamp) = some i)
    (dev : eDev ((u.heft die).at i) = eDev (eStamp e u.heftStamp)) (at_ : ePort ((u.heft die).at i) = ePort (eStamp e u.heftStamp)) :
    s.heftLearn die = u.setHeft die ((u.heft die).setAt i (eStamp ((u.heft die).at i) u.heftStamp)) := by
  unfold State.heftLearn
  dsimp only
  rw [front]
  dsimp only
  rw [← hu, known]
  exact if_pos ⟨dev, at_⟩

theorem exec_heftAgeSweep {h : HeftDie} {old : Nat → Bool} (up : s.Up) (hh : h = s.heft d.val)
    (hold : old = (fun e => !eStatic e && decide (s.ob O.HEFT_AGE_LIMIT ≤ (s.heftStamp + 65536 - eAge e) % 65536))) :
    exec (.heftAgeSweep d) s = .next (if s.ob O.HEFT_AGE_LIMIT = 0 then s
      else ((h.slots.map (·.2)).filter old ++ h.stash.filter old).foldl (fun s e => s.heftNotice d.val e 3) (s.setHeft d.val (h.flush old))) := by
  subst hh
  subst hold
  exact live_of_up up _

theorem State.heftStatic_of_known {m e n i : Nat} (one : setBitsOf 4 m = [d.val])
    (hn : n = setBits (setBits (setBits (e &&& (2 ^ 83 - 1)) 61 2 3) 63 1 0) 96 16 0) (known : (t.heft d.val).find n = some i) :
    t.heftStatic m e = (t.setHeft d.val ((t.heft d.val).setAt i n)).setOb O.HEFT_OP_STATUS 0 := by
  unfold State.heftStatic
  dsimp only
  rw [one, ← hn, List.foldl_cons, List.foldl_nil]
  rw [known]
  rfl

theorem State.heftStatic_of_new {m e n : Nat} (one : setBitsOf 4 m = [d.val])
    (hn : n = setBits (setBits (setBits (e &&& (2 ^ 83 - 1)) 61 2 3) 63 1 0) 96 16 0) (new : (t.heft d.val).find n = none) :
    t.heftStatic m e = (t.heftInsert d.val n).1.setOb O.HEFT_OP_STATUS (if (t.heftInsert d.val n).2 then 6 else 0) := by
  unfold State.heftStatic
  dsimp only
  rw [one, ← hn, List.foldl_cons, List.foldl_nil]
  rw [new]
  rfl

theorem State.heftDelete_of_known {m e i : Nat} {h : HeftDie} (one : setBitsOf 4 m = [d.val]) (hh : h = t.heft d.val) (known : h.find e = some i) :
    t.heftDelete m e = (t.setHeft d.val (if i < 1048576 then { h with slots := TMap.put 0 h.slots i 0 }
      else { h with stash := h.stash.eraseIdx (i - 1048576) })).setOb O.HEFT_OP_STATUS 0 := by
  unfold State.heftDelete
  dsimp only
  rw [one, List.foldl_cons, List.foldl_nil, ← hh, known]
  rfl

theorem State.heftDelete_of_absent {m e : Nat} {h : HeftDie} (one : setBitsOf 4 m = [d.val]) (some_ : (m % 16 == 0) = false) (hh : h = t.heft d.val)
    (absent : h.find e = none) : t.heftDelete m e = t.setOb O.HEFT_OP_STATUS 1 := by
  unfold State.heftDelete
  dsimp only
  rw [one, List.foldl_cons, List.foldl_nil, ← hh, absent]
  dsimp only
  rw [some_]
  rfl

theorem State.heftRetryAll_of_one {m : Nat} (one : setBitsOf 4 m = [d.val]) :
    t.heftRetryAll m = (t.heftRetry d.val).1.setOb O.HEFT_OP_STATUS (if (t.heftRetry d.val).2 then 6 else 0) := by
  unfold State.heftRetryAll
  rw [one, List.foldl_cons, List.foldl_nil]
  rfl

/-- An opcode of the table is taken with status 0. -/
theorem State.heftCmd_of_op {who : Path} {op m e : Nat} (taken : s.Takes who O.HEFT_OP t) (acts : t.heftOp op m e = some u) :
    s.heftCmd who op m e = u.answered who O.HEFT_OP 0 :=
  State.access_answers taken.1 taken.2 (by rw [acts])

end Heft

/-- Settles O22: each command of the Heft by its opcode, on the die that its mask names. -/
theorem heftCommands : Obligations.HeftCommands := by
  unfold Obligations.HeftCommands
  refine ⟨?known, ?sweep, ?static, ?delete, ?flush, ?retry⟩
  case known =>
    intro die e port i rest s u up front hu known dev at_
    exact (live_of_up up _).trans (congrArg Host.Outcome.next (State.heftLearn_of_known front hu known dev at_))
  case sweep => exact fun die old h s up hh hold => exec_heftAgeSweep up hh hold
  case static =>
    intro who d e n s t taken hn
    exact ⟨fun i known => congrArg Host.Outcome.next (State.heftCmd_of_op taken (congrArg some (State.heftStatic_of_known (setBitsOf_one d) hn known))),
      fun new => congrArg Host.Outcome.next (State.heftCmd_of_op taken (congrArg some (State.heftStatic_of_new (setBitsOf_one d) hn new)))⟩
  case delete =>
    intro who d e h s t taken hh
    exact ⟨fun i known => congrArg Host.Outcome.next (State.heftCmd_of_op taken (congrArg some (State.heftDelete_of_known (setBitsOf_one d) hh known))),
      fun absent => congrArg Host.Outcome.next (State.heftCmd_of_op taken (congrArg some (State.heftDelete_of_absent (setBitsOf_one d) (oneDie_mask d) hh absent)))⟩
  case flush =>
    intro who m p dev port F s t taken hF
    subst hF
    refine ⟨congrArg Host.Outcome.next (State.heftCmd_of_op taken ?_), congrArg Host.Outcome.next (State.heftCmd_of_op taken ?_), congrArg Host.Outcome.next (State.heftCmd_of_op taken rfl)⟩
    · simp only [State.heftOp, ePasture_place]
      rfl
    · simp only [State.heftOp, eDev_place, ePort_place]
      rfl
  case retry =>
    intro who d s t taken
    exact congrArg Host.Outcome.next (State.heftCmd_of_op taken (congrArg some (State.heftRetryAll_of_one (setBitsOf_one d))))

/-! ### Prefixes, table rows, holds and snapshots (R165, R167, R181, R232, R234, R239) -/

section Forwarding
variable {t : State}

theorem State.lpmAdd_of_room {v6 : Bool} {plen pa nh x k w : Nat} (hw : w = if v6 then 128 else 32) (short : plen ≤ w)
    (hk : k = lpmKey v6 plen pa (cutPrefix w plen x)) (room : t.lpmUsed + 2 ≤ 262144) :
    t.lpmAdd v6 plen pa nh x = ({ t with fwd := { t.fwd with lpm := TMap.put 0 t.fwd.lpm k (nh + 1) } }, 0) := by
  have new : (if TMap.get 0 t.fwd.lpm k = 0 then (if v6 then 2 else 1) else 0) ≤ 2 := by
    split
    · cases v6 <;> decide
    · decide
  have fits := Nat.not_lt.mpr (Nat.le_trans (Nat.add_le_add_left new t.lpmUsed) room)
  unfold State.lpmAdd
  dsimp only
  rw [← hw, ← hk, if_neg (Nat.not_lt.mpr short), if_neg fits]

theorem State.lpmDelete_of_short {v6 : Bool} {plen pa x k w : Nat} (hw : w = if v6 then 128 else 32) (short : plen ≤ w)
    (hk : k = lpmKey v6 plen pa (cutPrefix w plen x)) : t.lpmDelete v6 plen pa x =
      if TMap.get 0 t.fwd.lpm k = 0 then (t, 0x0A) else ({ t with fwd := { t.fwd with lpm := TMap.put 0 t.fwd.lpm k 0 } }, 0) := by
  unfold State.lpmDelete
  dsimp only
  rw [← hw, ← hk, if_neg (Nat.not_lt.mpr short)]

theorem State.fwdRowWrite_of_row {o row v : Nat} {d : ObjDef} (hd : objDef o = some d) (inside : row < d.rows) :
    t.fwdRowWrite o row v = if t.fwdRowOk o row v = true then (t.setRow o row (v % 2 ^ (8 * d.size) &&& fwdRowMask o), 0) else (t, 0x0A) := by
  unfold State.fwdRowWrite
  rw [hd]
  exact if_neg (Nat.not_le.mpr inside)

theorem State.holdWrite_of_known {pa v : Nat} {u w : State} (known : v ≤ 2) (hu : u = t.setRow O.ROUTE_HOLD pa v)
    (hw : w = (u.pasturePorts pa).foldl (fun s port => (List.range 8).foldl (fun s i => s.pfcUpdate port i) s) u) :
    t.holdWrite pa v = (if v = 0 then w.issueKept pa else w, 0) := by
  rw [hw, hu]
  exact if_neg (Nat.not_lt.mpr known)

theorem State.routeSnap_of_ahead {pa n : Nat} (ahead : t.bell < t.bellOf48 n) : t.routeSnap pa n =
    ({ t.setRow O.ROUTE_SNAP_RES pa (setBits (t.row O.ROUTE_SNAP_RES pa) 48 1 0) with
      fwd := { t.fwd with snaps := TMap.put 0 t.fwd.snaps pa (t.bellOf48 n) } }, 0) := if_neg (Nat.not_le.mpr ahead)

theorem State.snapTake_eq (pa b : Nat) : t.snapTake pa b = { t.setRow O.ROUTE_SNAP_RES pa (b % 2 ^ 48 + 1 <<< 48 +
      (b2n (t.row O.ROUTE_HOLD pa != 0)) <<< 49 + (min (t.inDevice pa) 0xFFFFFFFF) <<< 64) with
    fwd := { t.fwd with snaps := TMap.put 0 t.fwd.snaps pa 0 } } := by
  unfold State.snapTake
  dsimp only
  rw [State.setRow_fwd]

end Forwarding

/-- Settles O23: each command of the forwarding tables by the check it passes. -/
theorem forwardingCommands : Obligations.ForwardingCommands := by
  unfold Obligations.ForwardingCommands
  refine ⟨?add, ?delete, ?row, ?hold, ?snap, ?take, ?clear⟩
  case add =>
    intro who v6 plen pa nh pfx k w x s t taken hw short hx hk room
    have adds := State.lpmAdd_of_room (nh := nh.val) hw short hk room
    rw [hx] at adds
    exact congrArg Host.Outcome.next (State.access_answers taken.1 taken.2 adds)
  case delete =>
    intro who v6 plen pa pfx k w x s t taken hw short hx hk
    subst hx
    have deletes := State.lpmDelete_of_short (t := t) (pa := pa.val) hw short hk
    by_cases absent : TMap.get 0 t.fwd.lpm k = 0
    · rw [if_pos absent] at deletes ⊢
      exact congrArg Host.Outcome.next (State.access_answers taken.1 taken.2 deletes)
    · rw [if_neg absent] at deletes ⊢
      exact congrArg Host.Outcome.next (State.access_answers taken.1 taken.2 deletes)
  case row =>
    intro who table row o v d s t taken ho hd inside
    subst ho
    have writes := State.fwdRowWrite_of_row (t := t) (v := v.toNat) hd inside
    by_cases ok : t.fwdRowOk (fwdTableOid table) row v.toNat = true
    · rw [if_pos ok] at writes ⊢
      exact congrArg Host.Outcome.next (State.access_answers taken.1 taken.2 writes)
    · rw [if_neg ok] at writes ⊢
      exact congrArg Host.Outcome.next (State.access_answers taken.1 taken.2 writes)
  case hold =>
    intro who pa v s t u w taken known hu hw
    exact congrArg Host.Outcome.next (State.access_answers taken.1 taken.2 (State.holdWrite_of_known known hu hw))
  case snap =>
    intro who pa n s t taken ahead
    exact congrArg Host.Outcome.next (State.access_answers taken.1 taken.2 (State.routeSnap_of_ahead ahead))
  case take =>
    intro pa b s up hb set due
    refine (live_of_up up _).trans ?_
    rw [hb]
    exact (if_neg (not_or.mpr ⟨set, Nat.not_lt.mpr due⟩)).trans (congrArg Host.Outcome.next (State.snapTake_eq pa.val b))
  case clear => exact fun who v s t taken => congrArg Host.Outcome.next (State.access_answers taken.1 taken.2 rfl)

end Sys2Proof.Machine
end

section
/-!
SUPPORT and the settling of O36 (DeviceTime) and O37 (PulsePerSecond). What the passing of time leaves alone is the earlier `Rest`; a refill
of the token buckets changes the queues' and the ports' buckets and nothing else.
-/

namespace Sys2Proof.Machine

set_option Elab.async false

/-! ### Setting and selecting device time (R429 to R432) -/

section Set
variable {t : State} {v : Nat}

theorem State.bwthSet_of_whole (whole : bits v 16 32 < 1000000000) (zero : t.ob (domOid O.DOM_SRC_KIND 0) ≠ 4)
    (one : t.ob (domOid O.DOM_SRC_KIND 1) ≠ 4) :
    t.bwthSet v = ({ t with time := { t.time with everLock := false, stepped := false } }.stepTime (devOf v), 0) := by
  unfold State.bwthSet
  rw [if_neg (Nat.not_le.mpr whole)]
  dsimp only
  rw [List.foldl_cons, List.foldl_cons, List.foldl_nil]
  have first : ¬({ t with time := { t.time with everLock := false, stepped := false } } : State).ob (domOid O.DOM_SRC_KIND 0) = 4 := zero
  have second : ¬({ t with time := { t.time with everLock := false, stepped := false } } : State).ob (domOid O.DOM_SRC_KIND 1) = 4 := one
  rw [if_neg first, if_neg second]

theorem State.writeSel_of_locked (known : v ≤ 1) (locked : t.domState v = 2) :
    t.writeSel v = (if v = t.ob O.BWTH_SEL then t else t.domSwitch v, 0) := by
  unfold State.writeSel
  rw [if_neg (not_or.mpr ⟨Nat.not_lt.mpr known, not_not_intro locked⟩)]
  by_cases same : v = t.ob O.BWTH_SEL
  · rw [if_pos same, if_pos same]
  · rw [if_neg same, if_neg same]

end Set

/-! ### The token buckets (R121) -/

/-- Nothing but the buckets of queues and ports has changed. -/
def State.BucketsOnly (s t : State) : Prop := ∃ q e, t = { s with fold := { s.fold with queues := q, eports := e } }

theorem State.BucketsOnly.refl (s : State) : s.BucketsOnly s := ⟨_, _, rfl⟩

theorem State.BucketsOnly.trans {s t u : State} (h : s.BucketsOnly t) (k : t.BucketsOnly u) : s.BucketsOnly u := by
  obtain ⟨_, _, rfl⟩ := h
  obtain ⟨_, _, rfl⟩ := k
  exact ⟨_, _, rfl⟩

theorem State.BucketsOnly.foldl {f : State → Nat → State} (keeps : ∀ (s : State) (q : Nat), s.BucketsOnly (f s q)) (l : List Nat) (s : State) :
    s.BucketsOnly (l.foldl f s) := by
  induction l generalizing s with
  | nil => exact .refl s
  | cons q l ih => exact (keeps s q).trans (ih (f s q))

theorem State.refillAll_bucketsOnly (s : State) : s.BucketsOnly s.refillAll := by
  refine (State.BucketsOnly.foldl (fun u q => ?_) _ s).trans (State.BucketsOnly.foldl (fun u d => ?_) _ _)
  · split
    · exact .refl u
    · exact ⟨_, _, rfl⟩
  · split
    · exact .refl u
    · exact ⟨_, _, rfl⟩

/-! ### What waits for a time (R111, R115, R178) -/

theorem State.advance_le (s : State) (ns : Nat) : s.now ≤ (s.advance ns).now := by
  rw [State.advance_now]
  exact Nat.le_add_right _ _

theorem State.advanceDev_le (s : State) (d : Nat) : s.now ≤ (s.advanceDev d).now := by
  unfold State.advanceDev
  split
  · exact Nat.le_refl _
  · exact s.advance_le _

theorem exec_launchTimeDue_of_ahead {qid : Fin 12480} {id t0 : Nat} {s : State} (up : s.Up) (head : s.headOf qid.val = some id)
    (launch : (s.copy id).frame.launch = some t0) (timed : 8 ≤ qid.val % 12) (ahead : s.reached t0 = false) :
    exec (.launchTimeDue qid) s = .next (s.advanceDev ((s.devNs + (t64Ns t0 + t64Span - t64Ns s.t64) % t64Span) * devUnit)) := by
  change execLaunchTimeDue qid s = _
  unfold execLaunchTimeDue
  rw [live_of_up up, head]
  dsimp only
  rw [launch]
  exact if_pos ⟨timed, by rw [ahead]; rfl⟩

theorem exec_reorderTimeout_of_running {src : Fin 512} {cls : Fin 8} {t0 : Nat} {h : Nat × Nat} {s u : State} (up : s.Up)
    (running : (s.ctx (8 * src.val + cls.val)).deadline = some t0) (nearest : (s.ctx (8 * src.val + cls.val)).nearest = some h)
    (hu : u = s.advanceTo t0) : exec (.reorderTimeout src cls) s = .next (u.reorderExpire (8 * src.val + cls.val) (u.copy h.2).die) := by
  change execReorderTimeout src cls s = _
  unfold execReorderTimeout
  rw [live_of_up up]
  dsimp only
  rw [running, nearest, hu]

/-- Settles O36: each command of device time by its condition; the rest of the state by `Rest` and `BucketsOnly`. -/
theorem deviceTime : Obligations.DeviceTime := by
  unfold Obligations.DeviceTime
  refine ⟨?set, ?badSet, ?sel, ?badSel, ?loss, ?read, ?overrun, ?refill, ?launch, ?slot, ?reorder⟩
  case set =>
    intro who v s t taken whole zero one
    exact congrArg Host.Outcome.next (State.access_answers taken.1 taken.2 (State.bwthSet_of_whole whole zero one))
  case badSet =>
    intro who v s serves bad
    exact congrArg Host.Outcome.next (State.access_answers serves rfl (if_pos bad))
  case sel =>
    intro who v s t taken known locked
    exact congrArg Host.Outcome.next (State.access_answers taken.1 taken.2 (State.writeSel_of_locked known locked))
  case badSel =>
    intro who v s t taken bad
    exact congrArg Host.Outcome.next (State.access_answers taken.1 taken.2 (if_pos bad))
  case loss => exact fun x s up sampled notRoot => (awake_of_awake up _).trans (if_pos ⟨sampled, notRoot⟩)
  case read => exact fun s up => awake_of_awake up _
  case overrun => exact fun cls s up known => (live_of_up up _).trans (if_neg (Nat.not_le.mpr known))
  case refill =>
    intro s up
    obtain ⟨q, e, buckets⟩ := s.refillAll_bucketsOnly
    refine ⟨s.refillAll, live_of_up up _, ?_⟩
    rw [buckets]
    exact ⟨rfl, rfl, rfl, rfl, rfl⟩
  case launch => exact fun qid id t0 s up head launch timed ahead => exec_launchTimeDue_of_ahead up head launch timed ahead
  case slot =>
    intro s up
    have rest := State.advanceDev_rest (Rest.refl s) (s.time.dev - s.tickPos + (s.slot + 1) * (s.period / 64) * devUnit)
    exact ⟨_, live_of_up up _, rest.fold, rest.blocks, s.advanceDev_le _⟩
  case reorder => exact fun src cls t0 h s u up running nearest hu => exec_reorderTimeout_of_running up running nearest hu

/-! ### The PPS pins, TIME_SYNC and snapshots (R436, R437, R444, R445, R554, R555) -/

section Pps
variable {s u : State}

theorem exec_ppsInEdge_of_free {c : Int} {w : State} (up : s.Awake) (hc : c = sint 32 (s.ob O.BWTH_PPS_IN_COMP_NS) * ((devUnit : Nat) : Int))
    (hu : u = { s with time := { s.time with dev := (((s.time.dev : Nat) : Int) - c).toNat } })
    (hw : w = (s.setBlob O.BWTH_PPS_IN_TS (leBytes 12 u.t96)).count O.BWTH_STAT 6 1)
    (zero : w.ob (domOid O.DOM_SRC_KIND 0) ≠ 3) (one : w.ob (domOid O.DOM_SRC_KIND 1) ≠ 3) :
    exec .ppsInEdge s = .next { w with time := { w.time with ppsInAt := some w.now } } := by
  change execPpsInEdge s = _
  unfold execPpsInEdge
  rw [awake_of_awake up]
  dsimp only
  rw [← hc, ← hu, ← hw, List.foldl_cons, List.foldl_cons, List.foldl_nil]
  have first : ¬({ w with time := { w.time with ppsInAt := some w.now } } : State).ob (domOid O.DOM_SRC_KIND 0) = 3 := zero
  have second : ¬({ w with time := { w.time with ppsInAt := some w.now } } : State).ob (domOid O.DOM_SRC_KIND 1) = 3 := one
  rw [if_neg first, if_neg second]

theorem exec_ppsInMissing_of_edge {t0 : Nat} (up : s.Awake) (edge : s.time.ppsInAt = some t0) (hu : u = s.advanceTo (t0 + 1100000000)) :
    exec .ppsInMissing s = .next (({ u with time := { u.time with ppsInAt := none } }.count O.BWTH_STAT 7 1).raise O.BWTH_ERR 5) := by
  change execPpsInMissing s = _
  unfold execPpsInMissing
  rw [awake_of_awake up, edge, hu]

theorem exec_ppsOutRise_of_low (up : s.Awake) (driven : s.ppsDriven = true) (low : s.time.ppsOut = false)
    (hu : u = s.advanceDev (s.ppsNext.2 * devUnit)) : exec .ppsOutRise s =
      .next { u with time := { u.time with ppsOut := true, ppsRoseAt := u.now, ppsSecond := some s.ppsNext.1.toNat } } := by
  refine (awake_of_awake up _).trans ?_
  rw [if_neg (by rw [driven, low]; decide), hu]

theorem exec_ppsOutFall_of_high (up : s.Awake) (high : s.time.ppsOut = true)
    (hu : u = s.advanceTo (s.time.ppsRoseAt + s.ob O.BWTH_PPS_OUT_WIDTH_US * 1000)) :
    exec .ppsOutFall s = .next { u with time := { u.time with ppsOut := false } } := by
  refine (awake_of_awake up _).trans ?_
  rw [if_neg (by rw [high]; decide), hu]

theorem exec_tallySnapshot_of_announced {t0 : Nat} {rest : List Nat} (up : s.Up) (announced : s.obsv.nowAt = t0 :: rest)
    (hu : u = s.advanceTo t0) : exec .tallySnapshot s = .next ({ u with obsv := { u.obsv with nowAt := rest } }.snapshot 4) := by
  change execTallySnapshot s = _
  unfold execTallySnapshot
  rw [live_of_up up, announced, hu]

end Pps

theorem State.snapAt_of_ahead {t : State} {b : BitVec 48} (free : t.obsv.snapAt = none) (ahead : t.bell < t.bellOf48 b.toNat) :
    t.snapAt b.toNat = ({ t with obsv := { t.obsv with snapAt := some (t.bellOf48 b.toNat) } }, 0) := by
  unfold State.snapAt
  rw [Nat.mod_eq_of_lt b.isLt]
  exact if_neg (not_or.mpr ⟨by rw [free]; decide, Nat.not_le.mpr ahead⟩)

theorem State.snapAt_of_taken {t : State} {b : BitVec 48} (refused : t.obsv.snapAt.isSome = true ∨ t.bellOf48 b.toNat ≤ t.bell) :
    t.snapAt b.toNat = (t, 0x0A) := by
  unfold State.snapAt
  rw [Nat.mod_eq_of_lt b.isLt]
  exact if_pos refused

/-- Settles O37: each edge and each snapshot by the state it comes in. -/
theorem pulsePerSecond : Obligations.PulsePerSecond := by
  unfold Obligations.PulsePerSecond
  refine ⟨?edge, ?missing, ?rise, ?fall, ?at_, ?badAt, ?now, ?snapshot, ?sync⟩
  case edge => exact fun c u s w up hc hu hw zero one => exec_ppsInEdge_of_free up hc hu hw zero one
  case missing => exact fun t0 s u up edge hu => exec_ppsInMissing_of_edge up edge hu
  case rise => exact fun s u up driven low hu => exec_ppsOutRise_of_low up driven low hu
  case fall => exact fun s u up high hu => exec_ppsOutFall_of_high up high hu
  case at_ =>
    intro who b s t taken free ahead
    exact congrArg Host.Outcome.next (State.access_answers taken.1 taken.2 (State.snapAt_of_ahead free ahead))
  case badAt =>
    intro who b s t taken refused
    exact congrArg Host.Outcome.next (State.access_answers taken.1 taken.2 (State.snapAt_of_taken refused))
  case now => exact fun who s t taken => congrArg Host.Outcome.next (State.access_answers taken.1 taken.2 rfl)
  case snapshot => exact fun t0 rest s u up announced hu => exec_tallySnapshot_of_announced up announced hu
  case sync =>
    intro b bytes s up link state op whole
    refine (live_of_up up _).trans (if_pos ⟨link, ?_, op, whole⟩)
    obtain full | ctrl := state
    · rw [full]
      rfl
    · rw [ctrl]
      rfl

end Sys2Proof.Machine
end

section
/-!
SUPPORT and the settling of O38 (PtpAndTimeSync) and O40 (FleeceAndRings). A PTP frame is read off the checks of its reception, in their
order; a record of the Fleece is one write of 160 bytes.
-/

namespace Sys2Proof.Machine

set_option Elab.async false

/-! ### PTP (R430, R433, R434) -/

section PtpSend
variable {port : Fin 1025} {x : Fin 2} {n : Nat} {s u : State}

theorem exec_ptpSyncSend_of_master (up : s.Up) (ptp : s.ptpUp port.val = true) (master : s.ptpRole port.val x.val = 1)
    (hn : n = (s.ptpPort port.val x.val).nextSeq)
    (hu : u = (s.modPtp port.val x.val (fun q => { q with nextSeq := (n + 1) % 65536 })).count O.BWTH_STAT 1 1) :
    exec (.ptpSyncSend port x) s = .next (if (s.row O.BWTH_PORT port.val).testBit 4 = true
      then u.ptpSend port.val x.val 0 n false 0 (wireOf (s.domTime x.val))
      else (u.ptpSend port.val x.val 0 n true 0 (List.replicate 10 0)).ptpSend port.val x.val 8 n false 0 (wireOf (s.domTime x.val))) := by
  refine (live_of_up up _).trans ((if_pos ⟨ptp, master⟩).trans ?_)
  rw [hu, hn]
  exact (apply_ite Host.Outcome.next _ _ _).symm

theorem exec_ptpDelayReqSend_of_peer (up : s.Up) (ptp : s.ptpUp port.val = true) (listen : s.ptpRole port.val x.val = 2)
    (peer : s.ob (domOid O.DOM_DELAY_MECH x.val) = 1) (hn : n = (s.ptpPort port.val x.val).nextSeq)
    (hu : u = s.modPtp port.val x.val (fun q => { q with nextSeq := (n + 1) % 65536, req := some (n, s.now * devUnit), resp := none })) :
    exec (.ptpDelayReqSend port x) s = .next (u.ptpSend port.val x.val 2 n false 0 (List.replicate 20 0)) := by
  refine (live_of_up up _).trans ((if_pos ⟨ptp, listen⟩).trans ?_)
  rw [hu, hn]
  exact congrArg Host.Outcome.next (if_pos peer)

/-- What is sent under a role alone is not sent with the role off. -/
theorem live_of_roleOff {a : Ans} {p k : Nat} (off : s.ptpRole p x.val = 0) (hk : 0 ≠ k) :
    (live s <| if s.ptpUp p = true ∧ s.ptpRole p x.val = k then a else .next s) = .next s := by
  rw [if_neg fun h => hk (off.symm.trans h.2)]
  exact ite_self _

end PtpSend

section PtpReceive
variable {port o : Nat} {bytes m : List Byte} {p : Parsed} {s u : State}

theorem State.ptpReceive_of_off {event : Bool} (ptp : s.ptpUp port = true) (hp : p = parseEth (s.ob O.FWD_ETHERTYPE) bytes)
    (ho : p.ptp = some o) (hm : m = bytes.drop o) (zero : s.ptpRole port 0 = 0) (one : s.ptpRole port 1 = 0)
    (kind : event = decide (beAt m 0 1 % 16 < 4)) :
    s.ptpReceive port event bytes = if port = 1024 then s else s.ingress port bytes true none := by
  have runs : ¬((!s.ptpUp port) = true ∨ event ≠ decide (beAt m 0 1 % 16 < 4)) := by
    rw [ptp]
    exact not_or.mpr ⟨by decide, not_not_intro kind⟩
  unfold State.ptpReceive
  dsimp only
  rw [← hp, ho]
  dsimp only
  rw [← hm, if_neg runs, if_pos (.inr ⟨zero, one⟩)]

section Domain
variable (ptp : s.ptpUp port = true) (hp : p = parseEth (s.ob O.FWD_ETHERTYPE) bytes) (ho : p.ptp = some o) (hm : m = bytes.drop o)
  (on : s.ptpRole port 0 ≠ 0) (zero : beAt m 4 1 = s.ob (domOid O.DOM_NUMBER 0))
  (one : s.ob (domOid O.DOM_NUMBER 1) ≠ s.ob (domOid O.DOM_NUMBER 0))
  (hu : u = if port = 1024 then s else (s.tally 0x0100 port).tally 0x0101 port bytes.length)
include ptp hp ho hm on zero one hu

/-- A message of domain 0's number alone, on a port with a role in it: the cores take what the hardware does not. -/
theorem State.ptpReceive_of_domain {event : Bool} (kind : event = decide (beAt m 0 1 % 16 < 4)) :
    s.ptpReceive port event bytes = if 0xB ≤ beAt m 0 1 % 16 then
        u.emit (.cores (port / 64 % 16) { bytes := bytes, port := port, rx := time112 u.time.dev })
      else if u.ptpRole port 0 ≠ 0 ∧ u.ob (domOid O.DOM_TRANSPORT 0) = (if p.ipVer = 4 then 1 else if p.ipVer = 6 then 2 else 0)
        then u.ptpTake port 0 m else u := by
  have runs : ¬((!s.ptpUp port) = true ∨ event ≠ decide (beAt m 0 1 % 16 < 4)) := by
    rw [ptp]
    exact not_or.mpr ⟨by decide, not_not_intro kind⟩
  have domains : [0, 1].filter (fun x => s.ob (domOid O.DOM_NUMBER x) == beAt m 4 1) = [0] := by
    simp [zero, one]
  have some_ : ¬(([0] : List Nat).isEmpty = true ∨ (s.ptpRole port 0 = 0 ∧ s.ptpRole port 1 = 0)) :=
    not_or.mpr ⟨by decide, fun off => on off.1⟩
  unfold State.ptpReceive
  dsimp only
  rw [← hp, ho]
  dsimp only
  rw [← hm, if_neg runs, domains, if_neg some_, ← hu, List.foldl_cons, List.foldl_nil]

theorem State.ptpReceive_of_sync (sync : beAt m 0 1 % 16 = 0) (listen : u.ptpRole port 0 = 2)
    (transport : u.ob (domOid O.DOM_TRANSPORT 0) = (if p.ipVer = 4 then 1 else if p.ipVer = 6 then 2 else 0))
    (oneStep : (beAt m 6 2).testBit 9 = false) : s.ptpReceive port true bytes =
      (u.count O.BWTH_STAT 0 1).ptpSyncDone port 0 (ofWire m 34 + correctionOf m) (u.now * devUnit) := by
  rw [State.ptpReceive_of_domain ptp hp ho hm on zero one hu (by rw [sync]; rfl), if_neg (by rw [sync]; decide),
    if_pos ⟨by rw [listen]; decide, transport⟩]
  unfold State.ptpTake
  dsimp only
  rw [sync, oneStep]
  exact if_pos listen

theorem State.ptpReceive_of_unprocessed (unprocessed : 11 ≤ beAt m 0 1 % 16) : s.ptpReceive port false bytes =
    u.emit (.cores (port / 64 % 16) { bytes := bytes, port := port, rx := time112 u.time.dev }) := by
  have general : false = decide (beAt m 0 1 % 16 < 4) := (decide_eq_false (by omega)).symm
  rw [State.ptpReceive_of_domain ptp hp ho hm on zero one hu general]
  exact if_pos unprocessed

end Domain
end PtpReceive

/-- Settles O38: each message by its kind, its port's roles and its domain. -/
theorem ptpAndTimeSync : Obligations.PtpAndTimeSync := by
  unfold Obligations.PtpAndTimeSync
  refine ⟨?sync, ?delay, ?off, ?forwarded, ?domain⟩
  case sync => exact fun port x n s u up ptp master hn hu => exec_ptpSyncSend_of_master up ptp master hn hu
  case delay => exact fun port x n s u up ptp listen peer hn hu => exec_ptpDelayReqSend_of_peer up ptp listen peer hn hu
  case off => exact fun port x s off => ⟨live_of_roleOff off (by decide), live_of_roleOff off (by decide)⟩
  case forwarded =>
    intro port bytes m o p s up ptp hp ho hm zero one
    refine ⟨fun event => (live_of_up up _).trans (congrArg Host.Outcome.next ?_),
      fun general => (live_of_up up _).trans (congrArg Host.Outcome.next ?_)⟩
    · exact State.ptpReceive_of_off ptp hp ho hm zero one (decide_eq_true event).symm
    · exact State.ptpReceive_of_off ptp hp ho hm zero one (decide_eq_false (Nat.not_lt.mpr general)).symm
  case domain =>
    intro port bytes m o p s u up ptp hp ho hm on zero one hu
    refine ⟨fun sync listen transport oneStep => (live_of_up up _).trans (congrArg Host.Outcome.next ?_),
      fun unprocessed => (live_of_up up _).trans (congrArg Host.Outcome.next ?_)⟩
    · exact State.ptpReceive_of_sync ptp hp ho hm on zero one hu sync listen transport oneStep
    · exact State.ptpReceive_of_unprocessed ptp hp ho hm on zero one hu unprocessed

/-! ### The Fleece ring (R569, R570) -/

section Fleece
variable {die : Fin 4} {c : Capture} {rest : List Capture} {s u : State}

theorem exec_fleeceRecordWritten_of_room {place : Nat} (up : s.Up) (buffered : TMap.get [] s.obsv.buf die.val = c :: rest)
    (runs : s.obsv.full = false) (open_ : s.stackShut (hpaStack (s.ob O.FLEECE_BASE)) = false)
    (room : s.ob O.FLEECE_HEAD + 1 < s.ob O.FLEECE_SIZE) (hu : u = { s with obsv := { s.obsv with buf := TMap.put [] s.obsv.buf die.val rest } })
    (hp : place = s.ob O.FLEECE_BASE + 160 * s.ob O.FLEECE_HEAD) : exec (.fleeceRecordWritten die false) s =
      .next ((u.hbmWrite place (c.head ++ leBytes 32 c.info)).setOb O.FLEECE_HEAD (s.ob O.FLEECE_HEAD + 1)) := by
  have on : ¬(s.ob O.FLEECE_SIZE = 0 ∨ s.obsv.full = true) := not_or.mpr ⟨by omega, ne_true_of_eq_false runs⟩
  change execFleeceRecordWritten die false s = _
  unfold execFleeceRecordWritten
  rw [live_of_up up, buffered, hu, hp]
  exact (if_neg on).trans ((if_neg (by rw [Bool.false_or]; exact ne_true_of_eq_false open_)).trans (if_pos room))

theorem exec_fleeceRecordWritten_of_fault (up : s.Up) (buffered : TMap.get [] s.obsv.buf die.val = c :: rest)
    (runs : s.obsv.full = false) (on : s.ob O.FLEECE_SIZE ≠ 0)
    (hu : u = { s with obsv := { s.obsv with buf := TMap.put [] s.obsv.buf die.val rest } }) :
    exec (.fleeceRecordWritten die true) s = .next ((u.setOb O.FLEECE_SIZE 0).raise O.TALLY_ERR 5) := by
  change execFleeceRecordWritten die true s = _
  unfold execFleeceRecordWritten
  rw [live_of_up up, buffered, hu]
  exact (if_neg (not_or.mpr ⟨on, ne_true_of_eq_false runs⟩)).trans (if_pos rfl)

end Fleece

/-! ### Capture points (R562 to R567) -/

section Capture
variable {point port queue pasture : Nat} {frame : List Byte} {s : State}

theorem State.aclSpent_of_none (none_ : s.obsv.aclHits = []) : s.aclSpent point port frame = s := by
  unfold State.aclSpent
  split
  · rw [none_, List.eraseP_nil, ← none_]
  · rfl

theorem State.fleeceCauses_of_none (none_ : s.obsv.aclHits = []) : s.fleeceCauses point port frame [] = [] := by
  unfold State.fleeceCauses
  rw [none_]
  split
  · rfl
  · rfl

/-- With the ring off a frame leaves the count of its sample, or a draw, and the ACL's mark behind, and nothing else. -/
theorem State.capturePoint_of_off {why : List (Nat × Nat)} (off : s.ob O.FLEECE_SIZE = 0) :
    s.capturePoint point port queue pasture frame why = (s.sampled port point).1 := by
  have same : (s.sampled port point).1.ob O.FLEECE_SIZE = 0 := by
    unfold State.sampled
    dsimp only
    split
    · exact off
    · split
      · exact off
      · exact off
  exact if_pos same

theorem State.sampled_buffers : (s.sampled port point).1.obsv.buf = s.obsv.buf ∧ (s.sampled port point).1.obsv.seq = s.obsv.seq ∧
    (s.sampled port point).1.objs = s.objs := by
  unfold State.sampled
  dsimp only
  split
  · exact ⟨rfl, rfl, rfl⟩
  · split
    · exact ⟨rfl, rfl, rfl⟩
    · exact ⟨rfl, rfl, rfl⟩

theorem State.aclSpent_buffers : (s.aclSpent point port frame).obsv.buf = s.obsv.buf ∧ (s.aclSpent point port frame).obsv.seq = s.obsv.seq ∧
    (s.aclSpent point port frame).objs = s.objs := by
  unfold State.aclSpent
  split
  · exact ⟨rfl, rfl, rfl⟩
  · exact ⟨rfl, rfl, rfl⟩

theorem State.sampled_of_due {n : Nat} (inside : point < 2) (sub : port < 1024) (hn : n = bits (s.row O.FLEECE_SAMPLE port) (16 * point) 16)
    (counted : (s.row O.FLEECE_SAMPLE port).testBit 32 = false) (some_ : n ≠ 0) (due : n ≤ TMap.get 0 s.obsv.sample (2 * port + point) + 1) :
    s.sampled port point = ({ s with obsv := { s.obsv with sample := TMap.put 0 s.obsv.sample (2 * port + point) 0 } }, true) := by
  unfold State.sampled
  dsimp only
  rw [← hn, if_neg (by omega), counted, decide_eq_true due]
  rfl

theorem State.capture_of_room {die : Nat} (c : Capture) (room : (TMap.get [] s.obsv.buf die).length < 4096) (runs : s.obsv.full = false) :
    (s.capture die c).obsv.seq = s.obsv.seq + 1 ∧
      ∃ d, TMap.get [] (s.capture die c).obsv.buf die = TMap.get [] s.obsv.buf die ++ [d] ∧ d.head = c.head := by
  unfold State.capture
  dsimp only
  rw [if_neg (not_or.mpr ⟨Nat.not_le.mpr room, ne_true_of_eq_false runs⟩)]
  exact ⟨rfl, _, TMap.get_put_self [] (List.append_ne_nil_of_right_ne_nil _ (List.cons_ne_nil _ _)), rfl⟩

/-- A frame with no cause of its own, no command and no burst, that the sampling of its port asks for, is recorded. -/
theorem State.capturePoint_of_sampled {u : State} (on : s.ob O.FLEECE_SIZE ≠ 0) (hit : s.sampled port point = (u, true))
    (size : u.ob O.FLEECE_SIZE = s.ob O.FLEECE_SIZE) (noWant : u.obsv.want = none)
    (noBurst : TMap.get (0, 0) u.obsv.burst (4 * port + point) = (0, 0)) : ∃ info,
      s.capturePoint point port queue pasture frame [] =
        ({ u with obsv := { u.obsv with burst := TMap.put (0, 0) u.obsv.burst (4 * port + point) (0, 0) } } : State).capture (dieOf port)
          { head := padTo 128 frame, info := info, byCmd := false } := by
  unfold State.capturePoint
  rw [hit]
  dsimp only
  rw [if_neg (size ▸ on), noBurst, noWant]
  exact ⟨_, rfl⟩

end Capture

/-- Settles O40: each clause is the rule above for the record, the frame or the command it names. -/
theorem fleeceAndRings : Obligations.FleeceAndRings := by
  unfold Obligations.FleeceAndRings
  refine ⟨?record, ?fault, ?off, ?sampled, ?command, ?refused⟩
  case record =>
    intro die c rest s ok up buffered whole runs open_ room
    have length : (c.head ++ leBytes 32 c.info).length = 160 := by rw [List.length_append, whole, length_leBytes]
    obtain ⟨u, hu⟩ : ∃ u : State, u = { s with obsv := { s.obsv with buf := TMap.put [] s.obsv.buf die.val rest } } := ⟨_, rfl⟩
    have okU : u.tablesOk = true := hu ▸ ok
    have same : ∀ a, u.hbmRead a 1 = s.hbmRead a 1 := fun _ => hu ▸ rfl
    refine ⟨_, exec_fleeceRecordWritten_of_room up buffered runs open_ room hu rfl, ?head, ?stands, ?others⟩
    case head =>
      rw [State.ob, State.setOb]
      exact State.row_setRow_same ((State.hbmWrite_keeps (Keeps.refl u) _ _ _).tables okU) _ _ _
    case stands =>
      rw [State.hbmRead, State.setOb_hbm]
      have reads := State.hbmRead_hbmWrite_same okU (s.ob O.FLEECE_BASE + 160 * s.ob O.FLEECE_HEAD) (c.head ++ leBytes 32 c.info) false
      rwa [length] at reads
    case others =>
      intro a outside
      rw [State.hbmRead, State.setOb_hbm, ← same]
      exact State.hbmRead_hbmWrite_other okU false (by rwa [length])
  case fault => exact fun die c rest s u up buffered runs on hu => exec_fleeceRecordWritten_of_fault up buffered runs on hu
  case off =>
    intro point port queue pasture frame why s up off
    obtain ⟨spentBuf, spentSeq, spentObjs⟩ := State.aclSpent_buffers (point := point.val) (port := port.val) (frame := frame) (s := s)
    obtain ⟨buf, seq, objs⟩ := State.sampled_buffers (point := point.val) (port := port.val) (s := s.aclSpent point.val port.val frame)
    have still : (s.aclSpent point.val port.val frame).ob O.FLEECE_SIZE = 0 := by
      rw [State.ob, State.row, spentObjs]
      exact off
    refine ⟨_, (live_of_up up _).trans (congrArg Host.Outcome.next (State.capturePoint_of_off still)), ?_⟩
    exact ⟨buf.trans spentBuf, seq.trans spentSeq, objs.trans spentObjs⟩
  case sampled =>
    intro point port queue pasture frame s n up on inside sub hn counted some_ due noWant noAcl noBurst room runs
    have hit := State.sampled_of_due inside sub hn counted some_ due
    obtain ⟨info, ran⟩ := State.capturePoint_of_sampled (queue := queue.val) (pasture := pasture.val) (frame := frame) on hit rfl noWant noBurst
    obtain ⟨seq, d, appended, same⟩ := State.capture_of_room (die := dieOf port.val) (s := { s with obsv := { s.obsv with
      sample := TMap.put 0 s.obsv.sample (2 * port.val + point.val) 0
      burst := TMap.put (0, 0) s.obsv.burst (4 * port.val + point.val) (0, 0) } })
      { head := padTo 128 frame, info := info, byCmd := false } room runs
    refine ⟨_, (live_of_up up _).trans (congrArg Host.Outcome.next ?_), seq, d, appended, same⟩
    rw [List.map_nil, State.fleeceCauses_of_none noAcl, State.aclSpent_of_none noAcl]
    exact ran
  case command =>
    intro who v s t taken free inside point place
    refine congrArg Host.Outcome.next (State.access_answers taken.1 taken.2 (if_neg ?_))
    rw [free]
    rintro (pending | drop | outside | ⟨mgmt, notEgress⟩)
    · cases pending
    · exact point drop
    · exact absurd inside (Nat.not_lt.mpr outside)
    · obtain flock | egress := place
      · exact absurd flock (Nat.not_lt.mpr mgmt)
      · exact notEgress egress
  case refused =>
    intro who v s t taken refused
    exact congrArg Host.Outcome.next (State.access_answers taken.1 taken.2 (if_pos refused))

end Sys2Proof.Machine
end

section
/-!
SUPPORT and the settling of O45 (BeatsAreGivenAndCommitted) and O46 (DroveTileCommands). The start of a beat is one equation for the state at
the boundary; the end of an operation's beat without a tile event is another.
-/

namespace Sys2Proof.Machine

set_option Elab.async false

/-! ### The start of a beat (R270, R274) -/

section Start
variable {k : Nat} {s u v w x : State}

theorem exec_beatStart_of_idle (up : s.Up) (idle : s.drove.holder = .idle) (clocked : s.drove.gated = false) (hk : k = s.nextBeat)
    (hu : u = s.advanceDev (k * 2048 * devUnit))
    (hv : v = { u with drove := { u.drove with beatAt := k, roll := false, temps := (List.range 16).map (fun p => u.row O.THERM_PADDOCK p) } })
    (hw : w = v.dyingEnd.fencesDue) (runs : w.drove.stopping = false) : exec .beatStart s = .next w.giveBeat := by
  change execBeatStart s = _
  unfold execBeatStart
  rw [live_of_up up, if_neg (not_or.mpr ⟨not_not_intro idle, ne_true_of_eq_false clocked⟩)]
  dsimp only
  rw [← hk, ← hu, ← hv, ← hw, runs]
  rfl

section Boundary
variable (runs : w.drove.stopping = false) (noSwitch : w.drove.switches = []) (noSave : w.drove.saves = [])
include runs noSwitch noSave

theorem State.giveBeat_of_none (noTest : w.drove.tests = []) (noSentinel : w.drove.sentinel = none) (none_ : w.nextOp = none) :
    w.giveBeat = w.count O.DROVE_STAT 1 1 := by
  unfold State.giveBeat
  rw [noSwitch]
  dsimp only
  rw [noSave, runs, none_, if_pos (by rfl)]
  dsimp only
  rw [noSave, noTest, noSentinel]
  rfl

theorem State.giveBeat_of_op {c : Nat} (some_ : w.nextOp = some c) (hx : x = (w.takeTurn c).prepare c) (saves : x.drove.saves = [])
    (tests : x.drove.tests = []) (sentinel : x.drove.sentinel = none) (lives : x.ob O.DROVE_LIVE ≠ 0) : w.giveBeat = x.opBeat c := by
  subst hx
  unfold State.giveBeat
  rw [noSwitch]
  dsimp only
  rw [noSave, runs, some_, if_pos (by rfl)]
  dsimp only
  rw [saves, tests, sentinel]
  dsimp only
  rw [if_neg Bool.false_ne_true, if_neg lives]

end Boundary
end Start

/-! ### The end of a beat (R299 to R304) -/

section Commit
variable {units c : Nat} {ue : List Nat} {s t u : State}

theorem exec_beatCommit_of_op (up : s.Up) (runs : s.drove.holder = .op c) (ht : t = s.give .idle) :
    exec (.beatCommit units [] ue []) s = .next (t.opBeatEnd c units [] ue []) := by
  change execBeatCommit units [] ue [] s = _
  unfold execBeatCommit
  rw [live_of_up up, runs, ht]

section End
variable (hu : u = t.liveTiles.foldl (fun (s : State) x => s.histCount x (t.octx c).names.1 4) t)
include hu

theorem State.opBeatEnd_of_committed {r : State × CtxBeat} (kept : u.drove.roll = false) (runs : (u.octx c).runnable = true)
    (hr : r = u.runBeat c units ue) (good : r.2.bad = none) : t.opBeatEnd c units [] ue [] = r.1.commitOps c { r.2 with s := r.1 } := by
  have goes : ¬(u.drove.roll = true ∨ (!(u.octx c).runnable) = true) := by
    rw [kept, runs]
    decide
  unfold State.opBeatEnd
  dsimp only [List.foldl_nil, List.isEmpty_nil, List.filter_nil, List.map_nil]
  rw [← hu, if_pos rfl, ← hr, if_neg goes, good]
  rfl

theorem State.opBeatEnd_of_rolled (rolled : u.drove.roll = true) : t.opBeatEnd c units [] ue [] = u := by
  unfold State.opBeatEnd
  dsimp only [List.foldl_nil, List.isEmpty_nil, List.filter_nil, List.map_nil]
  rw [← hu, if_pos rfl, if_pos (.inl rolled)]

end End

theorem exec_beatCommit_of_save {events : List TileEvent} {bad : List AccError} {l : List (Nat × Bool × Nat)} (up : s.Up)
    (saving : s.drove.holder = .save c)
    (ht : t = ((s.give .idle).moveEvents (s.octx c).names events).lostWords (bad.filter (fun e => e.ctx.val == c)))
    (last : t.drove.saves = (c, false, 1) :: l) (open_ : ∀ st, st < 16 → t.stackShut st = false) :
    exec (.beatCommit units events [] bad) s = .next ({ t with drove := { t.drove with saves := l } }.count O.DROVE_STAT 5 1) := by
  have noneShut : (List.range 16).any (fun st => t.stackShut st) = false := by
    rw [List.any_eq_false]
    exact fun st inside => ne_true_of_eq_false (open_ st (List.mem_range.mp inside))
  change execBeatCommit units events [] bad s = _
  unfold execBeatCommit
  rw [live_of_up up, saving]
  dsimp only
  rw [← ht]
  unfold State.moveEnd
  rw [last]
  dsimp only
  rw [if_neg (not_not_intro rfl), noneShut]
  rfl

theorem exec_beatCommit_of_test {x : Nat} {bad : List AccError} (up : s.Up) (testing : s.drove.holder = .test x false) :
    exec (.beatCommit units [] ue bad) s = .next ((s.give .idle).histCount x 15 4) := by
  change execBeatCommit units [] ue bad s = _
  unfold execBeatCommit
  rw [live_of_up up, testing]
  rfl

end Commit

theorem exec_writeOutComplete_of_one {half : Fin 2} {w : OutWrite} {ue : List Nat} {s u : State} (up : s.Up)
    (one : TMap.get [] s.drove.halves half.val = [w]) (hu : u = { s with drove := { s.drove with halves := TMap.erase s.drove.halves half.val } }) :
    exec (.writeOutComplete half ue) s = .next (u.putOut ue w) := by
  refine (live_of_up up _).trans (congrArg Host.Outcome.next ?_)
  unfold State.writeOut
  rw [one, hu]
  rfl

theorem exec_sentinelDue_of_on {b : Nat} {s u : State} (up : s.Up) (on : s.ob O.DROVE_SENTINEL_TICKS ≠ 0)
    (hb : b = max s.bell (min s.drove.sentBell s.bell + s.ob O.DROVE_SENTINEL_TICKS)) (hu : u = s.advanceDev (s.bellStart b * devUnit)) :
    exec .sentinelDue s = .next { u with drove := { u.drove with
      sentBell := b, sentinel := some (u.drove.sentinel.getD (u.devNs / 2048)) } } := by
  refine (live_of_up up _).trans ((if_neg on).trans ?_)
  dsimp only
  rw [← hb, ← hu]
  cases u.drove.sentinel with
  | none => rfl
  | some x => rfl

/-- Settles O45: each clause is the start or the end of a beat in the state it names. -/
theorem beatsAreGivenAndCommitted : Obligations.BeatsAreGivenAndCommitted := by
  unfold Obligations.BeatsAreGivenAndCommitted
  refine ⟨?start, ?commit, ?rolled, ?saved, ?tested, ?written, ?sentinel⟩
  case start =>
    intro k s u v w x up idle clocked hk hu hv hw runs noSwitch noSave noTest noSentinel
    have ran := exec_beatStart_of_idle up idle clocked hk hu hv hw runs
    refine ⟨fun none_ => ran.trans (congrArg Host.Outcome.next ?_), fun c some_ hx saves tests sentinel lives => ran.trans (congrArg Host.Outcome.next ?_)⟩
    · exact State.giveBeat_of_none runs noSwitch noSave noTest noSentinel none_
    · exact State.giveBeat_of_op runs noSwitch noSave some_ hx saves tests sentinel lives
  case commit =>
    intro units c ue r s t u up holds ht hu kept runs hr good
    exact (exec_beatCommit_of_op up holds ht).trans (congrArg Host.Outcome.next (State.opBeatEnd_of_committed hu kept runs hr good))
  case rolled =>
    intro units c ue s t u up holds ht hu rolled
    exact (exec_beatCommit_of_op up holds ht).trans (congrArg Host.Outcome.next (State.opBeatEnd_of_rolled hu rolled))
  case saved => exact fun units c events l bad s t up saving ht last open_ => exec_beatCommit_of_save up saving ht last open_
  case tested => exact fun units x ue bad s up testing => exec_beatCommit_of_test up testing
  case written => exact fun half w ue s u up one hu => exec_writeOutComplete_of_one up one hu
  case sentinel => exact fun s u b up on hb hu => exec_sentinelDue_of_on up on hb hu

/-! ### DROVE_TILE_CMD, DROVE_TEMP_BINS and TALLY_HIST_CLEAR (R305, R308, R309, R313, R561) -/

section Tile
variable {x : Nat} {t u : State}

theorem State.tileFence_eq {hit : Bool} (hh : hit = true ↔ (∃ c, t.drove.holder = .op c) ∧ t.liveTiles.contains x = true) :
    t.tileFence x = { t with drove := { t.drove with roll := t.drove.roll || hit, fencing := (t.drove.fencing ++ [x]).eraseDups } } := by
  have same : (match t.drove.holder with | .op _ => t.liveTiles.contains x | _ => false) = hit := by
    rw [Bool.eq_iff_iff, hh]
    split
    case h_1 c op => exact ⟨fun here => ⟨⟨c, op⟩, here⟩, fun h => h.2⟩
    case h_2 other => exact ⟨fun h => absurd h Bool.false_ne_true, fun ⟨⟨c, op⟩, _⟩ => absurd op (other c)⟩
  rw [← same]
  rfl

theorem State.tileSwitch_of_awaiting {y : Nat × Nat} (waits : t.drove.awaiting.find? (fun y => y.1 == x) = some y)
    (hu : u = t.setSlots (t.slots.map (fun y => if y = 256 + x then x else y))) :
    t.tileSwitch x = { u with drove := { u.drove with switches := u.drove.switches ++ [x] } } := by
  unfold State.tileSwitch
  rw [waits, hu]

/-- The check of the bins as the model runs it, over a list. -/
theorem binsRise_iff {v : Nat} : (List.range 6).all (fun i => decide (bits v (8 * i) 8 < bits v (8 * i + 8) 8)) = true ↔
    ∀ i, i < 6 → bits v (8 * i) 8 < bits v (8 * i + 8) 8 := by
  simp only [List.all_eq_true, List.mem_range, decide_eq_true_eq]

end Tile

/-- Settles O46: each operation of DROVE_TILE_CMD by its number, and the two commands of the histograms. -/
theorem droveTileCommands : Obligations.DroveTileCommands := by
  unfold Obligations.DroveTileCommands
  refine ⟨?fence, ?test, ?switch, ?absent, ?bins, ?clear⟩
  case fence =>
    intro who x hit s t taken there hh
    exact congrArg Host.Outcome.next (State.access_answers taken.1 taken.2
      ((if_neg (Nat.not_le.mpr there)).trans (congrArg (·, 0) (State.tileFence_eq hh))))
  case test =>
    intro who x s t taken there
    exact ⟨congrArg Host.Outcome.next (State.access_answers taken.1 taken.2 (if_neg (Nat.not_le.mpr there))),
      congrArg Host.Outcome.next (State.access_answers taken.1 taken.2 (if_neg (Nat.not_le.mpr there)))⟩
  case switch =>
    intro who x y s t u taken there waits hu
    exact congrArg Host.Outcome.next (State.access_answers taken.1 taken.2
      ((if_neg (Nat.not_le.mpr there)).trans (congrArg (·, 0) (State.tileSwitch_of_awaiting waits hu))))
  case absent =>
    intro who x s t taken outside
    have rejects : ∀ cmd, Host.Outcome.next (s.access who O.DROVE_TILE_CMD (fun s => s.tileCmd x.toNat cmd)) =
        (.next (t.answered who O.DROVE_TILE_CMD 0x0A) : Ans) := fun cmd =>
      congrArg Host.Outcome.next (State.access_answers taken.1 taken.2 (if_pos outside))
    exact ⟨rejects 1, rejects 2, rejects 3, rejects 4⟩
  case bins =>
    intro who v s t taken
    by_cases rise : ∀ i, i < 6 → bits v.toNat (8 * i) 8 < bits v.toNat (8 * i + 8) 8
    · rw [if_pos rise]
      exact congrArg Host.Outcome.next (State.access_answers taken.1 taken.2 (if_pos (binsRise_iff.mpr rise)))
    · rw [if_neg rise]
      exact congrArg Host.Outcome.next (State.access_answers taken.1 taken.2 (if_neg fun h => rise (binsRise_iff.mp h)))
  case clear =>
    intro who x s t taken
    split
    case isTrue all_ => exact congrArg Host.Outcome.next (State.access_answers taken.1 taken.2 (if_pos all_))
    case isFalse one =>
      split
      case isTrue outside => exact congrArg Host.Outcome.next (State.access_answers taken.1 taken.2 ((if_neg one).trans (if_pos outside)))
      case isFalse there => exact congrArg Host.Outcome.next (State.access_answers taken.1 taken.2 ((if_neg one).trans (if_neg there)))

end Sys2Proof.Machine
end

section
/-!
SUPPORT and the settling of O47 (RingCommands) and O48 (OperationLifecycle). A write of a ring's register and the admission of a ring's head
are read off their definitions, one case at a time.
-/

namespace Sys2Proof.Machine

set_option Elab.async false

/-! ### Ring registers and descriptor fetches (R317, R351, R422, R532 to R534) -/

section Ring
variable {who : RingWriter} {dma : Bool} {r : Fin 64} {x : Ring} {s u : State}

theorem exec_droveSqDoorbell_of_reach {v : BitVec 16} (up : s.Up)
    (hu : u = if r.val < 48 then s.tally 0x0E00 (r.val + if dma then 48 else 0) else s) (reach : u.ringReach dma r.val who = true)
    (hx : x = u.ring dma r.val) : exec (.droveSqDoorbell who dma r v) s =
      .next (if ringSize x.sqCfg ≤ v.toNat then u.ringMisuse else u.setRing dma r.val { x with sqTail := v.toNat }) := by
  refine (live_of_up up _).trans (congrArg Host.Outcome.next ?_)
  rw [← hu]
  refine (if_pos reach).trans ?_
  unfold State.ringWrite
  dsimp only
  rw [← hx, Nat.mod_eq_of_lt v.isLt]
  rfl

theorem exec_droveRingConfigWrite_of_stranger {f : Fin 33} {i : Fin 8} {v : BitVec 64} (up : s.Up)
    (stranger : s.ringReach dma r.val (.page f) = false) : exec (.droveRingConfigWrite (.page f) dma r i v) s = .next s := by
  refine (live_of_up up _).trans (congrArg Host.Outcome.next ((if_neg (ne_true_of_eq_false stranger)).trans (if_neg ?_)))
  rintro ⟨bar0, -⟩
  cases bar0

theorem State.ringWrite_base {i : Nat} {v : Nat} {pf : Bool} (hi : i = 0) (hx : x = s.ring dma r.val) : s.ringWrite dma r.val i v pf =
    if x.enabled = true then s.ringMisuse else s.setRing dma r.val { x with
      sqBase := v / 128 * 128 + (if s.ringOwner dma r.val ≠ 0 then 1 else v % 2) } := by
  subst hi
  unfold State.ringWrite
  dsimp only
  rw [← hx]
  simp only [bne_iff_ne]

theorem exec_droveRingConfigWrite_of_reach {v : BitVec 64} {i : Fin 8} (up : s.Up) (reach : s.ringReach dma r.val who = true) :
    exec (.droveRingConfigWrite who dma r i v) s = .next (s.ringWrite dma r.val i.val v.toNat (decide (who = .bar0))) :=
  (live_of_up up _).trans (congrArg Host.Outcome.next (if_pos reach))

theorem exec_descriptorFetch_of_may {n : Nat} {l : List Byte} (up : s.Up) (may : s.mayFetch dma r.val = true) (hx : x = s.ring dma r.val)
    (reached : s.ringInHost dma r.val x.sqBase = true → s.pcie.perst = false) (hn : n = if dma then 64 else 128)
    (hl : l = if s.ringInHost dma r.val x.sqBase then s.hostRead (ringAddr x.sqBase + n * x.sqHead) n
      else s.hbmRead (ringAddr x.sqBase + n * x.sqHead) n) : exec (.descriptorFetch dma r) s =
      .next (s.setRing dma r.val { x with sqHead := (x.sqHead + 1) % ringSize x.sqCfg, busy := x.busy + 1, fetched := x.fetched ++ [leNum l] }) := by
  have goes : (s.mayFetch dma r.val && !(s.ringInHost dma r.val (s.ring dma r.val).sqBase && s.pcie.perst)) = true := by
    rw [may, ← hx]
    cases inHost : s.ringInHost dma r.val x.sqBase with
    | false => rfl
    | true => rw [reached inHost]; rfl
  refine (live_of_up up _).trans ((if_pos goes).trans (congrArg Host.Outcome.next ?_))
  unfold State.fetch
  dsimp only
  rw [← hx, ← hn, ← hl]

theorem exec_hostAccessFault_fetch {f : HostFault} {v : State} (up : s.Up) (may : s.mayFetch false r.val = true) (hx : x = s.ring false r.val)
    (inHost : s.ringInHost false r.val x.sqBase = true)
    (hu : u = (s.hostFault f).setRing false r.val { x with sqHead := (x.sqHead + 1) % ringSize x.sqCfg, busy := x.busy + 1 })
    (hv : v = u.draw.draw.putRecord false r.val ((Config.freeWord u.free).toNat + f.status <<< 64 +
      ((Config.freeWord (u.free + 1)).toNat % 256) <<< 72 + r.val <<< 168) false) :
    exec (.hostAccessFault false r .fetch f) s = .next (v.hostStop false r.val f) := by
  have goes : (s.mayFetch false r.val && s.ringInHost false r.val (s.ring false r.val).sqBase) = true := by
    rw [may, ← hx, inHost]
    rfl
  refine (live_of_up up _).trans ((if_pos goes).trans ?_)
  dsimp only
  rw [← hx, ← hu, if_neg Bool.false_ne_true, ← hv]

end Ring

/-- Settles O47: each write and each fetch by the register and the ring it names. -/
theorem ringCommands : Obligations.RingCommands := by
  unfold Obligations.RingCommands
  refine ⟨?doorbell, ?stranger, ?base, ?fetch, ?fault, ?dma⟩
  case doorbell => exact fun who dma r v x s u up hu reach hx => exec_droveSqDoorbell_of_reach up hu reach hx
  case stranger => exact fun f dma r i v s up stranger => exec_droveRingConfigWrite_of_stranger up stranger
  case base =>
    intro who dma r v x s up reach hx
    refine ⟨(exec_droveRingConfigWrite_of_reach up reach).trans (congrArg Host.Outcome.next (State.ringWrite_base rfl hx)), ?_⟩
    rw [hx]
    exact exec_droveRingConfigWrite_of_reach up reach
  case fetch => exact fun dma r n l x s up may hx reached hn hl => exec_descriptorFetch_of_may up may hx reached hn hl
  case fault => exact fun r f x s u v up may hx inHost hu hv => exec_hostAccessFault_fetch up may hx inHost hu hv
  case dma =>
    intro who r x s t taken hx
    subst hx
    refine ⟨?_, congrArg Host.Outcome.next (State.access_answers taken.1 taken.2 rfl)⟩
    by_cases stopped : (t.ring true r.val).stopped = true
    · rw [if_pos stopped]
      exact congrArg Host.Outcome.next (State.access_answers taken.1 taken.2 (if_pos stopped))
    · rw [if_neg stopped]
      exact congrArg Host.Outcome.next (State.access_answers taken.1 taken.2 (if_neg stopped))

/-! ### Admission and the end of operations (R319, R334 to R337, R341, R347) -/

section Admit
variable {r : Fin 64} {d : Nat} {rest : List Nat} {x : Ring} {s : State} (up : s.Up) (clocked : s.drove.gated = false)
  (hx : x = s.ring false r.val) (fetched : x.fetched = d :: rest)
include up clocked hx fetched

theorem exec_droveAdmit_of_stillborn {o : Op} (born : s.stillborn (s.ringOp r.val d) (s.ringOwner false r.val) = some o) :
    exec (.droveAdmit (.ring r)) s =
      .next ((s.setRing false r.val { x with fetched := rest }).opEnd o (o.ended == some 9 || o.ended == some 2)) := by
  refine (live_of_up up _).trans ((if_neg (ne_true_of_eq_false clocked)).trans (congrArg Host.Outcome.next ?_))
  unfold State.admitRing
  dsimp only
  rw [← hx, fetched]
  dsimp only
  rw [born]

theorem exec_droveAdmit_of_fits {c : Nat} {ops : List Op} (born : s.stillborn (s.ringOp r.val d) (s.ringOwner false r.val) = none)
    (near : dRemote d = false)
    (hops : ops = s.group (s.ringOwner false r.val) ((x.fetched.map (s.ringOp r.val)).takeWhile (fun o => !dRemote o.desc)))
    (free : s.freeContext = some c) (fits : s.fits ops = true) : exec (.droveAdmit (.ring r)) s =
      .next ((s.setRing false r.val { x with fetched := x.fetched.drop ops.length }).enterCtx c ops 3 r.val) := by
  rw [fetched] at hops
  refine (live_of_up up _).trans ((if_neg (ne_true_of_eq_false clocked)).trans (congrArg Host.Outcome.next ?_))
  unfold State.admitRing
  dsimp only
  rw [← hx, fetched]
  dsimp only
  rw [born]
  dsimp only
  rw [if_neg (ne_true_of_eq_false near), ← hops, free]
  exact if_pos fits

end Admit

section Susp
variable {t : State} {c : Nat}

theorem State.suspCmd_of_suspended (suspended : (t.row O.DROVE_SUSP c).testBit 88 = true) : t.suspCmd c 1 = (t.unsuspend c, 0) ∧
    t.suspCmd c 2 = ((t.unsuspend c).endOctx c (bits (t.row O.DROVE_SUSP c) 64 8), 0) := by
  have runs : ¬(!(t.row O.DROVE_SUSP c).testBit 88) = true := by
    rw [suspended]
    decide
  exact ⟨if_neg runs, if_neg runs⟩

theorem State.suspCmd_of_running {cmd : Nat} (running : (t.row O.DROVE_SUSP c).testBit 88 = false) : t.suspCmd c cmd = (t, 0x0A) :=
  if_pos (by rw [running]; rfl)

end Susp

/-! ### Communicators (R354, R384) -/

section Comm
variable {t : State} {r : Nat}

theorem State.commCreate_of_fails {k : Nat} (feature : t.pFeature (cmPasture r) (if r.testBit 39 then 1 else 0) = true)
    (fails : t.commFails r = some k) : t.commCreate r = ((t.setOb O.COLL_COMM_STATUS k).raise O.COLL_ERR 0, 0x0A) := by
  unfold State.commCreate
  dsimp only
  rw [feature, fails]
  rfl

theorem State.commCreate_of_whole {n : Nat} (feature : t.pFeature (cmPasture r) (if r.testBit 39 then 1 else 0) = true)
    (whole : t.commFails r = none) (hn : n = setBits (setBits (setBits (setBits r 81 15 0) 112 16 0) 320 192 0) 44 4 0 % 2 ^ 512 +
      ((List.range (cmM r)).foldl (fun a j => a + cmPort r j <<< (16 * j)) 0) <<< 512) :
    t.commCreate r = ((t.setRow O.COLL_COMM_TABLE t.freeCommRow n).setOb O.COLL_COMM_STATUS 0, 0) := by
  unfold State.commCreate
  dsimp only
  rw [feature, whole, hn]
  rfl

theorem State.commDelete_of_absent {id : Nat} (absent : t.commRow id = none) : t.commDelete id = (t.setOb O.COLL_COMM_STATUS 7, 0x0A) := by
  unfold State.commDelete
  rw [absent]

end Comm

/-- Settles O48: each operation and each communicator by the check it meets. -/
theorem operationLifecycle : Obligations.OperationLifecycle := by
  unfold Obligations.OperationLifecycle
  refine ⟨?stillborn, ?admitted, ?complete, ?suspended, ?running, ?create, ?delete⟩
  case stillborn => exact fun r d rest x o s up clocked hx fetched born => exec_droveAdmit_of_stillborn up clocked hx fetched born
  case admitted =>
    exact fun r d c rest x ops s up clocked hx fetched born near hops free fits =>
      exec_droveAdmit_of_fits up clocked hx fetched born near hops free fits
  case complete =>
    intro c s up isOver done
    exact (live_of_up up _).trans (if_pos (by rw [isOver, done]; rfl))
  case suspended =>
    intro who c s t taken suspended
    obtain ⟨resume, abort⟩ := State.suspCmd_of_suspended suspended
    exact ⟨congrArg Host.Outcome.next (State.access_answers taken.1 taken.2 resume),
      congrArg Host.Outcome.next (State.access_answers taken.1 taken.2 abort)⟩
  case running =>
    intro who c s t taken running
    exact ⟨congrArg Host.Outcome.next (State.access_answers taken.1 taken.2 (State.suspCmd_of_running running)),
      congrArg Host.Outcome.next (State.access_answers taken.1 taken.2 (State.suspCmd_of_running running))⟩
  case create =>
    intro who r n s t taken feature hn
    exact ⟨fun whole => congrArg Host.Outcome.next (State.access_answers taken.1 taken.2 (State.commCreate_of_whole feature whole hn)),
      fun k fails => congrArg Host.Outcome.next (State.access_answers taken.1 taken.2 (State.commCreate_of_fails feature fails))⟩
  case delete =>
    intro who id s t taken absent
    exact congrArg Host.Outcome.next (State.access_answers taken.1 taken.2 (State.commDelete_of_absent absent))

end Sys2Proof.Machine
end

section
/-!
SUPPORT and the settling of O49 (RemoteOperations), O50 (CollectiveControl) and O51 (CollectiveData). Each frame is read off the checks of its
reception, in their order.
-/

namespace Sys2Proof.Machine

set_option Elab.async false

/-! ### Remote operations and requester slots (R318, R344, R345, R411) -/

section Request
variable {p : Fin 16} {bytes : List Byte} {h : Nat} {o : Op} {s : State} (up : s.Up) (hh : h = beAt bytes 0 32)
  (ho : o = { desc := leNum ((bytes.drop 32).take 128), source := 0xFE, pasture := hPasture h, payload := pclean ((bytes.drop 32).drop 128)
              origin := .remote (hSrcDev h) (hSrcPort h) p.val (hPasture h) })
include up hh ho

theorem exec_remoteRequestReceive : exec (.remoteRequestReceive p bytes) s = .next (
    if hOp h ≠ 0x30 then s.opEnd { o with ended := some 9, aux := 1 } true
    else if !s.pFeature (hPasture h) 13 then s.opEnd { o with ended := some 9 } true
    else if s.drove.gated || s.deviceFenced then s.opEnd { o with ended := some 4 }
    else if 1024 ≤ s.drove.remote.length then s else { s with drove := { s.drove with remote := s.drove.remote ++ [o] } }) := by
  subst ho
  subst hh
  refine (live_of_up up _).trans ?_
  simp only [apply_ite Host.Outcome.next]

theorem exec_remoteRequestReceive_of_runs (op : hOp h = 0x30) (feature : s.pFeature (hPasture h) 13 = true) (clocked : s.drove.gated = false)
    (open_ : s.deviceFenced = false) : exec (.remoteRequestReceive p bytes) s = .next (if 1024 ≤ s.drove.remote.length then s
      else { s with drove := { s.drove with remote := s.drove.remote ++ [o] } }) := by
  rw [exec_remoteRequestReceive up hh ho, if_neg (not_not_intro op), if_neg (by rw [feature]; decide), if_neg (by rw [clocked, open_]; decide)]

end Request

section Response
variable {p : Fin 16} {bytes : List Byte} {r : Nat} {s u : State} (up : s.Up) (hr : r = leNum ((bytes.drop 32).take 32))
include up hr

theorem exec_remoteResponseReceive_of_stray
    (stray : s.drove.waits.find? (fun w => w.dev == hSrcDev (beAt bytes 0 32) && w.ring % 16 == p.val && dTag w.desc == bits r 0 64 &&
      dOpcode w.desc == bits r 72 8) = none) :
    exec (.remoteResponseReceive p bytes) s = .next ((s.count O.DROVE_OPCNT 1 1).raise O.DROVE_OP_ERR 7) := by
  change execRemoteResponseReceive p bytes s = _
  unfold execRemoteResponseReceive
  rw [live_of_up up]
  dsimp only
  rw [← hr, stray]

theorem exec_remoteResponseReceive_of_record {w : RemoteWait}
    (waits : s.drove.waits.find? (fun w => w.dev == hSrcDev (beAt bytes 0 32) && w.ring % 16 == p.val && dTag w.desc == bits r 0 64 &&
      dOpcode w.desc == bits r 72 8) = some w) (hu : u = s.waitOver w) (bare : bytes.drop 64 = []) :
    exec (.remoteResponseReceive p bytes) s = .next (u.putRecord false w.ring (setBit r 166) (dIrq w.desc)) := by
  change execRemoteResponseReceive p bytes s = _
  unfold execRemoteResponseReceive
  rw [live_of_up up]
  dsimp only
  rw [← hr, waits]
  dsimp only
  rw [bare, if_pos (.inr rfl), ← hu]

end Response

theorem exec_remoteTimeout_of_waiting {n : Nat} {w : RemoteWait} {o : Op} {s u : State} (up : s.Up) (waits : s.drove.waits[n]? = some w)
    (hu : u = ((s.advanceTo w.deadline).waitOver w).raise O.DROVE_OP_ERR 5 8)
    (ho : o = { desc := w.desc, source := w.ring, ended := some 8, opflags := 64 }) :
    exec (.remoteTimeout n) s = .next (u.putRecord false w.ring o.record (dIrq w.desc)) := by
  change execRemoteTimeout n s = _
  unfold execRemoteTimeout
  rw [live_of_up up, waits, hu, ho]

section Slot
variable {p : Fin 16} {k : Fin 1024} {s u : State}

theorem State.slotTimeout_of_held {key r : Nat} {j : DmaJob} {t : State} (held : (TMap.get ({} : Slot) t.common.slots key).holder = some r)
    (hu : u = (t.slotFreed key).raise O.COMMON_ERR 5 8) (hj : j = u.job r) : t.slotTimeout key = if j.gone = true then u.setJob r {}
      else if j.retried = true then
        (u.setJob r { j with slot := none }).dmaFault r 8 ((if j.buf.isNone then dmaSrc j.desc else dmaDst j.desc) + j.pos)
      else (u.setJob r { j with slot := none, retried := true }).dmaPump r j.fuel := by
  unfold State.slotTimeout
  dsimp only
  rw [held]
  dsimp only
  rw [← hu, ← hj]

theorem exec_commonRequestTimeout_of_held {x : Slot} {r : Nat} (up : s.Up)
    (hx : x = TMap.get ({} : Slot) s.common.slots (1024 * p.val + k.val)) (held : x.holder = some r) :
    exec (.commonRequestTimeout p k) s = .next ((s.advanceTo x.deadline).slotTimeout (1024 * p.val + k.val)) := by
  subst hx
  exact (live_of_up up _).trans (if_pos (by rw [held]; rfl))

theorem exec_commonRequestTimeout_of_free (free : (TMap.get ({} : Slot) s.common.slots (1024 * p.val + k.val)).holder = none) :
    exec (.commonRequestTimeout p k) s = .next s := by
  have idle : ¬(TMap.get ({} : Slot) s.common.slots (1024 * p.val + k.val)).holder.isSome = true := by
    rw [free]
    exact Bool.false_ne_true
  exact (congrArg (live s) (if_neg idle)).trans (ite_self _)

end Slot

/-- Settles O49: each request and each response by the checks it passes. -/
theorem remoteOperations : Obligations.RemoteOperations := by
  unfold Obligations.RemoteOperations
  refine ⟨?request, ?stray, ?response, ?timeout, ?slot, ?free⟩
  case request =>
    intro p bytes h o s up hh ho
    have ran := exec_remoteRequestReceive up hh ho
    refine ⟨fun op => ran.trans (congrArg Host.Outcome.next (if_pos op)), fun op lacks => ran.trans (congrArg Host.Outcome.next ?_),
      exec_remoteRequestReceive_of_runs up hh ho⟩
    exact (if_neg (not_not_intro op)).trans (if_pos (by rw [lacks]; rfl))
  case stray => exact fun p bytes r s up hr stray => exec_remoteResponseReceive_of_stray up hr stray
  case response => exact fun p bytes r w s u up hr waits hu bare => exec_remoteResponseReceive_of_record up hr waits hu bare
  case timeout => exact fun n w o s u up waits hu ho => exec_remoteTimeout_of_waiting up waits hu ho
  case slot =>
    intro p k x r j s u up hx held still hu hj
    exact (exec_commonRequestTimeout_of_held up hx held).trans (congrArg Host.Outcome.next (State.slotTimeout_of_held still hu hj))
  case free => exact fun p k s free => exec_commonRequestTimeout_of_free free

/-! ### What starts a collective and ends it early (R354, R374, R376, R384) -/

section Post
variable {bytes : List Byte} {row j h post r : Nat} {s u : State} (up : s.Up) (hh : h = collOf bytes) (hpost : post = beAt bytes 64 16)
  (here : s.collRow bytes = some row) (hr : r = s.comm row) (member : s.collMember row bytes = some j) (ok : postOk post = true)
  (mx : (fmtMx (pInFmt post) || hasUp (pKind post) && fmtMx (pOutFmt post)) = true → s.pFeature (cmPasture r) 2 = true)
  (new : ∀ x ∈ s.coll.posts, ¬(x.comm = cmId r ∧ x.seq = chSeq h ∧ x.member = j))
  (hu : u = { s with coll := { s.coll with posts := s.coll.posts ++ [({ comm := cmId r, seq := chSeq h, member := j, post := post } : PostRec)] } })
include ok mx in
theorem postRuns : (!postOk post || ((fmtMx (pInFmt post) || (hasUp (pKind post) && fmtMx (pOutFmt post))) && !s.pFeature (cmPasture r) 2)) = false := by
  rw [ok]
  cases uses : fmtMx (pInFmt post) || hasUp (pKind post) && fmtMx (pOutFmt post) with
  | false => rfl
  | true => rw [mx uses]; rfl

include new in
theorem postNew : s.coll.posts.any (fun x => x.comm == cmId r && x.seq == chSeq h && x.member == j) = false := by
  rw [List.any_eq_false]
  intro x stored same
  simp only [Bool.and_eq_true, beq_iff_eq] at same
  obtain ⟨⟨comm, seq⟩, mem⟩ := same
  exact new x stored ⟨comm, seq, mem⟩

include up hh hpost here hr member ok mx new hu

theorem exec_collPostReceive_of_running {i : Nat} (runs : u.findInst (cmId r) (chSeq h) = some i) : exec (.collPostReceive bytes) s =
    .next (if (u.inst i).post ≠ post then (u.raise O.COLL_ERR 4).collNote row (chSeq h) 5
      else if (u.inst i).slot.isSome then u.collGrant i false else u) := by
  subst hu
  change execCollPostReceive bytes s = _
  unfold execCollPostReceive
  rw [live_of_up up, here]
  dsimp only
  rw [member]
  dsimp only
  rw [← hr, ← hpost, ← hh, if_neg (ne_true_of_eq_false (postRuns ok mx)), if_neg (ne_true_of_eq_false (postNew new)), runs]
  exact (apply_ite Host.Outcome.next _ _ _).symm

theorem exec_collPostReceive_of_first (first : u.findInst (cmId r) (chSeq h) = none) : exec (.collPostReceive bytes) s = .next (
    if (∃ x ∈ s.coll.posts, x.comm = cmId r ∧ x.seq = chSeq h) ∨ (cmId r, chSeq h) ∈ s.coll.ended then u
    else u.collSend (cmId r % 16) r 0x41 (u.leadOf r) (cmId r % 16)
      (collHdr (cmId r) (chSeq h) 0 0 1 0 0 0 0 0 0 0 0 0 0) (pclean (beBytes 16 post))) := by
  subst hu
  have goes : (!s.coll.posts.any (fun x => x.comm == cmId r && x.seq == chSeq h)) = true ∧ (!s.coll.ended.contains (cmId r, chSeq h)) = true ↔
      ¬((∃ x ∈ s.coll.posts, x.comm = cmId r ∧ x.seq = chSeq h) ∨ (cmId r, chSeq h) ∈ s.coll.ended) := by
    simp only [Bool.not_eq_true', ← Bool.not_eq_true, List.any_eq_true, List.contains_iff_mem, Bool.and_eq_true, beq_iff_eq, not_or]
  change execCollPostReceive bytes s = _
  unfold execCollPostReceive
  rw [live_of_up up, here]
  dsimp only
  rw [member]
  dsimp only
  rw [← hr, ← hpost, ← hh, if_neg (ne_true_of_eq_false (postRuns ok mx)), if_neg (ne_true_of_eq_false (postNew new)), first]
  by_cases sent : (∃ x ∈ s.coll.posts, x.comm = cmId r ∧ x.seq = chSeq h) ∨ (cmId r, chSeq h) ∈ s.coll.ended
  · rw [if_pos sent]
    exact if_neg fun all => goes.mp all sent
  · rw [if_neg sent]
    exact if_pos (goes.mpr sent)

end Post

section Row
variable {bytes : List Byte} {row h r : Nat} {s u : State} (up : s.Up) (hh : h = collOf bytes) (here : s.collRow bytes = some row)
  (hr : r = s.comm row)
include up hh here hr

theorem exec_collPostFwdReceive_of_lead (lead : s.leadOf r = s.own)
    (new : s.coll.leads.any (fun e => e.comm == cmId r && e.seq == chSeq h) = false) (runs : s.coll.ended.contains (cmId r, chSeq h) = false) :
    exec (.collPostFwdReceive bytes) s = .next (({ s with coll := { s.coll with
      leads := s.coll.leads ++ [({ comm := cmId r, seq := chSeq h, post := beAt bytes 64 16 } : LeadEntry)] } }).leadAdvance (cmId r)) := by
  change execCollPostFwdReceive bytes s = _
  unfold execCollPostFwdReceive
  rw [live_of_up up, here]
  dsimp only
  rw [← hr, ← hh, if_neg (not_not_intro lead), if_neg (by rw [new, runs]; decide)]

theorem exec_collStartReceive_of_row (hu : u = s.collSpread r 0x58 (chStage h) 0 (cmId r % 16) (cmId r % 16) (fun st => setBits h 173 3 st)
      ((bytes.drop 64).map (fun b => (b, false)))) :
    exec (.collStartReceive bytes) s = .next (u.takeStart row (chSeq h) (u.bellOf48 (chArg h)) (beAt bytes 64 16) false) := by
  refine (live_of_up up _).trans (congrArg Host.Outcome.next ?_)
  unfold State.startReceive
  rw [here]
  dsimp only
  rw [← hr, ← hh, ← hu]

theorem exec_collAbortReceive_of_row {v : Nat} (hu : u = s.collSpread r 0x5A (chStage h) 0 (cmId r % 16) (cmId r % 16)
      (fun st => setBits h 173 3 st) ((bytes.drop 64).map (fun b => (b, false)))) (hv : v = beAt bytes 64 2) :
    exec (.collAbortReceive bytes) s =
      .next ((u.takeAbort row (chSeq h) (u.bellOf48 (chArg h)) (v % 256) (v.testBit 8)).leadAdvance (cmId r)) := by
  change execCollAbortReceive bytes s = _
  unfold execCollAbortReceive
  rw [live_of_up up, here]
  dsimp only
  rw [← hr, ← hh, ← hu, ← hv]

end Row

section Stray
variable {bytes : List Byte} {s : State} (stray : s.collRow bytes = none)
include stray

theorem State.collFor_of_stray : s.collFor bytes = .error s.collStray := by
  unfold State.collFor
  rw [stray]

theorem exec_of_strayRow (up : s.Up) {c : Instr} (frame : c ∈ [Instr.collPostReceive bytes, .collPostFwdReceive bytes, .collNoteReceive bytes,
    .collStartReceive bytes, .collAbortReceive bytes, .collInReceive bytes, .collStepReceive bytes, .collResultReceive bytes]) :
    exec c s = .next s.collStray := by
  simp only [List.mem_cons, List.not_mem_nil, or_false] at frame
  obtain rfl | rfl | rfl | rfl | rfl | rfl | rfl | rfl := frame
  · refine (live_of_up up _).trans ?_
    rw [stray]
  · refine (live_of_up up _).trans ?_
    rw [stray]
  · refine (live_of_up up _).trans ?_
    rw [stray]
  · refine (live_of_up up _).trans (congrArg Host.Outcome.next ?_)
    unfold State.startReceive
    rw [stray]
  · refine (live_of_up up _).trans ?_
    rw [stray]
  · refine (live_of_up up _).trans ?_
    rw [State.collFor_of_stray stray]
  · refine (live_of_up up _).trans ?_
    rw [State.collFor_of_stray stray]
  · refine (live_of_up up _).trans ?_
    rw [State.collFor_of_stray stray]

end Stray

/-- Settles O50: each frame of control by its row and what the row holds of its sequence. -/
theorem collectiveControl : Obligations.CollectiveControl := by
  unfold Obligations.CollectiveControl
  refine ⟨?post, ?forwarded, ?start, ?abort, ?stray⟩
  case post =>
    intro bytes row j h post r s u up hh hpost here hr member ok mx new hu
    exact ⟨fun i runs => exec_collPostReceive_of_running up hh hpost here hr member ok mx new hu runs,
      fun first => exec_collPostReceive_of_first up hh hpost here hr member ok mx new hu first⟩
  case forwarded => exact fun bytes row h r s up hh here hr lead new runs => exec_collPostFwdReceive_of_lead up hh here hr lead new runs
  case start => exact fun bytes row h r s u up hh here hr hu => exec_collStartReceive_of_row up hh here hr hu
  case abort => exact fun bytes row h v r s u up hh here hr hu hv => exec_collAbortReceive_of_row up hh here hr hu hv
  case stray => exact fun bytes c s up stray frame => exec_of_strayRow stray up frame

/-! ### Contributions, steps and results (R356, R365, R367, R368, R378) -/

section Data
variable {bytes : List Byte} {row id h : Nat} {c : CInst} {g : Seg} {s : State} (up : s.Up) (here : s.collFor bytes = .ok (row, id))
  (hc : c = s.inst id) (hg : g = segOf bytes) (hh : h = collOf bytes)
include up here hc hg hh

theorem exec_collInReceive_of_member {j k : Nat} {e : CInst} {t : Nat × Seg} {x : CChunk} {ins : List (Nat × Seg)} {mine : List Seg}
    {short : Bool} {u : State} (member : s.collMember row bytes = some j) (sends : (s.senders c).contains j = true)
    (hk : k = s.inKey c j (chChunk h)) (ht : t = g.trim c.inFmt (s.chunkSpan c k).2) (hx : x = c.chunk k) (hins : ins = x.ins ++ [(j, t.2)])
    (hmine : mine = (ins.filter (fun y => y.1 == j)).map (·.2))
    (hshort : short = (segsDone mine && decide ((mine.map (·.cnt)).sum < (s.chunkSpan c k).2)))
    (he : e = { c.setChunk k { x with ins := ins, rflags := x.rflags ||| g.rflags } with
      overflow := c.overflow + t.1, padded := if short then c.padded.add j else c.padded })
    (hu : u = if t.1 = 0 then s.setInst id e else (s.setInst id e).count O.COLL_STAT 6 t.1) :
    exec (.collInReceive bytes) s = .next (
      if (if hasUp (pKind c.post) then g.clean.residue c.inFmt c.inScale else g.crc) ≠ chCheck h then s.collMismatch row c.seq
      else if s.inChunks c ≤ chChunk h then
        ((s.setInst id { c with overflow := c.overflow + g.cnt }).count O.COLL_STAT 6 g.cnt).raise O.COLL_ERR 5
      else if x.ins.any (fun y => y.1 == j && y.2.idx == g.idx) || x.stage != 0 then s
      else if t.1 = 0 ∧ short = false then u else u.raise O.COLL_ERR 5) := by
  subst hu he hshort hmine hins hx ht hk hh hg hc
  change execCollInReceive bytes s = _
  unfold execCollInReceive
  rw [live_of_up up, here]
  dsimp only
  rw [member]
  dsimp only
  rw [if_neg (by rw [sends]; decide)]
  simp only [apply_ite Host.Outcome.next, Bool.not_eq_true']

theorem exec_collStepReceive_of_good {x : CChunk} (good : g.clean.residue (cmStepFmt (s.comm row)) 0 = chCheck h) (hx : x = c.chunk (chChunk h)) :
    exec (.collStepReceive bytes) s = .next (if s.inChunks c ≤ chChunk h ∨ chStage h = 0 ∨ 3 < chStage h then s.collStray
      else if x.steps.any (fun y => y.1 == chStage h && y.2.idx == g.idx) then s
      else s.setInst id (c.setChunk (chChunk h) { x with steps := x.steps ++ [(chStage h, g)], rflags := x.rflags ||| g.rflags })) := by
  subst hx hc hg hh
  change execCollStepReceive bytes s = _
  unfold execCollStepReceive
  rw [live_of_up up, here]
  dsimp only
  rw [if_neg (not_not_intro good)]
  simp only [apply_ite Host.Outcome.next]

theorem exec_collResultReceive_of_bad (bad : g.crc ≠ chCheck h) : exec (.collResultReceive bytes) s = .next (s.collMismatch row c.seq) := by
  subst hc hg hh
  change execCollResultReceive bytes s = _
  unfold execCollResultReceive
  rw [live_of_up up, here]
  exact if_pos bad

theorem exec_collResultReceive_of_good {x y : CChunk} (good : g.crc = chCheck h) (inside : chChunk h < s.allChunks c) (low : 4 ≤ chStage h)
    (high : chStage h ≤ 6) (hx : x = c.chunk (chChunk h)) (new : x.runs.any (fun y => y.2.idx == g.idx) = false) (open_ : x.stage ≠ 5)
    (hy : y = { x with runs := x.runs ++ [(chStage h, g)], rflags := x.rflags ||| g.rflags }) : exec (.collResultReceive bytes) s =
      .next (s.setInst id (c.setChunk (chChunk h) (if segsDone (y.runs.map (·.2)) then
        { y with stage := 5, via := chStage h, result := chunkBytes c.outFmt (s.chunkSpan c (chChunk h)).2 (y.runs.map (·.2)), runs := [] } else y))) := by
  subst hy hx hc hg hh
  change execCollResultReceive bytes s = _
  unfold execCollResultReceive
  rw [live_of_up up, here]
  refine (if_neg (not_not_intro good)).trans ((if_neg ?_).trans (if_neg ?_))
  · omega
  · rw [new, Bool.false_or]
    exact fun same => open_ (beq_iff_eq.mp same)

end Data

/-- Settles O51: each segment by the checks it passes. -/
theorem collectiveData : Obligations.CollectiveData := by
  unfold Obligations.CollectiveData
  refine ⟨?contribution, ?step, ?result⟩
  case contribution =>
    intro bytes row id j h k c e g t x ins mine short s u up here hc member sends hg hh hk ht hx hins hmine hshort he hu
    exact exec_collInReceive_of_member up here hc hg hh member sends hk ht hx hins hmine hshort he hu
  case step => exact fun bytes row id h c g x s up here hc hg hh good hx => exec_collStepReceive_of_good up here hc hg hh good hx
  case result =>
    intro bytes row id h c g x y s up here hc hg hh hx hy
    exact ⟨fun bad => exec_collResultReceive_of_bad up here hc hg hh bad,
      fun good inside low high new open_ => exec_collResultReceive_of_good up here hc hg hh good inside low high hx new open_ hy⟩

end Sys2Proof.Machine
end

section
/-!
SUPPORT and the settling of O52 (CommonRequests) and O53 (CommonCommands). A request at its home unit, a walk and an access are each one
equation for the state that meets them.
-/

namespace Sys2Proof.Machine

set_option Elab.async false

/-! ### Requests at the home unit (R388, R396, R399 to R405, R407) -/

section Take
variable {p : Fin 16} {bytes : List Byte} {id : Nat} {r q : CReq} {s w u v : State}

theorem exec_commonRequestReceive (up : s.Up) (hr : r = parseReq p.val bytes)
    (hq : q = { r with unit := if r.op = 0x15 then p.val else homeOf r.off }) (hw : w = (s.count O.COMMON_STAT 0 1).tally 0x0A00 q.unit)
    (hu : u = if q.unit = p.val then w else w.count O.COMMON_STAT 3 1) (hid : id = u.common.nextReq)
    (hv : v = ({ u with common := { u.common with nextReq := id + 1 } }).setCreq id q) :
    exec (.commonRequestReceive p bytes) s = .next (if v.sinkAhead p.val id then v else v.admitReq id) := by
  refine (live_of_up up _).trans (congrArg Host.Outcome.next ?_)
  unfold State.takeReq
  dsimp only
  rw [← hr]
  subst hv hid hu hw hq
  dsimp only

theorem State.admitReq_eq : v.admitReq id =
    if v.unitShut (v.creq id).unit then (v.answer (v.creq id) 4 0 0 0 [] false false).dropCreq id
    else if bits (v.creq id).addr 43 9 ≠ (if (v.creq id).mirror then v.ob O.COMMON_MIRROR_OF else v.own) ∨
        bits (v.creq id).addr 52 12 ≠ (v.creq id).pasture then
      (((v.raise O.COMMON_ERR 1 2).faultRecord (v.creq id).unit (v.creq id).addr (v.creq id).src (v.creq id).op 2
        (v.creq id).mirror).answer (v.creq id) 2 0 0 (v.creq id).off [] false false).dropCreq id
    else if !v.reqShapeOk (v.creq id) then (v.answer (v.creq id) 9 0 0 0 [] false false).dropCreq id else v.translateReq id := rfl

theorem ite_bnot (c : Bool) (a b : State) : (if (!c) = true then a else b) = if c = true then b else a := by
  cases c
  · rfl
  · rfl

theorem State.admitReq_of_creq (hq : v.creq id = q) : v.admitReq id =
    if v.unitShut q.unit then (v.answer q 4 0 0 0 [] false false).dropCreq id
    else if bits q.addr 43 9 ≠ (if q.mirror then v.ob O.COMMON_MIRROR_OF else v.own) ∨ bits q.addr 52 12 ≠ q.pasture then
      (((v.raise O.COMMON_ERR 1 2).faultRecord q.unit q.addr q.src q.op 2 q.mirror).answer q 2 0 0 q.off [] false false).dropCreq id
    else if v.reqShapeOk q then v.translateReq id else (v.answer q 9 0 0 0 [] false false).dropCreq id := by
  rw [State.admitReq_eq, hq, ite_bnot]

end Take

section Walk
variable {unit p off : Nat} {w : Nat × Nat} {m : Bool} {s u v : State}

/-- The requests that wait for the end of the walk of tag `t`. -/
def State.walkers (s : State) (unit t : Nat) : List (Nat × CReq) :=
  (s.unitReqs unit (fun x => x == .walk)).filter (fun x => tlbTag x.2.mirror x.2.pasture x.2.off false == t)

/-- The first request of a unit without a walk of its own starts one. -/
def State.walkNext (s : State) (unit : Nat) : State :=
  match ((s.unitReqs unit (fun x => x == .walk)).filter
      (fun x => !s.common.walks.contains (unit, tlbTag x.2.mirror x.2.pasture x.2.off false))).head? with
  | some x => { s with common := { s.common with walks := s.common.walks ++ [(unit, tlbTag x.2.mirror x.2.pasture x.2.off false)] } }
  | none => s

/-- A walk that is over has had its requests judged, which leaves `v`. -/
theorem State.walkDone_of_found (found : s.common.walks.find? (fun w => w.1 == unit) = some w) (hoff : off = bits w.2 0 22 * 2 ^ 21)
    (hp : p = bits w.2 22 12) (hm : m = w.2.testBit 34) (hu : u = { s with common := { s.common with walks := s.common.walks.erase w } })
    (good : ∀ y, u.walk m p off = .ok y → v = (u.walkers unit w.2).foldl (fun s x => s.checkReq x.1) (u.tlbUse unit m p off y.entry y.giant))
    (bad : ∀ f, u.walk m p off = .error f → v = (u.walkers unit w.2).foldl (fun s x => s.failReq x.1 f 0 x.2.off) u) :
    s.walkDone unit = v.walkNext unit := by
  unfold State.walkDone
  rw [found]
  dsimp only
  rw [← hu, ← hoff, ← hp, ← hm]
  cases ends : u.walk m p off with
  | ok y =>
    rw [good y ends]
    rfl
  | error f =>
    rw [bad f ends]
    rfl

end Walk

section Access
variable {unit : Fin 16} {nth : Fin 4096} {ue bad : Bool} {id : Nat} {q q0 : CReq} {s u : State}

theorem exec_commonHbmAccessComplete_of_nth (up : s.Up)
    (there : (s.unitReqs unit.val (fun x => x == .access))[nth.val]? = some (id, q0)) :
    exec (.commonHbmAccessComplete unit nth ue) s = .next (s.accessDone id ue) := by
  change execCommonHbmAccessComplete unit nth ue s = _
  unfold execCommonHbmAccessComplete
  rw [live_of_up up, there]

theorem State.accessDone_of_read (hq : q = s.creq id) (read : q.op = 0x10 ∨ q.op = 0x18) (hbad : bad = (ue || s.hbmPoisoned q.hpa q.count)) :
    s.accessDone id ue = ((if s.stackShut (hpaStack q.hpa) then s.answer q 4 0 0 q.off [] false false
      else s.answer q (if bad then 3 else 0) 0 q.count 0 (s.hbmRead q.hpa q.count) bad false).dropCreq id).wakeReqs := by
  subst hbad hq
  refine (if_pos read).trans ?_
  split
  · rfl
  · rfl

theorem State.accessDone_of_write (hq : q = s.creq id) (notRead : q.op ≠ 0x10) (notProbe : q.op ≠ 0x18)
    (hu : u = s.hbmWrite q.hpa (q.payload.take q.count))
    (alone : q.op = 0x11 → u.mirrorDue q.pasture (setBits q.leaf 8 1 (b2n (pteLost (u.leafEntry q.pasture q.off)))) = 0) :
    s.accessDone id ue = (u.setCreq id { q with stage := .mirror, mlost := false }).requestMirrored id := by
  subst hu hq
  unfold State.accessDone
  dsimp only
  rw [if_neg (not_or.mpr ⟨notRead, notProbe⟩)]
  by_cases write : (s.creq id).op = 0x11
  · rw [if_pos write, alone write]
    rfl
  · rw [if_neg write]

end Access

/-- Settles O52: each request by the checks of R399 in their order, each walk and each access by its end. -/
theorem commonRequests : Obligations.CommonRequests := by
  unfold Obligations.CommonRequests
  refine ⟨?receive, ?walk, ?read, ?write⟩
  case receive =>
    intro p bytes id r q s w u v up hr hq hw hu hid hv there
    rw [exec_commonRequestReceive up hr hq hw hu hid hv, State.admitReq_of_creq there]
  case walk =>
    intro unit w off p m g l s u v up found hoff hp hm hu hg hl good bad
    have walkers : l = u.walkers unit.val w.2 := by rw [hl, hg]; rfl
    rw [walkers] at good bad
    rw [hg]
    exact (live_of_up up _).trans (congrArg Host.Outcome.next (State.walkDone_of_found found hoff hp hm hu good bad))
  case read =>
    intro unit nth ue bad id q q0 s up there hq read hbad
    exact (exec_commonHbmAccessComplete_of_nth up there).trans (congrArg Host.Outcome.next (State.accessDone_of_read hq read hbad))
  case write =>
    intro unit nth ue id q q0 s u up there hq notRead notProbe hu alone
    exact (exec_commonHbmAccessComplete_of_nth up there).trans
      (congrArg Host.Outcome.next (State.accessDone_of_write hq notRead notProbe hu alone))

/-! ### Invalidations, holds, resync, the fault queue and mirror writes (R398, R400, R401, R407, R408, R417, R418, R421) -/

section Inval
variable {data : List Byte} {v w : Inval} {s t u : State}

theorem State.inval_of_room (whole : data.length = 24) (room : t.common.invals.length < 16) (hv : v = parseInval data)
    (hw : w = { v with
      at_ := t.now, beat := t.drove.beatAt
      reqs := (t.common.reqs.filter (fun x => (x.2.stage.inFlight || x.2.stage == .blocked) &&
        x.2.parts.any (fun y => t.invalHits v x.2.mirror x.2.pasture y.1))).map (·.1)
      mirrs := (t.common.mirrors.filter (fun m => t.invalHits v false m.2.pasture m.2.offset)).map (·.1) }) (hu : u = t.tlbDrop w) :
    t.inval data = (({ u with common := { u.common with invals := u.common.invals ++ [w] } }).setOb O.COMMON_INVAL_STATUS 0xFF, 0) := by
  subst hu hw hv
  exact if_neg (not_or.mpr ⟨not_not_intro whole, Nat.not_le.mpr room⟩)

theorem exec_commonInvalComplete_of_ready {rest : List Inval} (up : s.Up) (front : s.common.invals = v :: rest)
    (ht : t = if s.now ≤ v.at_ + 100000 then s else s.raise O.COMMON_ERR 8) (ready : t.invalReady v = true)
    (hu : u = { t with common := { t.common with invals := rest } }) : exec .commonInvalComplete s =
      .next (((if rest.isEmpty then u.setOb O.COMMON_INVAL_STATUS 0 else u).recheckHeld
        (fun mirror p off => (if rest.isEmpty then u.setOb O.COMMON_INVAL_STATUS 0 else u).invalHits v mirror p off)).dmaWake) := by
  change execCommonInvalComplete s = _
  unfold execCommonInvalComplete
  rw [live_of_up up, front]
  dsimp only
  rw [← ht, ready, hu]
  exact if_neg (by decide)

end Inval

section Hold
variable {s u : State}

theorem exec_commonHoldExpire_request {id : Nat} {q : CReq} (up : s.Up) (hq : q = s.creq id) (held : q.stage = .held)
    (hu : u = (s.advanceTo (q.since.getD s.now + 1000 * s.ob O.COMMON_HOLD_US)).count O.COMMON_STAT 5 1) :
    exec (.commonHoldExpire (.request id)) s = .next ((u.answer q 1 0 0 (u.heldAt q) [] false false).dropCreq id).wakeReqs := by
  subst hu hq
  exact (live_of_up up _).trans (if_pos held)

theorem exec_commonHoldExpire_dma {r : Fin 64} {j : DmaJob} {at_ : Nat} (up : s.Up) (hj : j = s.job r.val) (held : j.held = some at_) :
    exec (.commonHoldExpire (.dma r)) s = .next ((s.advanceTo (at_ + 1000 * s.ob O.COMMON_HOLD_US)).dmaFault r.val 1
      ((if j.buf.isNone then dmaSrc j.desc else dmaDst j.desc) + j.pos)) := by
  subst hj
  refine (live_of_up up _).trans ?_
  rw [held]

end Hold

section Mirror
variable {s : State}

theorem State.mirrorEnd_of_none {id : Nat} {good : Bool} (none_ : s.common.mirrors.find? (fun m => m.1 == id) = none) :
    s.mirrorEnd id good = s.count O.COMMON_STAT 9 1 := by
  unfold State.mirrorEnd
  rw [none_]

theorem exec_mirrorTimeout_of_waiting {id : Nat} {m : Mirror} (up : s.Up) (waits : s.common.mirrors.find? (fun m => m.1 == id) = some (id, m)) :
    exec (.mirrorTimeout id) s = .next ((s.advanceTo m.deadline).mirrorEnd id false) := by
  refine (live_of_up up _).trans ?_
  rw [waits]

end Mirror

/-- Settles O53: each command and each record by the state it meets. -/
theorem commonCommands : Obligations.CommonCommands := by
  unfold Obligations.CommonCommands
  refine ⟨?inval, ?badInval, ?complete, ?request, ?dma, ?resync, ?pop, ?stray, ?timeout⟩
  case inval =>
    intro who data v w s t u taken whole room hv hw hu
    exact congrArg Host.Outcome.next (State.access_answers taken.1 taken.2 (State.inval_of_room whole room hv hw hu))
  case badInval =>
    intro who data s serves bad
    exact congrArg Host.Outcome.next (State.access_answers serves rfl (if_pos (.inl bad)))
  case complete => exact fun v rest s t u up front ht ready hu => exec_commonInvalComplete_of_ready up front ht ready hu
  case request => exact fun id q s u up hq held hu => exec_commonHoldExpire_request up hq held hu
  case dma => exact fun r j at_ s up hj held => exec_commonHoldExpire_dma up hj held
  case resync =>
    intro who p s t taken
    by_cases idle : t.common.resync.isEmpty = true
    · rw [if_pos idle]
      exact congrArg Host.Outcome.next (State.access_answers taken.1 taken.2 (if_pos idle))
    · rw [if_neg idle]
      exact congrArg Host.Outcome.next (State.access_answers taken.1 taken.2 (if_neg idle))
  case pop => exact fun s up => readable_of_up up _
  case stray =>
    intro bytes s up none_
    exact (live_of_up up _).trans (congrArg Host.Outcome.next (State.mirrorEnd_of_none none_))
  case timeout => exact fun id m s up waits => exec_mirrorTimeout_of_waiting up waits

end Sys2Proof.Machine
end

section
/-!
SUPPORT and the settling of O55 (SuspicionAndVotes), O56 (FloodsAndAbsences) and O57 (RecoveryCommands). Each frame and each command is read
off its definition, one case at a time.
-/

namespace Sys2Proof.Machine

set_option Elab.async false

/-- A unit of the dies that finds nothing to do does nothing, whether or not it is out of reset. -/
theorem live_of_idle {s : State} {a : Ans} (idle : a = .next s) : live s a = .next s := by
  rw [idle]
  exact ite_self _

/-! ### Heartbeats, suspicion and votes (R460 to R463) -/

section Heartbeat
variable {b : Fin 128} {bytes : List Byte} {s : State}

theorem exec_heartbeatReceive_of_beat {p : Nat} {m : TMap Nat} {u v : State} (up : s.Up) (op : hOp (beAt bytes 0 32) = 0x08)
    (link : s.isLink b.val = true) (hp : p = beAt bytes 32 32) (hu : u = (s.count O.MUSTER_STAT 0 1).tally 0x0C00 b.val)
    (hm : m = TMap.put 0 u.muster.h b.val (max (TMap.get 0 u.muster.h b.val) (bits p 192 64)))
    (hv : v = { u with muster := { u.muster with h := m } }) : exec (.heartbeatReceive b bytes) s =
      .next (if (v.facing (bits p 119 9)).contains b.val then v.unsuspect (bits p 119 9) else v) := by
  subst hv hm hu hp
  refine (live_of_up up _).trans (if_neg (not_or.mpr ⟨not_not_intro op, ?_⟩))
  rw [link]
  decide

theorem exec_heartbeatReceive_of_other (other : hOp (beAt bytes 0 32) ≠ 0x08 ∨ s.isLink b.val = false) :
    exec (.heartbeatReceive b bytes) s = .next s :=
  live_of_idle (if_pos (other.imp_right fun noLink => by rw [noLink]; rfl))

end Heartbeat

section Suspect
variable {f n : Nat} {s : State} (miss : s.missFacing f = some n)
include miss

theorem State.suspect_of_missed (may : s.maySuspect f = true) (late : s.ob O.MUSTER_K ≤ n) : s.suspect f =
    (((if s.devState f = 0 then s.setDevState f 1 else s).count O.MUSTER_STAT 1 1).sendSuspect f).voteCheck f := by
  unfold State.suspect
  rw [miss]
  exact if_pos ⟨may, late⟩

theorem State.suspect_of_heard (early : n < s.ob O.MUSTER_K) : s.suspect f = s := by
  unfold State.suspect
  rw [miss]
  exact if_neg fun suspects => absurd early (Nat.not_lt.mpr suspects.2)

end Suspect

/-! ### Members that lag (R374, R376, R378, R381) -/

section Lag
variable {slot : Fin 64} {id : Nat} {c : CInst} {s u : State} (up : s.Up) (runs : s.slotInst slot.val = some id) (hc : c = s.inst id)
include up runs hc

theorem exec_collTimeout_of_lagging {n : Nat} (hn : n = cmTimeout (s.comm c.row)) (timed : n ≠ 0) (free : c.held = [])
    (new : s.coll.notes.contains (c.row, c.seq, 2) = false) (hu : u = s.advanceDev (s.bellStart (c.last + n) * devUnit)) :
    exec (.collTimeout slot) s = .next ((u.raise O.COLL_ERR 3 8).collNote c.row c.seq 2) := by
  change execCollTimeout slot s = _
  unfold execCollTimeout
  rw [live_of_up up, runs]
  dsimp only
  rw [← hc, ← hn, free, new, ← hu]
  exact if_neg (not_or.mpr ⟨timed, by decide⟩)

theorem exec_collDoneSend_of_complete (complete : s.collComplete c = true) : exec (.collDoneSend slot) s =
    .next ((((s.count O.COLL_STAT 1 1).collFinish id (if c.poisoned then 3 else if c.overflow ≠ 0 then 6 else 0)
      false).leadDrop (cmId (s.comm c.row)) c.seq).leadAdvance (cmId (s.comm c.row))) := by
  change execCollDoneSend slot s = _
  unfold execCollDoneSend
  rw [live_of_up up, runs]
  dsimp only
  rw [← hc, complete]
  exact if_neg (by decide)

end Lag

theorem exec_collNoteReceive_of_lead {bytes : List Byte} {row : Nat} {s : State} (up : s.Up) (here : s.collRow bytes = some row)
    (lead : s.leadOf (s.comm row) = s.own) :
    exec (.collNoteReceive bytes) s = .next (s.leadNote row (chSeq (collOf bytes)) (beAt bytes 64 1)) := by
  change execCollNoteReceive bytes s = _
  unfold execCollNoteReceive
  rw [live_of_up up, here]
  exact if_neg (not_not_intro lead)

/-- Settles O55: each heartbeat, suspicion and vote by its condition. -/
theorem suspicionAndVotes : Obligations.SuspicionAndVotes := by
  unfold Obligations.SuspicionAndVotes
  refine ⟨?beat, ?other, ?missed, ?heard, ?again, ?expire, ?lag, ?note, ?done⟩
  case beat => exact fun b bytes p m s u v up op link hp hu hm hv => exec_heartbeatReceive_of_beat up op link hp hu hm hv
  case other => exact fun b bytes s other => exec_heartbeatReceive_of_other other
  case missed =>
    intro f n s up miss may late
    exact (live_of_up up _).trans (congrArg Host.Outcome.next (State.suspect_of_missed miss may late))
  case heard => exact fun f n s miss early => live_of_idle (congrArg Host.Outcome.next (State.suspect_of_heard miss early))
  case again =>
    intro f t s up ht since
    subst ht
    refine (live_of_up up _).trans (congrArg Host.Outcome.next ?_)
    simp only [ne_eq, since, not_false_eq_true, true_and]
  case expire => exact fun s up => live_of_up up _
  case lag => exact fun slot id n c s u up runs hc hn timed free new hu => exec_collTimeout_of_lagging up runs hc hn timed free new hu
  case note => exact fun bytes row s up here lead => exec_collNoteReceive_of_lead up here lead
  case done => exact fun slot i c s up runs hc complete => exec_collDoneSend_of_complete up runs hc complete

/-! ### Floods, absences and log segments (R463 to R466, R470, R480) -/

theorem State.floodReceive_of_flood {b op p : Nat} {bytes : List Byte} {old : Option FloodSeen} {done : List Nat} {r : State × List Nat}
    {s u : State} (hop : op = hOp (beAt bytes 0 32)) (link : s.isLink b = true) (low : 9 ≤ op) (high : op ≤ 0x0E) (hp : p = beAt bytes 32 32)
    (hold : old = s.floodSeen op (bits p 247 9) (bits p 238 9) (bits p 96 64)) (hdone : done = (old.map (·.queued)).getD [])
    (hr : r = if bits p 230 8 = 0 then (s, []) else s.floodTo (s.liveLinks.filter (fun x => x != b && !done.contains x)) op
      (beBytes 32 (setBits p 230 8 (bits p 230 8 - 1)) ++ bytes.drop 64))
    (hu : u = r.1.floodKeep { op := op, dev := bits p 247 9, origin := bits p 238 9, bell := bits p 96 64, queued := r.2.foldl NSet.add done,
                              seen := (old.map (·.seen)).getD s.bell }) :
    s.floodReceive b bytes = if old.isSome then u
      else u.floodTake op (bits p 247 9) (bits p 238 9) (bits p 160 64) (bits p 96 64) (bits p 64 32) (bytes.drop 64) := by
  have taken : ¬((!s.isLink b) = true ∨ op < 0x09 ∨ 0x0E < op) := by
    rw [link]
    exact not_or.mpr ⟨by decide, by omega⟩
  unfold State.floodReceive
  dsimp only
  rw [← hop, if_neg taken, ← hp, ← hold]
  cases old with
  | none =>
    rw [hu, hr, hdone]
    rfl
  | some k =>
    rw [hu, hr, hdone]
    rfl

/-- The first segment that may be freed is the one behind those that may not. -/
theorem findIdx_of_first {α : Type} {f : α → Bool} {l : List α} {x : α} {rest : List α} (before : ∀ y ∈ l, f y = false) (first : f x = true) :
    (l ++ x :: rest).findIdx? f = some l.length := by
  induction l with
  | nil => rw [List.nil_append, List.findIdx?_cons, if_pos first, List.length_nil]
  | cons y l ih =>
    rw [List.cons_append, List.findIdx?_cons, if_neg (ne_true_of_eq_false (before y List.mem_cons_self)),
      ih fun z inside => before z (List.mem_cons_of_mem y inside)]
    rfl

/-- Whether a segment may be freed: its destination's log is not frozen, and its newest entry is older than MUSTER_W ticks. -/
def State.segDue (s : State) (g : LogSeg) : Bool :=
  !s.muster.frozen.contains g.dest && (match g.entries.getLast? with | some e => decide (e.bell + s.ob O.MUSTER_W < s.bell) | none => true)

/-- The trimmed bell that the end of segment `g` gives its destination. -/
def State.segTrim (s : State) (g : LogSeg) : Nat :=
  match g.entries.getLast? with | some e => e.bell + 1 | none => TMap.get 0 s.muster.trimmed g.dest

section Segment
variable {g : LogSeg} {l rest : List LogSeg} {s : State} (segs : s.muster.segs = l ++ g :: rest)
include segs

theorem State.freeSeg_of_place : s.freeSeg l.length = { s with muster := { s.muster with
    segs := l ++ rest, trimmed := TMap.put 0 s.muster.trimmed g.dest (s.segTrim g) } } := by
  unfold State.freeSeg
  rw [segs, List.getElem?_append_right (Nat.le_refl _), Nat.sub_self, List.eraseIdx_append_of_length_le (Nat.le_refl _), Nat.sub_self]
  rfl

theorem exec_logSegmentFree_of_first (up : s.Up) (before : ∀ x ∈ l, s.segDue x = false) (first : s.segDue g = true) :
    exec .logSegmentFree s = .next { s with muster := { s.muster with
      segs := l ++ rest, trimmed := TMap.put 0 s.muster.trimmed g.dest (s.segTrim g) } } := by
  have found := findIdx_of_first (rest := rest) before first
  rw [← segs] at found
  refine (live_of_up up _).trans ?_
  change (match s.muster.segs.findIdx? s.segDue with | some i => .next (s.freeSeg i) | none => .next s : Ans) = _
  rw [found]
  exact congrArg Host.Outcome.next (State.freeSeg_of_place segs)

end Segment

theorem exec_absenceExpire_of_away {f : Fin 512} {m : TMap Nat} {s : State} (up : s.Up) (away : TMap.has s.muster.away f.val = true)
    (hm : m = TMap.put 0 s.muster.away f.val 0) : exec (.absenceExpire f) s = .next (if TMap.get 0 s.muster.away f.val < s.bell then
      ({ s with muster := { s.muster with away := m } }).raise O.MUSTER_ERR 6 0 8 f.val 0 else s) := by
  subst hm
  refine (live_of_up up _).trans ?_
  simp only [away, true_and, apply_ite Host.Outcome.next]

theorem exec_floodRepeat_of_own {due l : List OwnFlood} {s u : State} (up : s.Up)
    (hl : l = s.muster.own.filter (fun o => decide (s.bell ≤ o.until_))) (hdue : due = l.filter (fun o => decide (o.next ≤ s.bell)))
    (hu : u = { s with muster := { s.muster with own := l.map (fun o => if o.next ≤ s.bell then { o with next := s.bell + 64 } else o) } }) :
    exec .floodRepeat s = .next (due.foldl (fun s o => s.floodIssue o.op o.dev 64 o.serial o.bell o.arg) u) := by
  subst hu hdue hl
  exact live_of_up up _

theorem exec_lostWalk_of_due {st : Nat} {rest : List Nat} {s : State} (up : s.Up) (due : s.common.lost = st :: rest) :
    exec .lostWalk s = .next ({ s with common := { s.common with lost := rest, walked := s.common.walked ++ [st] } }.lostWalk st) := by
  refine (live_of_up up _).trans ?_
  rw [due]

theorem exec_lostWalkDone_of_walked {st n : Nat} {rest : List Nat} {s : State} (up : s.Up) (walked : s.common.walked = st :: rest)
    (hn : n = (s.ob O.COMMON_LOST_DONE + 1) % 2 ^ 32) : exec .lostWalkDone s =
      .next (({ s with common := { s.common with walked := rest } }.setOb O.COMMON_LOST_DONE n).event [0] 0x0B st n) := by
  subst hn
  refine (live_of_up up _).trans ?_
  rw [walked]

/-- Settles O56: each flood, absence, segment and walk by the rule above for it. -/
theorem floodsAndAbsences : Obligations.FloodsAndAbsences := by
  unfold Obligations.FloodsAndAbsences
  refine ⟨?flood, ?repeat_, ?absence, ?segment, ?walk, ?walked⟩
  case flood =>
    intro b bytes op p old done r s u up hop link low high hp hold hdone hr hu
    refine (live_of_up up _).trans (congrArg Host.Outcome.next
      (State.floodReceive_of_flood hop link low high hp hold (hdone.trans ?_) hr (hu.trans ?_)))
    · cases old with
      | none => rfl
      | some k => rfl
    · cases old with
      | none => rfl
      | some k => rfl
  case repeat_ => exact fun due l s u up hl hdue hu => exec_floodRepeat_of_own up hl hdue hu
  case absence => exact fun f m s up away hm => exec_absenceExpire_of_away up away hm
  case segment =>
    intro g l rest f s up segs before first hf
    have same : f = s.segDue := hf
    rw [same] at before first
    exact exec_logSegmentFree_of_first segs up before first
  case walk => exact fun st rest s up due => exec_lostWalk_of_due up due
  case walked => exact fun st n rest s up walked hn => exec_lostWalkDone_of_walked up walked hn

/-! ### Recovery (R472 to R474, R477, R484, R485) -/

/-- What operation `op` of MUSTER_CMD does; none where it is rejected. -/
def State.musterOp (s : State) (op f a : Nat) : Option State :=
  match op with
  | 1 => if f < 512 then some (s.declareFailed f) else none
  | 2 => if f < 512 then some (s.musterResume f) else none
  | 3 => if f = s.own ∧ s.muster.recov.isSome then some (s.floodUnrecov f) else none
  | 4 => if 1 ≤ a ∧ a ≤ 1048576 then some (s.announceAbsence a) else none
  | _ => none

section Cmd
variable {op f a : Nat} {t u : State} (runs : op = 4 ∨ t.Up)
include runs

theorem State.musterCmd_of_some (acts : t.musterOp op f a = some u) : t.musterCmd op f a = (u.setOb O.MUSTER_CMD_STATUS 0, 0) := by
  change (if op ≠ 4 ∧ t.serverInReset = true then (t, 0x0D) else match t.musterOp op f a with
    | some t => (t.setOb O.MUSTER_CMD_STATUS 0, 0) | none => (t.setOb O.MUSTER_CMD_STATUS 9, 9)) = _
  rw [acts]
  exact if_neg fun reset => runs.elim reset.1 fun up => Bool.false_ne_true (up.symm.trans reset.2)

theorem State.musterCmd_of_none (rejects : t.musterOp op f a = none) : t.musterCmd op f a = (t.setOb O.MUSTER_CMD_STATUS 9, 9) := by
  change (if op ≠ 4 ∧ t.serverInReset = true then (t, 0x0D) else match t.musterOp op f a with
    | some t => (t.setOb O.MUSTER_CMD_STATUS 0, 0) | none => (t.setOb O.MUSTER_CMD_STATUS 9, 9)) = _
  rw [rejects]
  exact if_neg fun reset => runs.elim reset.1 fun up => Bool.false_ne_true (up.symm.trans reset.2)

end Cmd

theorem State.musterResume_of_other {t : State} {f : Nat} (other : f ≠ (t.setDevState f 4).own) :
    t.musterResume f = (t.setDevState f 4).sendReplay f := if_neg other

theorem State.musterResume_of_own {t u v : State} {f : Nat} (hu : u = t.setDevState f 4) (own : f = u.own)
    (hv : v = { u with muster := { u.muster with recov := some { deadline := u.now + u.ob O.MUSTER_REPLAY_TO_MS * 1000000 } } }) :
    t.musterResume f = v.recovCheck [] := by
  subst hv hu
  exact if_pos own

section Replay
variable {bytes : List Byte} {r : Recovery} {s u : State} (up : s.Up) (recovers : s.muster.recov = some r)
include up recovers

theorem exec_logEntryReceive_of_recovery {h d n : Nat} (hd : d = hSrcDev (beAt bytes 0 32)) (hh : h = leAt (bytes.drop 32) 0 32)
    (hn : n = bits h 96 32)
    (hu : u = ({ s with muster := { s.muster with recov := some { r with last := TMap.put 0 r.last d (n + 1) } } }).count O.MUSTER_STAT 8 1) :
    exec (.logEntryReceive bytes) s = .next (if n + 1 ≤ TMap.get 0 r.last d then s
      else if h.testBit 57 then u.replayWrite (bytes.drop 32) else u.droverTakes (((bytes.drop 32).drop 32).take (bits h 64 16))) := by
  change execLogEntryReceive bytes s = _
  unfold execLogEntryReceive
  rw [live_of_up up, recovers]
  dsimp only
  rw [← hd, ← hh, ← hn, ← hu]
  exact (apply_ite Host.Outcome.next _ _ _).symm

theorem exec_logEndReceive_of_recovery {w : Recovery} {p : Nat} (hp : p = beAt bytes 32 80)
    (hw : w = { r with ends := r.ends.add (hSrcDev (beAt bytes 0 32)), incomplete := r.incomplete || p.testBit 575 }) :
    exec (.logEndReceive bytes) s = .next (({ s with muster := { s.muster with recov := some w } }).recovCheck
      ((List.range 512).filter (fun d => p.testBit d))) := by
  change execLogEndReceive bytes s = _
  unfold execLogEndReceive
  rw [live_of_up up, recovers]
  dsimp only
  rw [← hp, ← hw]

theorem exec_replayTimeout_of_recovery : exec .replayTimeout s = .next ((s.advanceTo r.deadline).raise O.MUSTER_ERR 4) := by
  refine (live_of_up up _).trans ?_
  rw [recovers]

end Replay

/-- Settles O57: each operation of MUSTER_CMD by its number, each frame of the replay by the recovery it meets. -/
theorem recoveryCommands : Obligations.RecoveryCommands := by
  unfold Obligations.RecoveryCommands
  refine ⟨?failed, ?resume, ?standIn, ?unrecoverable, ?absence, ?restart, ?entry, ?logEnd, ?timeout⟩
  case failed =>
    intro who f s t taken up inside
    exact congrArg Host.Outcome.next (State.access_answers taken.1 taken.2 (State.musterCmd_of_some (.inr up) (if_pos inside)))
  case resume =>
    intro who f s t taken up inside other
    exact congrArg Host.Outcome.next (State.access_answers taken.1 taken.2 (State.musterCmd_of_some (.inr up)
      ((if_pos inside).trans (congrArg some (State.musterResume_of_other other)))))
  case standIn =>
    intro who f s t u v taken up inside hu own hv
    exact congrArg Host.Outcome.next (State.access_answers taken.1 taken.2 (State.musterCmd_of_some (.inr up)
      ((if_pos inside).trans (congrArg some (State.musterResume_of_own hu own hv)))))
  case unrecoverable =>
    intro who f s t taken up
    by_cases standIn : f.toNat = t.own ∧ t.muster.recov.isSome = true
    · rw [if_pos standIn]
      exact congrArg Host.Outcome.next (State.access_answers taken.1 taken.2 (State.musterCmd_of_some (.inr up) (if_pos standIn)))
    · rw [if_neg standIn]
      exact congrArg Host.Outcome.next (State.access_answers taken.1 taken.2 (State.musterCmd_of_none (.inr up) (if_neg standIn)))
  case absence =>
    intro who a s t taken
    by_cases fits : 1 ≤ a.toNat ∧ a.toNat ≤ 1048576
    · rw [if_pos fits]
      exact congrArg Host.Outcome.next (State.access_answers taken.1 taken.2 (State.musterCmd_of_some (.inl rfl) (if_pos fits)))
    · rw [if_neg fits]
      exact congrArg Host.Outcome.next (State.access_answers taken.1 taken.2 (State.musterCmd_of_none (.inl rfl) (if_neg fits)))
  case restart => exact fun f s up recovering other => (live_of_up up _).trans (congrArg Host.Outcome.next (if_pos ⟨recovering, other⟩))
  case entry => exact fun bytes r h d n s u up recovers hd hh hn hu => exec_logEntryReceive_of_recovery up recovers hd hh hn hu
  case logEnd => exact fun bytes r w p s up recovers hp hw => exec_logEndReceive_of_recovery up recovers hp hw
  case timeout => exact fun r s up recovers => exec_replayTimeout_of_recovery up recovers

end Sys2Proof.Machine
end

section
/-!
SUPPORT and the settling of O58 (FenceCommands). FENCE_CMD is one table of its forms, whose rows give the state fenced or nothing.
-/

namespace Sys2Proof.Machine

set_option Elab.async false

/-! ### FENCE_CMD (R482, R483, R485) -/

/-- Whether a wider fence than its own holds block `n`. -/
def State.insideFence (s : State) (n : Nat) : Bool :=
  s.deviceFenced || (s.ob O.FENCE_PADDOCKS).testBit (n / 8) ||
    (s.role n == 3 && [0, 1, 2, 3].any (fun i => (s.ob O.FENCE_STACKS).testBit (4 * (n / 32) + i)))

/-- What a form of FENCE_CMD does; none where it is rejected. -/
def State.fenceOp (s : State) (op kind unit : Nat) : Option State :=
  match op, kind with
  | 1, 1 => if unit < 128 then some (s.blockFence unit) else none
  | 1, 2 => if unit < 16 then some (s.stackFence unit) else none
  | 1, 3 => if unit < 16 then some (s.paddockFence unit) else none
  | 1, 4 => some s.deviceFence
  | 2, 1 => if unit < 128 then some (if s.insideFence unit || !s.blockFenced unit then s else (s.markBlock unit false).blockStart unit) else none
  | _, _ => none

section Fence
variable {who : Path} {op kind n : Nat} {s t u : State}

theorem State.fenceCmd_of_some (acts : t.fenceOp op kind n = some u) : t.fenceCmd op kind n = (u.setOb O.FENCE_STATUS 0, 0) := by
  change (match t.fenceOp op kind n with
    | some t => (t.setOb O.FENCE_STATUS 0, 0) | none => (t.setOb O.FENCE_STATUS 9, 9)) = _
  rw [acts]

theorem State.fenceCmd_of_none (rejects : t.fenceOp op kind n = none) : t.fenceCmd op kind n = (t.setOb O.FENCE_STATUS 9, 9) := by
  change (match t.fenceOp op kind n with
    | some t => (t.setOb O.FENCE_STATUS 0, 0) | none => (t.setOb O.FENCE_STATUS 9, 9)) = _
  rw [rejects]

/-- A form of FENCE_CMD on a unit that must be one of `m`. -/
theorem fenceAccess_of_unit {m : Nat} (taken : s.Takes who O.FENCE_CMD t) (form : t.fenceOp op kind n = if n < m then some u else none) :
    s.access who O.FENCE_CMD (fun s => s.fenceCmd op kind n) = if n < m then (u.setOb O.FENCE_STATUS 0).answered who O.FENCE_CMD 0
      else (t.setOb O.FENCE_STATUS 9).answered who O.FENCE_CMD 9 := by
  split
  case isTrue there => exact State.access_answers taken.1 taken.2 (State.fenceCmd_of_some (form.trans (if_pos there)))
  case isFalse absent => exact State.access_answers taken.1 taken.2 (State.fenceCmd_of_none (form.trans (if_neg absent)))

theorem State.insideFence_of_wide (wide : t.deviceFenced = true ∨ (t.ob O.FENCE_PADDOCKS).testBit (n / 8) = true ∨ t.blockFenced n = false) :
    (t.insideFence n || !t.blockFenced n) = true := by
  unfold State.insideFence
  obtain device | paddock | free := wide
  · rw [device]
    rfl
  · rw [paddock, Bool.or_true]
    rfl
  · rw [free]
    exact Bool.or_true _

theorem State.insideFence_of_free (device : t.deviceFenced = false) (paddock : (t.ob O.FENCE_PADDOCKS).testBit (n / 8) = false)
    (fenced : t.blockFenced n = true) (notReach : t.role n ≠ 3) : (t.insideFence n || !t.blockFenced n) = false := by
  unfold State.insideFence
  rw [device, paddock, fenced, beq_eq_false_iff_ne.mpr notReach]
  rfl

end Fence

/-! ### The gate of a stack and the fence of a ridge link (R97, R593) -/

section Gate
variable {st n : Nat} {s u : State} (pending : TMap.get 0 s.power.gating st = n + 1)
include pending

theorem State.stackGateEnd_of_empty (empty : s.stackHolds st = false) : s.stackGateEnd st = (s.stackAsleep st).setOb O.PWR_GATE_STATUS 0 := by
  unfold State.stackGateEnd
  rw [pending]
  exact if_pos (by rw [empty]; rfl)

theorem State.stackGateEnd_of_holding (holds : s.stackHolds st = true) (hu : u = (s.advanceTo n).setOb O.PWR_GATE_STATUS 8) :
    s.stackGateEnd st = { u with power := { u.power with gating := TMap.put 0 u.power.gating st 0 } }.raise O.RST_ERR 4 8 5 st := by
  subst hu
  unfold State.stackGateEnd
  rw [pending]
  exact if_neg (by rw [holds]; decide)

end Gate

theorem exec_ridgeLinkFence_of_open {l : Fin 4} {s u : State} (up : s.Up) (open_ : s.fold.ridgeFenced.testBit l.val = false)
    (hu : u = State.raise { s with fold := { s.fold with ridgeFenced := setBit s.fold.ridgeFenced l.val } } O.FOLD_ERR 5 4) :
    exec (.ridgeLinkFence l) s = .next
      (((u.fold.copies.filter (fun x => copyCrosses l.val x.2)).map (·.1)).foldl
        (fun (s : State) id => (s.purgeCopy id).fwdDrop (inputDie (s.copy id).input) (s.copy id).frame .unreachable)
        { u with power := { u.power with faultN := false } }) := by
  refine (live_of_up up _).trans ((if_neg (ne_true_of_eq_false open_)).trans (congrArg Host.Outcome.next ?_))
  unfold State.ridgeFence
  dsimp only
  rw [← hu]

/-- Settles O58: each form of FENCE_CMD by its row, the gate and the ridge link by what they hold. -/
theorem fenceCommands : Obligations.FenceCommands := by
  unfold Obligations.FenceCommands
  refine ⟨?block, ?stack, ?paddock, ?device, ?controller, ?unfence, ?asleep, ?awake, ?ridge⟩
  case block => exact fun who b s t taken => congrArg Host.Outcome.next (fenceAccess_of_unit taken rfl)
  case stack => exact fun who b s t taken => congrArg Host.Outcome.next (fenceAccess_of_unit taken rfl)
  case paddock => exact fun who b s t taken => congrArg Host.Outcome.next (fenceAccess_of_unit taken rfl)
  case device => exact fun who s serves => congrArg Host.Outcome.next (State.access_answers serves rfl rfl)
  case controller =>
    intro b s inside
    change Host.Outcome.next (s.stackFence (b.toNat % 16)) = .next (s.stackFence b.toNat)
    rw [Nat.mod_eq_of_lt inside]
  case unfence =>
    intro who b s t taken there
    refine ⟨fun wide => congrArg Host.Outcome.next (State.access_answers taken.1 taken.2 (State.fenceCmd_of_some ((if_pos there).trans (congrArg some ?_)))),
      fun device paddock fenced notReach =>
        congrArg Host.Outcome.next (State.access_answers taken.1 taken.2 (State.fenceCmd_of_some ((if_pos there).trans (congrArg some ?_))))⟩
    · exact if_pos (State.insideFence_of_wide wide)
    · exact if_neg (ne_true_of_eq_false (State.insideFence_of_free device paddock fenced notReach))
  case asleep =>
    intro st n s up pending empty
    exact (live_of_up up _).trans (congrArg Host.Outcome.next (State.stackGateEnd_of_empty pending empty))
  case awake =>
    intro st n s u up pending holds hu
    exact (live_of_up up _).trans (congrArg Host.Outcome.next (State.stackGateEnd_of_holding pending holds hu))
  case ridge => exact fun l s u up open_ hu => exec_ridgeLinkFence_of_open up open_ hu

end Sys2Proof.Machine
end

section
/-!
SUPPORT and the settling of O60: the frame of the commands of control.
-/

namespace Sys2Proof.Machine
set_option Elab.async false

/-- A device that keeps no frame of a flock port that goes down, whose counter of the drops at queue 0 is one short of its overflow,
and whose PF takes the events of the error log. -/
def overflowingDevice : State :=
  let s : State := { State.reset with
    pcie := { State.reset.pcie with fns := [(0, { evqCfg := 6 + 2 ^ 5 + 2 ^ 40 })] }
    obsv := { State.reset.obsv with ctr := [(0, ctrMax - 1)] }
    fold := { State.reset.fold with
      copies := [(1, { arr := 1, frame := { bytes := List.replicate 64 0 }, members := [0], stage := .queued, groups := [0] })]
      queues := [(0, { frames := [1], used := 1 })] } }
  ((((s.setOb O.PORT_ROLE 1).setOb O.PORT_SPLIT 1).setOb O.PORT_HOLD_MS 0).setRow O.TALLY_CFG 0 (0x0503 + 2 ^ 30)).setPortState 0 6

theorem overflowingDevice_up : overflowingDevice.serverInReset = false ∧ overflowingDevice.isFlockPort 0 = true ∧
    overflowingDevice.portState 0 = 6 := by
  decide +kernel

/-- The drop overflows the counter, whose error is logged, and the record's event lies in host memory. -/
theorem hostRead_flockDown_overflowingDevice :
    overflowingDevice.hostRead 0 1 = [0] ∧ (overflowingDevice.flockDown 0).hostRead 0 1 = [9] := by
  decide +kernel

theorem exec_flockLinkDown_of_six {port : Fin 1024} {s : State} (up : s.Up) (flock : s.isFlockPort port.val = true)
    (six : s.portState port.val = 6) : exec (.flockLinkDown port) s = .next (s.flockDown port.val) :=
  exec_flockLinkDown up flock (.inl six) rfl

theorem frameOf_flockLinkDown (port : Fin 1024) : frameOf (.flockLinkDown port) = 2 := rfl

/-- Refutes O60: a flock port that goes down drops its frames, the count of the drops overflows, and the event of that error is
written to host memory. -/
theorem not_controlCommandsLeaveTheRestAlone : ¬ Obligations.ControlCommandsLeaveTheRestAlone := by
  unfold Obligations.ControlCommandsLeaveTheRestAlone
  rintro ⟨frame, -⟩
  obtain ⟨up, flock, six⟩ := overflowingDevice_up
  obtain ⟨framed, -⟩ := frame _ _ _ (exec_flockLinkDown_of_six (port := 0) up flock six)
  obtain ⟨⟨-, host⟩, -⟩ := framed (frameOf_flockLinkDown 0 ▸ Nat.succ_ne_zero 1)
  obtain ⟨before, after⟩ := hostRead_flockDown_overflowingDevice
  have same : ([9] : List Byte) = [0] := after.symm.trans ((host 0).trans before)
  exact absurd same (by decide)

end Sys2Proof.Machine
end
